-- ==== Sys2Proof/Word.lean ====
section
/-! DEFINITION. The words of the HVW-48 model and the plain types that its commands and its state share: bytes and words,
the two sides (lane and crust A, lane and crust B), the fabric ports, modes and lifecycle states, the arrivals that the
surroundings hand to the block (fabric frames, CAN FD frames, self-test outcomes, measured values). -/

namespace Sys2Proof

abbrev Byte := BitVec 8
abbrev W16 := BitVec 16
abbrev W32 := BitVec 32
abbrev W64 := BitVec 64

/-- A finite table keyed by a natural number (a channel, a leg, a bead index, an address): keys strictly rising, and no
entry equal to the value an unlisted key stands for. -/
abbrev Tab (α : Type) := List (Nat × α)

/-- The letter of a lane and of the crust it owns (01: lane A and crust A form one channel, lane B and crust B the other). -/
inductive Side where
  | a
  | b
  deriving DecidableEq, Repr

def Side.other : Side → Side
  | .a => .b
  | .b => .a

/-- A value held once for side A (or port P0) and once for side B (or port P1). -/
structure Two (α : Type) where
  a : α
  b : α
  deriving DecidableEq, Repr

def Two.at {α : Type} (p : Two α) : Side → α
  | .a => p.a
  | .b => p.b

def Two.set {α : Type} (p : Two α) : Side → α → Two α
  | .a, x => { p with a := x }
  | .b, x => { p with b := x }

def Two.map {α β : Type} (f : α → β) (p : Two α) : Two β := ⟨f p.a, f p.b⟩

/-- The fabric ports P0 and P1 (R42). -/
inductive PortId where
  | p0
  | p1
  deriving DecidableEq, Repr

def PortId.other : PortId → PortId
  | .p0 => .p1
  | .p1 => .p0

/-- The place of a port in a `Two`: P0 first. -/
def PortId.side : PortId → Side
  | .p0 => .a
  | .p1 => .b

def PortId.num : PortId → Nat
  | .p0 => 0
  | .p1 => 1

/-- The seven modes (R62). -/
inductive Mode where
  | boot
  | configure
  | operate
  | degraded
  | safeHold
  | maintain
  | shutdown
  deriving DecidableEq, Repr

/-- The codes of MODE_CUR and MODE_REQ (R62). -/
def Mode.code : Mode → Byte
  | .boot => 0x01#8
  | .configure => 0x02#8
  | .operate => 0x03#8
  | .degraded => 0x04#8
  | .safeHold => 0x05#8
  | .maintain => 0x06#8
  | .shutdown => 0x07#8

/-- The lifecycle states (R72). -/
inductive Lifecycle where
  | manufacture
  | commission
  | field
  | retired
  deriving DecidableEq, Repr

/-- The codes of LIFECYCLE (R72). -/
def Lifecycle.code : Lifecycle → Byte
  | .manufacture => 0x01#8
  | .commission => 0x02#8
  | .field => 0x03#8
  | .retired => 0x04#8

/-- A moment of the module's own time: the frame number and the offset from the tick that began that frame, in 10 ns units
(R194, TIME_GET of R389). -/
structure Stamp where
  frame : W32
  off : BitVec 20
  deriving DecidableEq, Repr

/-- A digital input, IA0-IA23 or IB0-IB23 (R42). -/
structure InChan where
  crust : Side
  num : Fin 24
  deriving DecidableEq, Repr

/-- A test-pulse source, TA0-TA7 or TB0-TB7 (R42). -/
structure SrcId where
  crust : Side
  num : Fin 8
  deriving DecidableEq, Repr

/-- An analog input, AA0-AA3 or AB0-AB3 (R42). -/
structure AnaId where
  crust : Side
  num : Fin 4
  deriving DecidableEq, Repr

/-- A leg: QH0-QH15 and KA on crust A, QL0-QL15 and KB on crust B; number 16 is KA or KB (R42, R209). -/
structure LegId where
  crust : Side
  num : Fin 17
  deriving DecidableEq, Repr

/-- Why a learning run ends (R199, R208, R389). -/
inductive LearnEnd where
  | cycles       -- all N cycles have been run
  | timeout      -- 600 s have passed
  | interrupted  -- a change of mode or a lane retirement
  deriving DecidableEq, Repr

/-- The clocks that WDA and WDB watch (R480, R481). -/
inductive WatchedClock where
  | lanea
  | laneaIo
  | laneb
  | lanebIo
  | xo
  | timebase
  | wda
  | wdb
  deriving DecidableEq, Repr

/-- The crossings with FIFOs (R488): the two fabric receive FIFOs and the two barrier FIFOs. -/
inductive FifoId where
  | fabric (p : PortId)
  | barrier (c : Side)
  deriving DecidableEq, Repr

/-- One fabric frame between SOF and EOF (R284), without its link CRC. -/
structure Frame where
  cls : BitVec 4
  retry : Bool
  hop : Byte
  src : Byte
  dst : Byte
  seq : Byte
  payload : List Byte
  deriving DecidableEq, Repr

/-- A code group as a receiver takes it from the line (R280): a data byte, or one of the control groups in use; any other
control group and any invalid group is a SYMBOL event. -/
inductive CodeGroup where
  | data (b : Byte)
  | k285
  | k277
  | k297
  | k307
  | k281
  | symbol
  deriving DecidableEq, Repr

/-- A CAN FD frame as it arrives (R361, R363): an 11-bit identifier unless `ext`, FDF, and the data bytes of its DLC. -/
structure CanFrame where
  ident : BitVec 29
  ext : Bool
  fdf : Bool
  data : List Byte
  deriving DecidableEq, Repr

/-- A frame of the CAN FD tunnel as it arrives, `busyNow` where it does so in the cycle in which a BUSY reply for its IDX is
queued (R372). -/
structure CanSegment where
  frame : CanFrame
  busyNow : Bool
  deriving DecidableEq, Repr

/-- How an edge of a counter input stands (R196): how long its level has held in 10 ns units, and how long after it the other
phase of its pair changed too, where it did. -/
structure HeldEdge where
  held : Nat
  otherPhase : Option Nat
  deriving DecidableEq, Repr

/-- What one run of a lane SRAM block finds (R427): the rows that fail, and whether every soft spare row that one of them is
mapped to passes its retest. -/
structure SramRows where
  failing : List W16
  retestOk : Bool
  deriving DecidableEq, Repr

/-- One run of a self-test block: for a crust analog block, whether a field supply lockout stood at its start or began in it
(R418, R435); whether every step completed and no compare step flagged a failure, and the MISR (R416); what a lane SRAM block
finds of its rows (R427). -/
structure RunResult where
  lockedOut : Bool
  pass : Bool
  misr : W32
  rows : SramRows
  deriving DecidableEq, Repr

/-- What one self-test block finds (R416, R431): its first run and, where that failed in a command or shutdown run, its rerun;
`badPages` are the journal pages that the MRAM block's read scan finds uncorrectable (R429), `crcUnits` the host check-value
units that the HOSTCRC block finds failing (R431). -/
structure BlockRun where
  block : Byte
  first : RunResult
  rerun : RunResult
  badPages : List W16
  crcUnits : BitVec 4
  deriving DecidableEq, Repr

/-- The end of a command self-test (R419 step 4): which crust handshakes succeed, and the upset of the loaf check word that each
lane sends over the cross-lane link (the difference it makes, 0 for none; R150). -/
structure HoldEndEnv where
  handshakeOk : Two Bool
  identityUpset : Two W32
  deriving DecidableEq, Repr

/-- What the surroundings decide about one start-up (R76): the outcomes of step 2's self-test blocks (a block that the list
does not name passes), after how many of step 3's six measurements a measurement or load fails (none: they all succeed), how
many handshake attempts fail on each crust in step 5 (R78), whether the host wrote MODE_REQ = CONFIGURE before the end of step 5
(R89), and what the listen-through that runs beside steps 4 and 5 has heard by the end of step 5 (R77): consecutive valid
TICKs with the FRAME of the last, how many frames long no TICK was heard, and the upset of the loaf check word that each lane
sends over the cross-lane link in step 4 (the difference it makes, 0 for none; R150, R152). -/
structure BootEnv where
  runs : List BlockRun
  step3Fail : Option (Fin 6)
  handshakeFails : Two Nat
  configureAsked : Bool
  heard : Nat
  heardFrame : Option W32
  silentFrames : Nat
  identityUpset : Two W32
  deriving DecidableEq, Repr

/-- What is observed at a tick beside the state itself: the tick interval in ns as each lane measures it against its own
clock (R97), the inputs whose sink current is outside its band while they lie above the rising threshold (FRONTEND, R193),
and the greatest load current in mA that each test-pulse source carried in the frame now ending (R184, R193). -/
structure TickEnv where
  intervalNs : Two Nat
  frontend : Two (BitVec 24)
  srcMaxMa : Two (Vector Nat 8)
  deriving DecidableEq, Repr

/-- A parity error of an input bead: at the owning lane's snapshot entry, or (`cross`) at the other lane's cross-lane entry
(R123). -/
structure ParityHit where
  chan : InChan
  cross : Bool
  deriving DecidableEq, Repr

/-- What is observed in phase S (R92): which crusts' snapshots are valid and output frames acknowledged (CRUSTLINK, R259),
whether the cross-lane exchange is valid (CROSSLINK), parity errors at entry, and the beads of the hearth that reach a lane
with a parity error (0-63 the host bits, 64-79 the MAINT_HOLD beads of pairs 0-15; R123, R391), and the upset of the loaf check
word that each lane sends over the cross-lane link for an activation (the difference it makes, 0 for none; R150). -/
structure PhaseSEnv where
  crustOk : Two Bool
  crossOk : Bool
  parity : List ParityHit
  hostParity : Two (List Nat)
  identityUpset : Two W32
  deriving DecidableEq, Repr

/-- What befalls the two lanes' memories and units in phase E: bead indices read with a parity error, and the block
instances whose latch and edge beads are read so (R123), an uncorrectable ECC error during evaluation (R259), corrected single-bit errors (R453), evaluation times in 0.1 us (R354). -/
structure PhaseEEnv where
  parity : Two (List Nat)
  stateParity : Two (List Nat)
  eccDouble : Two Bool
  corrected : Nat
  evalTime : Two W16
  deriving DecidableEq, Repr

/-- What befalls phase C: lanes that have not delivered by its end (R98), an upset in a lane's digest unit or tally check
value or in the loaf check word it holds (the difference it makes, 0 for none; R142, R143, R255), and whether each lane's
output frame reaches its crust as a valid frame (R230, R237). -/
structure PhaseCEnv where
  late : Two Bool
  digestUpset : Two W32
  tallyUpset : Two W32
  checkUpset : Two W32
  delivered : Two Bool
  deriving DecidableEq, Repr

/-- The outcome of a lane's slice in phase H (R422-R424): it passes, fails its test, fails the saved-content check, finds an
uncorrectable ECC error, or does not complete (the row SLICE_OVERRUN then counts it, R100). -/
inductive SliceResult where
  | pass
  | fail
  | restoreMismatch
  | eccDouble
  | incomplete
  deriving DecidableEq, Repr

/-- What is observed in phase H: the outcome of each lane's slice, the corrected single-bit errors of slices 0-511, and
whether IC_STB stays high after its strobe (R246). -/
structure PhaseHEnv where
  slice : Two SliceResult
  corrected : Nat
  strobeStuck : Bool
  deriving DecidableEq, Repr

/-- What is observed in a join gap (R294, R318): on which ports a new link has locked by 30 us, and the round trip in
nanoseconds that the phase of the received idle gives on each port in the first half of the measurement (30 to 110 us) and in
the second (110 to 190 us), none where no measurement of that half completed. -/
structure JoinEnv where
  locked : Two Bool
  half1 : Two (Option Nat)
  half2 : Two (Option Nat)
  deriving DecidableEq, Repr

/-- The 0.9 Tf sample of one crust (R212): the land voltage in mV and the leg current in mA of legs 0-15 and KA or KB. -/
structure LandReading where
  mv : Vector Nat 17
  ma : Vector Nat 17
  deriving DecidableEq, Repr

/-- A request or reply path of the hearth (14, 15): an SPI slot, a CAN FD tunnel index, or the fabric tunnel at its target,
named by the requester path (false SPI, true CAN FD) and IDX of R385. -/
inductive Via where
  | slot (k : Fin 8)
  | can (idx : BitVec 2)
  | fabric (path : Bool) (idx : BitVec 2)
  deriving DecidableEq, Repr

/-- A LOAF_WRITE: its path, and whether the write fails after its checks, while its bytes are being written (R392). -/
structure LoafWriteOp where
  via : Via
  fails : Bool
  deriving DecidableEq, Repr

/-- What one chip of the actuator identity bus answers in a scan or an advance (R461): absent (address NAK), a failed
transaction with INFO's UID and COUNT where INFO itself had succeeded, or INFO's UID, COUNT and status and the HMAC of the
CHALLENGE. -/
inductive ChipReply where
  | absent
  | failed (info : Option (List Byte × W32))
  | present (uid : List Byte) (count : W32) (hmac : List Byte)
  deriving DecidableEq, Repr

end Sys2Proof
end

