-- ==== Sys2Proof/Syntax.lean ====
section
/-! DEFINITION. The commands of the block: one constructor per row of spec/opcode_table.json, in the table's order. The
table gives no fields, so the operands are the model's: what the surroundings decide (a side, a channel, message bytes, a
measured value, a time in 10 ns units from the tick). A row of chapter 15's command set names the hearth-queue entry it
executes (`via`); the request's fields stand in that entry's payload, as R389 lays them out. -/

namespace Sys2Proof

inductive Instr where
  -- supplies and resets (02, 03)
  | vdd33BrownOut (removed : Bool)
  | rstnLow (widthNs : Nat)
  | internalReset
  | resetRelease (env : BootEnv)
  | crustLogicPowerLoss (c : Side)
  | lPlusUndervoltage (c : Side)
  | lPlusUndervoltageCleared (c : Side)
  | lPlusLockout (c : Side)
  | lPlusLockoutCleared (c : Side) (handshakeOk : Bool)
  | overvoltageLockout (c : Side)
  | overvoltageCleared (c : Side) (handshakeOk : Bool)
  -- the frame (04)
  | tick (env : TickEnv)
  | phaseS (env : PhaseSEnv)
  | windowXOpen
  | windowXEnd
  | connTimeout (conn : W16)
  | phaseE (env : PhaseEEnv)
  | phaseC (env : PhaseCEnv)
  | phaseH (env : PhaseHEnv)
  | sliceOverrun (lane : Side)
  | provingPeriodEnd
  | shutdownSelftestComplete (runs : List BlockRun)
  -- clocks and crossings (20)
  | clockGateClose (lane : Side) (count : Nat)
  | clockStop (clk : WatchedClock)
  | fifoResync (f : FifoId)
  -- fabric links (12)
  | receiverLock (p : PortId)
  | lockLoss (p : PortId)
  | relockTimeout (p : PortId)
  | fabricFrameReceive (p : PortId) (idle groups : List CodeGroup) (earlier : Bool) (t : BitVec 20)
  | hopnakReceive (p : PortId) (cls : BitVec 4) (seq : Byte) (t : BitVec 20)
  | joinGap (env : JoinEnv)
  | joinGapEnd
  | call
  | report
  | admitMsg
  | refuse
  | breakMsg
  | topo
  | linkready
  | tickReceive (arrivalNs : Int) (residenceNs : Nat)
  | tickMissing
  | syncLoss
  | syncProvingEnd
  | managerListenExpiry
  -- fabric safety transport and tunnel (13, 15)
  | safeCopyReceive
  | bulkReceive
  | bulkResendTimeout (peer stream : Byte)
  | remoteRequestReceive
  | remoteReplyReceive
  | remoteDeadline (path : Bool) (idx : BitVec 2)
  -- CAN FD (14)
  | canSafeReceive (f : CanFrame)
  | canTunnelSegment (e : CanSegment)
  | canTunnelTimeout (idx : BitVec 2)
  | canTransmitEnd (ok : Bool)
  | canErrorPassive
  | canBusOff
  | canBusOffRecovery
  -- field inputs (08)
  | rawInputChange (ch : InChan) (level : Bool) (t : BitVec 20)
  | debounceExpiry (ch : InChan) (t : BitVec 20)
  | testPulse (src : SrcId)
  | pulseTestSample (src : SrcId) (sample maskEnd : BitVec 24) (readbackMv : Nat)
  | retryPulse (src : SrcId)
  | thresholdCheck (c : Side) (pass0 pass1 : Bool)
  | srcOvercurrent (src : SrcId)
  | ossdPulseTimeout (ch : InChan) (t : BitVec 20)
  | counterEdge (ch : InChan) (level : Bool) (edge : HeldEdge) (t : BitVec 20)
  | frequencyTimeout (ch : InChan)
  | analogConversion (ch : AnaId) (mv : Nat) (reference : Option Bool)
  | stall (ch : AnaId)
  -- field outputs (09)
  | legReadback (c : Side) (conducts : BitVec 17)
  | highSideProbe (pair : Fin 17) (landMv legMa : Nat)
  | lowSideProbe (pair : Fin 17) (landMv groupMa : Nat)
  | darkPulse (leg : LegId) (seenOpen conductsAgain : Bool)
  | landSample (hi lo : LandReading)
  | blankingEnd (leg : LegId) (limitActive : Bool)
  | overcurrent (leg : LegId)
  | thermal (leg : LegId)
  | thermalReclose (leg : LegId)
  | pullInEnd (pair : Fin 16)
  | pullInLevelSample (pair : Fin 16) (ma : Nat)
  | stuckdrive (c : Side) (pair : Fin 16)
  | firingHistoryBin
  | silenceTimeout (c : Side)
  | currentSenseCheck (c : Side) (zeroMa refMa : Vector Nat 5)
  -- indicator chain (10)
  | patternCompose
  | strobeWatchdog
  -- faults (11)
  | probationEnd (ch : Byte)
  -- host port (14)
  | hostWatchdogExpiry
  | hearthHeartbeatLoss
  | hearthRestart
  | spiWrite (sdi : List Byte) (oddBits : Bool)
  | spiRead (sdi : List Byte) (oddBits : Bool)
  | registerWrite (addr : BitVec 12) (v : Byte)
  | modeReqWrite (v : Byte)
  | slotWrite (addr : BitVec 11) (v : Byte)
  | mbxPost (mask : Byte)
  | mbxAck (mask : Byte)
  | irqStatClear (hiByte : Bool) (mask hwSet : Byte)
  | hostwdWrite (v : Byte)
  | spiCfgWrite (v : Byte)
  | crcInit (unit : Fin 4)
  | crcGo (unit : Fin 4)
  | crcnDataWrite (unit : Fin 4) (v : Byte)
  | crcnRunWrite (unit : Fin 4) (v : W32) (sameCycle : Option Byte)
  | oenOffWrite (v : Byte)
  | indStatClear (mask hwSet : Byte)
  -- mailbox (15)
  | slotTake
  | commandReply (via : Via)
  | echo (via : Via)
  | identity (via : Via)
  | modeSet (via : Via)
  | maintHold (via : Via)
  | hostbitSet (via : Via)
  | hostbitGet (via : Via)
  | loafWrite (w : LoafWriteOp)
  | loafCheck (via : Via)
  | loafActivate (via : Via)
  | loafInfo (via : Via)
  | loafErase (via : Via)
  | chanStatus (via : Via)
  | chanReadmit (via : Via)
  | chanIsolate (via : Via)
  | chanRestore (via : Via)
  | chanForce (via : Via)
  | indStatus (via : Via)
  | selftestRun (via : Via)
  | commandSelftestComplete (runs : List BlockRun) (env : HoldEndEnv)
  | selftestResult (via : Via)
  | shutdown (via : Via)
  | shutdownStatus (via : Via)
  | measRead (via : Via)
  | quote (via : Via)
  | certRead (via : Via)
  | jrnOpen (via : Via)
  | jrnRead (via : Via)
  | jrnClose (via : Via)
  | jrnPin (via : Via)
  | jrnInfo (via : Via)
  | statEpoch (via : Via)
  | fabStatus (via : Via)
  | fabMembers (via : Via)
  | fabConn (via : Via)
  | timeGet (via : Via) (t : BitVec 20)
  | canConfig (via : Via)
  | doorposLearn (via : Via)
  | learningRunEnd (why : LearnEnd)
  | doorposConfirm (via : Via)
  | doorposRead (via : Via)
  | keyLoad (via : Via)
  | nonceGet (via : Via)
  | nonceExpiry
  | lifecycleSet (via : Via)
  | actStatus (via : Via)
  | actScan (via : Via)
  -- actuator identity (19)
  | busScan (replies : List ChipReply)
  | chipTransactionFail (retryFails : Bool)
  | wearAdvance (idx : Fin 8) (reply : ChipReply)
  | busRecovery (releasedAt : Option Nat)
  -- journal and statistics (18)
  | crumbWrite
  | pageHoldExpiry (session : Side)
  | sessionIdleClose (session : Side)
  | epochEnd (isPartial : Bool)
  | cycleStart (door : Fin 2)
  | cycleEnd (door : Fin 2)
  | cycleTimeout (door : Fin 2)
  -- the remaining rows of the table
  | crustLogicPowerReturn (c : Side)
  | hearthHeartbeatReturn
  | productionTestEnd
  | fuseRepair (rows : Two (List W16)) (spareBlocks : List W32)
  | fabricFrameTransmitEnd (p : PortId) (t : BitVec 20)
  deriving DecidableEq, Repr

end Sys2Proof
end

