-- ==== Sys2Proof/Machine/State.lean ====
section
/-! DEFINITION. The state of the block as plain data: every register, memory, queue, counter, mode and channel record that
the spec gives the module, and the queue of waiting commands. Each field's docstring gives its width, the rule and file that
name it, and its reset value. `State.reset` stands at its end. -/

namespace Sys2Proof.Machine

/-- Why a step stops with a fault. -/
inductive Fault where
  /-- Raised by CRUMB_WRITE: the journal's open page lies outside the 12,288 pages of R437, an address that does not exist.
  Safe: the machine stops; no run from reset reaches it. -/
  | journalAddress
  deriving DecidableEq, Repr

/-- Why a step is refused. -/
inductive Refusal where
  /-- A command with no meaning yet, named as spec/opcode_table.json spells it. Safe: the machine stops. -/
  | notModelled (mnemonic : String)
  deriving DecidableEq, Repr

/-! ## Configuration as a lane holds it (06, 07) -/

/-- The primitives of lane A's gates (R118, R119). -/
inductive GateOp where
  | and
  | or
  | xor
  | not
  | maj
  deriving DecidableEq, Repr

/-- Where a block that takes a value (not a bead) takes it from (R117, R167, R172). -/
inductive ValSrc where
  | count (ch : InChan)
  | freq (ch : InChan)
  | quad (pairCode : Nat)
  | analog (ch : AnaId)
  | pos (inst : Nat)
  | cv (inst : Nat)
  | derate (pair : Nat)
  deriving DecidableEq, Repr

/-- One element of a lane's form, in evaluation order (R138, R139): a gate, a logic rod, or a block of the library with the
bead indices of its input ports and of its outputs in port order (none where a port is not connected), and its value
sources. -/
inductive Elem where
  | gate (op : GateOp) (ins : List Nat) (out : Nat)
  | rod (table : W64) (ins : List Nat) (out : Nat)
  | block (inst : Nat) (ins : List (Option Nat)) (outs : List (Option Nat)) (vals : List ValSrc)
  deriving DecidableEq, Repr

/-- What one lane runs (R138-R141): the bead count, the beads that field inputs feed, the elements, and the designated
maintenance-permit bead (R162). -/
structure LaneForm where
  beadCount : Nat
  inputs : List (InChan × Nat)
  elems : List Elem
  permit : Option Nat
  deriving DecidableEq, Repr

/-- A PARAM record (R158): the block type, its parameter words in list order, and the encoded initial state elements. -/
structure ParamRec where
  ty : Byte
  words : List W32
  initial : List Byte
  deriving DecidableEq, Repr

/-- A STATEMAP entry (R142). -/
structure MapEntry where
  kind : Byte
  width : Byte
  inst : Nat
  deriving DecidableEq, Repr

/-- A SEEDS entry (R147). -/
structure Conn where
  connId : W16
  isExport : Bool
  canFd : Bool
  peer : Byte
  timeout : Nat
  keySlot : Option Nat
  beads : Nat
  seedA : W32
  seedB : W32
  deriving DecidableEq, Repr

/-- A FABPLAN entry (R145). -/
structure PlanEntry where
  tag : List Byte
  sig : W16
  deriving DecidableEq, Repr

/-- FABPLAN (R145). -/
structure Plan where
  seg : W32
  ring : Bool
  members : List PlanEntry
  deriving DecidableEq, Repr

/-- BIND (R144). -/
structure Bind where
  tag : List Byte
  seg : W32
  pos : Byte
  sig : W16
  deriving DecidableEq, Repr

/-- A loaf as a lane runs it: the header facts, the shared sections, and the lane's own form (R133-R147, R158). -/
structure LoafCfg where
  loafId : List Byte
  trailer : List Byte
  check : W32
  tfCode : Byte
  role : Byte
  flags : Byte
  bind : Bind
  params : List ParamRec
  iomap : List (List Byte)
  smap : List MapEntry
  plan : Option Plan
  seeds : List Conn
  form : LaneForm
  deriving DecidableEq, Repr

/-! ## Block state (07) -/

/-- A timer element (R142 KIND 0x03): elapsed ticks, running, elapsed. -/
structure Timer where
  elapsed : Nat
  running : Bool
  done : Bool
  deriving DecidableEq, Repr

/-- Import state (R142 KIND 0x06). -/
structure ImportSt where
  ref : W16
  since : Nat
  refValid : Bool
  timedOut : Bool
  beads : List Byte
  deriving DecidableEq, Repr

/-- The state of one block instance (R176, R142): every element a block type can hold; a type uses those its row of chapter
07 gives it. -/
structure BlkSt where
  /-- Restart latch, or H of RSLATCH; a bead byte; R161, R176 (07); initial 0x0E. -/
  latch : Byte
  /-- Edge memories, bead bytes; R176 (07); initial 0x08. -/
  edge0 : Byte
  edge1 : Byte
  edge2 : Byte
  edge3 : Byte
  /-- Block state code, and the second code of GUARD's lock pair; R176 (07); initial 0x00. -/
  code : Byte
  code2 : Byte
  /-- Timers; R142, R159 (06, 07); initial stopped at 0. -/
  tmr : Timer
  tmr2 : Timer
  /-- Count, reopen count or CV; 32 bits, two's complement; R142 (06). -/
  cnt : W32
  /-- Import state; R142 (06). -/
  imp : ImportSt
  /-- The model's own bits, outside STATEMAP (R176 gives them no element): a CMP's last IN, a TOF's last OUT, and for a
  two-channel core that A and B agreed at 0 in the previous frame (R164); `own2` the same of GUARD's lock pair, and for
  DOORPOS that the counts of the previous frame are known; 0. -/
  own : Bool
  own2 : Bool
  /-- The model's own: CNTB of the previous frame of DOORPOS (CNTA's stands in `cnt`), for MOVING; R167 (07); 0. -/
  cnt2 : W32
  deriving DecidableEq, Repr

/-! ## Channels (11) -/

/-- Probation of a re-admitted channel (R270, 11): frames passed without an anomaly, and what its conditions ask beside
them: the probes of a leg's pair, the readback passes of a source in its own slot or the fresh conversions of an analog
input, the rejoining of a port, the scan of the actuator bus, and whether a digital input was watched as an OSSD. -/
structure Probation where
  frames : Nat
  hiProbe : Bool
  loProbe : Bool
  slotPasses : Nat
  rejoined : Bool
  scanned : Bool
  ossd : Bool
  deriving DecidableEq, Repr

/-- What a lane keeps of one channel (R254, R124, R125, R270). -/
structure ChanRec where
  /-- Tally, 0-15; R254 (11); reset 0 (R257). -/
  tally : Nat
  /-- Clean-frame count; R254 (11); reset 0 (R257). -/
  clean : Nat
  /-- Retired; R266 (11); reset false (R257). -/
  retired : Bool
  /-- Last anomaly code, 8 bits; R440 (18); reset 0x00. -/
  code : Byte
  /-- Probation in progress; R270 (11); reset none. -/
  prob : Option Probation
  /-- Isolated with this override V; R125 (05); reset none. -/
  iso : Option Bool
  /-- Maintenance force of V; R124 (05); reset none. -/
  force : Option Bool
  deriving DecidableEq, Repr

/-- One anomaly report waiting for the tally update of a phase E (R254, R258): the channel number of R393, the anomaly code
of R440, permanent or transient. -/
structure Rep where
  chan : Nat
  code : Byte
  permanent : Bool
  deriving DecidableEq, Repr

/-- What the tally update made of one channel with an anomaly (R254, R270, R441): its tally after counting, whether the
anomaly is permanent, the first since the tally was last 0, retires the channel, or fails its probation. -/
structure TallyEv where
  chan : Nat
  code : Byte
  tally : Nat
  permanent : Bool
  first : Bool
  retire : Bool
  probFail : Bool
  deriving DecidableEq, Repr

/-! ## Crust (08, 09) -/

/-- One timestamped edge (R194). -/
structure EdgeStamp where
  at_ : Stamp
  level : Bool
  deriving DecidableEq, Repr

/-- What an input's pulse test was before this frame's pulse was judged, to be put back where a field supply event of the same
frame voids the judgement (R206, 08). -/
structure PulseBefore where
  pulseT : Bool
  retry : List (Fin 8 × W32)
  sincePulse : Nat
  anomaly : Byte
  deriving DecidableEq, Repr

/-- A digital input at its crust (08). -/
structure InSt where
  /-- Raw comparator level; R187 (08); the level at the land; at reset low (DESIGN CHOICE, log 4). -/
  raw : Bool
  /-- Debounced level; R187 (08); the spec gives no starting level: 0 (DESIGN CHOICE, log 4). -/
  deb : Bool
  /-- The start of the raw change being timed by the debouncer; R187, R188 (08); none. -/
  pend : Option Stamp
  /-- The time that the timestamp of that change will give; R188, R194 (08); none. -/
  pendStamp : Option Stamp
  /-- The start of a rise being timed that a pulse hides for its duration; R188 (08); none. -/
  riseHeld : Option Stamp
  /-- Timestamp queue, at most 16; R194 (08); empty. -/
  stamps : List EdgeStamp
  /-- Timestamps not queued since the last snapshot; R195 (08); 0. -/
  overflow : Nat
  /-- Frames since the last passed threshold check, saturating at 16; R191, R114 (08); 16 (not yet passed). -/
  sinceThreshold : Nat
  /-- Frames since the last passed pulse test, saturating at 16; R192, R114 (08); 16. -/
  sincePulse : Nat
  /-- T as the pulse test holds it; R192 (08); 0. -/
  pulseT : Bool
  /-- The sources whose retry pulse is due after a first failure, each with the frame of that failure: the retry is due in the
  next frame alone; R192 (08); none. -/
  retry : List (Fin 8 × W32)
  /-- The pulse test as it stood before this frame's judgement; R206 (08); none judged. -/
  before : Option PulseBefore
  /-- The raw level at the start of the pulse now running; R190 (08); 0. -/
  rawAtPulse : Bool
  /-- The raw 0 began before or inside the mask of the pulse now running; R188 (08); none. -/
  maskUntil : Option Stamp
  /-- The start of that mask, with which a fall that R188 (08) hides is stamped (R194); none. -/
  maskFrom : Option Stamp
  /-- The last fall of the raw level, by which an OSSD's own pulse is told; R188 (08); none. -/
  fellAt : Option Stamp
  /-- The anomaly found since the last snapshot, one per frame by R205 (08), coded by R440; 0x00. -/
  anomaly : Byte
  /-- FRONTEND fault found at this snapshot; R193 (08); 0. -/
  frontend : Bool
  /-- The last OSSD pulse or rise seen; R193 (08); none. -/
  ossdMark : Option Stamp
  /-- OSSDP has passed since the mark; R193 (08); 0. -/
  ossdLate : Bool
  /-- An OSSD's own pulse has been seen since the last snapshot; R193, R270 (08, 11); 0. -/
  ossdSeen : Bool
  /-- Counter, 32 bits, saturating at 2^31-1; R196 (08); 0. -/
  count : W32
  /-- An OVERRATE froze the count for the rest of this frame; R196 (08); 0. -/
  overrate : Bool
  /-- The last filtered rising edge, and the interval in 10 ns units between the last two; R196 (08); none, 0. -/
  lastEdge : Option Stamp
  period : Nat
  /-- The last filtered edge of either direction, for OVERRATE; R196 (08); none. -/
  lastAny : Option Stamp
  /-- 4 s without an edge have passed; R196 (08); 1 (no edge yet, so the report is 0). -/
  silent : Bool
  deriving DecidableEq, Repr

/-- A quadrature pair at its crust (R196-R198). -/
structure QuadSt where
  /-- Position count, 32 bits; R196 (08); 0 (the spec gives none: DESIGN CHOICE, log 4). -/
  count : W32
  /-- Direction of travel is closing; R197 (08); closing at boot. -/
  closing : Bool
  /-- The turning point: the furthest count in the present direction; R197 (08); 0. -/
  turn : W32
  /-- Homed since boot; R198 (08); 0. -/
  homed : Bool
  /-- Frames since the last illegal transition, saturating at 16; R193 (08); 16. -/
  sinceIllegal : Nat
  /-- The count held at the reference's first raw edge of the change being debounced; R198 (08); none. -/
  refCount : Option W32
  /-- The moment of that raw edge, so that a count edge within the same filter time is taken first; R207 (08); none. -/
  refAt : Option Stamp
  /-- The reference edge taken last: its first raw edge, and whether it homed the count (else it was a capture of the learning
  run); a count edge within the same filter time is taken as before it; R207 (08); none. -/
  lastRef : Option (Stamp × Bool)
  deriving DecidableEq, Repr

/-- A test-pulse source at its crust (R184, R189). -/
structure SrcSt where
  /-- Anomaly found since the last snapshot, one per frame by R184 (08), coded by R440; 0x00. -/
  anomaly : Byte
  /-- The source pulsed and confirmed its readback since the last snapshot; R184 (08); 0. -/
  readbackOk : Bool
  /-- Driving its schedule (land state ACT, R45); OFF until the crust handshake; 0. -/
  active : Bool
  /-- The pulse now running and not yet sampled: its start; R189 (08); none. -/
  pulseAt : Option Stamp
  /-- The source has pulsed in this frame; R192 (08); 0. -/
  pulsed : Bool
  deriving DecidableEq, Repr

/-- An analog input at its crust (R201, R202). -/
structure AnaSt where
  /-- Latest completed conversion in mV; R201 (08); 0 (DESIGN CHOICE, log 4). -/
  mv : Nat
  /-- Conversion sequence number, 8 bits (width by DESIGN CHOICE, log 4); R201 (08); 0. -/
  seq : Byte
  /-- A conversion completed since the last snapshot; R201 (08); 0. -/
  fresh : Bool
  /-- No new conversion for 3 ms; R202 (08); 0. -/
  stalled : Bool
  /-- A stall or a conversion outside the range has been seen since the last snapshot; R202 (08); 0. -/
  bad : Bool
  /-- Anomaly found since the last snapshot; R258 (11); 0x00. -/
  anomaly : Byte
  deriving DecidableEq, Repr

/-- A leg at its crust (09). -/
structure LegSt where
  /-- Commanded state as last committed; R95, R212 (09); off. -/
  cmd : Bool
  /-- The last commit changed the state; R234 (09); 0. -/
  changed : Bool
  /-- Held open at this commit by the crust alone after a PROBE_SHORT; R238, R425 (09, 17); 0. -/
  holdNow : Bool
  /-- To be held open at the next commit; R238 (09); 0. -/
  holdNext : Bool
  /-- Open after a trip or a stuck-drive cut until commanded on again; R222, R229 (09); 0. -/
  tripped : Bool
  /-- Thermal cut open; R222 (09); 0. -/
  thermal : Bool
  /-- Blanking runs; R222 (09); 0. -/
  blanking : Bool
  /-- Ticks of BLANK still to run since the on commit; R222 (09); 0. -/
  blankLeft : Nat
  /-- The last current-sense check of this leg failed; R425 (17); 0. -/
  senseBad : Bool
  /-- Anomaly found since the last snapshot, one per frame by R233 (09), coded by R440; 0x00. -/
  anomaly : Byte
  deriving DecidableEq, Repr

/-- The LOCKDRV profile of one pair at crust A and its level at crust B (R228, R229). -/
structure DriveSt where
  /-- 0 off, 1 pull-in, 2 hold; R228 (09); off. -/
  stage : Fin 3
  /-- Ticks of pull-in left; R228 (09); 0. -/
  ticksLeft : Nat
  /-- Pull-ins started in each of the last 60 one-second bins, newest first; R228 (09); none. -/
  bins : List Nat
  /-- DERATE of the pull-in in force, 0-3; R228 (09); 0. -/
  derate : Nat
  /-- Pull-in level sampled by crust B in mA; R229 (09); none. -/
  level : Option Nat
  /-- Crust B's watchdog is disarmed for this pull-in (level below 10 mA); R229 (09); 0. -/
  disarmed : Bool
  deriving DecidableEq, Repr

/-- What a snapshot carries of one digital input (R95, R193-R196). -/
structure SnapIn where
  level : Bool
  q : Bool
  t : Bool
  anomaly : Byte
  value : Int
  /-- Timestamps queued and timestamps lost since the last snapshot; R194, R195. -/
  stamps : List EdgeStamp
  overflow : Nat
  /-- An OSSD's own pulse seen since the last snapshot; R193, R270. -/
  ossd : Bool
  deriving DecidableEq, Repr

/-- What a snapshot carries of a value channel (analog, quadrature); `closing` is a quadrature count's direction (R197). -/
structure SnapVal where
  value : Int
  q : Bool
  t : Bool
  closing : Bool
  anomaly : Byte
  fresh : Bool
  /-- Conversion sequence number of an analog input; R201. -/
  seq : Byte
  deriving DecidableEq, Repr

/-- The snapshot that a crust latches at a tick and that crosses in phase S (R95, R96). -/
structure Snap where
  ins : Tab SnapIn
  quads : Tab SnapVal
  ana : Tab SnapVal
  srcs : Tab Byte
  srcPass : List Nat
  legs : Tab Byte
  /-- Pull-ins that each pair's history counts, from which the lanes form DERATE; R228, R172. -/
  history : Tab Nat
  /-- Pairs whose high land (crust A) or QL land (crust B) stood at the energised level in the 0.9 Tf sample; R225. -/
  landHot : List Nat
  /-- Pairs through which a current was drawn while commanded off or retired; R39. -/
  drawn : List Nat
  /-- Pairs whose leg of this crust carried a current, however commanded: what a retired pair is held against; R39. -/
  carries : List Nat
  /-- Pairs whose probe by this crust passed (R216, R270). -/
  probePass : List Nat
  /-- Pairs whose stuck-drive watchdog cut (R229). -/
  stuck : List Nat
  /-- Legs held open by the crust in the last commit (R238). -/
  held : List Nat
  /-- An undervoltage report, a lockout, an overvoltage lockout that stands or stood since the last snapshot; R61, R193. -/
  uv : Bool
  lockout : Bool
  overvolt : Bool
  /-- The supply was out (lockout or overvoltage lockout) at some time since the last valid snapshot; R61. -/
  out : Bool
  /-- A field supply event began since the last snapshot (R263). -/
  supplyEvent : Bool
  deriving DecidableEq, Repr

/-- One crust (02, 08, 09). -/
structure CrustSt where
  /-- Logic power from the transformer; R41 (02); present at the release of reset. -/
  logicPower : Bool
  /-- A valid crust handshake has been completed; R41, R78 (02, 03); 0. -/
  handshake : Bool
  /-- Undervoltage report standing; R49 (02); 0. -/
  undervolt : Bool
  /-- Field supply below lockout; R49 (02); 0. -/
  lockout : Bool
  /-- Field supply in overvoltage lockout; R49 (02); 0. -/
  overvolt : Bool
  /-- A supply event began since the last snapshot; R263 (11); 0. -/
  supplyEvent : Bool
  /-- An undervoltage report, a lockout, an overvoltage lockout that stands or has stood since the last snapshot; R61, R193
  (02, 08); 0. -/
  uvSince : Bool
  lockoutSince : Bool
  overvoltSince : Bool
  /-- A supply out that no valid snapshot has reported yet; R61 (02); 0. -/
  lostOut : Bool
  /-- Ticks since the last valid output frame or handshake; R237 (09); 0. -/
  sinceFrame : Nat
  /-- Silence timeout applied, until a new handshake; R230 (09); 0. -/
  silent : Bool
  /-- A side of its barrier FIFOs has been reset and the RESYNC is not acknowledged yet, so neither side accepts data; R487, R488
  (20); 1 (the core side comes out of its reset). -/
  resync : Bool
  /-- The snapshot of this frame was lost in a RESYNC of the barrier FIFO; R488 (20); 0. -/
  snapLost : Bool
  /-- The output set staged by the lane, to be committed at the next tick, by leg number 0-16 (none: no valid output frame
  since the last commit); R95 (04); none. -/
  staged : Option (Tab Bool)
  /-- Digital inputs by number 0-23; R183 (08). -/
  ins : Tab InSt
  /-- Quadrature pairs by number 0-1 (first two, next two counter inputs); R185 (08). -/
  quads : Tab QuadSt
  /-- Test-pulse sources 0-7; R184 (08). -/
  srcs : Tab SrcSt
  /-- Analog inputs 0-3; R201 (08). -/
  ana : Tab AnaSt
  /-- Frames since a reference check of the ADC passed, saturating at 16; R202 (08); 16. -/
  sinceReference : Nat
  /-- Legs 0-16; R212 (09). -/
  legs : Tab LegSt
  /-- LOCKDRV profiles by pair; R228, R229 (09). -/
  drives : Tab DriveSt
  /-- Accumulated since the last snapshot: see `Snap`. -/
  landHot : List Nat
  drawn : List Nat
  carries : List Nat
  probePass : List Nat
  stuck : List Nat
  /-- The snapshot latched at the last tick; R95 (04). -/
  snap : Snap
  deriving DecidableEq, Repr

/-! ## Lanes (05, 06, 07, 11) -/

/-- A value a lane holds for a counter, frequency, quadrature or analog channel, or DERATE (R117), with its evidence, the
frames since its snapshot (0-3) and a quadrature count's direction of travel (R197). -/
structure Val where
  value : Int
  q : Bool
  t : Bool
  f : Bool
  age : Nat
  closing : Bool
  deriving DecidableEq, Repr

/-- The staging record of one pair, 0-15, or of KA and KB, 16 (R169-R171, R213, R216, R223, R229). -/
structure PairRec where
  /-- Staged on in the last phase C; R171 (07); 0. -/
  staged : Bool
  /-- This lane's own leg of KA and KB is staged on while the record shows them off: the lane that finished in a late frame;
  R98, R231 (04, 09); 0. -/
  ownLeg : Bool
  /-- Committed on at the last tick; R170 (07); 0. -/
  committed : Bool
  /-- Committed on at the tick before the last one; R170 (07); 0. -/
  before : Bool
  /-- The last change at a commit has not been evaluated yet, since every frame from it on was late; R99, R169 (04, 07); 0. -/
  due : Bool
  /-- Ticks since the last change at a commit; R169 (07); 0. -/
  sinceCommit : Nat
  /-- Deferred in the last phase C; R213 (09); 0. -/
  deferred : Bool
  /-- Frames of hold-off left after OVERCURRENT or THERMAL; R223 (09); 0. -/
  holdOff : Nat
  /-- Held off by a PROBE_SHORT until a high-side and a low-side probe pass: which are still missing; R216 (09); 0. -/
  shortHi : Bool
  shortLo : Bool
  /-- Held off after STUCKDRIVE until the demand has not been trusted-true for a frame; R229 (09); 0. -/
  stuck : Bool
  /-- Retired as a pair by PAIRSHORT; R225, R226 (09); 0. -/
  pairShort : Bool
  /-- The restart latch must see a reset edge after a re-admission, whatever RESTART says; R271 (11); 0. -/
  needReset : Bool
  deriving DecidableEq, Repr

/-- A SAFE copy a lane accepted in this window X (R323, R324). -/
structure Accepted where
  conn : W16
  seq : W16
  frame : W32
  beads : List Byte
  port : Nat
  deriving DecidableEq, Repr

/-- A PROOF message that reached the manager's lane in this window X (R336). -/
structure ProofIn where
  frame : W32
  seg : W32
  branch : Byte
  origin : Byte
  count : Byte
  value : Byte
  crc : W16
  deriving DecidableEq, Repr

/-- A manager lane's verdict on its chain (R336). -/
inductive Verdict where
  | accepted
  | wellFormedFalse
  | rejected
  deriving DecidableEq, Repr

/-- What a lane keeps of one export connection (R321, R328) or import (R325, FAB_CONN). -/
structure ConnRec where
  /-- SEQ of the next copy; R321 (13); 0 at activation. -/
  seq : W16
  /-- FRAME of the latest paired import copy that passed checks 1-3; R328 (13); none. -/
  echo : Option W32
  /-- Frames since the last send, saturating at 0xFF; FAB_CONN (15); 0xFF. -/
  since : Nat
  /-- Timeouts since activation, 16 bits saturating; FAB_CONN (15); 0. -/
  timeouts : Nat
  deriving DecidableEq, Repr

/-- The entries of one safety pair, or of KA and KB (number 16), in an output set: decision, demand bead, and the FB or
MIRROR bead where EDM works (R527). -/
structure PairOut where
  pair : Nat
  on : Bool
  demand : Byte
  fb : Option Byte
  deriving DecidableEq, Repr

/-- What a lane delivers for the phase C comparison (R527): the entries of the pairs and of KA and KB, and the other compared
bytes in the loaf's order. -/
structure OutSet where
  pairs : List PairOut
  others : List Byte
  deriving DecidableEq, Repr

/-- What a late frame takes back (R99, R276): the state elements, the tally table and the reports as they stood before
phase E. -/
structure Saved where
  blk : Tab BlkSt
  chans : Tab ChanRec
  reps : List Rep
  deriving DecidableEq, Repr

/-- One lane. -/
structure LaneSt where
  /-- Retired; R267, R85 (11, 03); 0, kept across resets other than a power cycle. -/
  retired : Bool
  /-- VDD33 has been removed since this lane retired; R85 (03); 0. -/
  powerCycled : Bool
  /-- One of its two clocks has stopped: it takes nothing in and delivers nothing; R480, R485 (20); 0. -/
  stopped : Bool
  /-- The active loaf as this lane verified it; R150 (06); none. -/
  cfg : Option LoafCfg
  /-- Bead bytes by bead index; R114 (05); 0xB0 until written (DESIGN CHOICE, log 4). -/
  beads : Tab Byte
  /-- Bead bytes of the 48 inputs by channel number; R117 (05); 0xB0 until written (DESIGN CHOICE, log 4). -/
  inBeads : Tab Byte
  /-- Values by channel number (counter, frequency, analog), 0x100 + pair code (quadrature), 0x200 + pair (DERATE); R117. -/
  vals : Tab Val
  /-- Values formed by blocks: POS and CV by instance; R167, 07; 0. -/
  blockVals : Tab Val
  /-- State of the block instances; R142, R176 (06, 07). -/
  blk : Tab BlkSt
  /-- The tally table by channel number of R393; R254 (11). -/
  chans : Tab ChanRec
  /-- Anomaly reports to be counted at the end of the next phase E; R258 (11); empty. -/
  reps : List Rep
  /-- State before this frame's phase E; R99 (04); none. -/
  saved : Option Saved
  /-- Staging records by pair; R170 (07). -/
  pairs : Tab PairRec
  /-- Standard legs staged on, and frames of hold-off left (R223), by leg number; R128, R223. -/
  stdStaged : Tab Bool
  stdHoldOff : Tab Nat
  /-- Output set of this frame; R527 (05). -/
  out : OutSet
  /-- State digest of this frame; R142 (06); 0. -/
  digest : W32
  /-- Contribution L staged for the chain of the next frame; R334 (13); 0x08. -/
  contrib : Byte
  /-- After a disagreement: no SAFE copies in the next frame; R527, R343; 0. -/
  noSafe : Bool
  /-- Treated as late in this frame because of ECC_DOUBLE or a slice mismatch; R259, R424; 0. -/
  forcedLate : Bool
  /-- Late, EVAL_PARITY or ECC_DOUBLE recorded in this frame; R260; 0. -/
  parityHit : Bool
  eccHit : Bool
  /-- A parity substitution at entry in this frame; R130; 0. -/
  entryParity : Bool
  /-- Beads of the hearth (0-63 host bits, 64-79 MAINT_HOLD) that reached this lane in this frame with a parity error; R123
  (05); none. -/
  hostBad : List Nat
  /-- The field supply of crust A and of crust B was out in the last valid snapshot of each; R61 (02); 0. -/
  supplyOut : Two Bool
  /-- Consecutive partner-clock deviations, and the count of the gate closed in this frame; R13, R479; 0, none. -/
  clockDev : Nat
  gate : Option Nat
  /-- Consecutive tick-interval deviations; R97 (04); 0. -/
  tickDev : Nat
  /-- Next in-service slice 0-1023, and whether it has failed once; R422, R259 (17, 11); 0. -/
  slice : Nat
  sliceFailed : Bool
  /-- SAFE copies accepted in this window X; R323 (13); empty. -/
  accepted : List Accepted
  /-- Connections of which a copy for this lane has been taken in this frame, accepted or discarded; R323 (13); none. -/
  seenCopies : List W16
  /-- Connection records by CONN_ID; R321, R328 (13). -/
  conns : Tab ConnRec
  /-- PROOF messages received in this window X, and the verdict; R336 (13); empty, rejected. -/
  proofs : List ProofIn
  verdict : Verdict
  /-- The verdict of the frame before, for the journal's CONSEQUENCE crumbs (R440, 18); rejected. -/
  verdictBefore : Verdict
  /-- DOORPOS offsets this lane stored at confirmation, by pair code: OFS_CLOSE, OFS_OPEN; R200 (08); none. -/
  offsets : Tab (Int × Int)
  /-- The entry to OPERATE this lane last saw holds the restart latches; R81; 0. -/
  enteredOperate : Bool
  deriving DecidableEq, Repr

/-! ## Core (02, 03, 04) -/

/-- The cause of the last reset, as the BOOT crumb codes it (R439). -/
inductive ResetCause where
  | powerOn
  | rstn
  | brownOut
  | internalCause
  deriving DecidableEq, Repr

/-- Where a module in BOOT stands in the start-up sequence (R76). -/
inductive BootStep where
  | held      -- in reset, or a step before 6
  | join      -- step 6, listen-through and join
  | proving   -- step 7, the proving period
  | ended     -- BOOT has been left
  deriving DecidableEq, Repr

/-- Why the mode changes, as the MODE crumb codes it (R439). -/
inductive ModeWhy where
  | request
  | fault
  | reset
  deriving DecidableEq, Repr

/-- The phases of a frame (R91). -/
inductive Phase where
  | s
  | x
  | e
  | c
  | h
  | g
  deriving DecidableEq, Repr

structure CoreSt where
  /-- VDD33 above the release threshold; R49 (02); true at the reset state taken. -/
  vddGood : Bool
  /-- Core reset asserted; R51 (02); true. -/
  inReset : Bool
  cause : ResetCause
  /-- MODE_CUR; 8 bits coded by R62; 0x01 (R352). -/
  mode : Mode
  /-- The mode that the staged outputs already obey, taken by MODE_CUR at the next tick; R67, R69 (03); none. -/
  modeNext : Option (Mode × ModeWhy)
  bootStep : BootStep
  /-- Start-up has done its step 3, and steps 4 and 5 come with the first tick: what the surroundings decide about them; R76
  (03); none. -/
  startUp : Option BootEnv
  /-- MODE_CUR at the reset, which the MODE crumb of the start-up names; R439, R441 (18); none. -/
  modeBefore : Option Mode
  /-- Frames of the proving period served; R79 (03); 0. -/
  proving : Nat
  /-- An anomaly, a retirement or a late frame disturbed this frame of the proving period; R36 (01); 0. -/
  disturbed : Bool
  /-- The tick runs (from the end of step 4); R76 (03); 0. -/
  tickOn : Bool
  /-- FRAME_NO, 32 bits; R352 (14); 0. -/
  frameNo : W32
  /-- The phase the frame is in; R91 (04); G. -/
  phase : Phase
  /-- Window X has been opened in this frame; R91, R92 (04); 0. -/
  xOpen : Bool
  /-- Offset from the tick in 10 ns units, 20 bits; R194, TIME_GET; 0. -/
  off : BitVec 20
  /-- TF_CODE in force, 8 bits; R90 (04); 0x02 = 1 ms (the default of R90). -/
  tfCode : Byte
  /-- SAFEN level; R232 (09); low. -/
  safen : Bool
  /-- Phase correction still to be applied in ns; R109, R110 (04); 0. -/
  slewNs : Int
  /-- The frame just ended was late; R98 (STATUS[7], STAT_LATE): per lane; 0. -/
  lateLast : Two Bool
  /-- Fatal faults found since reset, by code of R440 (0x50-0x54), each once; R261, R268 (11); none. -/
  fatal : List Byte
  /-- The correction of this frame's length in ns, by which phase G is lengthened or shortened; R110 (04); 0. -/
  gapNs : Int
  /-- Fabric ports, actuator bus and indicator chain retired in phase C, to be put out of service at the next tick; R266
  (11); none. -/
  retiring : List Nat
  /-- A presence monitor has found a watched clock stopped, to enter the watching lane at its next phase S; R480 (20);
  false. -/
  clockStop : Bool
  /-- A CLOCK_STOP was found in this frame, and a tick interval fault waits for its phase S; R490 (20); 0. -/
  stopFound : Bool
  rangeDue : Bool
  /-- What this frame's tally update decided, journalled and put into effect in phase C, or deferred with a late frame;
  R254, R266, R276 (11); none. -/
  outcomes : List TallyEv
  /-- Anomalies that the MAC, the hearth or the strobe watchdog found since the last tick; counted from the next tick on;
  catalogue timing of R258 (11); none. -/
  found : List Rep
  deriving DecidableEq, Repr

/-! ## Non-volatile memory and fuses (03, 06, 08, 15, 16, 17, 19) -/

/-- The states of a loaf slot (R149). -/
inductive SlotState where
  | empty
  | writing
  | valid
  | invalid
  | active
  deriving DecidableEq, Repr

structure LoafSlot where
  state : SlotState
  image : List Byte
  deriving DecidableEq, Repr

/-- A copy of the slot record (R151): a sequence number, the active slot (none: no active slot), CRC good. -/
structure SlotRecord where
  seq : Nat
  active : Option Side
  crcOk : Bool
  deriving DecidableEq, Repr

/-- The quick-start token (R83). -/
structure Token where
  bootCount : W32
  loafId : List Byte
  life : Byte
  results : List (Byte × Bool)
  crcOk : Bool
  deriving DecidableEq, Repr

/-- The soft repair record in the key area of MRAM (R428). -/
structure RepairRecord where
  rows : Two (List W16)
  crcOk : Bool
  deriving DecidableEq, Repr

structure NvSt where
  /-- Lifecycle state; R72 (03); COMMISSION (every module ships so, R73). -/
  life : Lifecycle
  /-- ID_SERIAL, 8 bytes of fuses; R352 (14); the spec says only 'Fused': zero bytes (DESIGN CHOICE, log 4). -/
  serial : List Byte
  /-- Fuse words in fuse address order; R402 (16); none (DESIGN CHOICE, log 4). -/
  fuses : List W32
  /-- Rows of each lane SRAM that fuse repair has replaced, at most 32; R426 (17); none. -/
  fuseRows : Two (List W16)
  /-- MRAM spare blocks assigned; R426 (17); none. -/
  spareBlocks : List W32
  /-- Boot counter copies: value, CRC good; R406 (16); no valid copy. -/
  bootCopies : Two (Option W32)
  /-- Loaf slots 0 and 1; R149 (06); EMPTY. -/
  slots : Two LoafSlot
  /-- Slot record copies; R151 (06); none active. -/
  records : Two SlotRecord
  /-- Quick-start token; R83 (03); none. -/
  token : Option Token
  /-- Soft repair record of both lanes; R428 (17); none. -/
  repair : Option RepairRecord
  /-- Calibration record: confirmed offsets by pair code; R199, R200 (08); none. -/
  calib : Tab (Int × Int)
  /-- The lanes' stored copies of the offsets, with CRC good; R200 (08); none. -/
  laneOffsets : Two (Option (Tab (Int × Int)))
  /-- Actuator keys 0-7, SAFE keys 0-15, lifecycle key; R395, R322 (15, 13); empty. -/
  actKeys : Tab (List Byte)
  safeKeys : Tab (List Byte)
  lifeKey : Option (List Byte)
  /-- The attestation key pair, by the number of its generation: the private key itself never leaves the engine and is a free
  value (Config); R407 (16); the pair of production, 0. -/
  attKey : Option Nat
  /-- Certificates 0-2 stored over those of production, DER; an empty one stands for production's, whose bytes the spec does not
  give (free, Config); R408 (16); none. -/
  certs : List (List Byte)
  /-- Images in MRAM measured into M0-M3: firmware, lane A microcode, lane B microcode, crust A image, crust B image; R402
  (16); contents not in the spec: empty (DESIGN CHOICE, log 4). -/
  images : List (List Byte)
  /-- Microcode patch levels present for lanes A and B, 16 bits; R134 (06); 0xFFFF (DESIGN CHOICE, log 4). -/
  ucode : Two W16
  /-- CAN FD configuration stored: enable, NODE, nominal and data codes; R362 (14); none. -/
  canCfg : Option (Bool × Byte × Byte × Byte)
  /-- Crumb region, 48 MiB of bytes keyed by offset, unlisted 0x00; R437 (18). -/
  journal : Tab Byte
  /-- The open page and the next unit in it; R446 (18); none. -/
  openPage : Option Nat
  openUnit : Nat
  /-- Next page sequence number, 32 bits; R437 (18); 1. -/
  nextPseq : Nat
  /-- Pages written at least once, with their PSEQ; R438 (18); none. -/
  pages : Tab Nat
  /-- Bad pages; R429 (17); none. -/
  badPages : List Nat
  /-- Pin table; R447 (18); none. -/
  pins : List Nat
  /-- Pending pull-in counts saved, and UIDs last recorded, by chip index; R464, R467 (19). -/
  actPending : Tab Nat
  actUid : Tab (List Byte)
  /-- Chips whose UID changed and that have not authenticated since, by index; R475 (19); none. -/
  actUnproven : List Nat
  deriving DecidableEq, Repr

/-! ## Fabric (12, 13) -/

inductive PortState where
  | bypass
  | locking
  | up
  | standby
  | down
  deriving DecidableEq, Repr

/-- A frame a port has started, or has sent and still keeps for a hop retry (R290, R340). -/
structure TxRec where
  frame : Frame
  /-- Already retransmitted once (or a retransmission itself). -/
  retried : Bool
  /-- Cancelled after its SOF was sent (COMPLETE_ABORT_LATE). -/
  cancelled : Bool
  /-- Ended by an EOF abort, since the frame it passes on failed its CRC (R287). -/
  aborted : Bool
  /-- The frame number in which it was first sent (R265), and the moment of its EOF (R290). -/
  first : W32
  eof : Stamp
  deriving DecidableEq, Repr

structure PortSt where
  /-- Port state; R282 (12); BYPASS. -/
  st : PortState
  /-- Measured link delay in ns; R318, R319 (13); none. -/
  delay : Option Nat
  /-- Lock lost, 20 us not yet over; R283 (12); 0. -/
  relocking : Bool
  /-- LOCK_LOSS already reported since the port was last UP; R283 (12); 0. -/
  lossReported : Bool
  /-- The lock was lost inside a join gap or while sync was lost: no report; R283 (12); 0. -/
  lossQuiet : Bool
  /-- The frame being sent; R287 (12); none. -/
  tx : Option TxRec
  /-- Frames sent and kept until 2.5 us after their EOF; R290 (12); empty. -/
  kept : List TxRec
  /-- Retransmissions waiting; R310 (12); empty. -/
  retries : List TxRec
  /-- HOPNAK ordered sets inserted since the last tick (class, SEQ); R289 (12); empty. -/
  naks : List (BitVec 4 × Byte)
  /-- Cut-through frames that met a busy transmitter, at most 4; R287 (12); empty. -/
  cut : List Frame
  /-- Store-and-forward frames, at most 16; R288 (12); empty. -/
  sf : List Frame
  /-- The module's own frames waiting; R286, R338; empty. -/
  own : List Frame
  deriving DecidableEq, Repr

/-- Sync state of a member (R107-R109), as FAB_STATUS codes it. -/
inductive SyncState where
  | inSync
  | holdover
  | loss
  deriving DecidableEq, Repr

/-- A topology (TOPO of R296): healed or not, tails of the branches. -/
structure Topo where
  healed : Bool
  p1Tail : Byte
  p0Tail : Byte
  deriving DecidableEq, Repr

/-- What the manager keeps of one reporting worker (R297, FAB_MEMBERS). -/
structure Member where
  /-- 1 admitted, 2 refused. -/
  state : Byte
  reason : Byte
  h : Byte
  mode : Byte
  tag : List Byte
  p0Branch : Bool
  /-- The CALL whose REPORT this is (R312). -/
  call : Nat
  deriving DecidableEq, Repr

/-- A BULK stream this module sends (R339). -/
structure Stream where
  peer : Byte
  stream : Byte
  next : Byte
  unacked : List (Byte × List Byte)
  waiting : List (List Byte)
  resends : Nat
  /-- Frames since data was last sent or acknowledged. -/
  idle : Nat
  deriving DecidableEq, Repr

/-- An MBX image in reassembly (R385). -/
structure Asm where
  nextSeg : Nat
  bytes : List Byte
  deriving DecidableEq, Repr

structure FabSt where
  /-- Ports P0 and P1; R282 (12). -/
  ports : Two PortSt
  /-- Admitted with this station; R297 (12); none. -/
  station : Option Byte
  /-- Hop position reported; R296 (12); 0. -/
  hop : Byte
  /-- The member count N of the last CALL heard; R296, R303 (12); 0. -/
  callN : Byte
  /-- HOP of the last TICK heard or used, 0 where the upstream link ends at a manager's port; R318 (13); 0xFF. -/
  tickHop : Byte
  /-- The port that carries the cable of a line's manager: the one that locked; R302 (12); none. -/
  cabled : Option PortId
  /-- Sync state; R108 (04); in sync (no need). -/
  sync : SyncState
  /-- Consecutive expected TICKs missing; R108 (04); 0. -/
  missed : Nat
  /-- This frame's TICK has been received or deemed missing; R108 (04); 0. -/
  gotTick : Bool
  /-- Frames of the proving period of the proof contribution served, and whether it is completed; R109, R272; 0, false. -/
  proofFrames : Nat
  proofReady : Bool
  /-- Phase is within the tolerance of R107 after a re-entry; R109 (04); true. -/
  settled : Bool
  /-- Upstream port: where valid TICK arrives; 12 (Model); none. -/
  upstream : Option PortId
  /-- Topology in force, to take force at the next tick, and at the end of the next join gap; R304, R306 (12). -/
  topo : Topo
  topoTick : Option Topo
  topoGap : Option Topo
  /-- Consecutive valid TICKs heard through the bypass, saturating at 16; R292 (12); 0. -/
  heard : Nat
  /-- FRAME of the last TICK heard through the bypass; R293 (12); none. -/
  heardFrame : Option W32
  /-- Frames listened by a manager, and whether 512 passed without a TICK; R292 (12); 0, false. -/
  listened : Nat
  listenOver : Bool
  /-- DUPLICATE_MANAGER: in BYPASS until reset; R299 (12); 0. -/
  duplicate : Bool
  /-- A join gap is running; R294 (12); 0. -/
  gap : Bool
  /-- A worker that joined and waits for its admission and its proving period: its outputs stay off; R295 (12); 0. -/
  awaitAdmit : Bool
  /-- Refused: the station is given up at the next tick; R297 (12); 0. -/
  refused : Bool
  /-- A BREAK that waits for the other port's relock before it is sent; R313 (12); none. -/
  breakDue : Option PortId
  /-- A loaf activated since the module last joined changes role, plan, panel tag or Tf, so step 6 is to be repeated; R66
  (03); true (never joined). -/
  rejoin : Bool
  /-- Members by station, at a manager; R297 (12). -/
  members : Tab Member
  /-- Refused workers without a station, by hop; FAB_MEMBERS; empty. -/
  refusedHops : Tab Member
  /-- The CALL whose REPORTs are awaited; R312 (12); 0. -/
  callNo : Nat
  /-- LINKREADY received: (reporting station, port); R306 (12); empty. -/
  ready : List (Byte × Byte)
  /-- The end of a break at the P1 side and at the P0 side, station (0xFE where not admitted) and port as its BREAK told;
  R304, R306 (12); none. -/
  ends : Two (Option (Byte × Byte))
  /-- Frames that ended as COMPLETE_ABORT_LATE, and cut-through frames that met four waiting, 16 bits each: the fabric
  statistics of R340 and R338 (13), shown in no register; 0. -/
  abortLate : W16
  cutDrops : W16
  /-- Frames consumed by this module and not yet acted on; R300 (12); empty. -/
  inbox : List (PortId × Frame)
  /-- SEQ counters of own frames by class; R284 (12); 0. -/
  seqs : Tab Byte
  streams : List Stream
  /-- Streams given up after four resends, by peer and stream number, as reported to their requester; R339 (13); none. -/
  bulkFailed : List (Byte × Byte)
  /-- Highest WSEQ received in order by (peer * 256 + stream); R339 (13); none. -/
  bulkIn : Tab Byte
  /-- Data received on BULK streams, oldest first; R339. -/
  bulkData : List (List Byte)
  /-- MBX reassembly: requests at a target by path * 4 + idx, replies at the manager by 8 + path * 4 + idx; R385 (15). -/
  asm : Tab Asm
  deriving DecidableEq, Repr

/-! ## Host port (14) -/

/-- A host check-value unit (R360). -/
structure CrcUnit where
  poly : BitVec 2
  hit : Bool
  raw : Bool
  snoop : Bool
  run : W32
  expect : W32
  deriving DecidableEq, Repr

structure HostSt where
  /-- IRQ_STAT0, IRQ_STAT1, IRQ_EN0, IRQ_EN1, 8 bits each; R352 (14); 0x00. -/
  irqStat0 : Byte
  irqStat1 : Byte
  irqEn0 : Byte
  irqEn1 : Byte
  /-- HOSTWD, 8 bits ([7:5] 0); R352, R358 (14); 0x00. -/
  hostwd : Byte
  /-- Frames counted since the last kick, and an expiry since then; R358 (14); 0, false. -/
  wdCount : Nat
  wdExpired : Bool
  /-- SPI_CFG.CRC_EN; R351 (14); 0. -/
  crcEn : Bool
  /-- SPISTAT[0] and [1]: faults of the previous transaction; R347 (14); 0. -/
  prevCrc : Bool
  prevAccess : Bool
  /-- MODE_REQ, 8 bits, and STATUS.REQ_RESULT, 2 bits; R352 (14); 0x00, 00. -/
  modeReq : Byte
  reqResult : BitVec 2
  /-- MODE_REQ as sampled at the last tick, and written again since; R67, R371 (03, 14); none, false. -/
  sampled : Option Byte
  rewritten : Bool
  /-- STATUS.HEARTH; R352, R353 (14); 0. -/
  hearth : Bool
  /-- Hearth firmware version registers set at step 3; R352 (14); 0x00. -/
  fwMajor : Byte
  fwMinor : Byte
  /-- LIFECYCLE register; 0x00 until step 3 has read it; R352 (14); 0x00. -/
  lifeReg : Byte
  /-- Read shadows by base address; R355 (14); 0x00 bytes before the first latch (DESIGN CHOICE, log 4). -/
  readShadow : Tab (List Byte)
  /-- Bytes waiting in write shadows by address; R356 (14); none. -/
  writeShadow : List (Nat × Byte)
  /-- Check-value units 0-3; R360 (14); POLY 0, values 0. -/
  crc : Vector CrcUnit 4
  /-- The bytes driven on SDO in the last transaction; R347 (14); none. -/
  sdo : List Byte
  deriving DecidableEq, Repr

/-! ## Mailbox (15) -/

/-- Slot states (R376). -/
inductive MbxState where
  | free
  | filling
  | posted
  | taken
  | done
  deriving DecidableEq, Repr

/-- Where a queued command stands (R380, R381, R384). A command waits; runs; waits for the evaluation of its mode request,
sampled or not; waits, as a CHAN_FORCE does, for the phase C that decides whether the module leaves MAINTAIN (R131); has been sent to a worker, `since` the frame in which SEG 0 was sent (R387); or has ended, with a reply of
this module or with a worker's reply image. -/
inductive QState where
  | waiting
  | running
  | awaitingMode (sampled : Bool)
  | awaitingStage
  | afterHold (status : Byte) (payload : List Byte)
  | sent (path : Bool) (idx : BitVec 2) (since : Option W32)
  | replied (status : Byte) (payload : List Byte)
  | relayed (image : List Byte)
  deriving DecidableEq, Repr

/-- An entry of the hearth queue (R379, R380). -/
structure QEntry where
  via : Via
  cmd : Byte
  tag : Byte
  target : Byte
  /-- The first header byte of FLAGS and [7:6] that is not 0x00 (R379 step 8). -/
  badField : Option Nat
  /-- The frame in which the request was taken (R391). -/
  taken : W32
  payload : List Byte
  st : QState
  deriving DecidableEq, Repr

/-- A force, isolation or restoration that takes effect from the next phase S (R393). -/
inductive ChanOp where
  | isolate (v : Bool)
  | restore
  | force (v : Option Bool)
  deriving DecidableEq, Repr

/-- An effect that begins with the first phase S after its command's reply (R391, R393): a channel operation, or host bits with
their write mask. -/
inductive Owed where
  | chan (n : Nat) (op : ChanOp)
  | bits (v mask : W64)
  deriving DecidableEq, Repr

/-- A learning run in progress (R199): the pairs, N, and for each cycle begun the captures on each crust, o (falling edge
while opening) and c (rising edge while closing). -/
structure LearnRun where
  via : Via
  pairA : Nat
  pairB : Nat
  cycles : Nat
  caps : Two (List (Option Int × Option Int))
  deriving DecidableEq, Repr

/-- An activation that passed its checks: once the lanes have agreed it switches at the next tick (R150). -/
structure PendingSwitch where
  via : Option Via
  slot : Side
  /-- The lanes have exchanged their loaf IDs and check words and agreed (step 3 of R150). -/
  agreed : Bool
  cfgA : LoafCfg
  cfgB : LoafCfg
  deriving DecidableEq, Repr

structure MbxSt where
  /-- States of SPI slots 0-7; R376 (15); unavailable until the hearth starts, then FREE. -/
  slots : Vector MbxState 8
  /-- Slot bytes by offset from 0x800; R352 (14); unlisted 0x00 (DESIGN CHOICE, log 4). -/
  mem : Tab Byte
  /-- Hearth queue, at most 16, oldest first; R380 (15); empty. -/
  queue : List QEntry
  /-- Nonce in force; R395 (15); none. -/
  nonce : Option (List Byte)
  /-- Host bits as the host set them, 64 bits; R389, R359; 0. Which of them it has set since reset and since the last expiry
  of the watchdog (the others stand at their DEFAULT); none. Both as they are to be delivered from the next phase S. -/
  hostBits : W64
  hostSet : W64
  hostBitsNext : Option (W64 × W64)
  /-- Host bits as the hearth last delivered them to the lanes (none: no delivery since activation); HOSTBIT (07). -/
  delivered : Option W64
  /-- The watchdog has expired, and its DEFAULTs stand until the host sets each bit again; R359 (14); 0. -/
  defaultsApply : Bool
  /-- Masks of accepted MAINT_HOLDs by frame, and the mask delivered in this frame; R70, R391; none, 0. -/
  holds : Tab W16
  holdMask : W16
  /-- Forces, isolations and restorations waiting for phase S, by channel; R393 (15); empty. -/
  chanOps : List (Nat × ChanOp)
  /-- Effects of commands whose reply has not been written yet; R391, R393 (15); none. -/
  owed : List (Via × Owed)
  /-- Re-admissions accepted, probation starting at the next tick; R270 (11); empty. -/
  readmits : List Nat
  /-- Learning run; R199 (08); none. Pending offsets by pair code; R200 (08); none. -/
  learn : Option LearnRun
  learned : Tab (Int × Int)
  /-- DOORPOS confirmation taking effect at the next tick; R200 (08); none. -/
  confirm : Tab (Int × Int)
  /-- Loaf switch waiting for the next tick; R150 (06); none. -/
  switch : Option PendingSwitch
  deriving DecidableEq, Repr

/-! ## CAN FD (14) -/

/-- A queued CAN FD frame (R364, R365, R367). -/
structure CanTx where
  ident : BitVec 11
  data : List Byte
  /-- The connection and lane of a SAFE copy. -/
  safe : Option (W16 × Side)
  won : Bool
  aborted : Bool
  deriving DecidableEq, Repr

structure CanSt where
  /-- Configuration in force: enable, NODE, rate codes; R362 (14); off. -/
  on : Bool
  node : Byte
  nominal : Byte
  dataRate : Byte
  errorPassive : Bool
  busOff : Bool
  /-- Off until reset after a failed CAN self-test block; R431 (17); 0. -/
  disabled : Bool
  /-- Transmit queue; R363, R364 (14); empty. -/
  txq : List CanTx
  /-- Tunnel requests being received, by IDX; R365 (14); none. -/
  asm : Tab Asm
  deriving DecidableEq, Repr

/-! ## Indicator chain (10) -/

/-- The vector that a lane posts at the end of phase C (R241, R442, R465). -/
structure IndVector where
  tag : W32
  bits : List Bool
  cycles : List Bool
  pullIns : List Nat
  deriving DecidableEq, Repr

structure IndSt where
  /-- IND_STAT[1], [2]; R248 (10); 0. -/
  late : Bool
  stbwd : Bool
  /-- IND_CTL.OEN_OFF, and a write of it during a strobe; R248, R251 (10); 0. -/
  oenOff : Bool
  /-- IND_LATECNT, 16 bits; IND_SEQ, 8 bits; R248 (10); 0. -/
  lateCnt : W16
  seq : Byte
  /-- IC_OEN is low (outputs enabled); R245 (10); 0. -/
  oen : Bool
  /-- Levels of IC_D0-IC_D3, IC_CLK and IC_STB; R244 (10); low. -/
  icD : List Bool
  icClk : Bool
  icStb : Bool
  /-- RUN: the port shifts and strobes; R248 (10); 0. -/
  run : Bool
  /-- Strobe watchdog trips, 16 bits; R249 (10); 0. -/
  trips : W16
  /-- Skip shifting until the next phase H; R246 (10); 0. -/
  skip : Bool
  /-- The vector last posted; R241; none. -/
  vector : Option IndVector
  /-- Back buffer with its READY tag, and front buffer; R242, R243 (10); none, empty. -/
  back : Option (W32 × List Bool)
  front : List Bool
  /-- What the external latches hold, lane by lane, bit 0 first; R244 (10); empty. -/
  latched : List (List Bool)
  deriving DecidableEq, Repr

/-! ## Journal and statistics (18) -/

/-- A journal read session (R448): the page being read, its PSEQ and the next chunk. -/
structure Session where
  page : Nat
  pseq : Nat
  chunk : Nat
  deriving DecidableEq, Repr

/-- A door cycle being recorded (R443). -/
structure CycleRec where
  start : W32
  samples : List Byte
  truncated : Bool
  edges : List (Stamp × Bool × Byte)
  edgesCut : Bool
  marks : List (Option Nat)
  deriving DecidableEq, Repr

structure JrnSt where
  /-- Crumbs waiting in hearth SRAM, at most 512 units; R445 (18); empty. -/
  buf : List (List Byte)
  /-- Crumbs lost while the buffer was full; R445 (18); 0. -/
  lost : Nat
  /-- Read-only after SHUTDOWN's flush; R445, R63; 0. -/
  closed : Bool
  /-- Pages passed over because held, at most 4; R446 (18); empty. -/
  skip : List Nat
  /-- Read sessions 0 and 1; R394 (15); none. -/
  sessions : Two (Option Session)
  /-- Pages held by sessions 0 and 1, the oldest hold first; R449 (18); none. -/
  holds : List (Side × Nat)
  /-- Door cycles being recorded; R443 (18); none. -/
  cycles : Two (Option CycleRec)
  /-- Crumbs of the cycles of each door that ended in this frame, reported at its end, door 0 first; R457 (18); none. -/
  ended : Two (List (List Byte))
  /-- The V of the CYCLE entries' beads as the hearth last saw them (START, END, MARK0-MARK3 per door), and which of them
  rose in this frame; R442, R443 (18); none, empty. -/
  seen : Option (List Bool)
  rose : List Bool
  deriving DecidableEq, Repr

/-- The counts of a frame (R354), live or latched. -/
structure Counts where
  evalA : W16
  evalB : W16
  fablat : W16
  linkerr : W16
  retry : W16
  trans : W16
  lateA : Bool
  lateB : Bool
  lateInd : Bool
  stale : W16
  sfdrop : W16
  safedisc : W16
  canerr : W16
  deriving DecidableEq, Repr

/-- The counts of an epoch (R453). -/
structure Epoch where
  isPartial : Bool
  testHold : Bool
  frames : W16
  first : W32
  maxEvalA : W16
  maxEvalB : W16
  maxFablat : W16
  linkerr : W32
  retry : W32
  trans : W32
  lateA : W16
  lateB : W16
  lateInd : W16
  stale : W32
  sfdrop : W32
  safedisc : W32
  canerr : W32
  ecc : W32
  overflow : W16
  discarded : W16
  mbxDiscarded : W16
  lateReplies : W16
  mismatch : W16
  timeouts : W16
  crumbsLost : W16
  analogOver : W16
  deriving DecidableEq, Repr

structure StatSt where
  /-- Live counters; R451 (18); 0. -/
  live : Counts
  /-- Latched block 0x080-0x09D: STAT_GEN, STAT_FRAME and the counts; R354 (14); 0. -/
  gen : Byte
  frame : W32
  latched : Counts
  /-- The running epoch, the last latched one and EGEN; R453 (18); 0. -/
  epoch : Epoch
  lastEpoch : Epoch
  egen : Byte
  /-- The frame number has jumped, so the running epoch ends now, partial; R109, R453 (04, 18); 0. -/
  jumped : Bool
  deriving DecidableEq, Repr

/-! ## Actuator identity bus (19) -/

structure ChipSt where
  /-- Present, authenticated, authentication failed, WEAR_WARN, WEAR_LIMIT, UID changed, no key; R464, R470 (19); 0. -/
  present : Bool
  authOk : Bool
  authFail : Bool
  warn : Bool
  limit : Bool
  uidChanged : Bool
  noKey : Bool
  /-- COUNT as last read, 32 bits; pending count; UID, 8 bytes; R470 (19). -/
  count : W32
  pending : Nat
  uid : List Byte
  /-- An advance failed and waits for the next pull-in; R466 (19); 0. -/
  advanceFailed : Bool
  deriving DecidableEq, Repr

structure ActSt where
  chips : Tab ChipSt
  /-- A scan or a recovery is due or running; R463, R468; 0. -/
  scanDue : Bool
  recoverDue : Bool
  /-- Requests waiting for a scan to end; R463, R472; none. -/
  scanVia : List Via
  deriving DecidableEq, Repr

/-! ## Measurement (16), self-test (17) -/

structure MeasSt where
  /-- M0-M7, 32 bytes each; R401 (16); 32 x 0x00. -/
  m : List (List Byte)
  /-- MSTATE, 8 bits; R404 (16); 0x01. -/
  mstate : Byte
  /-- M7 count, 16 bits saturating; R405 (16); 0. -/
  count : Nat
  /-- The crypto engine is disabled until reset; R431 (17); 0. -/
  disabled : Bool
  deriving DecidableEq, Repr

/-- On which crust a field supply lockout has stood since a test run began, and on which there has been a moment without one
(R418, R435). -/
structure LockWindow where
  seen : Two Bool
  free : Two Bool
  deriving DecidableEq, Repr

structure TestSt where
  /-- SELFTEST_RUN accepted: path and block number, staged off in the next phase C; no path where the hearth has stopped since,
  so that nobody awaits the reply; R419, R378 (17, 15); none. -/
  asked : Option (Option Via × Byte)
  /-- The field supply lockouts since the run began; R418, R435 (17); none stood, both free. -/
  lockouts : LockWindow
  /-- The lanes have learnt of it in this frame's phase S; R419 (17); 0. -/
  learned : Bool
  /-- Test hold in force from this tick, and to begin at the next tick; R419 (17); 0. -/
  hold : Bool
  holdNext : Bool
  /-- First frame after test hold: the permit latch rule of R419 applies; 0. -/
  justEnded : Bool
  /-- Last run: source (1 boot, 2 command, 3 shutdown; 0 none) and block results (0 pass, 1 fail, 2 not run); R389 (15). -/
  source : Byte
  results : List (Byte × Byte × W32)
  /-- SHUTDOWN_STATUS: 0 not in SHUTDOWN, 1 flushing, 2 testing, 3 token written, 4 ended without token; R389 (15); 0. -/
  shutdown : Byte
  /-- SHUTDOWN was entered from SAFE_HOLD: no token; R65 (03); 0. -/
  fromSafeHold : Bool
  /-- Soft repair map of each lane SRAM: the failing rows, each mapped to the soft spare row of its place in the list; R427,
  R428 (17); empty. -/
  softMap : Two (List W16)
  deriving DecidableEq, Repr

/-! ## The whole block -/

structure State where
  /-- Commands waiting, first in first out (the block's own queue of this model). -/
  pending : List Instr
  core : CoreSt
  nv : NvSt
  crust : Two CrustSt
  lane : Two LaneSt
  fab : FabSt
  host : HostSt
  mbx : MbxSt
  can : CanSt
  ind : IndSt
  jrn : JrnSt
  stat : StatSt
  act : ActSt
  meas : MeasSt
  test : TestSt
  /-- The MODEL'S own counter: how many free values have been drawn (Config); DESIGN CHOICE 0, log 12. -/
  drawn : Nat
  deriving DecidableEq, Repr

/-! ## Values of unlisted keys and reset values -/

def Timer.stopped : Timer := { elapsed := 0, running := false, done := false }

def ImportSt.init : ImportSt := { ref := 0, since := 0, refValid := false, timedOut := true, beads := [] }

def BlkSt.init : BlkSt :=
  { latch := 0x0E#8, edge0 := 0x08#8, edge1 := 0x08#8, edge2 := 0x08#8, edge3 := 0x08#8, code := 0, code2 := 0,
    tmr := Timer.stopped, tmr2 := Timer.stopped, cnt := 0, imp := ImportSt.init, own := false,
    own2 := false, cnt2 := 0 }

def ChanRec.clear : ChanRec :=
  { tally := 0, clean := 0, retired := false, code := 0, prob := none, iso := none, force := none }

def InSt.init : InSt :=
  { raw := false, deb := false, pend := none, pendStamp := none, riseHeld := none, stamps := [], overflow := 0, sinceThreshold := 16, sincePulse := 16,
    pulseT := false, retry := [], before := none, rawAtPulse := false, maskUntil := none, maskFrom := none, fellAt := none, anomaly := 0, frontend := false,
    ossdMark := none, ossdLate := false, ossdSeen := false, count := 0, overrate := false, lastEdge := none, period := 0, lastAny := none, silent := true }

def QuadSt.init : QuadSt :=
  { count := 0, closing := true, turn := 0, homed := false, sinceIllegal := 16, refCount := none, refAt := none, lastRef := none }

def SrcSt.init : SrcSt := { anomaly := 0, readbackOk := false, active := false, pulseAt := none, pulsed := false }

def AnaSt.init : AnaSt := { mv := 0, seq := 0, fresh := false, stalled := false, bad := false, anomaly := 0 }

def LegSt.off : LegSt :=
  { cmd := false, changed := false, holdNow := false, holdNext := false, tripped := false, thermal := false,
    blanking := false, blankLeft := 0, senseBad := false, anomaly := 0 }

def DriveSt.init : DriveSt :=
  { stage := 0, ticksLeft := 0, bins := [], derate := 0, level := none, disarmed := false }

def SnapIn.none : SnapIn := { level := false, q := false, t := false, anomaly := 0, value := 0, stamps := [], overflow := 0, ossd := false }

def SnapVal.none : SnapVal := { value := 0, q := false, t := false, closing := true, anomaly := 0, fresh := false, seq := 0 }

def Snap.empty : Snap :=
  { ins := [], quads := [], ana := [], srcs := [], srcPass := [], legs := [], history := [], landHot := [], drawn := [],
    carries := [], probePass := [], stuck := [], held := [], uv := false, lockout := false, overvolt := false, out := false, supplyEvent := false }

def CrustSt.reset : CrustSt :=
  { logicPower := true, handshake := false, undervolt := false, lockout := false, overvolt := false, supplyEvent := false,
    uvSince := false, lockoutSince := false, overvoltSince := false, lostOut := false, sinceFrame := 0, silent := false, resync := true, snapLost := false, staged := none, ins := [], quads := [], srcs := [], ana := [], sinceReference := 16, legs := [],
    drives := [], landHot := [], drawn := [], carries := [], probePass := [], stuck := [], snap := Snap.empty }

def Val.none : Val := { value := 0, q := false, t := false, f := false, age := 0, closing := true }

def PairRec.init : PairRec :=
  { staged := false, ownLeg := false, committed := false, before := false, due := false, sinceCommit := 0, deferred := false, holdOff := 0, shortHi := false, shortLo := false,
    stuck := false, pairShort := false, needReset := false }

def ConnRec.init : ConnRec := { seq := 0, echo := none, since := 0xFF, timeouts := 0 }

def OutSet.empty : OutSet := { pairs := [], others := [] }

def LaneSt.reset : LaneSt :=
  { retired := false, powerCycled := false, stopped := false, cfg := none, beads := [], inBeads := [], vals := [], blockVals := [], blk := [], chans := [], reps := [],
    saved := none, pairs := [], stdStaged := [], stdHoldOff := [], out := OutSet.empty, digest := 0, contrib := 0x08#8,
    noSafe := false, forcedLate := false, parityHit := false, eccHit := false, entryParity := false, hostBad := [],
    supplyOut := ⟨false, false⟩, clockDev := 0,
    gate := none, tickDev := 0, slice := 0, sliceFailed := false, accepted := [], seenCopies := [], conns := [], proofs := [],
    verdict := .rejected, verdictBefore := .rejected, offsets := [], enteredOperate := false }

def CoreSt.reset : CoreSt :=
  { vddGood := true, inReset := true, cause := .powerOn, mode := .boot,
    modeNext := none, bootStep := .held, startUp := none, modeBefore := none, proving := 0, disturbed := false, tickOn := false, frameNo := 0, phase := .g, xOpen := false,
    off := 0, tfCode := 0x02#8, safen := false, slewNs := 0, lateLast := ⟨false, false⟩, fatal := [], gapNs := 0, retiring := [],
    clockStop := false, stopFound := false, rangeDue := false, outcomes := [], found := [] }

def LoafSlot.empty : LoafSlot := { state := .empty, image := [] }

def NvSt.new : NvSt :=
  { life := .commission, serial := List.replicate 8 0, fuses := [], fuseRows := ⟨[], []⟩, spareBlocks := [], bootCopies := ⟨none, none⟩,
    slots := ⟨LoafSlot.empty, LoafSlot.empty⟩,
    records := ⟨{ seq := 0, active := none, crcOk := false }, { seq := 0, active := none, crcOk := false }⟩,
    token := none, repair := none, calib := [], laneOffsets := ⟨none, none⟩, actKeys := [], safeKeys := [], lifeKey := none,
    attKey := some 0, certs := [[], [], []], images := [[], [], [], [], []], ucode := ⟨0xFFFF#16, 0xFFFF#16⟩, canCfg := none,
    journal := [], openPage := none, openUnit := 1, nextPseq := 1, pages := [], badPages := [], pins := [],
    actPending := [], actUid := [], actUnproven := [] }

def PortSt.reset : PortSt :=
  { st := .bypass, delay := none, relocking := false, lossReported := false, lossQuiet := false, tx := none, kept := [], retries := [],
    naks := [], cut := [], sf := [], own := [] }

def Topo.none : Topo := { healed := false, p1Tail := 0, p0Tail := 0xFF#8 }

def FabSt.reset : FabSt :=
  { ports := ⟨PortSt.reset, PortSt.reset⟩, station := none, hop := 0, callN := 0, tickHop := 0xFF#8, cabled := none, sync := .inSync, missed := 0, gotTick := false,
    proofFrames := 0, proofReady := false, settled := true, upstream := none, topo := Topo.none, topoTick := none,
    topoGap := none, heard := 0, heardFrame := none, listened := 0, listenOver := false, duplicate := false, gap := false, awaitAdmit := false,
    refused := false, breakDue := none, rejoin := true,
    members := [], refusedHops := [], callNo := 0, ready := [], ends := ⟨none, none⟩, abortLate := 0, cutDrops := 0, inbox := [], seqs := [],
    streams := [], bulkFailed := [], bulkIn := [], bulkData := [], asm := [] }

def CrcUnit.reset : CrcUnit := { poly := 0, hit := false, raw := false, snoop := false, run := 0, expect := 0 }

def HostSt.reset : HostSt :=
  { irqStat0 := 0, irqStat1 := 0, irqEn0 := 0, irqEn1 := 0, hostwd := 0, wdCount := 0, wdExpired := false, crcEn := false,
    prevCrc := false, prevAccess := false, modeReq := 0, reqResult := 0, sampled := none, rewritten := false,
    hearth := false, fwMajor := 0, fwMinor := 0, lifeReg := 0, readShadow := [], writeShadow := [],
    crc := Vector.replicate 4 CrcUnit.reset, sdo := [] }

def MbxSt.reset : MbxSt :=
  { slots := Vector.replicate 8 .free, mem := [], queue := [], nonce := none, hostBits := 0, hostSet := 0, hostBitsNext := none,
    delivered := none, defaultsApply := false, holds := [], holdMask := 0, chanOps := [], owed := [], readmits := [], learn := none,
    learned := [], confirm := [], switch := none }

def CanSt.reset : CanSt :=
  { on := false, node := 0, nominal := 0, dataRate := 0, errorPassive := false, busOff := false, disabled := false,
    txq := [], asm := [] }

def IndSt.reset : IndSt :=
  { late := false, stbwd := false, oenOff := false, lateCnt := 0, seq := 0, oen := false, icD := [], icClk := false,
    icStb := false, run := false, trips := 0,
    skip := false, vector := none, back := none, front := [], latched := [] }

def JrnSt.reset : JrnSt :=
  { buf := [], lost := 0, closed := false, skip := [], sessions := ⟨none, none⟩, holds := [], cycles := ⟨none, none⟩, ended := ⟨[], []⟩,
    seen := none, rose := [] }

def Counts.zero : Counts :=
  { evalA := 0, evalB := 0, fablat := 0, linkerr := 0, retry := 0, trans := 0, lateA := false, lateB := false,
    lateInd := false, stale := 0, sfdrop := 0, safedisc := 0, canerr := 0 }

def Epoch.zero : Epoch :=
  { isPartial := false, testHold := false, frames := 0, first := 0, maxEvalA := 0, maxEvalB := 0, maxFablat := 0,
    linkerr := 0, retry := 0, trans := 0, lateA := 0, lateB := 0, lateInd := 0, stale := 0, sfdrop := 0, safedisc := 0,
    canerr := 0, ecc := 0, overflow := 0, discarded := 0, mbxDiscarded := 0, lateReplies := 0, mismatch := 0,
    timeouts := 0, crumbsLost := 0, analogOver := 0 }

def StatSt.reset : StatSt :=
  { live := Counts.zero, gen := 0, frame := 0, latched := Counts.zero, epoch := Epoch.zero, lastEpoch := Epoch.zero,
    egen := 0, jumped := false }

def ChipSt.init : ChipSt :=
  { present := false, authOk := false, authFail := false, warn := false, limit := false, uidChanged := false,
    noKey := false, count := 0, pending := 0, uid := [], advanceFailed := false }

def ActSt.reset : ActSt := { chips := [], scanDue := false, recoverDue := false, scanVia := [] }

def MeasSt.reset : MeasSt :=
  { m := List.replicate 8 (List.replicate 32 0), mstate := 0x01#8, count := 0, disabled := false }

def LockWindow.none : LockWindow := { seen := ⟨false, false⟩, free := ⟨true, true⟩ }

def TestSt.reset : TestSt :=
  { asked := none, lockouts := LockWindow.none, learned := false, hold := false, holdNext := false, justEnded := false, source := 0, results := [], softMap := ⟨[], []⟩, shutdown := 0,
    fromSafeHold := false }

/-- The block right after a power-on reset: VDD33 has risen, reset is still asserted, every register at its reset value. -/
def State.reset : State :=
  { pending := [], core := CoreSt.reset, nv := NvSt.new, crust := ⟨CrustSt.reset, CrustSt.reset⟩,
    lane := ⟨LaneSt.reset, LaneSt.reset⟩, fab := FabSt.reset, host := HostSt.reset, mbx := MbxSt.reset,
    can := CanSt.reset, ind := IndSt.reset, jrn := JrnSt.reset, stat := StatSt.reset, act := ActSt.reset,
    meas := MeasSt.reset, test := TestSt.reset, drawn := 0 }

end Sys2Proof.Machine
end

