-- ==== Sys2Proof/Config.lean ====
section
/-! DEFINITION. What the spec leaves to the implementation or does not give: free values, each an opaque constant without a
body, so that no statement can rest on a number of this model. Where a fresh value is drawn each time, the constant is
applied to the state's own counter `drawn`. -/

namespace Sys2Proof.Config

/-- A random byte: draw number and place in the string drawn (nonces of R395 and R463, the CHALLENGE of R461). -/
opaque freeByte : Nat → Nat → Byte

/-- A free truth value by draw number: whether an RSTN pulse of 1 to 10 us resets the core (R50), whether the CAN FD bus is free
when a frame is offered (R363). -/
opaque freeBit : Nat → Bool

/-- Lane A's form as its microcode reads the LANEA section (R138: the stream's encoding is internal to lane A), from the
section and the PARAM records: none where the stream is malformed. -/
opaque laneAForm : List Byte → List Machine.ParamRec → Option Machine.LaneForm

/-- How a block's ports lie in the rods of KIND 0x02 to 0x05 that name its instance (R139 gives each rod's inputs, output
and instance, and no port): for a block type and a count, the place among the rods' inputs of each input port, and among
their outputs of each output port. -/
opaque rodInputs : Byte → Nat → List Nat
opaque rodOutputs : Byte → Nat → List Nat

/-- The value sources of an instance in lane B's form (the sources of DOORPOS, ZEROSPEED and CMP): a rod record names beads
only. -/
opaque rodVals : List Byte → Nat → List Machine.ValSrc

/-- The bead index of a field input in lane B's form, none where the loaf uses no bead for it; and the bead designated as
the maintenance permit (R162): the spec gives no place for either in the loaf. -/
opaque laneBInput : List Byte → List Byte → InChan → Option Nat
opaque laneBPermit : List Byte → List Byte → Option Nat

/-- The private key that the crypto engine generates, by the number of its generation (R407). -/
opaque attestationKey : Nat → Nat

/-- The bytes of certificate 0, 1 or 2 (R408), from the attestation public key and ID_SERIAL, which the module's own holds. -/
opaque certificate : Nat → Nat × Nat → List Byte → List Byte

/-- How the BOOT crumb holds the self-test results of the boot run (R445; R439 gives them no bytes): block and result of each,
and a byte of its body after the quick-boot flag. -/
opaque bootResult : List (Byte × Byte) → Nat → Byte

/-- The state of lane memory that a slice test compresses, and other bytes measured at start-up that the spec names but
does not lay out: here the calibration record's bytes under M5 (R402), from the offsets it holds. -/
opaque calibrationBytes : Tab (Int × Int) → List Byte

/-- The encoding of one channel's tally and clean-frame count under the tally CRC (R255 does not give it). -/
opaque tallyBytes : Nat → Nat → Bool → List Byte

/-- A port's own transmit and receive latency, and the loop latency of a loop-timing end, in nanoseconds: calibrated at
production, the same for every module (R318), and not given by the spec. -/
opaque ownLatency : Nat
opaque loopLatency : Nat

end Sys2Proof.Config
end

