-- ==== Sys2Proof/Machine/Bytes.lean ====
section
/-! DEFINITION. Byte order, fields of byte strings and saturating counts. Every multi-byte field of the module is
little-endian (R133 of 06, R352 of 14, R374 of 15). -/

namespace Sys2Proof.Machine

/-- The lowest `n` bytes of a number, least significant first. -/
def leBytes : Nat → Nat → List Byte
  | 0, _ => []
  | n + 1, x => BitVec.ofNat 8 x :: leBytes n (x / 256)

/-- The number that bytes spell, least significant first. -/
def ofLe : List Byte → Nat
  | [] => 0
  | b :: r => b.toNat + 256 * ofLe r

def byteAt (l : List Byte) (i : Nat) : Byte := l.getD i 0

/-- `n` bytes from offset `o`. -/
def bytesAt (l : List Byte) (o n : Nat) : List Byte := (l.drop o).take n

def natAt (l : List Byte) (o n : Nat) : Nat := ofLe (bytesAt l o n)

def u16At (l : List Byte) (o : Nat) : W16 := BitVec.ofNat 16 (natAt l o 2)

def u32At (l : List Byte) (o : Nat) : W32 := BitVec.ofNat 32 (natAt l o 4)

def u64At (l : List Byte) (o : Nat) : W64 := BitVec.ofNat 64 (natAt l o 8)

def le16 (x : W16) : List Byte := leBytes 2 x.toNat

def le32 (x : W32) : List Byte := leBytes 4 x.toNat

def le64 (x : W64) : List Byte := leBytes 8 x.toNat

/-- A 32-bit word read as two's complement. -/
def sint32 (x : W32) : Int := x.toInt

/-- A number as a 32-bit two's complement word. -/
def wordOfInt (x : Int) : W32 := BitVec.ofInt 32 x

def zeros (n : Nat) : List Byte := List.replicate n 0

/-- A list brought to exactly `n` bytes, with 0x00 behind. -/
def padTo (n : Nat) (l : List Byte) : List Byte := (l ++ zeros (n - l.length)).take n

def bitOf (b : Byte) (i : Nat) : Bool := b.getLsbD i

def natOfBool (b : Bool) : Nat := if b then 1 else 0

def byteOfBool (b : Bool) : Byte := if b then 1 else 0

/-- The byte whose bit `i` is the `i`-th truth value. -/
def byteOfBits : List Bool → Byte
  | l => BitVec.ofNat 8 (go l)
where
  go : List Bool → Nat
    | [] => 0
    | b :: r => natOfBool b + 2 * go r

/-- Bytes with the bits of a list, bit 0 of the first byte first. -/
def packBits : Nat → List Bool → List Byte
  | 0, _ => []
  | n + 1, l => byteOfBits (l.take 8) :: packBits n (l.drop 8)

/-- One more, not beyond the greatest value of the width. -/
def satInc {w : Nat} (x : BitVec w) : BitVec w := if x = BitVec.allOnes w then x else x + 1

/-- `n` more, not beyond the greatest value of the width. -/
def satAdd {w : Nat} (x : BitVec w) (n : Nat) : BitVec w := BitVec.ofNat w (min (x.toNat + n) (2 ^ w - 1))

def maxBv {w : Nat} (x y : BitVec w) : BitVec w := if x.toNat < y.toNat then y else x

def clampInt (lo hi x : Int) : Int := if x < lo then lo else if hi < x then hi else x

/-- The list with element `i` replaced by `x`. -/
def listSet {α : Type} : List α → Nat → α → List α
  | [], _, _ => []
  | _ :: r, 0, x => x :: r
  | y :: r, i + 1, x => y :: listSet r i x

/-- The indices below `n` at which `p` holds. -/
def indicesWhere (n : Nat) (p : Nat → Bool) : List Nat := (List.range n).filter p

def nodupInsert (l : List Nat) (x : Nat) : List Nat := if l.contains x then l else l ++ [x]

end Sys2Proof.Machine
end

