-- ==== Sys2Proof/Machine/Check.lean ====
section
/-! DEFINITION. The check-value algorithms: CRC-8 0x2F (R348 of 14), CRC-16 0x1021 (R334 of 13), CRC-32 (R285 of 12) and
CRC-32C (R136 of 06), one byte at a time, as the host check-value units run them (R360 of 14). -/

namespace Sys2Proof.Machine

/-- One bit of an unreflected CRC of width `w`. -/
def crcStepMsb {w : Nat} (poly c : BitVec w) : BitVec w :=
  if c.msb then (c <<< 1) ^^^ poly else c <<< 1

/-- One bit of a reflected CRC; `poly` is the polynomial with its bits reversed. -/
def crcStepLsb {w : Nat} (poly c : BitVec w) : BitVec w :=
  if c.getLsbD 0 then (c >>> 1) ^^^ poly else c >>> 1

def iterate {α : Type} (f : α → α) : Nat → α → α
  | 0, x => x
  | n + 1, x => iterate f n (f x)

def crc8Byte (c b : Byte) : Byte := iterate (crcStepMsb 0x2F#8) 8 (c ^^^ b)

def crc16Byte (c : W16) (b : Byte) : W16 := iterate (crcStepMsb 0x1021#16) 8 (c ^^^ ((b.setWidth 16) <<< 8))

/-- 0x04C1_1DB7 reflected. -/
def crc32Byte (c : W32) (b : Byte) : W32 := iterate (crcStepLsb 0xEDB88320#32) 8 (c ^^^ b.setWidth 32)

/-- 0x1EDC_6F41 reflected. -/
def crc32cByte (c : W32) (b : Byte) : W32 := iterate (crcStepLsb 0x82F63B78#32) 8 (c ^^^ b.setWidth 32)

/-- R348: initial value 0xFF, final XOR 0xFF. -/
def crc8 (l : List Byte) : Byte := (l.foldl crc8Byte 0xFF#8) ^^^ 0xFF#8

/-- R334: a running CRC-16 fed with bytes. -/
def crc16From (c : W16) (l : List Byte) : W16 := l.foldl crc16Byte c

/-- R285. -/
def crc32 (l : List Byte) : W32 := (l.foldl crc32Byte 0xFFFFFFFF#32) ^^^ 0xFFFFFFFF#32

/-- R136 with a given initial value (R322's seeds). -/
def crc32cFrom (seed : W32) (l : List Byte) : W32 := (l.foldl crc32cByte seed) ^^^ 0xFFFFFFFF#32

/-- R136. -/
def crc32c (l : List Byte) : W32 := crc32cFrom 0xFFFFFFFF#32 l

end Sys2Proof.Machine
end

