-- ==== Sys2Proof/Machine/Hash.lean ====
section
/-! DEFINITION. SHA-256 (the loaf trailer of R136, the measurements of R402) and HMAC-SHA-256 (the lifecycle and key
commands of R74 and R395, the actuator chips of R462), as FIPS 180-4 and FIPS 198-1 define them. -/

namespace Sys2Proof.Machine

/-- The round constants. -/
def shaK1 : List W32 :=
  [0x428a2f98#32, 0x71374491#32, 0xb5c0fbcf#32, 0xe9b5dba5#32, 0x3956c25b#32, 0x59f111f1#32, 0x923f82a4#32, 0xab1c5ed5#32,
   0xd807aa98#32, 0x12835b01#32, 0x243185be#32, 0x550c7dc3#32, 0x72be5d74#32, 0x80deb1fe#32, 0x9bdc06a7#32, 0xc19bf174#32,
   0xe49b69c1#32, 0xefbe4786#32, 0x0fc19dc6#32, 0x240ca1cc#32, 0x2de92c6f#32, 0x4a7484aa#32, 0x5cb0a9dc#32, 0x76f988da#32,
   0x983e5152#32, 0xa831c66d#32, 0xb00327c8#32, 0xbf597fc7#32, 0xc6e00bf3#32, 0xd5a79147#32, 0x06ca6351#32, 0x14292967#32]

def shaK2 : List W32 :=
  [0x27b70a85#32, 0x2e1b2138#32, 0x4d2c6dfc#32, 0x53380d13#32, 0x650a7354#32, 0x766a0abb#32, 0x81c2c92e#32, 0x92722c85#32,
   0xa2bfe8a1#32, 0xa81a664b#32, 0xc24b8b70#32, 0xc76c51a3#32, 0xd192e819#32, 0xd6990624#32, 0xf40e3585#32, 0x106aa070#32,
   0x19a4c116#32, 0x1e376c08#32, 0x2748774c#32, 0x34b0bcb5#32, 0x391c0cb3#32, 0x4ed8aa4a#32, 0x5b9cca4f#32, 0x682e6ff3#32,
   0x748f82ee#32, 0x78a5636f#32, 0x84c87814#32, 0x8cc70208#32, 0x90befffa#32, 0xa4506ceb#32, 0xbef9a3f7#32, 0xc67178f2#32]

/-- A hash state, eight words. -/
structure ShaSt where
  a : W32
  b : W32
  c : W32
  d : W32
  e : W32
  f : W32
  g : W32
  h : W32
  deriving DecidableEq, Repr

def shaInit : ShaSt :=
  ⟨0x6a09e667#32, 0xbb67ae85#32, 0x3c6ef372#32, 0xa54ff53a#32, 0x510e527f#32, 0x9b05688c#32, 0x1f83d9ab#32, 0x5be0cd19#32⟩

def rotr (x : W32) (n : Nat) : W32 := x.rotateRight n

/-- One round with the round constant and message word added together. -/
def shaRound (s : ShaSt) (kw : W32) : ShaSt :=
  let s1 := rotr s.e 6 ^^^ rotr s.e 11 ^^^ rotr s.e 25
  let ch := (s.e &&& s.f) ^^^ ((~~~ s.e) &&& s.g)
  let t1 := s.h + s1 + ch + kw
  let s0 := rotr s.a 2 ^^^ rotr s.a 13 ^^^ rotr s.a 22
  let mj := (s.a &&& s.b) ^^^ (s.a &&& s.c) ^^^ (s.b &&& s.c)
  ⟨t1 + (s0 + mj), s.a, s.b, s.c, s.d + t1, s.e, s.f, s.g⟩

/-- The message schedule: `w` holds the last sixteen words, oldest first; the round constants are used up in order. -/
def shaRounds : List W32 → List W32 → ShaSt → ShaSt
  | [], _, s => s
  | k :: ks, w, s =>
    let w0 := w.getD 0 0
    let x1 := w.getD 1 0
    let x14 := w.getD 14 0
    let s0 := rotr x1 7 ^^^ rotr x1 18 ^^^ (x1 >>> 3)
    let s1 := rotr x14 17 ^^^ rotr x14 19 ^^^ (x14 >>> 10)
    shaRounds ks (w.drop 1 ++ [w0 + s0 + w.getD 9 0 + s1]) (shaRound s (k + w0))

/-- The big-endian word of four bytes. -/
def beWord (l : List Byte) : W32 := BitVec.ofNat 32 (ofLe (l.take 4).reverse)

def beWords : Nat → List Byte → List W32
  | 0, _ => []
  | n + 1, l => beWord l :: beWords n (l.drop 4)

def shaBlock (s : ShaSt) (blk : List Byte) : ShaSt :=
  let r := shaRounds (shaK1 ++ shaK2) (beWords 16 blk) s
  ⟨s.a + r.a, s.b + r.b, s.c + r.c, s.d + r.d, s.e + r.e, s.f + r.f, s.g + r.g, s.h + r.h⟩

def shaBlocks : Nat → List Byte → ShaSt → ShaSt
  | 0, _, s => s
  | n + 1, l, s => shaBlocks n (l.drop 64) (shaBlock s (l.take 64))

/-- The message with its padding and its length in bits. -/
def shaPad (l : List Byte) : List Byte :=
  let z := (64 - (l.length + 9) % 64) % 64
  l ++ [0x80#8] ++ zeros z ++ (leBytes 8 (8 * l.length)).reverse

def ShaSt.bytes (s : ShaSt) : List Byte :=
  [s.a, s.b, s.c, s.d, s.e, s.f, s.g, s.h].flatMap fun x => (le32 x).reverse

def sha256 (l : List Byte) : List Byte :=
  let p := shaPad l
  (shaBlocks (p.length / 64) p shaInit).bytes

def hmacSha256 (key msg : List Byte) : List Byte :=
  let k := padTo 64 (if 64 < key.length then sha256 key else key)
  sha256 (k.map (· ^^^ 0x5C#8) ++ sha256 (k.map (· ^^^ 0x36#8) ++ msg))

end Sys2Proof.Machine
end

