-- ==== Sys2Proof/Machine/Bead.lean ====
section
/-! DEFINITION. Beads and the logic algebra (05): the bead's bits and parity (R114, R115), sound and trusted (R116), the
primitives (R118-R120), logic rods (R140 of 06), ageing and override (R122-R126). -/

namespace Sys2Proof.Machine

/-- R114: the bits of a bead. -/
def beadV (b : Byte) : Bool := b.getLsbD 0
def beadQ (b : Byte) : Bool := b.getLsbD 1
def beadT (b : Byte) : Bool := b.getLsbD 2
def beadD (b : Byte) : Bool := b.getLsbD 3
def beadAge (b : Byte) : Nat := ((b >>> 4) &&& 3#8).toNat
def beadF (b : Byte) : Bool := b.getLsbD 6

/-- The number of ones among the lowest `n` bits. -/
def onesBelow (b : Byte) : Nat → Nat
  | 0 => 0
  | n + 1 => natOfBool (b.getLsbD n) + onesBelow b n

/-- R114: bits [7:0] hold an odd number of ones. -/
def parityOk (b : Byte) : Bool := onesBelow b 8 % 2 == 1

/-- R115: P recomputed over bits [6:0]. -/
def withParity (b : Byte) : Byte :=
  let x := b &&& 0x7F#8
  if onesBelow x 7 % 2 == 1 then x else x ||| 0x80#8

/-- The evidence of a bead apart from V (R120). -/
structure Evid where
  q : Bool
  t : Bool
  d : Bool
  f : Bool
  age : Nat
  deriving DecidableEq, Repr

def Evid.sound : Evid := { q := true, t := true, d := true, f := false, age := 0 }

def evidOf (b : Byte) : Evid := { q := beadQ b, t := beadT b, d := beadD b, f := beadF b, age := beadAge b }

/-- A bead of a value and evidence, AGE saturating at 3, with P. -/
def mkBead (v : Bool) (e : Evid) : Byte :=
  withParity (BitVec.ofNat 8 (natOfBool v + 2 * natOfBool e.q + 4 * natOfBool e.t + 8 * natOfBool e.d +
    16 * min e.age 3 + 64 * natOfBool e.f))

def sound0 : Byte := 0x0E#8
def sound1 : Byte := 0x8F#8
def paritySub : Byte := 0xB0#8
def retiredBead : Byte := 0xC8#8
def timeoutBead : Byte := 0x38#8
def host0 : Byte := 0x08#8
def host1 : Byte := 0x89#8

def soundBead (v : Bool) : Byte := if v then sound1 else sound0

def hostBead (v : Bool) : Byte := if v then host1 else host0

/-- R116. -/
def isSound (b : Byte) : Bool := parityOk b && beadQ b && beadT b && beadD b && !beadF b

def isTrusted (agelim : Nat) (b : Byte) : Bool := isSound b && decide (beadAge b ≤ agelim)

def isTT (agelim : Nat) (b : Byte) : Bool := isTrusted agelim b && beadV b

def isSound0 (b : Byte) : Bool := isSound b && !beadV b

/-- R123: a bead that fails the check is replaced by 0xB0. -/
def parityChecked (b : Byte) : Byte := if parityOk b then b else paritySub

/-- R161: sound with V = 0 in the previous frame and trusted-true in this one. -/
def validEdge (agelim : Nat) (before now : Byte) : Bool := isSound0 before && isTT agelim now

/-- The same evidence with V replaced. -/
def setV (b : Byte) (v : Bool) : Byte := withParity (if v then b ||| 1#8 else b &&& 0xFE#8)

def clearD (b : Byte) : Byte := withParity (b &&& 0x77#8)

def setAge (b : Byte) (n : Nat) : Byte := withParity ((b &&& 0x4F#8) ||| BitVec.ofNat 8 (16 * min n 3))

/-- R122: AGE one more, saturating at 3. -/
def aged (b : Byte) : Byte := setAge b (beadAge b + 1)

/-- R120: the merge of the deciding inputs; with none, the evidence of a constant (R140). -/
def mergeEvid : List Byte → Evid
  | [] => Evid.sound
  | b :: r =>
    let e := mergeEvid r
    { q := beadQ b && e.q, t := beadT b && e.t, d := beadD b && e.d, f := beadF b || e.f, age := max (beadAge b) e.age }

/-- The lowest AGE of a list of beads. -/
def lowestAge : List Byte → Nat
  | [] => 3
  | b :: r => min (beadAge b) (lowestAge r)

def andV (l : List Byte) : Bool := l.all beadV
def orV (l : List Byte) : Bool := l.any beadV
def xorV (l : List Byte) : Bool := l.foldl (fun a b => a != beadV b) false

/-- R118, R120: a sound 0 decides, the one with the lowest AGE; otherwise every input. -/
def andBeads (l : List Byte) : Byte :=
  let z := l.filter isSound0
  if z.isEmpty then mkBead (andV l) (mergeEvid l) else mkBead false { Evid.sound with age := lowestAge z }

/-- R118, R120: a sound 1 decides, the one with the lowest AGE; otherwise every input. -/
def orBeads (l : List Byte) : Byte :=
  let o := l.filter fun b => isSound b && beadV b
  if o.isEmpty then mkBead (orV l) (mergeEvid l) else mkBead true { Evid.sound with age := lowestAge o }

def xorBeads (l : List Byte) : Byte := mkBead (xorV l) (mergeEvid l)

/-- R120: NOT copies the evidence and inverts V. -/
def notBead (b : Byte) : Byte := setV b (!beadV b)

/-- The second lowest AGE of at least two beads. -/
def secondAge (l : List Byte) : Nat :=
  match l with
  | [a, b] => max (beadAge a) (beadAge b)
  | [a, b, c] =>
    min (max (beadAge a) (beadAge b)) (min (max (beadAge a) (beadAge c)) (max (beadAge b) (beadAge c)))
  | _ => 3

/-- R119, R120: two sound inputs of one value decide. -/
def majBeads (l : List Byte) : Byte :=
  let o := l.filter fun b => isSound b && beadV b
  let z := l.filter isSound0
  if 2 ≤ o.length then mkBead true { Evid.sound with age := secondAge o }
  else if 2 ≤ z.length then mkBead false { Evid.sound with age := secondAge z }
  else mkBead (decide (2 ≤ (l.filter beadV).length)) (mergeEvid l)

/-- Bit `k` of a natural number. -/
def natBit (n k : Nat) : Bool := n.testBit k

/-- The input vector of a rod: bit k is input k's V (R139). -/
def rodVector : List Byte → Nat
  | [] => 0
  | b :: r => natOfBool (beadV b) + 2 * rodVector r

/-- Bits of `v` and `w` agree wherever `mask` has a one, over `n` bits. -/
def agreeOn (mask v w : Nat) : Nat → Bool
  | 0 => true
  | n + 1 => (!natBit mask n || natBit v n == natBit w n) && agreeOn mask v w n

/-- The inputs of `mask` alone fix the output of the rod's table (R140). -/
def rodFixed (table : W64) (n v mask : Nat) : Bool :=
  (List.range (2 ^ n)).all fun w => !agreeOn mask v w n || table.getLsbD w == table.getLsbD v

/-- The elements of `l` that a mask picks. -/
def pickMask (l : List Byte) (mask : Nat) : List Byte :=
  (l.zipIdx.filter fun e => natBit mask e.2).map (·.1)

/-- The better of two candidate deciding sets, as size and greatest AGE: fewer inputs, then the lower greatest AGE. -/
def rodBetter (a b : Option (Nat × Nat)) : Option (Nat × Nat) :=
  match a, b with
  | none, x => x
  | x, none => x
  | some (n, g), some (m, h) => if n < m then some (n, g) else if m < n then some (m, h) else some (n, min g h)

/-- R140: the deciding set of a logic rod, if some set of sound inputs fixes the output. -/
def rodDeciding (table : W64) (l : List Byte) : Option (Nat × Nat) :=
  let n := l.length
  let v := rodVector l
  (List.range (2 ^ n)).foldl (fun acc mask =>
    let s := pickMask l mask
    if s.all isSound && rodFixed table n v mask then rodBetter acc (some (s.length, (mergeEvid s).age)) else acc) none

/-- R140: the output bead of a logic rod. -/
def rodBead (table : W64) (l : List Byte) : Byte :=
  let v := table.getLsbD (rodVector l)
  match rodDeciding table l with
  | some (_, age) => mkBead v { Evid.sound with age := age }
  | none => mkBead v (mergeEvid l)

/-- R124: a maintenance force sets V and F. -/
def forcedBead (v : Bool) (b : Byte) : Byte := setV (withParity (b ||| 0x40#8)) v

/-- R125: the bead of an isolated channel. -/
def overrideBead (v : Bool) : Byte := mkBead v { q := false, t := false, d := true, f := true, age := 0 }

/-- R129: retirement before override before force. -/
def appliedBead (retired : Bool) (iso force : Option Bool) (b : Byte) : Byte :=
  if retired then retiredBead
  else match iso with
    | some v => overrideBead v
    | none =>
      match force with
      | some v => forcedBead v b
      | none => b

end Sys2Proof.Machine
end

