-- ==== Sys2Proof/Machine/Tab.lean ====
section
/-! DEFINITION. Finite tables in canonical form: keys strictly rising and no entry equal to what an unlisted key stands for.
The journal memory is such a table of bytes (R437, R438 of 18), and so are the bead memories and the channel records. -/

namespace Sys2Proof.Machine

/-- The entry listed at key `n`, if any. -/
def tabFind {α : Type} : Tab α → Nat → Option α
  | [], _ => none
  | (k, v) :: r, n => if n = k then some v else tabFind r n

/-- The table with `x` listed at key `n`, the keys kept rising. -/
def tabPut {α : Type} : Tab α → Nat → α → Tab α
  | [], n, x => [(n, x)]
  | (k, v) :: r, n, x =>
    if n < k then (n, x) :: (k, v) :: r
    else if n = k then (n, x) :: r
    else (k, v) :: tabPut r n x

/-- The table with nothing listed at key `n`. -/
def tabDel {α : Type} : Tab α → Nat → Tab α
  | [], _ => []
  | (k, v) :: r, n => if n = k then tabDel r n else (k, v) :: tabDel r n

/-- What key `n` stands for, where an unlisted key stands for `d`. -/
def tabGet {α : Type} (d : α) (t : Tab α) (n : Nat) : α := (tabFind t n).getD d

/-- The table in which key `n` stands for `x`; an entry equal to `d` is not listed. -/
def tabSet {α : Type} [DecidableEq α] (d : α) (t : Tab α) (n : Nat) (x : α) : Tab α :=
  if x = d then tabDel t n else tabPut t n x

/-- The table with the value at key `n` changed by `f`. -/
def tabMod {α : Type} [DecidableEq α] (d : α) (t : Tab α) (n : Nat) (f : α → α) : Tab α :=
  tabSet d t n (f (tabGet d t n))

/-- The table with `f` applied to the value of each of the keys 0 to `n` - 1. -/
def tabEach {α : Type} [DecidableEq α] (d : α) (t : Tab α) : Nat → (Nat → α → α) → Tab α
  | 0, _ => t
  | n + 1, f => tabMod d (tabEach d t n f) n (f n)

/-- The table with `f` applied to each listed entry, entries that become `d` no longer listed. -/
def tabMap {α : Type} [DecidableEq α] (d : α) (t : Tab α) (f : Nat → α → α) : Tab α :=
  (t.map fun e => (e.1, f e.1 e.2)).filter fun e => decide (e.2 ≠ d)

/-- The keys of a table rise strictly from above `lo`. -/
def tabRising {α : Type} : Option Nat → Tab α → Bool
  | _, [] => true
  | lo, (k, _) :: r =>
    (match lo with
     | none => true
     | some l => decide (l < k)) && tabRising (some k) r

/-- The canonical form of a table whose unlisted keys stand for `d`. -/
def tabWf {α : Type} [DecidableEq α] (d : α) (t : Tab α) : Bool :=
  tabRising none t && t.all fun e => decide (e.2 ≠ d)

/-- The memories of the block that the spec addresses byte by byte (the journal of R437, the slot bytes of R352): unlisted
bytes read 0x00. -/
def memRead (m : Tab Byte) (a : Nat) : Byte := tabGet 0 m a

def memWrite (m : Tab Byte) (a : Nat) (v : Byte) : Tab Byte := tabSet 0 m a v

/-- Consecutive bytes written from address `a` up. -/
def memWriteBytes : Tab Byte → Nat → List Byte → Tab Byte
  | m, _, [] => m
  | m, a, b :: r => memWriteBytes (memWrite m a b) (a + 1) r

/-- `n` consecutive bytes read from address `a` up. -/
def memReadBytes (m : Tab Byte) (a n : Nat) : List Byte := (List.range n).map fun i => memRead m (a + i)

/-- The canonical form of a byte memory. -/
def Memory.wf (m : Tab Byte) : Bool := tabWf 0 m

end Sys2Proof.Machine
end

