-- ==== Sys2Proof/Machine/Blocks.lean ====
section
/-! DEFINITION. The function block library (07): one frame of each block type as a function of its parameters, its input
beads and values and its own state. The inputs of a block stand in its port order: TON, TOF, TP, EDGE: IN; RSLATCH: S, R;
DUALCH, ESTOP, OSSD, MANREL: A, B, RST; GUARD: A, B, RST, LA, LB; MODESEL: A0, B0, A1, B1 and on; CLOSEDLOCKED: CLOSED,
LOCKED, POS, HOME; OBSTACLE: SENSE0-3, CLOSING, CYCLEEND, RST; RELEASE: PERMIT0-5; QPAIR: DEMAND, FB, RST; LOCKDRV: DEMAND,
RST; RAILCUT: ENABLE, MIRROR, RST; EXPORT: IN0-31; PROOF: LOCAL; COUNT: CU, CD, RESET. -/

namespace Sys2Proof.Machine

/-- The codes of the block types (07, block types table). -/
def tyTON : Byte := 0x08#8
def tyTOF : Byte := 0x09#8
def tyTP : Byte := 0x0A#8
def tyRSLATCH : Byte := 0x0C#8
def tyDUALCH : Byte := 0x10#8
def tyESTOP : Byte := 0x11#8
def tyOSSD : Byte := 0x12#8
def tyGUARD : Byte := 0x13#8
def tyMODESEL : Byte := 0x14#8
def tyEDGE : Byte := 0x15#8
def tyDOORPOS : Byte := 0x18#8
def tyCLOSEDLOCKED : Byte := 0x19#8
def tyOBSTACLE : Byte := 0x1A#8
def tyRELEASE : Byte := 0x1B#8
def tyZEROSPEED : Byte := 0x1C#8
def tyMANREL : Byte := 0x1D#8
def tyQPAIR : Byte := 0x20#8
def tyLOCKDRV : Byte := 0x21#8
def tyRAILCUT : Byte := 0x22#8
def tyEXPORT : Byte := 0x28#8
def tyIMPORT : Byte := 0x29#8
def tyPROOF : Byte := 0x2A#8
def tyPROOFHEAD : Byte := 0x2B#8
def tyCOUNT : Byte := 0x30#8
def tyCMP : Byte := 0x31#8
def tyHOSTBIT : Byte := 0x32#8
def tyDIAG : Byte := 0x33#8

/-- Parameter `i` of a record as a whole number, and as two's complement (R158). -/
def parN (r : ParamRec) (i : Nat) : Nat := (r.words.getD i 0).toNat
def parI (r : ParamRec) (i : Nat) : Int := (r.words.getD i 0).toInt
def parB (r : ParamRec) (i : Nat) : Bool := decide (parN r i ≠ 0)

/-- The place of AGELIM in the parameter list of a type (07), if it has one. -/
def agelimAt (ty : Byte) : Option Nat :=
  if ty = tyTON ∨ ty = tyTOF ∨ ty = tyTP ∨ ty = tyESTOP ∨ ty = tyCLOSEDLOCKED ∨ ty = tyRELEASE ∨ ty = tyMANREL then some 1
  else if ty = tyOSSD ∨ ty = tyMODESEL ∨ ty = tyOBSTACLE ∨ ty = tyRAILCUT ∨ ty = tyCOUNT then some 2
  else if ty = tyDUALCH then some 3
  else if ty = tyGUARD ∨ ty = tyZEROSPEED then some 4
  else if ty = tyDOORPOS ∨ ty = tyCMP ∨ ty = tyLOCKDRV then some 5
  else if ty = tyQPAIR then some 7
  else if ty = tyPROOF then some 0
  else none

/-- AGELIM of a block, default 1 (R160). -/
def agelimOf (r : ParamRec) : Nat :=
  match agelimAt r.ty with
  | some i => parN r i
  | none => 1

/-- RESTART of a block: fixed at 1 for ESTOP and MANREL (07). -/
def restartOf (r : ParamRec) : Bool :=
  if r.ty = tyESTOP ∨ r.ty = tyMANREL then true
  else if r.ty = tyDUALCH ∨ r.ty = tyGUARD then parB r 2
  else if r.ty = tyOSSD ∨ r.ty = tyRAILCUT then parB r 1
  else if r.ty = tyQPAIR then parB r 6
  else if r.ty = tyLOCKDRV then parB r 4
  else false

/-- What a block reads of its lane beside its inputs. -/
structure BlkCtx where
  /-- Restart latches are held at 0x0E (R81). -/
  hold : Bool
  /-- Host bits as last delivered to the lanes. -/
  hostBits : Option W64
  /-- Host bits whose bead reached the lane in this frame with a parity error (R123). -/
  hostBad : List Nat
  /-- PROOFHEAD's SEG in this frame. -/
  seg : Byte
  /-- The DOORPOS offsets in force, by pair code. -/
  offsets : Tab (Int × Int)
  /-- Import beads by instance are in the block state; DIAG's answers by selection code (those with V = 1). -/
  diagOn : List Nat
  deriving DecidableEq, Repr

/-- A timer one tick on while `run` holds, saturating at `preset`; 0 in the frame in which it starts (R159). -/
def timerRun (t : Timer) (run : Bool) (preset : Nat) : Timer :=
  if run then
    let e := if t.running then min (t.elapsed + 1) preset else 0
    { elapsed := e, running := true, done := decide (preset ≤ e) }
  else Timer.stopped

/-- The input at a port, an unsound 0 where the port is not connected. -/
def inAt (ins : List (Option Byte)) (i : Nat) : Byte := ((ins.getD i none)).getD host0

def inConnected (ins : List (Option Byte)) (i : Nat) : Bool := (ins.getD i none).isSome

/-- R161: the restart latch after this frame. -/
def restartLatch (hold : Bool) (agelim : Nat) (latch rstBefore rst unlatched : Byte) : Byte :=
  if hold || !isTT agelim unlatched then sound0
  else if validEdge agelim rstBefore rst then sound1
  else latch

/-- R164: discrepancy of one pair: its state code, its timer and whether it agreed at 0. -/
def discrepancy (disc : Nat) (a b code : Byte) (t : Timer) (own : Bool) : Byte × Timer × Bool :=
  let differ := beadV a != beadV b
  let t' := timerRun t differ disc
  let timing := code == 1#8 || code == 3#8
  let w := if timing then code == 3#8 else !own
  let left := code == 2#8 && isSound0 a && isSound0 b
  let code' : Byte :=
    if code == 2#8 && !left then 2
    else if !differ then (if timing && beadV a == w then 2 else 0)
    else if t'.done then 2
    else if w then 3 else 1
  (code', t', !differ && !beadV a)

/-- DUALCH, ESTOP, OSSD, MANREL and GUARD: the two-channel core with its restart interlock (R161, R164). -/
def stepTwoChannel (c : BlkCtx) (r : ParamRec) (st : BlkSt) (ins : List (Option Byte)) : BlkSt × List Byte :=
  let equiv := if r.ty = tyDUALCH ∨ r.ty = tyGUARD then parB r 0 else true
  let disc := if r.ty = tyDUALCH ∨ r.ty = tyGUARD then parN r 1 else parN r 0
  let lock := decide (r.ty = tyGUARD) && parB r 3
  let agelim := agelimOf r
  let a := inAt ins 0
  let b := if equiv then inAt ins 1 else notBead (inAt ins 1)
  let rst := inAt ins 2
  let la := inAt ins 3
  let lb := inAt ins 4
  let (code, t, own) := discrepancy disc a b st.code st.tmr st.own
  let (code2, t2, own2) := if lock then discrepancy disc la lb st.code2 st.tmr2 st.own2 else (st.code2, st.tmr2, st.own2)
  let bad := code == 2#8 || (lock && code2 == 2#8)
  let raw := if lock then andBeads [a, b, la, lb] else andBeads [a, b]
  let unl := if bad then clearD raw else raw
  let latch := restartLatch c.hold agelim st.latch st.edge0 rst unl
  let latched := if restartOf r then andBeads [unl, latch] else unl
  let out := if bad then clearD latched else latched
  ({ st with code := code, tmr := t, own := own, code2 := code2, tmr2 := t2, own2 := own2,
             latch := if restartOf r then latch else st.latch, edge0 := rst },
   if r.ty = tyMANREL then [out, notBead out] else [out])

/-- TON (07, R179). -/
def stepTon (r : ParamRec) (st : BlkSt) (x : Byte) : BlkSt × List Byte :=
  let pt := parN r 0
  let on := isTT (agelimOf r) x
  let t := timerRun st.tmr on pt
  ({ st with tmr := t }, [if pt = 0 then x else setV x (on && t.done)])

/-- TOF (07). -/
def stepTof (r : ParamRec) (st : BlkSt) (x : Byte) : BlkSt × List Byte :=
  let pt := parN r 0
  if isTT (agelimOf r) x then ({ st with tmr := Timer.stopped, own := true }, [x])
  else if isSound0 x && (st.own || st.tmr.running) then
    let t := timerRun st.tmr true pt
    if t.done then ({ st with tmr := { t with running := false }, own := false }, [setV x false])
    else ({ st with tmr := t, own := true }, [setV x true])
  else ({ st with tmr := Timer.stopped, own := false }, [setV x false])

/-- TP (07). -/
def stepTp (r : ParamRec) (st : BlkSt) (x : Byte) : BlkSt × List Byte :=
  let pt := parN r 0
  let t := timerRun st.tmr st.tmr.running pt
  let going := st.tmr.running && isSound x && !t.done
  if going then ({ st with tmr := t, edge0 := x }, [setV x true])
  else if validEdge (agelimOf r) st.edge0 x then
    ({ st with tmr := { elapsed := 0, running := true, done := false }, edge0 := x }, [setV x true])
  else
    ({ st with tmr := if st.tmr.running && isSound x then { t with running := false } else Timer.stopped, edge0 := x },
     [setV x false])

/-- RSLATCH (07). -/
def stepRslatch (st : BlkSt) (s r : Byte) : BlkSt × List Byte :=
  let o := andBeads [notBead r, orBeads [s, st.latch]]
  ({ st with latch := o }, [o])

/-- The positions 0 to `n` - 1 of MODESEL as (A, B). -/
def modeselPairs (ins : List (Option Byte)) (n : Nat) : List (Byte × Byte) :=
  (List.range n).map fun i => (inAt ins (2 * i), inAt ins (2 * i + 1))

/-- MODESEL (R165). -/
def stepModesel (r : ParamRec) (st : BlkSt) (ins : List (Option Byte)) : BlkSt × List Byte :=
  let ps := modeselPairs ins (parN r 0)
  let sel := fun (p : Byte × Byte) => isSound p.1 && beadV p.1 && isSound p.2 && beadV p.2
  let off := fun (p : Byte × Byte) => isSound0 p.1 && isSound0 p.2
  let valid := (ps.filter sel).length == 1 && ps.all fun p => sel p || off p
  if valid then
    ({ st with code := 0, tmr := Timer.stopped }, ps.map fun p => mkBead (sel p) (mergeEvid [p.1, p.2]))
  else
    let t := timerRun st.tmr true (parN r 1)
    let bad := st.code == 2#8 || t.done
    ({ st with code := if bad then 2 else 1, tmr := t },
     ps.map fun p => if bad then clearD (andBeads [p.1, p.2]) else andBeads [p.1, p.2])

/-- EDGE (R166). -/
def stepEdge (r : ParamRec) (st : BlkSt) (x : Byte) : BlkSt × List Byte :=
  let p := parityChecked st.edge0
  let dir := parN r 0
  let rise := !beadV p && beadV x
  let fall := beadV p && !beadV x
  let v := (natBit dir 0 && rise) || (natBit dir 1 && fall)
  ({ st with edge0 := x }, [mkBead v { mergeEvid [p, x] with age := beadAge x }])

/-- The evidence of a list of values, with D as given. -/
def valEvid (d : Bool) : List Val → Evid
  | [] => { Evid.sound with d := d }
  | v :: r =>
    let e := valEvid d r
    { q := v.q && e.q, t := v.t && e.t, d := d, f := v.f || e.f, age := max v.age e.age }

/-- The timer and code of a difference that must last longer than `disc` (R176: DOORPOS, CMP). -/
def diffTimed (code : Byte) (t : Timer) (past : Bool) (disc : Nat) : Byte × Timer :=
  let t' := timerRun t past disc
  (if !past then 0 else if code == 2#8 || t'.done then 2 else 1, t')

/-- DOORPOS (R167); `src` are the pair codes and values of CNTA and CNTB. DESIGN CHOICE (log 66): OPEN asks both corrected
counts to be at or above OPENMIN, and MOVING is set where either raw count has moved by more than MOVEMIN since the frame
evaluated before. -/
def stepDoorpos (c : BlkCtx) (r : ParamRec) (st : BlkSt) (src : List (ValSrc × Val)) : BlkSt × List Byte × Val :=
  let ofs := fun (s : ValSrc) => match s with
    | .quad p => tabFind c.offsets p
    | _ => none
  let corr : ValSrc × Val → Int := fun e =>
    match ofs e.1 with
    | some (cl, op) => e.2.value + (if e.2.closing then cl else op)
    | none => e.2.value
  let confirmed := decide (src.length = 2) && src.all fun e => (ofs e.1).isSome
  let a := src.getD 0 (ValSrc.quad 0xFF, Val.none)
  let b := src.getD 1 (ValSrc.quad 0xFF, Val.none)
  let pa := corr a
  let pb := corr b
  let (code, t) := diffTimed st.code st.tmr (decide ((parN r 2 : Int) < (pa - pb).natAbs)) (parN r 3)
  let e0 := valEvid (code != 2#8) [a.2, b.2]
  let e := if confirmed then e0 else { e0 with t := false }
  let low := min pa pb
  let closed := decide (pa ≤ (parN r 0 : Int)) && decide (pb ≤ (parN r 0 : Int))
  let opened := decide ((parN r 1 : Int) ≤ pa) && decide ((parN r 1 : Int) ≤ pb)
  let moved := fun (x : Int) (old : W32) => decide (parN r 4 < (x - old.toInt).natAbs)
  let moving := st.own2 && (moved a.2.value st.cnt || moved b.2.value st.cnt2)
  ({ st with code := code, tmr := t, cnt := wordOfInt a.2.value, cnt2 := wordOfInt b.2.value, own2 := true },
   [mkBead closed e, mkBead opened e, mkBead moving e],
   { Val.none with value := low, q := e.q, t := e.t, f := e.f, age := e.age })

/-- CLOSEDLOCKED (07). -/
def stepClosedLocked (r : ParamRec) (st : BlkSt) (ins : List (Option Byte)) : BlkSt × List Byte :=
  let closed := inAt ins 0
  let locked := inAt ins 1
  let extra := (ins.drop 2).filterMap id
  let stays := st.code == 2#8 && !(isSound0 closed && isSound0 locked)
  let cond := isTT (agelimOf r) locked && isSound0 closed
  let t := timerRun st.tmr (cond && !stays) (parN r 0)
  let code : Byte := if stays then 2 else if !cond then 0 else if t.done then 2 else 1
  let cl := andBeads ([closed, locked] ++ extra)
  ({ st with code := code, tmr := t }, [if code == 2#8 then clearD cl else cl])

/-- OBSTACLE (07, R182, R526). DESIGN CHOICE (log 67): HOLD runs from the last frame in which the AND of SENSE had V = 0.
The count of reopenings stops at 0xFFFF (DESIGN CHOICE, log 116). -/
def stepObstacle (r : ParamRec) (st : BlkSt) (ins : List (Option Byte)) : BlkSt × List Byte :=
  let agelim := agelimOf r
  let sense := andBeads ((ins.take 4).filterMap id)
  let closing := inAt ins 4
  let cycleEnd := inAt ins 5
  let rst := inAt ins 6
  let reset := st.code == 2#8 && validEdge agelim st.edge2 rst
  let lockedBefore := st.code == 2#8 && !reset
  let cnt0 := if isTT agelim cycleEnd || reset then 0 else st.cnt.toNat
  let event := isTT agelim closing && isSound0 sense && (beadV st.edge0 || !isTT agelim st.edge1)
  let cnt1 := if event then min (cnt0 + 1) 0xFFFF else cnt0
  let locks := event && decide (parN r 1 < cnt1)
  let lockout := lockedBefore || locks
  let t := if !beadV sense then { elapsed := 0, running := true, done := decide (parN r 0 = 0) }
    else if st.tmr.running then
      let e := min (st.tmr.elapsed + 1) (parN r 0)
      if parN r 0 ≤ e then { Timer.stopped with elapsed := e, done := true } else { elapsed := e, running := true, done := false }
    else Timer.stopped
  let clear := if lockout then sound0 else if !beadV sense || t.running then setV sense false else sense
  let code : Byte := if lockout then 2 else if !beadV sense || t.running then 1 else 0
  ({ st with code := code, tmr := t, cnt := BitVec.ofNat 32 cnt1, edge0 := sense, edge1 := closing, edge2 := rst },
   [clear, soundBead (event && !locks), soundBead lockout])

/-- RELEASE (07). -/
def stepRelease (r : ParamRec) (st : BlkSt) (ins : List (Option Byte)) : BlkSt × List Byte :=
  let x := andBeads (ins.filterMap id)
  let on := isTT (agelimOf r) x
  let t := timerRun st.tmr on (parN r 0)
  ({ st with tmr := t }, [setV x (on && t.done)])

/-- ZEROSPEED (07). -/
def stepZeroSpeed (r : ParamRec) (st : BlkSt) (fa fb : Val) : BlkSt × List Byte :=
  let fzero : Int := parN r 0
  let hi := max fa.value fb.value
  let lo := min fa.value fb.value
  let disagree := decide (fzero ≤ hi) && decide ((parN r 1 : Int) * hi < (hi - lo) * 100)
  let bothMoving := decide (fzero ≤ lo)
  let t := timerRun st.tmr disagree (parN r 2)
  let stays := st.code == 2#8 && !(bothMoving && !disagree)
  let code : Byte := if stays then 2 else if !disagree then 0 else if t.done then 2 else 1
  let still := decide (hi < fzero)
  let t2 := timerRun st.tmr2 still (parN r 3)
  ({ st with code := code, tmr := t, tmr2 := t2 }, [mkBead (still && t2.done) (valEvid (code != 2#8) [fa, fb])])

/-- COUNT (07, R180). With CU or CD unsound CV is frozen, also over a RESET (DESIGN CHOICE, log 115). -/
def stepCount (r : ParamRec) (st : BlkSt) (ins : List (Option Byte)) : BlkSt × List Byte × Val :=
  let agelim := agelimOf r
  let used := ins.filterMap id
  let cu := inAt ins 0
  let cd := inAt ins 1
  let frozen := !(used.all isSound)
  let up := inConnected ins 0 && validEdge agelim st.edge0 cu
  let down := inConnected ins 1 && validEdge agelim st.edge1 cd
  let lim : Int := 0x7FFFFFFF
  let v := st.cnt.toInt
  let v' := if frozen then v
    else if isTT agelim (inAt ins 2) then parI r 1
    else clampInt (-lim) lim (v + (if up then 1 else 0) - (if down then 1 else 0))
  let e := mergeEvid used
  ({ st with cnt := wordOfInt v', edge0 := cu, edge1 := cd }, [mkBead (decide (parI r 0 ≤ v')) e],
   { Val.none with value := v', q := e.q, t := e.t, f := e.f, age := e.age })

/-- CMP (07). -/
def stepCmp (r : ParamRec) (st : BlkSt) (vals : List Val) : BlkSt × List Byte :=
  let a := vals.getD 0 Val.none
  let b := vals.getD 1 a
  let x := min a.value b.value
  let lo := parI r 0
  let hi := parI r 1
  let hy : Int := parN r 2
  let inner := decide (lo + hy ≤ x) && decide (x ≤ hi - hy)
  let outer := decide (x < lo) || decide (hi < x)
  let v := if inner then true else if outer then false else st.own
  let two := decide (2 ≤ vals.length)
  let (code, t) := diffTimed st.code st.tmr (two && decide ((parN r 3 : Int) < (a.value - b.value).natAbs)) (parN r 4)
  ({ st with own := v, code := code, tmr := t }, [mkBead v (valEvid (code != 2#8) vals)])

/-- HOSTBIT (07): a bead that arrives with a parity error reads 0xB0 for that frame (R123). -/
def stepHostbit (c : BlkCtx) (r : ParamRec) (st : BlkSt) : BlkSt × List Byte :=
  match c.hostBits with
  | some w =>
    let b := hostBead (w.getLsbD (parN r 0))
    ({ st with latch := b }, [if c.hostBad.contains (parN r 0) then paritySub else b])
  | none => (st, [st.latch])

/-- DIAG (07). -/
def stepDiag (c : BlkCtx) (r : ParamRec) : List Byte :=
  (List.range 8).map fun i => soundBead (c.diagOn.contains (parN r i))

/-- R169: the EDM timer of an output block in phase E. The timing runs from the commit that changed the pair, whatever frames
were late since; DEDUCED (log 68): FB as the commit tick's own snapshot holds it may already meet the deadline. -/
def edmTiming (pr : PairRec) (agelim : Nat) (fb : Byte) (edmt : Nat) : Byte × Timer :=
  let e := min pr.sinceCommit edmt
  if (if pr.committed then isSound0 fb else isTT agelim fb) then (natByte pr.committed, Timer.stopped)
  else if edmt ≤ e then (3, { elapsed := e, running := false, done := true })
  else (2, { elapsed := e, running := true, done := false })
where
  natByte (b : Bool) : Byte := if b then 1 else 0

/-- QPAIR, LOCKDRV, RAILCUT in phase E: EDM timing, EDMFAULT, the restart latch and the outputs ON and FAULT (R169-R173). -/
def stepOutput (c : BlkCtx) (r : ParamRec) (st : BlkSt) (pr : PairRec) (demand fb rst : Byte) (edm : Bool) (edmt : Nat) :
    BlkSt × List Byte :=
  let agelim := agelimOf r
  let base : Byte := if pr.committed then 1 else 0
  let leaves := st.code == 3#8 && validEdge agelim st.edge0 rst && isTT agelim fb
  let (code, t) :=
    if st.code == 3#8 && !leaves then ((3 : Byte), st.tmr)
    else if !edm || leaves || !(pr.due || st.code == 2#8) then (base, Timer.stopped)
    else edmTiming pr agelim fb edmt
  let used := restartOf r || pr.needReset
  let latch := if used then restartLatch (c.hold && restartOf r) agelim st.latch st.edge0 rst demand else st.latch
  ({ st with code := code, tmr := t, latch := latch, edge0 := rst }, [soundBead pr.staged, soundBead (code == 3#8)])

/-- The state of an output block once phase C has staged it (R169, R176): EDM timing from a change on, else Off or On. -/
def stagedBlk (edm fault on committed : Bool) (st : BlkSt) : BlkSt :=
  if fault then { st with code := 3, tmr := Timer.stopped }
  else if st.code = 3#8 then st
  else if edm && on != committed then { st with code := 2, tmr := { elapsed := 0, running := true, done := false } }
  else if st.code = 2#8 then st
  else { st with code := if on then 1 else 0 }

/-- The pair number a block's staging record stands under: 0-15, or 16 for KA and KB. -/
def pairOf (r : ParamRec) : Option Nat :=
  if r.ty = tyQPAIR ∨ r.ty = tyLOCKDRV then some (parN r 0 % 16)
  else if r.ty = tyRAILCUT then some 16
  else none

/-- A gate over its input beads (R118, R119). -/
def gateBead (op : GateOp) (l : List Byte) : Byte :=
  match op with
  | .and => andBeads l
  | .or => orBeads l
  | .xor => xorBeads l
  | .not => notBead (l.headD host0)
  | .maj => majBeads l

/-- R123: the latch and the edge memories of a block as it reads them; `bad` where the read finds a parity error. -/
def readState (bad : Bool) (st : BlkSt) : BlkSt :=
  let rd := fun (b : Byte) => if bad then paritySub else parityChecked b
  { st with latch := rd st.latch, edge0 := rd st.edge0, edge1 := rd st.edge1, edge2 := rd st.edge2, edge3 := rd st.edge3 }

/-- A restart latch that its block leaves as read stays as it is stored: the substitute stands for that frame alone (R123).
H of an RSLATCH is its OUT byte, whatever that is (07). -/
def keepLatch (ty : Byte) (old new : BlkSt) : BlkSt :=
  if ty != tyRSLATCH && new.latch == paritySub then { new with latch := old.latch } else new

/-- One frame of a block instance: its state after the frame, its output beads, and the value it forms (POS, CV). -/
def stepBlock (c : BlkCtx) (r : ParamRec) (st : BlkSt) (pr : PairRec) (ins : List (Option Byte))
    (src : List (ValSrc × Val)) : BlkSt × List Byte × Option Val :=
  let x := inAt ins 0
  let vals := src.map (·.2)
  let some2 := fun (p : BlkSt × List Byte) => (p.1, p.2, (none : Option Val))
  let some3 := fun (p : BlkSt × List Byte × Val) => (p.1, p.2.1, some p.2.2)
  if r.ty = 0x01#8 then (st, [andBeads (ins.filterMap id)], none)
  else if r.ty = 0x02#8 then (st, [orBeads (ins.filterMap id)], none)
  else if r.ty = 0x03#8 then (st, [xorBeads (ins.filterMap id)], none)
  else if r.ty = 0x04#8 then (st, [notBead x], none)
  else if r.ty = 0x05#8 then (st, [majBeads (ins.filterMap id)], none)
  else if r.ty = tyTON then some2 (stepTon r st x)
  else if r.ty = tyTOF then some2 (stepTof r st x)
  else if r.ty = tyTP then some2 (stepTp r st x)
  else if r.ty = tyRSLATCH then some2 (stepRslatch st x (inAt ins 1))
  else if r.ty = tyDUALCH ∨ r.ty = tyESTOP ∨ r.ty = tyOSSD ∨ r.ty = tyGUARD ∨ r.ty = tyMANREL then
    some2 (stepTwoChannel c r st ins)
  else if r.ty = tyMODESEL then some2 (stepModesel r st ins)
  else if r.ty = tyEDGE then some2 (stepEdge r st x)
  else if r.ty = tyDOORPOS then some3 (stepDoorpos c r st src)
  else if r.ty = tyCLOSEDLOCKED then some2 (stepClosedLocked r st ins)
  else if r.ty = tyOBSTACLE then some2 (stepObstacle r st ins)
  else if r.ty = tyRELEASE then some2 (stepRelease r st ins)
  else if r.ty = tyZEROSPEED then some2 (stepZeroSpeed r st (vals.getD 0 Val.none) (vals.getD 1 Val.none))
  else if r.ty = tyQPAIR then some2 (stepOutput c r st pr x (inAt ins 1) (inAt ins 2) (parB r 4) (parN r 5))
  else if r.ty = tyLOCKDRV then some2 (stepOutput c r st pr x host0 (inAt ins 1) false 0)
  else if r.ty = tyRAILCUT then some2 (stepOutput c r st pr x (inAt ins 1) (inAt ins 2) true (parN r 0))
  else if r.ty = tyIMPORT then (st, st.imp.beads, none)
  else if r.ty = tyPROOFHEAD then ({ st with code := if c.seg = sound1 then 1 else 0 }, [c.seg], none)
  else if r.ty = tyCOUNT then some3 (stepCount r st ins)
  else if r.ty = tyCMP then some2 (stepCmp r st vals)
  else if r.ty = tyHOSTBIT then some2 (stepHostbit c r st)
  else if r.ty = tyDIAG then (st, stepDiag c r, none)
  else (st, [], none)

/-! ## State elements (R142, R158, R176) -/

/-- An element of a block's canonical state, named by the field of `BlkSt` that holds it. -/
inductive StElem where
  | latch
  | edge0
  | edge1
  | edge2
  | code
  | code2
  | tmr
  | tmr2
  | cnt
  | imp
  deriving DecidableEq, Repr

/-- KIND of an element (R142). -/
def StElem.kind : StElem → Byte
  | .latch => 0x01
  | .edge0 => 0x02
  | .edge1 => 0x02
  | .edge2 => 0x02
  | .tmr => 0x03
  | .tmr2 => 0x03
  | .cnt => 0x04
  | .code => 0x05
  | .code2 => 0x05
  | .imp => 0x06

/-- Width in bytes; `nb` is the bead count of an import's connection. -/
def StElem.width (nb : Nat) : StElem → Nat
  | .tmr => 5
  | .tmr2 => 5
  | .cnt => 4
  | .imp => 4 + nb
  | _ => 1

/-- The state elements that a block type holds (R142, R176). HOSTBIT, of which no table gives one, has a latch (DESIGN CHOICE, log 117). -/
def stateElems (r : ParamRec) : List StElem :=
  if r.ty = tyTON ∨ r.ty = tyTOF ∨ r.ty = tyRELEASE then [.tmr]
  else if r.ty = tyTP then [.tmr, .edge0]
  else if r.ty = tyRSLATCH ∨ r.ty = tyHOSTBIT then [.latch]
  else if r.ty = tyGUARD ∧ parB r 3 then [.code, .tmr, .code2, .tmr2, .latch, .edge0]
  else if r.ty = tyDUALCH ∨ r.ty = tyESTOP ∨ r.ty = tyOSSD ∨ r.ty = tyGUARD ∨ r.ty = tyMANREL then
    [.code, .tmr, .latch, .edge0]
  else if r.ty = tyMODESEL ∨ r.ty = tyDOORPOS ∨ r.ty = tyCMP ∨ r.ty = tyCLOSEDLOCKED then [.code, .tmr]
  else if r.ty = tyEDGE then [.edge0]
  else if r.ty = tyOBSTACLE then [.code, .tmr, .cnt, .edge0, .edge1, .edge2]
  else if r.ty = tyZEROSPEED then [.code, .tmr, .tmr2]
  else if r.ty = tyQPAIR ∨ r.ty = tyRAILCUT then [.code, .tmr, .latch, .edge0]
  else if r.ty = tyLOCKDRV then [.code, .latch, .edge0]
  else if r.ty = tyPROOFHEAD then [.code]
  else if r.ty = tyCOUNT then [.cnt, .edge0, .edge1]
  else if r.ty = tyIMPORT then [.imp]
  else []

def encodeTimer (t : Timer) : List Byte :=
  leBytes 4 t.elapsed ++ [BitVec.ofNat 8 (natOfBool t.running + 2 * natOfBool t.done)]

def decodeTimer (l : List Byte) : Timer :=
  { elapsed := natAt l 0 4, running := bitOf (byteAt l 4) 0, done := bitOf (byteAt l 4) 1 }

def encodeImport (i : ImportSt) : List Byte :=
  le16 i.ref ++ [BitVec.ofNat 8 i.since, BitVec.ofNat 8 (natOfBool i.refValid + 2 * natOfBool i.timedOut)] ++ i.beads

def decodeImport (l : List Byte) : ImportSt :=
  { ref := u16At l 0, since := (byteAt l 2).toNat, refValid := bitOf (byteAt l 3) 0, timedOut := bitOf (byteAt l 3) 1,
    beads := l.drop 4 }

/-- The canonical encoding of one element (R142). -/
def encodeElem (st : BlkSt) : StElem → List Byte
  | .latch => [st.latch]
  | .edge0 => [st.edge0]
  | .edge1 => [st.edge1]
  | .edge2 => [st.edge2]
  | .code => [st.code]
  | .code2 => [st.code2]
  | .tmr => encodeTimer st.tmr
  | .tmr2 => encodeTimer st.tmr2
  | .cnt => le32 st.cnt
  | .imp => encodeImport st.imp

def decodeElem (st : BlkSt) (l : List Byte) : StElem → BlkSt
  | .latch => { st with latch := byteAt l 0 }
  | .edge0 => { st with edge0 := byteAt l 0 }
  | .edge1 => { st with edge1 := byteAt l 0 }
  | .edge2 => { st with edge2 := byteAt l 0 }
  | .code => { st with code := byteAt l 0 }
  | .code2 => { st with code2 := byteAt l 0 }
  | .tmr => { st with tmr := decodeTimer l }
  | .tmr2 => { st with tmr2 := decodeTimer l }
  | .cnt => { st with cnt := u32At l 0 }
  | .imp => { st with imp := decodeImport l }

/-- The `n`-th element of a kind among a block's elements: STATEMAP entries of one kind name them in this order. -/
def nthOfKind : List StElem → Byte → Nat → Option StElem
  | [], _, _ => none
  | e :: r, k, n => if e.kind = k then (if n = 0 then some e else nthOfKind r k (n - 1)) else nthOfKind r k n

/-- STATEMAP resolved to elements: instance and element of each entry, none where an entry names no element. -/
def resolveMap (params : List ParamRec) : List MapEntry → List MapEntry → List (Nat × Option StElem)
  | _, [] => []
  | seen, e :: r =>
    let n := (seen.filter fun x => x.inst == e.inst && x.kind == e.kind).length
    let el := match params[e.inst]? with
      | some p => nthOfKind (stateElems p) e.kind n
      | none => none
    (e.inst, el) :: resolveMap params (seen ++ [e]) r

/-- The initial state of an instance, from its PARAM record in STATEMAP order (R150, R158). -/
def initialBlk (cfg : LoafCfg) (inst : Nat) (r : ParamRec) : BlkSt :=
  let es := ((resolveMap cfg.params [] cfg.smap).filter fun e => e.1 == inst).filterMap (·.2)
  let widths := (cfg.smap.filter fun e => e.inst == inst).map fun e => e.width.toNat
  (go BlkSt.init es widths r.initial)
where
  go (st : BlkSt) : List StElem → List Nat → List Byte → BlkSt
    | e :: es, w :: ws, l => go (decodeElem st (l.take w) e) es ws (l.drop w)
    | _, _, _ => st

/-- The string under a lane's state digest (R142). -/
def digestBytes (cfg : LoafCfg) (blk : Tab BlkSt) : List Byte :=
  (resolveMap cfg.params [] cfg.smap).flatMap fun e =>
    match e.2 with
    | some el => encodeElem (tabGet BlkSt.init blk e.1) el
    | none => []

/-- R99: a timer that is running counts the late frame's tick. -/
def tickTimer (t : Timer) : Timer := if t.running then { t with elapsed := t.elapsed + 1 } else t

/-- R99: block state as it stood before the late frame, its running timers one tick on, import state and the model's
record kept as they are now. -/
def lateBlk (before now : BlkSt) : BlkSt :=
  { before with tmr := tickTimer before.tmr, tmr2 := tickTimer before.tmr2, imp := now.imp }

end Sys2Proof.Machine
end

