-- ==== Sys2Proof/Machine/Operands.lean ====
section
/-! DEFINITION. What commands and rules name by number: channels (R393), IOMAP entries (R185, R209, R239, R256, R442, R459),
legs and pairs (R210), frame periods (R90), connections (R147). -/

namespace Sys2Proof.Machine

/-! ## Channel numbers (R393) -/

def sideBase : Side → Nat
  | .a => 0
  | .b => 0x40

def chanIn (c : Side) (n : Nat) : Nat := sideBase c + n
def chanSrc (c : Side) (n : Nat) : Nat := sideBase c + 0x18 + n
def chanLeg (c : Side) (n : Nat) : Nat := sideBase c + 0x20 + n
def chanAna (c : Side) (n : Nat) : Nat := sideBase c + 0x31 + n
def chanPort (p : PortId) : Nat := 0x80 + p.num
def chanActBus : Nat := 0x82
def chanIndChain : Nat := 0x83
def chanLane : Side → Nat
  | .a => 0x8A
  | .b => 0x8B

def inChanNum (i : InChan) : Nat := chanIn i.crust i.num.val

/-- Which kind of channel a number names. -/
inductive ChanKind where
  | input (c : Side) (n : Nat)
  | source (c : Side) (n : Nat)
  | leg (c : Side) (n : Nat)
  | analog (c : Side) (n : Nat)
  | port (p : PortId)
  | actBus
  | indChain
  | lane (l : Side)
  deriving DecidableEq, Repr

/-- The channel that a number names, none where the number is unassigned (R393). -/
def chanKind (n : Nat) : Option ChanKind :=
  if n = 0x80 then some (.port .p0)
  else if n = 0x81 then some (.port .p1)
  else if n = 0x82 then some .actBus
  else if n = 0x83 then some .indChain
  else if n = 0x8A then some (.lane .a)
  else if n = 0x8B then some (.lane .b)
  else if n ≤ 0x74 then
    let c : Side := if n < 0x40 then .a else .b
    let k := n % 0x40
    if k < 0x18 then some (.input c k)
    else if k < 0x20 then some (.source c (k - 0x18))
    else if k < 0x31 then some (.leg c (k - 0x20))
    else if k < 0x35 then some (.analog c (k - 0x31))
    else none
  else none

/-- Every assigned channel number in ascending order, the lanes last: the order of the tally table (R255). -/
def allChans : List Nat :=
  (List.range 0x35) ++ ((List.range 0x35).map (0x40 + ·)) ++ [0x80, 0x81, 0x82, 0x83, 0x8A, 0x8B]

/-- The crust a channel belongs to, if it lies on one. -/
def chanSide (n : Nat) : Option Side :=
  match chanKind n with
  | some (.input c _) => some c
  | some (.source c _) => some c
  | some (.leg c _) => some c
  | some (.analog c _) => some c
  | _ => none

/-- CLASS of a TALLY entry for a channel (R256). -/
def chanClass (n : Nat) : Nat :=
  match chanKind n with
  | some (.input _ _) => 1
  | some (.source _ _) => 2
  | some (.leg _ _) => 3
  | some (.analog _ _) => 4
  | some (.port _) => 5
  | some .actBus => 6
  | some .indChain => 7
  | _ => 0

/-! ## Frame periods (R90, R91) -/

/-- Tf in 10 ns units by TF_CODE. -/
def tfUnits (code : Byte) : Nat :=
  match code.toNat with
  | 0 => 25000
  | 1 => 50000
  | 2 => 100000
  | 3 => 200000
  | 4 => 400000
  | 5 => 800000
  | _ => 100000

/-- The end of phase S in 10 ns units: 5 % of Tf, at least 20 us. -/
def endS (code : Byte) : Nat := max 2000 (tfUnits code * 5 / 100)
def endX (code : Byte) : Nat := endS code + tfUnits code * 30 / 100
def endE (code : Byte) : Nat := endX code + tfUnits code * 40 / 100
def endC (code : Byte) : Nat := endE code + tfUnits code * 5 / 100
/-- The start of phase G. -/
def startG (code : Byte) : Nat := endC code + tfUnits code * 15 / 100

/-- Lane A's and lane B's evaluation bound in cycles: phase E at 200 MHz and at 156.8 MHz (R101). -/
def boundA (code : Byte) : Nat := tfUnits code * 40 / 100 * 2
def boundB (code : Byte) : Nat := tfUnits code * 40 / 100 * 1568 / 1000

/-- A plan of `n` members fits window X (R102), in ns. -/
def planFits (code : Byte) (n : Nat) : Bool := decide (n * 2625 + (n - 1) * 500 ≤ tfUnits code * 30 / 100 * 10)

/-! ## IOMAP -/

/-- The first entry of a kind for which `p` holds. -/
def findEntry (m : List (List Byte)) (kind : Byte) (p : List Byte → Bool) : Option (List Byte) :=
  m.find? fun e => byteAt e 0 == kind && p e

/-- The INPUT entry of channel `n` (R185). -/
def inputEntry (m : List (List Byte)) (n : Nat) : Option (List Byte) :=
  findEntry m 0x02 fun e => (byteAt e 1).toNat == n

def inputMode (e : List Byte) : Byte := byteAt e 2
def inputSource (e : List Byte) : Byte := byteAt e 3
/-- DEBOUNCE in 10 ns units. -/
def inputDebounce (e : List Byte) : Nat := natAt e 4 2 * 1000
def inputStamped (e : List Byte) : Bool := bitOf (byteAt e 6) 0
def inputReverse (e : List Byte) : Bool := bitOf (byteAt e 6) 1
/-- FILTER in 10 ns units. -/
def inputFilter (e : List Byte) : Nat := 50 * 2 ^ (byteAt e 7).toNat
def inputOssdw (e : List Byte) : Nat := natAt e 8 2 * 1000
/-- OSSDP in ms. -/
def inputOssdp (e : List Byte) : Nat := natAt e 10 2
def inputSmin (e : List Byte) : Nat := (byteAt e 12).toNat

/-- MODE of an input channel, Unused without an entry. -/
def modeOfInput (m : List (List Byte)) (n : Nat) : Byte :=
  match inputEntry m n with
  | some e => inputMode e
  | none => 0

def isLevelMode (b : Byte) : Bool := b == 1#8 || b == 2#8 || b == 3#8

/-- The QUAD entry of a pair code (R185). -/
def quadEntry (m : List (List Byte)) (p : Nat) : Option (List Byte) :=
  findEntry m 0x03 fun e => (byteAt e 1).toNat == p

/-- PW of a source in 10 ns units: 100 us without an entry (R189). -/
def sourcePw (m : List (List Byte)) (c : Side) (n : Nat) : Nat :=
  match findEntry m 0x04 fun e => (byteAt e 1).toNat == sideBase c + n with
  | some e => natAt e 2 2 * 1000
  | none => 10000

def analogEntry (m : List (List Byte)) (c : Side) (n : Nat) : Option (List Byte) :=
  findEntry m 0x05 fun e => (byteAt e 1).toNat == sideBase c + n

/-- The LEG entry of leg `n` (16: KA or KB) of a crust (R209). -/
def legEntry (m : List (List Byte)) (c : Side) (n : Nat) : Option (List Byte) :=
  findEntry m 0x10 fun e => (byteAt e 1).toNat == sideBase c + n

def crustOut (m : List (List Byte)) (c : Side) : Option (List Byte) :=
  findEntry m 0x11 fun e => (byteAt e 1).toNat == sideBase c

/-- T and D of a channel (R256). -/
def tallyTD (m : List (List Byte)) (n : Nat) : Nat × Nat :=
  let cls := chanClass n
  match findEntry m 0x30 fun e => (byteAt e 1).toNat == cls && cls != 0 with
  | some e => ((byteAt e 2).toNat, natAt e 4 2)
  | none =>
    match cls with
    | 1 => (3, 64)
    | 2 => (3, 64)
    | 3 => (3, 256)
    | 4 => (3, 64)
    | 5 => (6, 16)
    | 6 => (3, 1024)
    | 7 => (3, 256)
    | _ => (3, 1024)

def indChainEntry (m : List (List Byte)) : Option (List Byte) := findEntry m 0x20 fun _ => true

/-- The smallest of the LOGICAL indices not below `lo`, with its entry, among INDMAP entries. -/
def indMaps (m : List (List Byte)) : List (List Byte) :=
  let es := m.filter fun e => byteAt e 0 == 0x21#8
  (List.range 256).filterMap fun l => es.find? fun e => natAt e 1 2 == l

def cycleEntry (m : List (List Byte)) (d : Nat) : Option (List Byte) :=
  findEntry m 0x40 fun e => (byteAt e 1).toNat == d

def actBusEntry (m : List (List Byte)) : Option (List Byte) := findEntry m 0x50 fun _ => true

def actChipEntry (m : List (List Byte)) (i : Nat) : Option (List Byte) :=
  findEntry m 0x51 fun e => (byteAt e 1).toNat == i

/-! ## Pairs and groups (R210, R214) -/

/-- The output block of a pair with its instance: QPAIR or LOCKDRV for 0-15, RAILCUT for 16. -/
def pairBlock (ps : List ParamRec) (pair : Nat) : Option (Nat × ParamRec) :=
  (ps.zipIdx.find? fun e => pairOf e.1 == some pair).map fun e => (e.2, e.1)

/-- The LEGS word. -/
def legsWord (r : ParamRec) : W32 := r.words.getD 1 0
def legsHigh (r : ParamRec) : Nat := (legsWord r).toNat % 16
def legsHW (r : ParamRec) : Nat := (legsWord r).toNat / 16 % 4
def legsLW (r : ParamRec) : Nat := (legsWord r).toNat / 64 % 4
def legsShared (r : ParamRec) : Bool := (legsWord r).getLsbD 8
def legsInom (r : ParamRec) : Nat := (legsWord r).toNat / 65536

/-- The legs of a block's group on a crust: the high-side group on crust A, the low-side group on crust B; leg 16 for
RAILCUT. -/
def groupLegs (r : ParamRec) (c : Side) : List Nat :=
  if r.ty = tyRAILCUT then [16]
  else match c with
    | .a => (List.range (2 ^ legsHW r)).map (legsHigh r + ·)
    | .b => (List.range (2 ^ legsLW r)).map (parN r 0 + ·)

/-- The output blocks whose group on a crust holds leg `n`. -/
def blocksOfLeg (ps : List ParamRec) (c : Side) (n : Nat) : List ParamRec :=
  ps.filter fun r => (pairOf r).isSome && (groupLegs r c).contains n

/-- The pairs whose group on a crust holds leg `n`. -/
def pairsOfLeg (ps : List ParamRec) (c : Side) (n : Nat) : List Nat := (blocksOfLeg ps c n).filterMap pairOf

/-- The leg under which a paralleled group is tallied: its lowest-numbered one (R214). -/
def tallyLeg (ps : List ParamRec) (c : Side) (n : Nat) : Nat :=
  match blocksOfLeg ps c n with
  | r :: _ => (groupLegs r c).headD n
  | [] => n

/-- All legs of the group that leg `n` belongs to. -/
def legsWith (ps : List ParamRec) (c : Side) (n : Nat) : List Nat :=
  match blocksOfLeg ps c n with
  | r :: _ => groupLegs r c
  | [] => [n]

/-- A standard leg's entry, if the leg is standard (R209). -/
def standardLeg (m : List (List Byte)) (c : Side) (n : Nat) : Option (List Byte) :=
  match legEntry m c n with
  | some e => if byteAt e 2 = 0x02#8 then some e else none
  | none => none

/-- R209: a leg with no LEG entry is unused. -/
def legConfigured (cfg : LoafCfg) (c : Side) (n : Nat) : Bool := (legEntry cfg.iomap c n).isSome

/-- A leg that the IOMAP gives to safety (R209). -/
def safetyLeg (m : List (List Byte)) (c : Side) (n : Nat) : Bool :=
  match legEntry m c n with
  | some e => byteAt e 2 == 0x01#8
  | none => false

/-- The pairs that a loaf drives, ascending, 16 standing for KA and KB. -/
def drivenPairs (ps : List ParamRec) : List Nat := (List.range 17).filter fun p => (pairBlock ps p).isSome

/-- A time in milliseconds as ticks, rounded up (R159). -/
def ticksOfMs (tf : Byte) (ms : Nat) : Nat := (ms * 100000 + tfUnits tf - 1) / tfUnits tf

/-- BLANK of a pair's legs in ticks, as stored by R159; 5 ms for KA and KB (R173, R222). -/
def blankTicks (tf : Byte) (r : ParamRec) : Nat := if r.ty = tyRAILCUT then ticksOfMs tf 5 else parN r 2

/-- The parameters of the block that forms a bead (R162). -/
def formsBead (ps : List ParamRec) (i : Nat) (e : Elem) : Option ParamRec :=
  match e with
  | .block inst _ outs _ => if outs.contains i then ps[inst]? else none
  | _ => none

/-- R162: the designated permit is trusted-true under the AGELIM of the block that produces it. -/
def permitTT (cfg : LoafCfg) (beads : Tab Byte) : Bool :=
  match cfg.form.permit with
  | some i =>
    match cfg.form.elems.findSome? (formsBead cfg.params i) with
    | some r => isTT (agelimOf r) (tabGet paritySub beads i)
    | none => false
  | none => false

/-! ## Connections (R147) -/

def findConn (cfg : LoafCfg) (id : W16) : Option Conn := cfg.seeds.find? fun c => c.connId == id

/-- A channel takes part in the loaf (R393: otherwise it is unconfigured). Sources always pulse (R189). -/
def chanConfigured (cfg : LoafCfg) (n : Nat) : Bool :=
  match chanKind n with
  | some (.input _ _) => modeOfInput cfg.iomap n != 0
  | some (.source _ _) => true
  | some (.leg c k) => legConfigured cfg c k
  | some (.analog c k) => (analogEntry cfg.iomap c k).isSome
  | some (.port _) => cfg.role != 0
  | some .actBus => (actBusEntry cfg.iomap).isSome
  | some .indChain => (indChainEntry cfg.iomap).isSome
  | some (.lane _) => true
  | none => false

end Sys2Proof.Machine
end

