-- ==== Sys2Proof/Machine/Loaf.lean ====
section
/-! DEFINITION. The loaf image (06): header, directory and sections (R133-R137), the hearth's checks in the order of R153
with their statuses (R149, R524, R148, R101), and the loaf as a lane runs it (R138, R139, R158). -/

namespace Sys2Proof.Machine

/-! ## Statuses (R152) -/

def stLoafFormat : Byte := 0x20
def stLoafLength : Byte := 0x21
def stLoafHash : Byte := 0x22
def stLoafSectionCrc : Byte := 0x23
def stLoafLayout : Byte := 0x24
def stLoafLimit : Byte := 0x25
def stLoafFramePeriod : Byte := 0x26
def stLoafMicrocode : Byte := 0x27
def stLoafLaneA : Byte := 0x28
def stLoafLaneB : Byte := 0x29
def stLoafIdentity : Byte := 0x2A
def stLoafMode : Byte := 0x2B
def stLoafLifecycle : Byte := 0x2C
def stLoafSlot : Byte := 0x2D
def stLoafPlan : Byte := 0x2E
def stLoafKey : Byte := 0x2F

/-! ## Header and directory (R133-R137) -/

abbrev Image := List Byte

def hdrFormat (i : Image) : Byte := byteAt i 4
def hdrFlags (i : Image) : Byte := byteAt i 5
def hdrTotal (i : Image) : Nat := natAt i 8 4
def hdrTf (i : Image) : Byte := byteAt i 0x0C
def hdrRole (i : Image) : Byte := byteAt i 0x0E
def hdrCount (i : Image) : Nat := (byteAt i 0x0F).toNat
def hdrCyclesA (i : Image) : Nat := natAt i 0x10 4
def hdrCyclesB (i : Image) : Nat := natAt i 0x14 4
def hdrUcodeA (i : Image) : W16 := u16At i 0x18
def hdrUcodeB (i : Image) : W16 := u16At i 0x1A

/-- The offset of DIR_CRC. -/
def dirEnd (i : Image) : Nat := 0x80 + 16 * hdrCount i

def trailerOf (i : Image) : List Byte := i.drop (i.length - 32)
def beforeTrailer (i : Image) : List Byte := i.take (i.length - 32)
/-- The loaf ID: the first 8 bytes of the trailer (R136). -/
def loafIdOf (i : Image) : List Byte := (trailerOf i).take 8
/-- DIR_CRC as the image carries it: the loaf check word (R135). -/
def checkWord (i : Image) : W32 := u32At i (dirEnd i)

structure DirEntry where
  ty : Byte
  zero : Byte
  version : W16
  off : Nat
  len : Nat
  crc : W32
  deriving DecidableEq, Repr

def dirEntry (i : Image) (k : Nat) : DirEntry :=
  let e := bytesAt i (0x80 + 16 * k) 16
  { ty := byteAt e 0, zero := byteAt e 1, version := u16At e 2, off := natAt e 4 4, len := natAt e 8 4, crc := u32At e 12 }

def directory (i : Image) : List DirEntry := (List.range (hdrCount i)).map (dirEntry i)

def inImage (i : Image) (d : DirEntry) : Bool := decide (d.off + d.len ≤ i.length)
def sectBytes (i : Image) (d : DirEntry) : List Byte := bytesAt i d.off d.len

/-- The bytes of the first section of a type, none where the directory has none. -/
def secBytes? (i : Image) (ty : Byte) : Option (List Byte) :=
  ((directory i).find? fun d => d.ty == ty).map (sectBytes i)

def sect (i : Image) (ty : Byte) : List Byte := (secBytes? i ty).getD []

def scBind : Byte := 0x01
def scLaneA : Byte := 0x02
def scLaneB : Byte := 0x03
def scParam : Byte := 0x04
def scIomap : Byte := 0x05
def scState : Byte := 0x06
def scPlan : Byte := 0x07
def scSeeds : Byte := 0x08

/-! ## The checks of LOAF_CHECK (R149, R153, R524) -/

def formatOk (i : Image) : Bool :=
  bytesAt i 0 4 == [0x4C#8, 0x4F#8, 0x41#8, 0x46#8] && hdrFormat i == 4#8 && natAt i 6 2 == 0x80

def lengthOk (i : Image) : Bool := decide (hdrTotal i ≤ 0x200000) && hdrTotal i == i.length

def hashOk (i : Image) : Bool := decide (160 ≤ i.length) && sha256 (beforeTrailer i) == trailerOf i

/-- The directory with DIR_CRC lies before the trailer, and every section within the image: then every check value can be
computed. -/
def crcsComputable (i : Image) : Bool :=
  decide (dirEnd i + 4 + 32 ≤ i.length) && (directory i).all (inImage i)

def sectionCrcOk (i : Image) (d : DirEntry) : Bool := crc32c (sectBytes i d) == d.crc

def dirCrcOk (i : Image) : Bool := crc32c (i.take (dirEnd i)) == checkWord i

/-- The first section with a wrong CRC by its TYPE, then 0x00 for DIR_CRC. -/
def badCrc (i : Image) : Option Nat :=
  match (directory i).find? fun d => !sectionCrcOk i d with
  | some d => some d.ty.toNat
  | none => if dirCrcOk i then none else some 0

def allZero (l : List Byte) : Bool := l.all (· == 0)

/-- Where the sections' bytes lie, in ascending offset order: for the gaps between parts. -/
def gapsZero (i : Image) : Bool :=
  let inside := fun (k : Nat) => (directory i).any fun d => decide (d.off ≤ k) && decide (k < d.off + d.len)
  (i.zipIdx.drop (dirEnd i + 4)).all fun e => decide (i.length ≤ e.2 + 32) || inside e.2 || e.1 == 0

def reservedZero (i : Image) : Bool :=
  (hdrFlags i &&& 0xF8) == 0 && allZero (bytesAt i 0x26 2) && allZero (bytesAt i 0x40 64)

def hasSection (i : Image) (ty : Byte) : Bool := (directory i).any fun d => d.ty == ty

/-- The first section that does not lie between DIR_CRC and the trailer on a 16-byte boundary, or overlaps an earlier one.
DESIGN CHOICE, log 73: R524's table has no row for a section off the 16-byte boundary of R133; it is reported here, with
that section's TYPE. -/
def misplaced (i : Image) : Option Nat :=
  ((directory i).zipIdx.find? fun e =>
    let d := e.1
    decide (d.off < dirEnd i + 4) || decide (i.length < d.off + d.len + 32) || d.off % 16 != 0 ||
    ((directory i).take e.2).any fun o => decide (o.off < d.off + d.len) && decide (d.off < o.off + o.len)).map
      fun e => e.1.ty.toNat

/-- The first section missing, duplicated, out of order, unknown, or present or absent against R137. DESIGN CHOICE, log 74:
of several defects of this one row, a present entry at fault comes before a TYPE that is missing. -/
def badOrder (i : Image) : Option Nat :=
  let tys := (directory i).map fun d => d.ty.toNat
  match (tys.zipIdx.find? fun e =>
      decide (e.1 = 0) || decide (8 < e.1) || ((tys.take e.2).any fun t => decide (e.1 ≤ t)) ||
      (e.1 == 7 && hdrRole i != 2#8)).map (·.1) with
  | some t => some t
  | none => [1, 2, 3, 4, 5, 6, 7, 8].find? fun t => !tys.contains t && (t != 7 || hdrRole i == 2#8)

/-- R524: the first defect of structure, by its detail. -/
def badLayout (i : Image) : Option Nat :=
  if 2 < (hdrRole i).toNat ∨ 5 < (hdrTf i).toNat ∨ ¬(hdrCount i = 7 ∨ hdrCount i = 8) then some 0
  else if i.length < dirEnd i + 4 + 32 then some 0
  else if bitOf (hdrFlags i) 0 != hasSection i scPlan then some 7
  else if !(reservedZero i && gapsZero i) then some 0
  else match (directory i).find? fun d => d.zero != 0 || d.version != 1 with
  | some d => some d.ty.toNat
  | none =>
    match misplaced i with
    | some t => some t
    | none => badOrder i

/-- The checks of LOAF_CHECK, in order: the first status with its detail. -/
def checkImage (i : Image) : Option (Byte × Nat) :=
  if !formatOk i then some (stLoafFormat, (hdrFormat i).toNat)
  else if !lengthOk i then some (stLoafLength, hdrTotal i)
  else if !hashOk i then some (stLoafHash, 0)
  else
    match (if crcsComputable i then badCrc i else none) with
    | some t => some (stLoafSectionCrc, t)
    | none => (badLayout i).map fun t => (stLoafLayout, t)

/-! ## The shared sections -/

/-- The number of parameters of each block type (07). -/
def paramCount (ty : Byte) : Option Nat :=
  if ty = 1 ∨ ty = 2 ∨ ty = 3 ∨ ty = 4 ∨ ty = 5 ∨ ty = tyRSLATCH ∨ ty = tyPROOFHEAD then some 0
  else if ty = tyEDGE ∨ ty = tyEXPORT ∨ ty = tyIMPORT ∨ ty = tyPROOF then some 1
  else if ty = tyTON ∨ ty = tyTOF ∨ ty = tyTP ∨ ty = tyESTOP ∨ ty = tyCLOSEDLOCKED ∨ ty = tyRELEASE ∨ ty = tyMANREL ∨
    ty = tyHOSTBIT then some 2
  else if ty = tyOSSD ∨ ty = tyMODESEL ∨ ty = tyOBSTACLE ∨ ty = tyRAILCUT ∨ ty = tyCOUNT then some 3
  else if ty = tyDUALCH then some 4
  else if ty = tyGUARD ∨ ty = tyZEROSPEED then some 5
  else if ty = tyDOORPOS ∨ ty = tyCMP then some 6
  else if ty = tyQPAIR ∨ ty = tyDIAG then some 8
  else if ty = tyLOCKDRV then some 10
  else none

def wordsAt (l : List Byte) (o : Nat) : Nat → List W32
  | 0 => []
  | n + 1 => u32At l o :: wordsAt l (o + 4) n

/-- The PARAM section cut into records by their lengths; what is left where a record does not fit. -/
def cutRecords : Nat → List Byte → List (List Byte) × List Byte
  | 0, l => ([], l)
  | n + 1, l =>
    let len := natAt l 4 2
    if len < 8 ∨ l.length < len then ([], l)
    else
      let (rs, rest) := cutRecords n (l.drop len)
      (l.take len :: rs, rest)

def recordsOf (sec : List Byte) : List (List Byte) × List Byte := cutRecords (sec.length / 8) sec

def paramRec (l : List Byte) : ParamRec :=
  let ty := byteAt l 0
  let n := (paramCount ty).getD 0
  { ty := ty, words := wordsAt l 8 n, initial := l.drop (8 + 4 * n) }

def paramsIn (i : Image) : List ParamRec := (recordsOf (sect i scParam)).1.map paramRec

def entriesOf (n : Nat) : Nat → List Byte → List (List Byte)
  | 0, _ => []
  | k + 1, l => l.take n :: entriesOf n k (l.drop n)

def iomapIn (i : Image) : List (List Byte) :=
  let s := sect i scIomap
  entriesOf 16 (s.length / 16) s

def smapIn (i : Image) : List MapEntry :=
  let s := sect i scState
  (entriesOf 4 (min (natAt s 0 4) ((s.length - 4) / 4)) (s.drop 4)).map fun e =>
    { kind := byteAt e 0, width := byteAt e 1, inst := natAt e 2 2 }

def connOf (e : List Byte) : Conn :=
  { connId := u16At e 0, isExport := byteAt e 2 != 0, canFd := byteAt e 3 != 0, peer := byteAt e 4,
    timeout := (byteAt e 5).toNat, keySlot := if byteAt e 6 = 0xFF#8 then none else some (byteAt e 6).toNat,
    beads := (byteAt e 7).toNat, seedA := u32At e 8, seedB := u32At e 12 }

def seedEntries (i : Image) : List (List Byte) :=
  let s := sect i scSeeds
  entriesOf 16 (min (natAt s 0 4) ((s.length - 4) / 16)) (s.drop 4)

def seedsIn (i : Image) : List Conn := (seedEntries i).map connOf

def bindIn (i : Image) : Bind :=
  let s := sect i scBind
  { tag := bytesAt s 0 8, seg := u32At s 8, pos := byteAt s 12, sig := u16At s 14 }

def planIn (i : Image) : Option Plan :=
  (secBytes? i scPlan).map fun s =>
    { seg := u32At s 0, ring := byteAt s 5 != 0,
      members := (entriesOf 16 (min (byteAt s 4).toNat ((s.length - 16) / 16)) (s.drop 16)).map fun e =>
        { tag := bytesAt e 0 8, sig := u16At e 8 } }

/-- The plan's member count as FABPLAN states it, 0 without a plan. -/
def planCount (i : Image) : Nat :=
  match secBytes? i scPlan with
  | some s => (byteAt s 4).toNat
  | none => 0

/-! ## Limits (R148) and frame period (R101) -/

/-- The timers and counters of a block (07, block types): a TON, TOF, TP or COUNT, and each time parameter of any other
block, DISC twice in a GUARD with a lock pair. -/
def timersOf (r : ParamRec) : Nat :=
  if r.ty = tyGUARD then (if parB r 3 then 2 else 1)
  else if r.ty = tyZEROSPEED ∨ r.ty = tyQPAIR then 2
  else if r.ty = tyLOCKDRV then 3
  else if r.ty = tyTON ∨ r.ty = tyTOF ∨ r.ty = tyTP ∨ r.ty = tyCOUNT ∨ r.ty = tyDUALCH ∨ r.ty = tyESTOP ∨ r.ty = tyOSSD ∨
    r.ty = tyMODESEL ∨ r.ty = tyDOORPOS ∨ r.ty = tyCLOSEDLOCKED ∨ r.ty = tyOBSTACLE ∨ r.ty = tyRELEASE ∨
    r.ty = tyMANREL ∨ r.ty = tyRAILCUT ∨ r.ty = tyCMP then 1
  else 0

def timersIn (i : Image) : Nat :=
  max ((paramsIn i).foldl (fun n r => n + timersOf r) 0) (natAt (sect i scLaneB) 6 2)

def beadsOfDir (i : Image) (isExport : Bool) : Nat :=
  ((seedsIn i).filter fun c => c.isExport == isExport).foldl (fun n c => n + c.beads) 0

def connsOfDir (i : Image) (isExport : Bool) : Nat := ((seedsIn i).filter fun c => c.isExport == isExport).length

def laneABeads (i : Image) : Nat := natAt (sect i scLaneA) 4 2
def laneBBeads (i : Image) : Nat := natAt (sect i scLaneB) 4 2
def rodCount (i : Image) : Nat := natAt (sect i scLaneB) 0 4

/-- The first limit exceeded, by its item number from 1. -/
def limitItem (i : Image) : Option Nat :=
  if 0x200000 < i.length then some 1
  else if 1024 < (recordsOf (sect i scParam)).1.length then some 2
  else if 4096 < max (laneABeads i) (laneBBeads i) then some 3
  else if 8192 < rodCount i then some 4
  else if 512 < timersIn i then some 5
  else if 64 < beadsOfDir i false then some 6
  else if 64 < beadsOfDir i true then some 7
  else if 32 < natAt (sect i scSeeds) 0 4 ∨ 16 < connsOfDir i false ∨ 16 < connsOfDir i true then some 8
  else if 64 < planCount i then some 9
  else if 256 < ((iomapIn i).filter fun e => byteAt e 0 == 0x21#8).length then some 10
  else none

/-- Both conditions of R101 at a frame period. -/
def fitsTf (i : Image) (code : Byte) : Bool :=
  decide (hdrCyclesA i ≤ boundA code) && decide (hdrCyclesB i ≤ boundB code) &&
  (planCount i == 0 || planFits code (planCount i))

/-- The shortest frame period that fits, 0xFF for none (R153). -/
def shortestTf (i : Image) : Nat :=
  match (List.range 6).find? fun c => fitsTf i (BitVec.ofNat 8 c) with
  | some c => c
  | none => 0xFF

/-! ## Plan and keys -/

def reservedSig (x : W16) : Bool := x == 0 || x == 0xFFFF#16

/-- The lowest station whose plan entry is at fault (R145): a duplicate tag or signature, a reserved signature, entry 0 not
this module's own; 0xFFFF where SEGMENT_ID differs from BIND's. -/
def badPlan (b : Bind) (p : Plan) : Option Nat :=
  let bad := fun (k : Nat) (e : PlanEntry) =>
    reservedSig e.sig || (k == 0 && (e.tag != b.tag || e.sig != b.sig || b.pos != 0)) ||
    p.members.zipIdx.any fun o => o.2 != k && (o.1.tag == e.tag || o.1.sig == e.sig)
  match (p.members.zipIdx.find? fun e => bad e.2 e.1).map (·.2) with
  | some k => some k
  | none => if p.members.isEmpty || p.seg != b.seg then some 0xFFFF else none

/-- The first connection whose KEYSLOT names an empty key slot. -/
def badKey (n : NvSt) (i : Image) : Option Nat :=
  ((seedsIn i).find? fun c =>
    match c.keySlot with
    | some k => (tabFind n.safeKeys k).isNone
    | none => false).map fun c => c.connId.toNat

/-- Step 1 of R150: the hearth's checks in the order of R153. -/
def hearthCheck (n : NvSt) (i : Image) : Option (Byte × Nat) :=
  match checkImage i with
  | some r => some r
  | none =>
    match limitItem i with
    | some k => some (stLoafLimit, k)
    | none =>
      if !fitsTf i (hdrTf i) then some (stLoafFramePeriod, shortestTf i)
      else if n.ucode.a.toNat < (hdrUcodeA i).toNat then some (stLoafMicrocode, 0x0A)
      else if n.ucode.b.toNat < (hdrUcodeB i).toNat then some (stLoafMicrocode, 0x0B)
      else
        match (planIn i).bind (badPlan (bindIn i)) with
        | some k => some (stLoafPlan, k)
        | none => (badKey n i).map fun c => (stLoafKey, c)

/-! ## The forms (R138-R141) -/

/-- The rod records of LANEB. -/
def rodsIn (sec : List Byte) : List (List Byte) := entriesOf 24 (min (natAt sec 0 4) ((sec.length - 16) / 24)) (sec.drop 16)

/-- A rod record's input bead indices, as many as ARITY. -/
def rodIns (e : List Byte) : List Nat := (List.range (byteAt e 1).toNat).map fun j => natAt e (4 + 2 * j) 2
/-- A rod record's output bead index, and the instance that a rod of KIND 0x02 to 0x05 uses. -/
def rodOut (e : List Byte) : Nat := natAt e 2 2
def rodInst (e : List Byte) : Nat := natAt e 16 2
def isBlockRod (e : List Byte) : Bool := byteAt e 0 != 1#8

/-- The block types with one input port, and those with one output port (07). -/
def oneInput (ty : Byte) : Bool :=
  ty == 0x04#8 || ty == tyTON || ty == tyTOF || ty == tyTP || ty == tyEDGE || ty == tyPROOF

def oneOutput (ty : Byte) : Bool :=
  ty == 0x01#8 || ty == 0x02#8 || ty == 0x03#8 || ty == 0x04#8 || ty == 0x05#8 || ty == tyTON || ty == tyTOF || ty == tyTP ||
    ty == tyRSLATCH || ty == tyEDGE || ty == tyHOSTBIT || ty == tyPROOFHEAD

/-- Beads laid on ports by the places `want`; where these would leave a bead out, or there is but one port, in the order in
which the rods name them (log 20). -/
def onPorts (one : Bool) (want : List Nat) (beads : List Nat) : List (Option Nat) :=
  let w := want.map fun j => beads[j]?
  if one then [beads[0]?] else if beads.all fun b => w.contains (some b) then w else beads.map some

/-- The block of an instance, from every rod that names it, in table order: every input and every output of those rods is one
of its ports, in the places that the form leaves to its compiler. -/
def rodBlock (sec : List Byte) (ps : List ParamRec) (rods : List (List Byte)) (inst : Nat) : Elem :=
  let own := rods.filter fun e => isBlockRod e && rodInst e == inst
  let ins := own.flatMap rodIns
  let outs := own.map rodOut
  let ty := match ps[inst]? with
    | some r => r.ty
    | none => 0
  .block inst (onPorts (oneInput ty) (Config.rodInputs ty ins.length) ins)
    (onPorts (oneOutput ty) (Config.rodOutputs ty outs.length) outs) (Config.rodVals sec inst)

/-- The element that rod `k` stands for: a logic rod; or the block of its instance, where it is the last rod that names
it (log 20). -/
def rodElem (sec : List Byte) (ps : List ParamRec) (rods : List (List Byte)) (k : Nat) (e : List Byte) : Option Elem :=
  if !isBlockRod e then some (.rod (u64At e 16) (rodIns e) (rodOut e))
  else if (rods.drop (k + 1)).any fun o => isBlockRod o && rodInst o == rodInst e then none
  else some (rodBlock sec ps rods (rodInst e))

def allInputs : List InChan :=
  ((List.finRange 24).map fun n => ⟨.a, n⟩) ++ ((List.finRange 24).map fun n => ⟨.b, n⟩)

def laneBForm (sec iomap : List Byte) (ps : List ParamRec) : LaneForm :=
  { beadCount := natAt sec 4 2,
    inputs := allInputs.filterMap fun c => (Config.laneBInput sec iomap c).map fun b => (c, b),
    elems := (rodsIn sec).zipIdx.filterMap fun e => rodElem sec ps (rodsIn sec) e.2 e.1,
    permit := Config.laneBPermit sec iomap }

def emptyForm : LaneForm := { beadCount := 0, inputs := [], elems := [], permit := none }

def formOf (i : Image) (l : Side) : LaneForm :=
  match l with
  | .a => (Config.laneAForm (sect i scLaneA) (paramsIn i)).getD emptyForm
  | .b => laneBForm (sect i scLaneB) (sect i scIomap) (paramsIn i)

/-- The loaf as a lane runs it. -/
def loafCfg (i : Image) (l : Side) : LoafCfg :=
  { loafId := loafIdOf i, trailer := trailerOf i, check := checkWord i, tfCode := hdrTf i, role := hdrRole i,
    flags := hdrFlags i, bind := bindIn i, params := paramsIn i, iomap := iomapIn i, smap := smapIn i, plan := planIn i,
    seeds := seedsIn i, form := formOf i l }

end Sys2Proof.Machine
end

