-- ==== Sys2Proof/Machine/Aes.lean ====
section
/-! DEFINITION. AES-128 and AES-128-CMAC (the keyed mode of SAFE messages, R322 of 13), as FIPS 197 and NIST SP 800-38B
define them. The S-box is computed from its definition: the inverse in the field of 256 elements, then the affine map. -/

namespace Sys2Proof.Machine

def gfDouble (x : Byte) : Byte := if x.msb then (x <<< 1) ^^^ 0x1B#8 else x <<< 1

/-- The product in the field, by the bits of `y` from the lowest. -/
def gfMulN : Nat → Byte → Byte → Byte
  | 0, _, _ => 0
  | n + 1, x, y => (if y.getLsbD 0 then x else 0) ^^^ gfMulN n (gfDouble x) (y >>> 1)

def gfMul (x y : Byte) : Byte := gfMulN 8 x y

/-- The inverse: the 254th power, 0 for 0. -/
def gfInv (x : Byte) : Byte :=
  let x2 := gfMul x x
  let x4 := gfMul x2 x2
  let x8 := gfMul x4 x4
  let x16 := gfMul x8 x8
  let x32 := gfMul x16 x16
  let x64 := gfMul x32 x32
  let x128 := gfMul x64 x64
  gfMul x128 (gfMul x64 (gfMul x32 (gfMul x16 (gfMul x8 (gfMul x4 x2)))))

def aesSbox (x : Byte) : Byte :=
  let y := gfInv x
  y ^^^ y.rotateLeft 1 ^^^ y.rotateLeft 2 ^^^ y.rotateLeft 3 ^^^ y.rotateLeft 4 ^^^ 0x63#8

def xorBytes (a b : List Byte) : List Byte := List.zipWith (· ^^^ ·) a b

/-- The next round key from the last, with its round constant. -/
def aesNextKey (rc : Byte) (k : List Byte) : List Byte :=
  let t := [aesSbox (byteAt k 13) ^^^ rc, aesSbox (byteAt k 14), aesSbox (byteAt k 15), aesSbox (byteAt k 12)]
  let w0 := xorBytes (bytesAt k 0 4) t
  let w1 := xorBytes (bytesAt k 4 4) w0
  let w2 := xorBytes (bytesAt k 8 4) w1
  let w3 := xorBytes (bytesAt k 12 4) w2
  w0 ++ w1 ++ w2 ++ w3

/-- SubBytes and ShiftRows together: byte i of the column-wise state comes from column (i / 4 + i % 4). -/
def aesSubShift (s : List Byte) : List Byte :=
  (List.range 16).map fun i => aesSbox (byteAt s ((i + 4 * (i % 4)) % 16))

def aesMixColumn (c : List Byte) : List Byte :=
  let a := byteAt c 0
  let b := byteAt c 1
  let d := byteAt c 2
  let e := byteAt c 3
  [gfDouble a ^^^ (gfDouble b ^^^ b) ^^^ d ^^^ e, a ^^^ gfDouble b ^^^ (gfDouble d ^^^ d) ^^^ e,
   a ^^^ b ^^^ gfDouble d ^^^ (gfDouble e ^^^ e), (gfDouble a ^^^ a) ^^^ b ^^^ d ^^^ gfDouble e]

def aesMixColumns (s : List Byte) : List Byte :=
  aesMixColumn (bytesAt s 0 4) ++ aesMixColumn (bytesAt s 4 4) ++ aesMixColumn (bytesAt s 8 4) ++
    aesMixColumn (bytesAt s 12 4)

/-- The rounds after the first key addition; the last one has no MixColumns. -/
def aesRounds : Nat → Byte → List Byte → List Byte → List Byte
  | 0, _, _, s => s
  | n + 1, rc, k, s =>
    let k' := aesNextKey rc k
    let t := aesSubShift s
    aesRounds n (gfDouble rc) k' (xorBytes (if n = 0 then t else aesMixColumns t) k')

def aes128 (key blk : List Byte) : List Byte := aesRounds 10 1 key (xorBytes blk key)

/-- A 16-byte string doubled in the field of 2^128 elements, most significant byte first. -/
def cmacDouble (l : List Byte) : List Byte :=
  let x : BitVec 128 := BitVec.ofNat 128 (ofLe l.reverse)
  let y := if x.msb then (x <<< 1) ^^^ 0x87#128 else x <<< 1
  (leBytes 16 y.toNat).reverse

def cmacBlocks (key : List Byte) : Nat → List Byte → List Byte → List Byte
  | 0, _, c => c
  | n + 1, l, c => cmacBlocks key n (l.drop 16) (aes128 key (xorBytes c (l.take 16)))

/-- AES-128-CMAC of a message, 16 bytes. -/
def aesCmac (key msg : List Byte) : List Byte :=
  let k1 := cmacDouble (aes128 key (zeros 16))
  let k2 := cmacDouble k1
  let n := if msg.length = 0 then 1 else (msg.length + 15) / 16
  let last := msg.drop (16 * (n - 1))
  let final := if last.length = 16 then xorBytes last k1 else xorBytes (padTo 16 (last ++ [0x80#8])) k2
  let c := cmacBlocks key (n - 1) msg (zeros 16)
  aes128 key (xorBytes c final)

end Sys2Proof.Machine
end

