-- ==== Sys2Proof/Machine/LaneCheck.lean ====
section
/-! DEFINITION. What a lane checks before it agrees to run a loaf: the failing checks of R154 with their indices, lowest code
first (R150 step 2), over IOMAP (R185, R209, R211, R239, R240, R256, R442, R459), PARAM (R158, R525, R176 and the ranges of
07), BIND, FABPLAN, SEEDS, STATEMAP (R142), the lane's own form and the proof loop mark (R174). -/

namespace Sys2Proof.Machine

/-- The index of a failure that involves no particular item. -/
def noItem : Nat := 0xFFFF

/-! ## IOMAP entries: ranges -/

def inRange (lo hi n : Nat) : Bool := decide (lo ≤ n) && decide (n ≤ hi)
def bAt (e : List Byte) (i : Nat) : Nat := (byteAt e i).toNat
def zeroFrom (e : List Byte) (i : Nat) : Bool := allZero (e.drop i)

/-- A code with 0x40 for crust B, below `n` on either crust. -/
def sideCode (n k : Nat) : Bool := decide (k < n) || (decide (0x40 ≤ k) && decide (k < 0x40 + n))

def beadIdx (beads k : Nat) : Bool := decide (k < beads)
def beadIdxOrNone (beads k : Nat) : Bool := k == 0xFFFF || decide (k < beads)

/-- An INPUT entry's fields (R185). DESIGN CHOICE, log 77: OSSDW may be 0 in an entry whose mode is not OSSD. -/
def inputRange (e : List Byte) : Bool :=
  let ch := bAt e 1
  let mode := bAt e 2
  sideCode 24 ch && decide (mode ≤ 6) && (decide (mode < 4) || decide (ch % 0x40 < 4)) &&
  (bAt e 3 == 0xFF || decide (bAt e 3 < 8)) && (mode != 2 || bAt e 3 != 0xFF) && decide (natAt e 4 2 ≤ 5000) &&
  (byteAt e 6 &&& 0xFC) == 0 && decide (bAt e 7 ≤ 2) &&
  ((mode != 3 && natAt e 8 2 == 0) || inRange 5 100 (natAt e 8 2)) && decide (natAt e 10 2 ≤ 1000) &&
  decide (bAt e 12 ≤ 20) && zeroFrom e 13

def legRange (beads : Nat) (e : List Byte) : Bool :=
  sideCode 17 (bAt e 1) && bAt e 7 == 0 && zeroFrom e 10 &&
  if bAt e 2 = 1 then bAt e 3 == 0 && natAt e 4 2 == 0xFFFF && bAt e 6 == 0 && natAt e 8 2 == 0
  else bAt e 2 == 2 && decide (bAt e 3 ≤ 2) && beadIdx beads (natAt e 4 2) && decide (bAt e 6 ≤ 20) &&
    inRange 1 500 (natAt e 8 2)

def chainRange (e : List Byte) : Bool :=
  inRange 1 4 (bAt e 1) && inRange 8 64 (bAt e 2) && bAt e 2 % 8 == 0 && decide (bAt e 3 ≤ 3) && inRange 1 20 (bAt e 4) &&
  decide (bAt e 5 < 16) && zeroFrom e 6 && decide (bAt e 2 * 2 ^ bAt e 3 ≤ 300)

/-- An INDMAP entry. Without an INDCHAIN entry none is in range, so check 0x05 names the first INDMAP entry (DESIGN CHOICE, log 114). -/
def mapRange (beads : Nat) (m : List (List Byte)) (e : List Byte) : Bool :=
  decide (natAt e 1 2 ≤ 255) && decide (bAt e 5 ≤ 4) && beadIdx beads (natAt e 6 2) && zeroFrom e 8 &&
  match indChainEntry m with
  | some c => decide (bAt e 3 < bAt c 1) && decide (bAt e 4 < bAt c 2)
  | none => false

def cycleRange (beads : Nat) (e : List Byte) : Bool :=
  decide (bAt e 1 ≤ 1) && beadIdx beads (natAt e 2 2) && beadIdx beads (natAt e 4 2) && sideCode 4 (bAt e 6) &&
  decide (1 ≤ bAt e 7) && [8, 10, 12, 14].all fun o => beadIdxOrNone beads (natAt e o 2)

/-- An entry's fields lie in their ranges and its unused bytes are 0x00. -/
def entryRange (beads : Nat) (m : List (List Byte)) (ps : List ParamRec) (e : List Byte) : Bool :=
  match bAt e 0 with
  | 0x01 => sideCode 3 (bAt e 1) && (bAt e 2 == 1 || bAt e 2 == 3) && zeroFrom e 3
  | 0x02 => inputRange e
  | 0x03 =>
    sideCode 2 (bAt e 1) && decide (1 ≤ bAt e 2) && sideCode 24 (bAt e 5) && bAt e 5 / 0x40 == bAt e 1 / 0x40 &&
    decide (1 ≤ bAt e 6) && zeroFrom e 7
  | 0x04 => sideCode 8 (bAt e 1) && inRange 10 100 (natAt e 2 2) && zeroFrom e 4
  | 0x05 => sideCode 4 (bAt e 1) && decide (bAt e 2 ≤ 1) && zeroFrom e 3
  | 0x10 => legRange beads e
  | 0x11 => sideCode 1 (bAt e 1) && inRange 2 16 (bAt e 2) && inRange 5 30 (bAt e 3) && zeroFrom e 4
  | 0x20 => chainRange e
  | 0x21 => mapRange beads m e
  | 0x30 => inRange 1 7 (bAt e 1) && inRange 2 15 (bAt e 2) && bAt e 3 == 0 && inRange 8 1024 (natAt e 4 2) && zeroFrom e 6
  | 0x40 => cycleRange beads e
  | 0x50 => decide (bAt e 1 ≤ 1) && inRange 1 8 (bAt e 2) && zeroFrom e 3
  | 0x51 =>
    decide (bAt e 1 ≤ 7) && inRange 0x08 0x77 (bAt e 2) && decide (bAt e 3 ≤ 15) && decide (bAt e 4 ≤ 7) &&
    allZero (bytesAt e 5 3) && decide (natAt e 8 4 < natAt e 12 4) && (actBusEntry m).isSome &&
    ps.any fun r => r.ty == tyLOCKDRV && parN r 0 == bAt e 3
  | _ => false

/-! ## IOMAP entries: conflicts -/

/-- Two entries of one kind that may not stand together. -/
def entriesClash (e f : List Byte) : Bool :=
  bAt e 0 == bAt f 0 &&
  match bAt e 0 with
  | 0x20 => true
  | 0x50 => true
  | 0x21 => natAt e 1 2 == natAt f 1 2 || (bAt e 3 == bAt f 3 && bAt e 4 == bAt f 4)
  | 0x51 => bAt e 1 == bAt f 1 || bAt e 2 == bAt f 2 || bAt e 3 == bAt f 3
  | _ => bAt e 1 == bAt f 1

/-- Quadrature inputs and QUAD entries belong together; a group's leg is no standard leg; the chain entry stands exactly
where remap entries do. -/
def entryLinks (m : List (List Byte)) (ps : List ParamRec) (e : List Byte) : Bool :=
  match bAt e 0 with
  | 0x02 => bAt e 2 != 6 || (quadEntry m (bAt e 1 / 0x40 * 0x40 + bAt e 1 % 0x40 / 2)).isSome
  | 0x03 =>
    let base := bAt e 1 / 0x40 * 0x40 + bAt e 1 % 0x40 * 2
    modeOfInput m base == 6#8 && modeOfInput m (base + 1) == 6#8
  | 0x10 =>
    let c : Side := if bAt e 1 < 0x40 then .a else .b
    bAt e 2 != 2 || (blocksOfLeg ps c (bAt e 1 % 0x40)).isEmpty
  | 0x20 => m.any fun f => bAt f 0 == 0x21
  | _ => true

/-- Entries of which the loaf holds at most one, by kind and, for GROUP, CRUSTOUT and TALLY, group, crust and class: of two,
the second is the item beyond the count (R185, R209, R239, R256, R459, R154). -/
def countedKind (k : Nat) : Bool := k == 0x01 || k == 0x11 || k == 0x20 || k == 0x30 || k == 0x50

/-- Entry `k` clashes with another; in a count in excess only an entry beyond the first does. -/
def entryInConflict (m : List (List Byte)) (k : Nat) (e : List Byte) : Bool :=
  m.zipIdx.any fun f => entriesClash e f.1 && (if countedKind (bAt e 0) then decide (f.2 < k) else f.2 != k)

/-- The first IOMAP entry that is out of range or in conflict. -/
def badEntry (beads : Nat) (m : List (List Byte)) (ps : List ParamRec) : Option Nat :=
  (m.zipIdx.find? fun e =>
    !entryRange beads m ps e.1 || !entryLinks m ps e.1 || entryInConflict m e.2 e.1).map (·.2)

/-- R211: the load of the pairs, a shared group counting with its limit once, and of a crust's standard legs. -/
def crustLoad (m : List (List Byte)) (ps : List ParamRec) (c : Side) : Nat :=
  let outs := ps.filter fun r => r.ty == tyQPAIR || r.ty == tyLOCKDRV
  let plain := (outs.filter fun r => !legsShared r).foldl (fun n r => n + legsInom r) 0
  let heads := (outs.zipIdx.filter fun e => legsShared e.1 &&
    !((outs.take e.2).any fun o => legsShared o && legsHigh o == legsHigh e.1)).map (·.1)
  let shared := heads.foldl (fun n r => n + 500 * 2 ^ legsHW r) 0
  let std := (m.filter fun e => bAt e 0 == 0x10 && bAt e 2 == 2 && decide (bAt e 1 / 0x40 = sideBase c / 0x40)).foldl
    (fun n e => n + natAt e 8 2) 0
  plain + shared + std

/-- Check 0x05. -/
def ckIomap (i : Image) (beads : Nat) (ps : List ParamRec) : Option Nat :=
  let m := iomapIn i
  match badEntry beads m ps with
  | some k => some k
  | none =>
    let len := (sect i scIomap).length
    if len % 16 ≠ 0 then some (len / 16)
    else if (crustOut m .a).isNone ∨ (crustOut m .b).isNone ∨ 4000 < crustLoad m ps .a ∨ 4000 < crustLoad m ps .b then
      some noItem
    else none

/-! ## PARAM records -/

/-- A stored time lies in its range in ms, converted under R159. -/
def timeIn (tf : Byte) (lo hi : Nat) (w : Nat) : Bool :=
  let ticks := fun (ms : Nat) => (ms * 100000 + tfUnits tf - 1) / tfUnits tf
  inRange (if lo = 0 then 0 else max 1 (ticks lo)) (min 0xFFFFFF (ticks hi)) w

def isDiagCode (n : Nat) : Bool := decide (n ≤ 3) || inRange 0x10 0x6F n || n == 0x70

/-- R210, R211 in so far as they concern one LEGS word. -/
def legsOk (r : ParamRec) : Bool :=
  let hw := (legsWord r).toNat / 16 % 4
  let lw := (legsWord r).toNat / 64 % 4
  decide (hw ≤ 2) && decide (lw ≤ 2) && (legsWord r).toNat / 512 % 128 == 0 && inRange 1 2000 (legsInom r) &&
  legsHigh r % 2 ^ hw == 0 && parN r 0 % 2 ^ lw == 0 && decide (legsInom r ≤ 500 * 2 ^ lw) &&
  decide (legsInom r ≤ 500 * 2 ^ hw)

/-- The parameters of a block lie in their ranges (07). -/
def paramsOk (tf : Byte) (r : ParamRec) : Bool :=
  let p := parN r
  let flag := fun (k : Nat) => decide (p k ≤ 1)
  let age := fun (k : Nat) => decide (p k ≤ 2)
  if r.ty = tyTON ∨ r.ty = tyTOF then timeIn tf 0 600000 (p 0) && age 1
  else if r.ty = tyTP then timeIn tf 1 600000 (p 0) && age 1
  else if r.ty = tyDUALCH then flag 0 && timeIn tf 10 5000 (p 1) && flag 2 && age 3
  else if r.ty = tyESTOP ∨ r.ty = tyMANREL then timeIn tf 10 5000 (p 0) && age 1
  else if r.ty = tyOSSD then timeIn tf 1 100 (p 0) && flag 1 && age 2
  else if r.ty = tyGUARD then flag 0 && timeIn tf 10 5000 (p 1) && flag 2 && flag 3 && age 4
  else if r.ty = tyMODESEL then inRange 2 4 (p 0) && timeIn tf 10 1000 (p 1) && age 2
  else if r.ty = tyEDGE then inRange 1 3 (p 0)
  else if r.ty = tyDOORPOS then
    decide (p 0 ≤ 65535) && inRange 1 65535 (p 1) && decide (p 0 < p 1) && inRange 1 1024 (p 2) && timeIn tf 10 2000 (p 3) &&
    inRange 1 255 (p 4) && age 5
  else if r.ty = tyCLOSEDLOCKED then timeIn tf 50 2000 (p 0) && age 1
  else if r.ty = tyOBSTACLE then timeIn tf 0 5000 (p 0) && inRange 1 15 (p 1) && age 2
  else if r.ty = tyRELEASE then timeIn tf 0 5000 (p 0) && age 1
  else if r.ty = tyZEROSPEED then
    inRange 50 100000 (p 0) && inRange 1 50 (p 1) && timeIn tf 10 5000 (p 2) && timeIn tf 0 2000 (p 3) && age 4
  else if r.ty = tyQPAIR then
    decide (p 0 ≤ 15) && legsOk r && timeIn tf 0 20 (p 2) && flag 3 && flag 4 && timeIn tf 10 1000 (p 5) && flag 6 && age 7
  else if r.ty = tyLOCKDRV then
    decide (p 0 ≤ 15) && legsOk r && timeIn tf 0 20 (p 2) && flag 3 && flag 4 && age 5 && timeIn tf 20 500 (p 6) &&
    timeIn tf 20 500 (p 7) && decide (p 6 ≤ p 7) && inRange 10 100 (p 8) && p 8 % 5 == 0 && inRange 1 4 (p 9)
  else if r.ty = tyRAILCUT then timeIn tf 10 1000 (p 0) && flag 1 && age 2
  else if r.ty = tyEXPORT ∨ r.ty = tyIMPORT then decide (p 0 ≤ 65535)
  else if r.ty = tyPROOF then age 0
  else if r.ty = tyCOUNT then decide (1 ≤ parI r 0) && decide (p 1 ≠ 0x80000000) && age 2
  else if r.ty = tyCMP then decide (p 2 ≤ 65535) && decide (p 3 ≤ 65535) && timeIn tf 10 5000 (p 4) && age 5
  else if r.ty = tyHOSTBIT then decide (p 0 ≤ 63) && flag 1
  else if r.ty = tyDIAG then (List.range 8).all fun k => isDiagCode (p k)
  else true

/-- The bead count of the connection that an IMPORT names. -/
def importBeads (seeds : List Conn) (r : ParamRec) : Nat :=
  match seeds.find? fun c => c.connId.toNat == parN r 0 with
  | some c => c.beads
  | none => 0

def stateBytes (seeds : List Conn) (r : ParamRec) : Nat :=
  (stateElems r).foldl (fun n e => n + e.width (importBeads seeds r)) 0

/-- R158: a record's TYPE, its index, its length and its reserved and closing bytes. -/
def recordOk (seeds : List Conn) (k : Nat) (l : List Byte) : Bool :=
  match paramCount (byteAt l 0) with
  | none => false
  | some n =>
    let used := 8 + 4 * n + stateBytes seeds (paramRec l)
    byteAt l 1 == 0 && natAt l 2 2 == k && natAt l 6 2 == 0 && l.length == (used + 3) / 4 * 4 && allZero (l.drop used)

/-- R176: every edge memory starts at 0x08. -/
def edgesOk (cfg : LoafCfg) (k : Nat) (r : ParamRec) : Bool :=
  let b := initialBlk cfg k r
  (stateElems r).all fun e => e.kind != 2#8 || encodeElem b e == [0x08#8]

/-- The greatest number of instances of a block type (07, R525). -/
def maxInstances (role ty : Byte) : Nat :=
  if ty = tyMODESEL ∨ ty = tyRELEASE ∨ ty = tyMANREL then 4
  else if ty = tyDOORPOS ∨ ty = tyCLOSEDLOCKED ∨ ty = tyOBSTACLE ∨ ty = tyZEROSPEED then 2
  else if ty = tyRAILCUT then 1
  else if ty = tyHOSTBIT then 64
  else if ty = tyDIAG then 8
  else if ty = tyPROOF then (if role = 0 then 0 else 1)
  else if ty = tyPROOFHEAD then (if role = 2 then 1 else 0)
  else 1024

/-- Another block before this one names the same pair or connection. -/
def namedBefore (before : List ParamRec) (r : ParamRec) : Bool :=
  let out := r.ty == tyQPAIR || r.ty == tyLOCKDRV
  let fab := r.ty == tyEXPORT || r.ty == tyIMPORT
  before.any fun o =>
    (out && (o.ty == tyQPAIR || o.ty == tyLOCKDRV) && parN o 0 == parN r 0) ||
    (fab && (o.ty == tyEXPORT || o.ty == tyIMPORT) && parN o 0 == parN r 0)

/-- R211 between blocks: two groups share a leg without being one shared group, or a shared group is formed differently. -/
def groupsClash (r o : ParamRec) : Bool :=
  let lies := fun (c : Side) => (groupLegs r c).any fun n => (groupLegs o c).contains n
  let same := legsHigh r == legsHigh o && legsHW r == legsHW o && legsShared r && legsShared o
  (lies .a && !same) || lies .b

def isDriver (r : ParamRec) : Bool := r.ty == tyQPAIR || r.ty == tyLOCKDRV

/-- R525: a block names a connection that SEEDS lacks or gives the other DIR. -/
def namesConn (seeds : List Conn) (r : ParamRec) : Bool :=
  if r.ty = tyEXPORT ∨ r.ty = tyIMPORT then
    seeds.any fun c => c.connId.toNat == parN r 0 && c.isExport == (r.ty == tyEXPORT)
  else true

def instanceOk (i : Image) (cfg : LoafCfg) (k : Nat) (l : List Byte) (r : ParamRec) : Bool :=
  let before := cfg.params.take k
  recordOk cfg.seeds k l && paramsOk cfg.tfCode r && edgesOk cfg k r && namesConn cfg.seeds r &&
  decide ((before.filter fun o => o.ty == r.ty).length < maxInstances (hdrRole i) r.ty) && !namedBefore before r &&
  (!isDriver r ||
    (decide ((before.filter fun o => isDriver o && legsHigh o == legsHigh r).length < 4) &&
      (cfg.params.zipIdx.all fun o => o.2 == k || !isDriver o.1 || !groupsClash r o.1)))

/-- Check 0x06. -/
def ckParam (i : Image) (cfg : LoafCfg) : Option Nat :=
  let (rs, rest) := recordsOf (sect i scParam)
  match (rs.zipIdx.find? fun e => !instanceOk i cfg e.2 e.1 (paramRec e.1)).map (·.2) with
  | some k => some k
  | none =>
    if !rest.isEmpty then some rs.length
    else
      let n := fun (ty : Byte) => (cfg.params.filter fun r => r.ty == ty).length
      if (hdrRole i ≠ 0 ∧ n tyPROOF = 0) ∨ (hdrRole i = 2 ∧ n tyPROOFHEAD = 0) then some noItem else none

/-! ## BIND, FABPLAN, SEEDS, STATEMAP -/

/-- Check 0x08 (R144). -/
def bindOk (i : Image) : Bool :=
  let s := sect i scBind
  let b := bindIn i
  s.length == 32 && !(b.tag.all (· == 0)) && !(b.tag.all (· == 0xFF#8)) &&
  (if hdrRole i = 0 then b.pos == 0xFF#8 else decide (b.pos.toNat < 64)) && byteAt s 13 == 0 && !reservedSig b.sig &&
  zeroFrom s 16

/-- Check 0x09 (R145). -/
def ckPlan (i : Image) : Option Nat :=
  match secBytes? i scPlan, planIn i with
  | some s, some p =>
    match badPlan (bindIn i) p with
    | some k => some k
    | none =>
      match ((entriesOf 16 p.members.length (s.drop 16)).zipIdx.find? fun e => !zeroFrom e.1 10).map (·.2) with
      | some k => some k
      | none =>
        if s.length != 16 + 16 * (byteAt s 4).toNat || (byteAt s 4).toNat == 0 || decide (1 < (byteAt s 5).toNat) ||
            !allZero (bytesAt s 6 10) then some noItem
        else none
  | _, _ => if hdrRole i = 2 then some noItem else none

def seedOk (es : List (List Byte)) (k : Nat) (e : List Byte) : Bool :=
  let c := connOf e
  decide (bAt e 2 ≤ 1) && decide (bAt e 3 ≤ 1) && (if bAt e 3 = 1 then bAt e 4 == 0xFF else decide (bAt e 4 < 64)) &&
  inRange 2 16 (bAt e 5) && (bAt e 6 == 0xFF || decide (bAt e 6 < 16)) && inRange 1 32 (bAt e 7) && c.seedA != c.seedB &&
  es.zipIdx.all fun o => o.2 == k || u16At o.1 0 != c.connId

/-- Check 0x0A (R147, R525). -/
def ckSeeds (i : Image) (ps : List ParamRec) : Option Nat :=
  let es := seedEntries i
  let keyed := bitOf (hdrFlags i) 1
  let named := fun (e : List Byte) => ps.any fun r =>
    (r.ty == tyEXPORT || r.ty == tyIMPORT) && parN r 0 == natAt e 0 2
  match (es.zipIdx.find? fun e =>
      !seedOk es e.2 e.1 || !named e.1 || (!keyed && byteAt e.1 6 != 0xFF#8)).map (·.2) with
  | some k => some k
  | none =>
    let s := sect i scSeeds
    if s.length != 4 + 16 * natAt s 0 4 then some noItem
    else if keyed && es.all fun e => byteAt e 6 == 0xFF#8 then some noItem
    else none

/-- Check 0x0B (R142). -/
def ckState (i : Image) (cfg : LoafCfg) : Option Nat :=
  let s := sect i scState
  let rs := resolveMap cfg.params [] cfg.smap
  let fits := fun (e : (Nat × Option StElem) × Nat) =>
    match e.1.2, cfg.smap[e.2]?, cfg.params[e.1.1]? with
    | some el, some m, some r => m.width.toNat == el.width (importBeads cfg.seeds r)
    | _, _, _ => false
  match (rs.zipIdx.find? fun e => !fits e).map (·.2) with
  | some k => some k
  | none =>
    if s.length != 4 + 4 * natAt s 0 4 then some noItem
    else if cfg.params.zipIdx.all fun r => (rs.filter fun e => e.1 == r.2).length == (stateElems r.1).length then none
    else some noItem

/-! ## The lane's own form -/

/-- LANEA's sub-header (R138). DESIGN CHOICE, log 75: the code fills the section after the sub-header, the entry lies
within the code, and the last eight bytes are 0x00; the spec names no other value malformed. -/
def laneAHead (i : Image) : Bool :=
  let s := sect i scLaneA
  decide (16 ≤ s.length) && natAt s 0 4 + 16 == s.length && decide (natAt s 6 2 < max 1 (natAt s 0 4)) &&
  allZero (bytesAt s 8 8)

def laneBHead (i : Image) : Bool :=
  let s := sect i scLaneB
  decide (16 ≤ s.length) && natAt s 0 4 * 24 + 16 == s.length && allZero (bytesAt s 8 8)

def rodOk (beads nParams : Nat) (e : List Byte) : Bool :=
  let ar := bAt e 1
  inRange 1 5 (bAt e 0) && inRange 1 6 ar && beadIdx beads (natAt e 2 2) &&
  ((List.range 6).all fun j =>
    if j < ar then beadIdx beads (natAt e (4 + 2 * j) 2) else natAt e (4 + 2 * j) 2 == 0xFFFF) &&
  (bAt e 0 == 1 || (decide (natAt e 16 2 < nParams) && zeroFrom e 18))

def headOk (i : Image) : Side → Bool
  | .a => laneAHead i
  | .b => laneBHead i

/-- Check 0x0C (R138, R139). -/
def ckForm (i : Image) (l : Side) : Option Nat :=
  match l with
  | .a => if laneAHead i && (Config.laneAForm (sect i scLaneA) (paramsIn i)).isSome then none else some 0
  | .b =>
    if !laneBHead i then some 0
    else ((rodsIn (sect i scLaneB)).zipIdx.find? fun e => !rodOk (laneBBeads i) (paramsIn i).length e.1).map (·.2)

/-- R174: the loop mark without a manager, or PROOFHEAD's SEG driving a QPAIR without EDM under the mark. -/
def proofLoopBad (i : Image) (form : LaneForm) (ps : List ParamRec) : Bool :=
  let mark := bitOf (hdrFlags i) 2
  let segs := form.elems.flatMap fun e =>
    match e with
    | .block k _ outs _ => if (ps[k]?).any (fun r => r.ty == tyPROOFHEAD) then outs.filterMap id else []
    | _ => []
  mark && (hdrRole i != 2#8 || form.elems.any fun e =>
    match e with
    | .block k ins _ _ =>
      (ps[k]?).any (fun r => r.ty == tyQPAIR && !parB r 4) && ins.any fun x => x.any fun b => segs.contains b
    | _ => false)

/-! ## The checks in order -/

/-- The section a lane checks alone, and the one it leaves to the other lane (R137). -/
def ownForm : Side → Byte
  | .a => scLaneA
  | .b => scLaneB

/-- Check 0x01: the lowest TYPE of a section this lane checks that is missing or whose CRC fails. -/
def ckSectionCrc (i : Image) (l : Side) : Option Nat :=
  [1, 2, 3, 4, 5, 6, 7, 8].find? fun t =>
    BitVec.ofNat 8 t != ownForm l.other &&
    match (directory i).find? fun d => d.ty.toNat == t with
    | some d => !(inImage i d && sectionCrcOk i d)
    | none => t != 7

def orElseCheck (code : Nat) (r : Option Nat) (rest : Option (Nat × Nat)) : Option (Nat × Nat) :=
  match r with
  | some k => some (code, k)
  | none => rest

def flagCheck (bad : Bool) : Option Nat := if bad then some 0 else none

/-- What a lane finds: its failing check of the lowest code with the index, none where it agrees (R154). -/
def laneCheck (n : NvSt) (i : Image) (l : Side) : Option (Nat × Nat) :=
  let cfg := loafCfg i l
  let beads := match l with
    | .a => laneABeads i
    | .b => laneBBeads i
  let (ucode, need) := match l with
    | .a => (n.ucode.a, hdrUcodeA i)
    | .b => (n.ucode.b, hdrUcodeB i)
  let (cycles, bound) := match l with
    | .a => (hdrCyclesA i, boundA (hdrTf i))
    | .b => (hdrCyclesB i, boundB (hdrTf i))
  let beadsDiffer := (ckSectionCrc i .a).isNone && (ckSectionCrc i .b).isNone && headOk i .a && headOk i .b &&
    laneABeads i != laneBBeads i
  orElseCheck 0x01 (ckSectionCrc i l)
    (orElseCheck 0x02 (flagCheck (!dirCrcOk i))
    (orElseCheck 0x03 (flagCheck (decide (ucode.toNat < need.toNat)))
    (orElseCheck 0x04 (limitItem i)
    (orElseCheck 0x05 (ckIomap i beads cfg.params)
    (orElseCheck 0x06 (ckParam i cfg)
    (orElseCheck 0x07 (flagCheck beadsDiffer)
    (orElseCheck 0x08 (flagCheck (!bindOk i))
    (orElseCheck 0x09 (ckPlan i)
    (orElseCheck 0x0A (ckSeeds i cfg.params)
    (orElseCheck 0x0B (ckState i cfg)
    (orElseCheck 0x0C (ckForm i l)
    (orElseCheck 0x0D (flagCheck (proofLoopBad i cfg.form cfg.params))
    (orElseCheck 0x26 (flagCheck (decide (bound < cycles))) none)))))))))))))

/-- DETAIL of LOAF_LANE_A and LOAF_LANE_B (R154). -/
def laneDetail (r : Nat × Nat) : Nat := r.1 + 65536 * r.2

/-- Step 3 of R150: the loaf IDs and the loaf check words agree as the lanes have exchanged them, `upset` being what befalls
each lane's word on its way. -/
def identityAgrees (upset : Two W32) (a b : LoafCfg) : Bool :=
  a.loafId == b.loafId && (a.check ^^^ upset.a) == b.check && a.check == (b.check ^^^ upset.b)

/-- Step 2 of R150: both lanes' verdicts. -/
def lanesCheck (n : NvSt) (i : Image) : Option (Byte × Nat) :=
  match laneCheck n i .a with
  | some r => some (stLoafLaneA, laneDetail r)
  | none => (laneCheck n i .b).map fun r => (stLoafLaneB, laneDetail r)

/-- Steps 2 and 3 of R150: the verdicts, then the agreement on the loaf's identity. -/
def lanesVerify (n : NvSt) (upset : Two W32) (i : Image) : Option (Byte × Nat) :=
  match lanesCheck n i with
  | some r => some r
  | none => if identityAgrees upset (loafCfg i .a) (loafCfg i .b) then none else some (stLoafIdentity, 0)

end Sys2Proof.Machine
end

