-- ==== Sys2Proof/Machine/Flags.lean ====
section
/-! DEFINITION. Flags and counts that follow from events: interrupt flags and IRQN (14), STATUS (R352), the live counters of
a frame (R354, R452) and of an epoch (R453), the lanes in service, SAFEN (R232). -/

namespace Sys2Proof.Machine

/-! ## Interrupt flags (R352, interrupt table of 14) -/

def irqMbxDone : Nat := 0
def irqMode : Nat := 1
def irqFault : Nat := 2
def irqFrame : Nat := 3
def irqEpoch : Nat := 4
def irqInd : Nat := 5
def irqHostwd : Nat := 6
def irqSync : Nat := 7
def irqSpiCrc : Nat := 0
def irqSpiErr : Nat := 1
def irqCan : Nat := 2

/-- The bit of a byte set. -/
def byteBit (i : Nat) : Byte := 1#8 <<< i

def setIrq0 (s : State) (i : Nat) : State :=
  { s with host := { s.host with irqStat0 := s.host.irqStat0 ||| byteBit i } }

def setIrq1 (s : State) (i : Nat) : State :=
  { s with host := { s.host with irqStat1 := s.host.irqStat1 ||| byteBit i } }

/-- The core has its supply and is out of reset: the lands of the host port, of CAN FD and of JTAG are alive (R45, R52). -/
def portLive (s : State) : Bool := s.core.vddGood && !s.core.inReset

/-- What a land's event does: nothing while its land is Z (R45, R52). -/
def whileLive (s t : State) : State := if portLive s then t else s

/-- IRQN is asserted while an enabled interrupt is pending; it is Z in reset and without VDD33 (R45). -/
def irqAsserted (s : State) : Bool :=
  portLive s && ((s.host.irqStat0 &&& s.host.irqEn0) ||| (s.host.irqStat1 &&& s.host.irqEn1)) != 0

/-- A lane in service whose clocks run (R485). -/
def laneRuns (s : State) (l : Side) : Bool := !(s.lane.at l).retired && !(s.lane.at l).stopped

/-! ## The active loaf and the lanes in service -/

def otherCfg (a b : Option LoafCfg) : Option LoafCfg :=
  match a with
  | some c => some c
  | none => b

/-- The active loaf's shared sections, as a lane holds them. -/
def activeCfg (s : State) : Option LoafCfg := otherCfg s.lane.a.cfg s.lane.b.cfg

/-- ROLE of the active loaf, 0 without one (R134). -/
def roleOf (s : State) : Byte :=
  match activeCfg s with
  | some c => c.role
  | none => 0

def isManager (s : State) : Bool := roleOf s == 2#8
def isWorker (s : State) : Bool := roleOf s == 1#8

/-- The lane that counts and reports for both: lane A, or lane B where lane A is retired. -/
def reportingLane (s : State) : LaneSt := if s.lane.a.retired then s.lane.b else s.lane.a

def laneLive (s : State) (l : Side) : Bool := !(s.lane.at l).retired

def bothInService (s : State) : Bool := laneLive s .a && laneLive s .b

/-- The station, a manager's being 0 (R297, R386). -/
def ownStation (s : State) : Option Byte := if isManager s then some 0 else s.fab.station

def bypassClosed (s : State) : Bool := s.fab.ports.a.st == .bypass && s.fab.ports.b.st == .bypass

/-- In tick sync, manager, or no fabric role (STATUS.SYNC of R352); 0 until the tick starts. A worker is in tick sync while it
is joined and follows its manager's TICK. -/
def syncBit (s : State) : Bool :=
  s.core.tickOn && (!isWorker s || (!bypassClosed s && s.fab.sync == .inSync))

/-- STATUS (R352). -/
def statusByte (s : State) : Byte :=
  byteOfBits [s.host.hearth, s.host.reqResult.getLsbD 0, s.host.reqResult.getLsbD 1, s.core.safen, s.lane.a.retired,
    s.lane.b.retired, syncBit s, s.core.lateLast.a || s.core.lateLast.b]

/-- IRQ_STAT0.SYNC where STATUS.SYNC differs between two states. -/
def syncIrq (before after : State) : State := if syncBit before = syncBit after then after else setIrq0 after irqSync

/-! ## Live counts (R354, R452) and epoch counts (R453) -/

def modLive (s : State) (f : Counts → Counts) : State := { s with stat := { s.stat with live := f s.stat.live } }

def modEpoch (s : State) (f : Epoch → Epoch) : State := { s with stat := { s.stat with epoch := f s.stat.epoch } }

def countLinkErr (s : State) : State := modLive s fun c => { c with linkerr := satInc c.linkerr }
def countRetry (s : State) : State := modLive s fun c => { c with retry := satInc c.retry }
def countTrans (s : State) (n : Nat) : State := modLive s fun c => { c with trans := satAdd c.trans n }
def countStale (s : State) (n : Nat) : State := modLive s fun c => { c with stale := satAdd c.stale n }
def countSfdrop (s : State) : State := modLive s fun c => { c with sfdrop := satInc c.sfdrop }
def countSafedisc (s : State) : State := modLive s fun c => { c with safedisc := satInc c.safedisc }
def countCanerr (s : State) : State := modLive s fun c => { c with canerr := satInc c.canerr }

def countEcc (s : State) (n : Nat) : State := modEpoch s fun e => { e with ecc := satAdd e.ecc n }
def countOverflow (s : State) (n : Nat) : State := modEpoch s fun e => { e with overflow := satAdd e.overflow n }
def countDiscarded (s : State) : State := modEpoch s fun e => { e with discarded := satInc e.discarded }
def countAbortLate (s : State) : State := { s with fab := { s.fab with abortLate := satInc s.fab.abortLate } }
def countCutDrop (s : State) : State := { s with fab := { s.fab with cutDrops := satInc s.fab.cutDrops } }
def countMbxDiscarded (s : State) : State := modEpoch s fun e => { e with mbxDiscarded := satInc e.mbxDiscarded }
def countLateReply (s : State) : State := modEpoch s fun e => { e with lateReplies := satInc e.lateReplies }
def countMismatch (s : State) : State := modEpoch s fun e => { e with mismatch := satInc e.mismatch }
def countTimeout (s : State) : State := modEpoch s fun e => { e with timeouts := satInc e.timeouts }
def countLostCrumb (s : State) : State := modEpoch s fun e => { e with crumbsLost := satInc e.crumbsLost }
def countAnalogOver (s : State) (n : Nat) : State := modEpoch s fun e => { e with analogOver := satAdd e.analogOver n }

/-- The sums of an epoch with one frame's counts added (R453). -/
def epochAdd (e : Epoch) (c : Counts) (frame : W32) (hold : Bool) : Epoch :=
  { e with
    testHold := e.testHold || hold, frames := satInc e.frames, first := if e.frames = 0 then frame else e.first,
    maxEvalA := maxBv e.maxEvalA c.evalA, maxEvalB := maxBv e.maxEvalB c.evalB, maxFablat := maxBv e.maxFablat c.fablat,
    linkerr := satAdd e.linkerr c.linkerr.toNat, retry := satAdd e.retry c.retry.toNat,
    trans := satAdd e.trans c.trans.toNat, lateA := satAdd e.lateA (natOfBool c.lateA),
    lateB := satAdd e.lateB (natOfBool c.lateB), lateInd := satAdd e.lateInd (natOfBool c.lateInd),
    stale := satAdd e.stale c.stale.toNat, sfdrop := satAdd e.sfdrop c.sfdrop.toNat,
    safedisc := satAdd e.safedisc c.safedisc.toNat, canerr := satAdd e.canerr c.canerr.toNat }

/-- R453: the epoch sums latched, EGEN advanced, IRQ_STAT0.EPOCH set. -/
def latchEpoch (s : State) (isPartial : Bool) : State :=
  setIrq0 { s with stat := { s.stat with
    lastEpoch := { s.stat.epoch with isPartial := isPartial }, epoch := Epoch.zero, egen := s.stat.egen + 1
    jumped := false } } irqEpoch

/-- R109, R453: the frame number of a TICK taken up; where it is not the module's own, the epoch ends. -/
def takeFrameNo (s : State) (n : W32) : State :=
  { s with core := { s.core with frameNo := n }, stat := { s.stat with jumped := s.stat.jumped || s.core.frameNo != n } }

/-- R451: the live counters copied into the window block and restarted; STAT_FRAME is the frame just ended. -/
def latchFrame (s : State) (ended : W32) : State :=
  setIrq0 { s with stat := { s.stat with
    latched := s.stat.live, frame := ended, gen := s.stat.gen + 1, live := Counts.zero,
    epoch := epochAdd s.stat.epoch s.stat.live ended s.test.hold } } irqFrame

/-! ## SAFEN (R232) -/

def legRetired (l : LaneSt) (c : Side) (n : Nat) : Bool := (tabGet ChanRec.clear l.chans (chanLeg c n)).retired

/-- A channel out of service keeps the effects of its retirement while on probation (R266, R270). -/
def chanOut (r : ChanRec) : Bool := r.retired || r.prob.isSome

/-- A leg out of service: its own record retired or on probation. -/
def legOut (l : LaneSt) (c : Side) (n : Nat) : Bool := chanOut (tabGet ChanRec.clear l.chans (chanLeg c n))

/-- A pair is retired: by PAIRSHORT, or through a leg of its groups (R214, R266). -/
def pairRetired (ps : List ParamRec) (l : LaneSt) (pair : Nat) : Bool :=
  (tabGet PairRec.init l.pairs pair).pairShort ||
  match pairBlock ps pair with
  | some (_, r) => (groupLegs r .a).any (legOut l .a) || (groupLegs r .b).any (legOut l .b)
  | none => true

/-- A PAIRSHORT is being held (R226). -/
def pairShortHeld (l : LaneSt) : Bool := l.pairs.any fun e => e.2.pairShort

def heldByShort (p : PairRec) : Bool := p.shortHi || p.shortLo

/-- A lane asserts availability at the tick that begins a frame (R232). -/
def available (s : State) (l : LaneSt) : Bool :=
  (s.core.mode == .operate || s.core.mode == .maintain) && bothInService s && !pairShortHeld l &&
  !s.crust.a.lockout && !s.crust.b.lockout && !s.crust.a.overvolt && !s.crust.b.overvolt &&
  match l.cfg with
  | some c => (drivenPairs c.params).any fun p => decide (p < 16) && !pairRetired c.params l p &&
      !heldByShort (tabGet PairRec.init l.pairs p)
  | none => false

def safenLevel (s : State) : Bool := available s s.lane.a && available s s.lane.b

end Sys2Proof.Machine
end

