-- ==== Sys2Proof/Machine/Ops.lean ====
section
/-! DEFINITION. The named operations that commands share: reading and changing one piece of the state, time stamps, free
values, crumbs (R439, R445), anomaly reports (R258), mode changes (R64), measurement events (R405), opening a crust's legs,
closing the bypass, and the core reset with its kill (R51). -/

namespace Sys2Proof.Machine

/-! ## One piece of the state -/

def modCrust (s : State) (c : Side) (f : CrustSt → CrustSt) : State :=
  { s with crust := s.crust.set c (f (s.crust.at c)) }

def modLane (s : State) (l : Side) (f : LaneSt → LaneSt) : State := { s with lane := s.lane.set l (f (s.lane.at l)) }

def modLanes (s : State) (f : LaneSt → LaneSt) : State := { s with lane := s.lane.map f }

def modPort (s : State) (p : PortId) (f : PortSt → PortSt) : State :=
  { s with fab := { s.fab with ports := s.fab.ports.set p.side (f (s.fab.ports.at p.side)) } }

def portOf (s : State) (p : PortId) : PortSt := s.fab.ports.at p.side

def inOf (c : CrustSt) (n : Nat) : InSt := tabGet InSt.init c.ins n
def modIn (c : CrustSt) (n : Nat) (f : InSt → InSt) : CrustSt := { c with ins := tabMod InSt.init c.ins n f }
def quadOf (c : CrustSt) (n : Nat) : QuadSt := tabGet QuadSt.init c.quads n
def modQuad (c : CrustSt) (n : Nat) (f : QuadSt → QuadSt) : CrustSt := { c with quads := tabMod QuadSt.init c.quads n f }
def srcOf (c : CrustSt) (n : Nat) : SrcSt := tabGet SrcSt.init c.srcs n
def modSrc (c : CrustSt) (n : Nat) (f : SrcSt → SrcSt) : CrustSt := { c with srcs := tabMod SrcSt.init c.srcs n f }
def anaOf (c : CrustSt) (n : Nat) : AnaSt := tabGet AnaSt.init c.ana n
def modAna (c : CrustSt) (n : Nat) (f : AnaSt → AnaSt) : CrustSt := { c with ana := tabMod AnaSt.init c.ana n f }
def legOf (c : CrustSt) (n : Nat) : LegSt := tabGet LegSt.off c.legs n
def modLeg (c : CrustSt) (n : Nat) (f : LegSt → LegSt) : CrustSt := { c with legs := tabMod LegSt.off c.legs n f }
def driveOf (c : CrustSt) (n : Nat) : DriveSt := tabGet DriveSt.init c.drives n
def modDrive (c : CrustSt) (n : Nat) (f : DriveSt → DriveSt) : CrustSt :=
  { c with drives := tabMod DriveSt.init c.drives n f }
def modLegs (c : CrustSt) (ns : List Nat) (f : LegSt → LegSt) : CrustSt := ns.foldl (fun c n => modLeg c n f) c

def chanOf (l : LaneSt) (n : Nat) : ChanRec := tabGet ChanRec.clear l.chans n
def modChan (l : LaneSt) (n : Nat) (f : ChanRec → ChanRec) : LaneSt := { l with chans := tabMod ChanRec.clear l.chans n f }
def pairRecOf (l : LaneSt) (p : Nat) : PairRec := tabGet PairRec.init l.pairs p
def modPair (l : LaneSt) (p : Nat) (f : PairRec → PairRec) : LaneSt := { l with pairs := tabMod PairRec.init l.pairs p f }
def beadOf (l : LaneSt) (i : Nat) : Byte := tabGet paritySub l.beads i

/-! ## Time -/

/-- The module's timestamp at an offset from the present tick. -/
def stampAt (s : State) (t : BitVec 20) : Stamp := { frame := s.core.frameNo, off := t }

/-- 10 ns units from one stamp to another, at the frame period in force. -/
def unitsBetween (s : State) (x y : Stamp) : Int :=
  ((y.frame.toNat : Int) - x.frame.toNat) * tfUnits s.core.tfCode + ((y.off.toNat : Int) - x.off.toNat)

/-- A stamp `u` units before another. -/
def stampBack (s : State) (x : Stamp) (u : Nat) : Stamp :=
  let tf := tfUnits s.core.tfCode
  let tot := x.frame.toNat * tf + x.off.toNat - u
  { frame := BitVec.ofNat 32 (tot / tf), off := BitVec.ofNat 20 (tot % tf) }

def setOff (s : State) (t : BitVec 20) : State := { s with core := { s.core with off := t } }

/-- The frame passes into a phase at an offset from its tick (R91). -/
def toPhase (s : State) (p : Phase) (t : Nat) : State :=
  { s with core := { s.core with phase := p, off := BitVec.ofNat 20 t } }

/-- A duration in milliseconds as whole frames, rounded up. -/
def framesOfMs (s : State) (ms : Nat) : Nat := (ms * 100000 + tfUnits s.core.tfCode - 1) / tfUnits s.core.tfCode

/-! ## Free values -/

/-- `n` free bytes, and the counter moved on. -/
def drawBytes (s : State) (n : Nat) : List Byte × State :=
  ((List.range n).map (Config.freeByte s.drawn), { s with drawn := s.drawn + 1 })

/-! ## Host bits (HOSTBIT of 07, R359) -/

/-- The host bits whose HOSTBIT block the active loaf holds, and those of them whose DEFAULT is 1. -/
def hostBlocks (s : State) : W64 × W64 :=
  match activeCfg s with
  | none => (0, 0)
  | some cfg => (cfg.params.filter fun r => r.ty == tyHOSTBIT).foldl (fun w r =>
      let m := 1#64 <<< (parN r 0)
      (w.1 ||| m, if parB r 1 then w.2 ||| m else w.2)) (0, 0)

/-- The word of host bits: those set by the host, and DEFAULT for the others. -/
def hostWord (s : State) (bits set : W64) : W64 := (bits &&& set) ||| ((hostBlocks s).2 &&& ~~~set)

/-- The host bits in force. -/
def bitsInForce (s : State) : W64 := hostWord s s.mbx.hostBits s.mbx.hostSet

/-! ## Crumbs (R439, R445) -/

/-- The hearth is running and may write the journal. -/
def hearthLive (s : State) : Bool := s.host.hearth && !s.core.inReset

def bufUnits (b : List (List Byte)) : Nat := b.foldl (fun n c => n + c.length / 32) 0

/-- A crumb put into the hearth's buffer of 512 units, or lost and counted. -/
def pushCrumb (s : State) (c : List Byte) : State :=
  if !hearthLive s || s.jrn.closed then s
  else if 512 < bufUnits s.jrn.buf + c.length / 32 then
    countLostCrumb { s with jrn := { s.jrn with lost := s.jrn.lost + 1 } }
  else { s with jrn := { s.jrn with buf := s.jrn.buf ++ [c] } }

/-- The 32 bytes of an event crumb. -/
def eventCrumb (s : State) (kind chan code : Byte) (body : List Byte) : List Byte :=
  [kind, 0x01, chan, code] ++ le32 s.core.frameNo ++ leBytes 3 s.core.off.toNat ++ [s.core.mode.code] ++ padTo 20 body

def crumb (s : State) (kind : Byte) (chan : Nat) (code : Byte) (body : List Byte) : State :=
  pushCrumb s (eventCrumb s kind (BitVec.ofNat 8 chan) code body)

def crAnomaly : Byte := 0x01
def crRetire : Byte := 0x02
def crReadmit : Byte := 0x03
def crFatal : Byte := 0x04
def crMode : Byte := 0x05
def crConsequence : Byte := 0x06
def crFabric : Byte := 0x07
def crHost : Byte := 0x08
def crMeas : Byte := 0x09
def crSelftest : Byte := 0x0A
def crLoaf : Byte := 0x0B
def crActuator : Byte := 0x0C
def crJournal : Byte := 0x0D
def crBoot : Byte := 0x0E

/-! ## Anomaly codes (R440) -/

def anFrontend : Byte := 0x01
def anThreshold : Byte := 0x02
def anMissedPulse : Byte := 0x03
def anForeignPulse : Byte := 0x04
def anIllegal : Byte := 0x05
def anOverrate : Byte := 0x06
def anHomeslip : Byte := 0x07
def anParity : Byte := 0x08
def anSrcOvercurrent : Byte := 0x10
def anSrcOpen : Byte := 0x11
def anSrcReadback : Byte := 0x12
def anReference : Byte := 0x18
def anStall : Byte := 0x19
def anStuckOn : Byte := 0x20
def anPairshort : Byte := 0x21
def anStuckdrive : Byte := 0x22
def anOvercurrent : Byte := 0x23
def anThermal : Byte := 0x24
def anProbeShort : Byte := 0x25
def anStuckOff : Byte := 0x26
def anLoadOpen : Byte := 0x27
def anSupply : Byte := 0x28
def anSymbol : Byte := 0x30
def anLinkCrc : Byte := 0x31
def anSafeCode : Byte := 0x32
def anLockLoss : Byte := 0x33
def anChipNak : Byte := 0x38
def anBusStuck : Byte := 0x39
def anStbwd : Byte := 0x3C
def anSliceFail : Byte := 0x40
def anSliceRerun : Byte := 0x41
def anSliceOverrun : Byte := 0x42
def anLate : Byte := 0x43
def anEvalParity : Byte := 0x44
def anEccDouble : Byte := 0x45
def anCrustlink : Byte := 0x46
def anCrosslink : Byte := 0x47
def anDisagree : Byte := 0x48
def anHandshake : Byte := 0x49
def ftClockRange : Byte := 0x50
def ftClockStop : Byte := 0x51
def ftLoafIdentity : Byte := 0x52
def ftBothCrusts : Byte := 0x53
def ftSecondLane : Byte := 0x54
def csConnTimeout : Byte := 0x60
def csCopyMismatch : Byte := 0x61
def csNeighbourChange : Byte := 0x62
def csChainRejected : Byte := 0x63
def csChainFalse : Byte := 0x64

/-- R205, R184, R233: the place of a code in the reporting order of an input, a source or a leg; the lowest is reported. -/
def anomalyRank (c : Byte) : Nat :=
  if c = anPairshort then 0x1F
  else if c = anSrcReadback then 0x10
  else if c = anSrcOvercurrent then 0x0F
  else c.toNat

/-- The one anomaly a channel reports in a frame: the one found so far or the new one, whichever comes first in order. -/
def firstAnomaly (old new : Byte) : Byte :=
  if old = 0 then new else if anomalyRank new < anomalyRank old then new else old

/-! ## Reports (R258) -/

/-- An anomaly found by both lanes: counted at the end of the next phase E. -/
def laneReport (s : State) (r : Rep) : State := modLanes s fun l => { l with reps := l.reps ++ [r] }

def transient (chan : Nat) (code : Byte) : Rep := { chan := chan, code := code, permanent := false }
def permanent (chan : Nat) (code : Byte) : Rep := { chan := chan, code := code, permanent := true }

/-- An anomaly found by the MAC, the hearth or a watchdog: it reaches the lanes with the next tick. -/
def foundReport (s : State) (r : Rep) : State := { s with core := { s.core with found := s.core.found ++ [r] } }

/-- R261, R268: a fatal fault, once since reset, its crumb and IRQ_STAT0.FAULT; SAFE_HOLD follows at the next tick. -/
def fatalFault (s : State) (code : Byte) : State :=
  if s.core.fatal.contains code then s
  else setIrq0 (crumb { s with core := { s.core with fatal := s.core.fatal ++ [code] } } crFatal 0xFF code []) irqFault

/-- R490: a clock fault under R13; with a CLOCK_STOP found in the same frame that one alone is recorded. -/
def rangeFault (s : State) : State := if s.core.stopFound then s else fatalFault s ftClockRange

/-! ## Modes -/

def ModeWhy.code : ModeWhy → Byte
  | .request => 0x01
  | .fault => 0x02
  | .reset => 0x03

/-- MODE_CUR changed: the MODE crumb and IRQ_STAT0.MODE (R441, 14). -/
def setMode (s : State) (m : Mode) (why : ModeWhy) : State :=
  let s1 := { s with core := { s.core with mode := m } }
  setIrq0 (crumb s1 crMode 0xFF m.code [s.core.mode.code, why.code]) irqMode

/-- The mode the staged outputs must obey in this frame (R67). -/
def stagedMode (s : State) : Mode :=
  match s.core.modeNext with
  | some (m, _) => m
  | none => s.core.mode

/-! ## Measurement (R401, R405) -/

def extendM (s : State) (i : Nat) (v : List Byte) : State :=
  if s.meas.disabled then s
  else { s with meas := { s.meas with m := listSet s.meas.m i (sha256 (s.meas.m.getD i [] ++ v)) } }

/-- The boot counter: the valid copy with the higher value (R406). -/
def bootCount (n : NvSt) : W32 :=
  match n.bootCopies.a, n.bootCopies.b with
  | some x, some y => maxBv x y
  | some x, none => x
  | none, some y => y
  | none, none => 0

/-- R405: a runtime event extends M7, which takes the crypto engine (R431), and writes its MEAS_EVENT crumb. -/
def measEvent (s : State) (ev : Byte) (subject detail : List Byte) : State :=
  let seq := min (s.meas.count + 1) 0xFFFF
  let rec24 := [ev, 0x00] ++ leBytes 2 seq ++ le32 s.core.frameNo ++ padTo 8 subject ++ padTo 8 detail
  let s1 := extendM { s with meas := { s.meas with count := seq } } 7 (sha256 rec24)
  pushCrumb s1 ([crMeas, 0x01, 0xFF, 0x00] ++ le32 s.core.frameNo ++ rec24)

/-! ## Crusts and the bypass -/

/-- The opening of every leg, of KA or KB and of the test sources of a crust (R41, R46). -/
def openCrust (c : CrustSt) : CrustSt :=
  { c with
    legs := tabMap LegSt.off c.legs fun _ l => { l with cmd := false, blanking := false, blankLeft := 0, changed := false }
    srcs := tabMap SrcSt.init c.srcs fun _ x => { x with active := false, pulseAt := none, pulsed := false }
    drives := tabMap DriveSt.init c.drives fun _ d => { d with stage := 0, ticksLeft := 0, level := none, disarmed := false }
    staged := none }

/-- A crust restart (R41, R486, R487): the crust core, its side of the link and its ADC begin again; the supply conditions and
the levels at its lands are what they are. -/
def resetCrust (c : CrustSt) : CrustSt :=
  { CrustSt.reset with
    logicPower := c.logicPower, undervolt := c.undervolt, lockout := c.lockout, overvolt := c.overvolt
    uvSince := c.undervolt, lockoutSince := c.lockout, overvoltSince := c.overvolt, lostOut := c.lockout || c.overvolt
    ins := tabMap InSt.init c.ins fun _ i => { InSt.init with raw := i.raw } }

/-- The kill symbol of a core reset (R51, R486): the crust opens and waits for a new handshake, and the core's side of its barrier
FIFOs has been reset; what else the crust holds stays (R60, R228). -/
def killCrust (c : CrustSt) : CrustSt :=
  { openCrust c with
    handshake := false, silent := false, sinceFrame := 0, resync := true, lostOut := c.lostOut || c.lockout || c.overvolt }

/-- What a crust begins with at a boot, with the handshake of start-up: the direction of travel is closing and no count is
homed (R197, R198); no test has passed yet, and no time stamp of the frames before the reset is waited on (log 6). -/
def bootCrust (c : CrustSt) : CrustSt :=
  { c with
    ins := tabMap InSt.init c.ins fun _ i => { i with
      pend := none, pendStamp := none, riseHeld := none, sinceThreshold := 16, sincePulse := 16, pulseT := false, retry := [], before := none, maskUntil := none
      maskFrom := none, fellAt := none, anomaly := 0, frontend := false, ossdMark := none, ossdLate := false, ossdSeen := false
      overrate := false, lastEdge := none, lastAny := none, silent := true }
    quads := tabMap QuadSt.init c.quads fun _ q => { q with
      closing := true, turn := q.count, homed := false, sinceIllegal := 16, refCount := none, refAt := none, lastRef := none }
    srcs := tabMap SrcSt.init c.srcs fun _ x => { x with anomaly := 0, readbackOk := false }
    ana := tabMap AnaSt.init c.ana fun _ a => { a with stalled := false, bad := false, anomaly := 0 }
    sinceReference := 16
    legs := tabMap LegSt.off c.legs fun _ l => { l with anomaly := 0, holdNow := false, holdNext := false }
    landHot := [], drawn := [], carries := [], probePass := [], stuck := [] }

/-- The bypass closes and the module leaves its segment (R266, R82): both ports in BYPASS with nothing queued; a port
keeps its measured delay (R319). -/
def leaveFabric (s : State) : State :=
  { s with fab := { s.fab with
      ports := s.fab.ports.map fun q => { PortSt.reset with delay := q.delay }, station := none, upstream := none, heard := 0, heardFrame := none,
      topoTick := none, topoGap := none, proofFrames := 0, proofReady := false, listened := 0, listenOver := false,
      missed := 0, sync := .inSync, settled := true, gap := false, refused := false, breakDue := none } }

/-- What of a lane survives a core reset: its retirement (R85). -/
def resetLane (l : LaneSt) : LaneSt := { LaneSt.reset with retired := l.retired, powerCycled := l.powerCycled }

/-- A core reset from any cause (R51, R368, R401, R486): the kill symbol opens every leg, KA and KB, the bypass closes, and every
register of the core returns to its reset value. MRAM, the retirement of a lane, what the crusts hold and the waiting commands
stay. A core
that is in reset already takes no second one (R58). -/
def coreReset (s : State) (cause : ResetCause) : State :=
  if s.core.inReset then s else
  { State.reset with
    pending := s.pending, nv := s.nv, drawn := s.drawn
    core := { CoreSt.reset with
      vddGood := s.core.vddGood, cause := cause, modeBefore := some s.core.mode }
    crust := s.crust.map killCrust
    lane := s.lane.map resetLane
    stat := { StatSt.reset with lastEpoch := { s.stat.epoch with isPartial := true }, egen := s.stat.egen + 1 } }

/-- The loss of VDD33 (R49): a core reset with the crusts' logic power gone as well. -/
def powerLoss (s : State) (removed : Bool) : State :=
  let t := coreReset s .brownOut
  if removed then
    { t with
      core := { t.core with vddGood := false, cause := .powerOn, modeBefore := none }, stat := StatSt.reset
      lane := t.lane.map fun l => { l with powerCycled := true }
      crust := t.crust.map fun c => { openCrust c with logicPower := false, drives := [] } }
  else { t with core := { t.core with vddGood := false } }

/-! ## Crust handshake (R41, R49, R78) -/

/-- A valid crust handshake: the configuration reaches the crust, its outputs stay off until commanded, and its inputs are
timed afresh from the levels at its lands. -/
def handshake (s : State) (c : Side) : State :=
  modCrust s c fun x =>
    let y := openCrust x
    { y with
      handshake := true, silent := false, sinceFrame := 0, resync := false
      ins := tabMap InSt.init y.ins fun _ i => if i.raw = i.deb then i else { i with
        pend := some (stampAt s s.core.off), pendStamp := some (stampAt s s.core.off) } }

end Sys2Proof.Machine
end

