-- ==== Sys2Proof/Machine/Queue.lean ====
section
/-! DEFINITION. The hearth queue (15): its entries and their replies (R375, R380), status codes, and which commands a mode
permits (R63, R388). -/

namespace Sys2Proof.Machine

/-! ## Status codes (15) -/

def stOk : Byte := 0x00
def stBusy : Byte := 0x01
def stBadCrc : Byte := 0x02
def stBadLength : Byte := 0x03
def stUnknownCmd : Byte := 0x04
def stBadParam : Byte := 0x05
def stModeDenied : Byte := 0x06
def stLifecycleDenied : Byte := 0x07
def stAuthFail : Byte := 0x08
def stNoKey : Byte := 0x09
def stNonce : Byte := 0x0A
def stNakRetry : Byte := 0x0B
def stRemoteUnreachable : Byte := 0x0C
def stRemoteTimeout : Byte := 0x0D
def stNotManager : Byte := 0x0E
def stAborted : Byte := 0x0F
def stLate : Byte := 0x10
def stTooEarly : Byte := 0x11
def stNotRetired : Byte := 0x12
def stLaneRetired : Byte := 0x13
def stNoResetPath : Byte := 0x14
def stLearnSpread : Byte := 0x15
def stLearnMissing : Byte := 0x16
def stNotPending : Byte := 0x17
def stSessionLimit : Byte := 0x18
def stNoSession : Byte := 0x19
def stPageOverwritten : Byte := 0x1A
def stPinLimit : Byte := 0x1B
def stBusRetired : Byte := 0x1C

/-- DETAIL of ABORTED. -/
def abortMode : Nat := 1
def abortLane : Nat := 2
def abortSuperseded : Nat := 3

/-! ## Queue entries -/

def modFirst {α : Type} (p : α → Bool) (f : α → α) : List α → List α
  | [] => []
  | x :: r => if p x then f x :: r else x :: modFirst p f r

def delFirst {α : Type} (p : α → Bool) : List α → List α
  | [] => []
  | x :: r => if p x then r else x :: delFirst p r

def entryOf (s : State) (via : Via) : Option QEntry := s.mbx.queue.find? fun e => e.via == via

def modMbx (s : State) (f : MbxSt → MbxSt) : State := { s with mbx := f s.mbx }

def setQ (s : State) (via : Via) (st : QState) : State :=
  modMbx s fun m => { m with queue := modFirst (fun e => e.via == via) (fun e => { e with st := st }) m.queue }

/-- A command has ended with OK and this payload; COMMAND_REPLY writes the image. -/
def replyOk (s : State) (via : Via) (payload : List Byte) : State := setQ s via (.replied stOk payload)

/-- R375: a status other than OK carries DETAIL. -/
def replyErr (s : State) (via : Via) (status : Byte) (detail : Nat) : State := setQ s via (.replied status (leBytes 4 detail))

/-! ## Command set: class, length and bound (R389) -/

/-- The command classes of R63. -/
inductive CmdClass where
  | ident
  | mode
  | gen
  | stat
  | att
  | jrd
  | jrn
  deriving DecidableEq, Repr

/-- One row of the command tables: class, the payload lengths allowed, and a bound in ms above 5 that makes it heavy. -/
structure CmdRow where
  cls : CmdClass
  lo : Nat
  hi : Nat
  boundMs : Nat
  deriving DecidableEq, Repr

def cmdRow (cmd : Byte) : Option CmdRow :=
  match cmd.toNat with
  | 0x00 => some ⟨.ident, 0, 244, 2⟩
  | 0x01 => some ⟨.ident, 0, 0, 2⟩
  | 0x02 => some ⟨.mode, 1, 1, 0⟩
  | 0x03 => some ⟨.gen, 6, 6, 2⟩
  | 0x04 => some ⟨.gen, 16, 16, 2⟩
  | 0x05 => some ⟨.ident, 0, 0, 2⟩
  | 0x10 => some ⟨.gen, 9, 244, 5⟩
  | 0x11 => some ⟨.gen, 1, 1, 60⟩
  | 0x12 => some ⟨.gen, 1, 1, 150⟩
  | 0x13 => some ⟨.ident, 1, 1, 2⟩
  | 0x14 => some ⟨.gen, 1, 1, 50⟩
  | 0x20 => some ⟨.stat, 2, 2, 2⟩
  | 0x21 => some ⟨.stat, 1, 1, 2⟩
  | 0x22 => some ⟨.gen, 2, 2, 2⟩
  | 0x23 => some ⟨.gen, 1, 1, 2⟩
  | 0x24 => some ⟨.gen, 2, 2, 2⟩
  | 0x26 => some ⟨.ident, 0, 0, 2⟩
  | 0x30 => some ⟨.gen, 1, 1, 2000⟩
  | 0x31 => some ⟨.ident, 0, 0, 2⟩
  | 0x32 => some ⟨.mode, 0, 0, 0⟩
  | 0x33 => some ⟨.ident, 0, 0, 2⟩
  | 0x40 => some ⟨.att, 2, 2, 2⟩
  | 0x41 => some ⟨.att, 16, 32, 50⟩
  | 0x42 => some ⟨.att, 3, 3, 2⟩
  | 0x50 => some ⟨.jrd, 3, 3, 2⟩
  | 0x51 => some ⟨.jrd, 1, 1, 2⟩
  | 0x52 => some ⟨.jrd, 1, 1, 2⟩
  | 0x53 => some ⟨.jrn, 3, 3, 5⟩
  | 0x54 => some ⟨.jrd, 0, 0, 2⟩
  | 0x55 => some ⟨.stat, 0, 0, 2⟩
  | 0x60 => some ⟨.ident, 0, 0, 2⟩
  | 0x61 => some ⟨.stat, 2, 2, 2⟩
  | 0x62 => some ⟨.stat, 2, 2, 2⟩
  | 0x70 => some ⟨.ident, 0, 0, 2⟩
  | 0x71 => some ⟨.gen, 4, 4, 20⟩
  | 0x72 => some ⟨.gen, 3, 3, 600000⟩
  | 0x73 => some ⟨.gen, 2, 2, 20⟩
  | 0x74 => some ⟨.ident, 1, 1, 2⟩
  | 0x75 => some ⟨.gen, 20, 68, 20⟩
  | 0x76 => some ⟨.gen, 0, 0, 2⟩
  | 0x77 => some ⟨.gen, 36, 36, 20⟩
  | 0x78 => some ⟨.stat, 0, 0, 2⟩
  | 0x79 => some ⟨.gen, 0, 0, 200⟩
  | _ => none

/-- R381: heavy, but for MODE_SET, SHUTDOWN and DOORPOS_LEARN, which wait on frames. -/
def isHeavy (cmd : Byte) : Bool :=
  match cmdRow cmd with
  | some r => decide (5 < r.boundMs) && cmd != 0x72#8
  | none => false

/-- R63, R388: the class is permitted in a mode. -/
def classInMode (m : Mode) (c : CmdClass) : Bool :=
  match m with
  | .boot => c == .ident || c == .mode || c == .jrd || c == .att
  | .degraded => c != .gen
  | .safeHold => c != .gen
  | .shutdown => c == .ident || c == .jrd || c == .att
  | _ => true

/-- R72, R75, R388: the class is permitted in a lifecycle state. -/
def classInLife (n : Lifecycle) (c : CmdClass) : Bool :=
  match n with
  | .manufacture => c == .ident || c == .jrd || c == .att
  | .retired => c == .ident || c == .jrd || c == .att
  | _ => true

/-- The modes that a command's own row and R388 ask for. -/
def cmdInMode (m : Mode) (cmd : Byte) (payload : List Byte) : Bool :=
  match cmd.toNat with
  | 0x02 => if m = .degraded ∨ m = .safeHold then byteAt payload 0 == 0x07#8 else true
  | 0x03 => m == .maintain
  | 0x04 => m != .boot
  | 0x12 => m == .configure
  | 0x21 => m == .configure || m == .operate || m == .maintain || m == .degraded
  | 0x22 => m == .configure
  | 0x23 => m == .configure
  | 0x24 => m == .maintain
  | 0x26 => m != .boot
  | 0x30 => m == .maintain
  | 0x32 => m != .boot
  | 0x71 => m == .configure
  | 0x72 => m == .configure || m == .maintain
  | 0x73 => m == .configure || m == .maintain
  | 0x75 => m == .configure
  | 0x76 => m == .configure || m == .maintain
  | 0x77 => m == .configure || m == .maintain
  | 0x79 => m != .boot
  | _ => true

/-- Step 6 of R379: the mode gate. -/
def modeGate (m : Mode) (cmd : Byte) (payload : List Byte) : Bool :=
  match cmdRow cmd with
  | some r => classInMode m r.cls && cmdInMode m cmd payload &&
      (m != .configure || cmd != 0x03#8) && (m != .operate || (cmd != 0x12#8 && cmd != 0x30#8))
  | none => false

/-- The lifecycle states that a command's own row and R72 ask for. -/
def cmdInLife (n : Lifecycle) (cmd : Byte) : Bool :=
  match cmd.toNat with
  | 0x12 => n == .commission || n == .field
  | 0x30 => n == .commission || n == .field
  | 0x72 => n == .commission
  | 0x73 => n == .commission
  | 0x75 => n == .commission
  | _ => true

/-- Step 5 of R379: the lifecycle gate. -/
def lifeGate (n : Lifecycle) (cmd : Byte) : Bool :=
  match cmdRow cmd with
  | some r => classInLife n r.cls && cmdInLife n cmd
  | none => false

end Sys2Proof.Machine
end

