-- ==== Sys2Proof/Machine/Tally.lean ====
section
/-! DEFINITION. Tallies (R254-R256), probation (R270), retirement of channels and lanes with their effects and crumbs
(R266-R268, R274, R441), and PROBATION_END (R271). -/

namespace Sys2Proof.Machine

/-! ## The tally update of one channel (R254) -/

/-- The clean-frame count stops where no D reaches it: the greatest D is 1024. -/
def cleanCap : Nat := 1025

/-- A frame without an anomaly. -/
def cleanFrame (d : Nat) (r : ChanRec) : ChanRec :=
  let c := min (r.clean + 1) cleanCap
  let p := r.prob.map fun q => { q with frames := q.frames + 1 }
  if c = d ∧ 0 < r.tally then { r with tally := r.tally - 1, clean := 0, prob := p } else { r with clean := c, prob := p }

/-- The code recorded for a frame: a permanent anomaly before a transient one, and on a crust the first in the order of R205,
R184 and R233; elsewhere the first found. -/
def recordedCode (n : Nat) (rs : List Rep) : Byte :=
  let perm := rs.filter fun x => x.permanent
  let cs := (if perm.isEmpty then rs else perm).map fun x => x.code
  if (chanSide n).isSome then cs.foldl firstAnomaly 0 else cs.headD 0

/-- A frame with the anomalies `rs`, not empty: permanent ones retire at once, a transient one adds 1, a channel in
probation retires whatever its tally. -/
def anomalyFrame (t n : Nat) (rs : List Rep) (r : ChanRec) : ChanRec × TallyEv :=
  let perm := rs.any fun x => x.permanent
  let code := recordedCode n rs
  let tally := if perm then r.tally else min (r.tally + 1) 15
  let fails := r.prob.isSome
  let out := perm || fails || decide (t ≤ tally)
  ({ r with tally := tally, clean := if perm then r.clean else 0, code := code, retired := r.retired || out,
            prob := if out then none else r.prob },
   { chan := n, code := code, tally := tally, permanent := perm, first := decide (r.tally = 0), retire := out,
     probFail := fails })

/-- R254: a channel that is already retired is not tallied. -/
def tallyChan (td : Nat × Nat) (n : Nat) (rs : List Rep) (r : ChanRec) : ChanRec × List TallyEv :=
  if r.retired then (r, [])
  else if rs.isEmpty then (cleanFrame td.2 r, [])
  else
    let (q, e) := anomalyFrame td.1 n rs r
    (q, [e])

/-- R214: the channel a report is counted against: the leg that holds its group's tally, else the channel itself. -/
def countedChan (ps : List ParamRec) (n : Nat) : Nat :=
  match chanKind n with
  | some (.leg c k) => chanLeg c (tallyLeg ps c k)
  | _ => n

/-- A channel takes part in tallying: none of a retired lane's crust does, nor the retired lane itself. -/
def tallied (retA retB : Bool) (n : Nat) : Bool :=
  match chanSide n with
  | some .a => !retA
  | some .b => !retB
  | none => !((n == chanLane .a && retA) || (n == chanLane .b && retB))

/-- The tally update of a lane's whole table (R254). -/
def tallyTable (m : List (List Byte)) (ps : List ParamRec) (retA retB : Bool) (reps : List Rep) (chans : Tab ChanRec) :
    Tab ChanRec × List TallyEv :=
  let rs := reps.map fun r => { r with chan := countedChan ps r.chan }
  allChans.foldl (fun acc n =>
    if tallied retA retB n then
      let (r, e) := tallyChan (tallyTD m n) n (rs.filter fun x => x.chan == n) (tabGet ChanRec.clear acc.1 n)
      (tabSet ChanRec.clear acc.1 n r, acc.2 ++ e)
    else acc) (chans, [])

/-! ## Lane retirement (R267) -/

/-- A lane is retired: journalled, measured (R405), and fatal where the other lane is retired already (R261). -/
def retireLane (s : State) (l : Side) (code : Byte) : State :=
  if (s.lane.at l).retired then s
  else
    let s1 := modLane s l fun x =>
      { x with retired := true, powerCycled := false, reps := [], accepted := [], proofs := [], saved := none, contrib := host0 }
    let num := chanLane l
    let s2 := setIrq0 (crumb s1 crRetire num code [0x02#8]) irqFault
    let s3 := measEvent s2 0x05 [match l with
      | .a => 0x0A#8
      | .b => 0x0B#8] []
    if (s.lane.at l.other).retired then fatalFault s3 ftSecondLane else s3

/-- A permanent anomaly of a lane that takes effect at once, outside phase C: recorded with its crumb (R440, R441), and the lane
retired. -/
def retireAtOnce (s : State) (l : Side) (code : Byte) : State :=
  if (s.lane.at l).retired then s
  else
    let n := chanLane l
    let tally := (chanOf (reportingLane s) n).tally
    let s1 := modLanes s fun x => modChan x n fun r => { r with code := code, retired := true }
    retireLane (setIrq0 (crumb s1 crAnomaly n code [BitVec.ofNat 8 tally, 0x01]) irqFault) l code

/-! ## What the update decided, put into effect in phase C (R266, R268, R441) -/

/-- R247, R266, R460, R472: what the retirement of a channel outside the lanes' own tables does. -/
def retireEffects (s : State) (n : Nat) : State :=
  match chanKind n with
  | some (.port _) => leaveFabric s
  | some .actBus =>
    s.act.scanVia.foldl (fun s v => replyErr s v stBusRetired 0)
      { s with act := { s.act with recoverDue := false, scanDue := false, scanVia := [] } }
  | some .indChain => { s with ind := { s.ind with oen := false, run := false } }
  | _ => s

def isLaneChan (n : Nat) : Option Side :=
  match chanKind n with
  | some (.lane l) => some l
  | _ => none

/-- R441, R274: the crumbs and flags of one outcome. `lanesOut` are the lanes retired in the same frame. -/
def journalOutcome (lanesOut : List Side) (s : State) (e : TallyEv) : State :=
  let s1 := if e.permanent then s else countTrans s 1
  let s2 := if e.permanent || e.first then
      crumb s1 crAnomaly e.chan e.code [BitVec.ofNat 8 e.tally, byteOfBool e.permanent]
    else s1
  let s3 := if e.permanent then setIrq0 s2 irqFault else s2
  let s4 := if e.probFail then crumb s3 crReadmit e.chan 0x03#8 [] else s3
  let hidden := match chanSide e.chan with
    | some c => lanesOut.contains c
    | none => false
  if e.retire && (isLaneChan e.chan).isNone && !hidden then
    setIrq0 (crumb s4 crRetire e.chan e.code [if e.code = anPairshort then 0x03#8 else 0x01#8]) irqFault
  else s4

/-- One outcome put into effect: a lane at once in phase C, what lies outside the lanes' tables at the next tick (R266). -/
def applyOutcome (s : State) (e : TallyEv) : State :=
  if !e.retire then s
  else match isLaneChan e.chan with
  | some l => retireLane s l e.code
  | none => { s with core := { s.core with retiring := nodupInsert s.core.retiring e.chan } }

/-- The outcomes of the frame's tally update, in channel order, the lanes last. -/
def applyOutcomes (s : State) : State :=
  let es := s.core.outcomes
  let lanesOut := (es.filter fun e => e.retire).filterMap fun e => isLaneChan e.chan
  let s1 := es.foldl (journalOutcome lanesOut) { s with core := { s.core with outcomes := [] } }
  let s2 := es.foldl applyOutcome s1
  if es.isEmpty then s2 else { s2 with core := { s2.core with disturbed := true } }

/-! ## Probation (R270, R271) -/

def freshProbation : Probation :=
  { frames := 0, hiProbe := false, loProbe := false, slotPasses := 0, rejoined := false, scanned := false, ossd := false }

/-- A channel in both lanes' tables. -/
def modChans (s : State) (n : Nat) (f : ChanRec → ChanRec) : State := modLanes s fun l => modChan l n f

/-- A supply event of the channel's crust stands, so its probation starts again when it clears. -/
def supplyStands (x : CrustSt) : Bool := x.undervolt || x.lockout || x.overvolt

/-- Every test that an input's mode sets T by has passed lately enough to lie within the probation (R193, R114): for a
quadrature input the thresholds of both phases and no illegal transition, for an OSSD input with OSSDP its own pulse. -/
def inputTested (m : List (List Byte)) (x : CrustSt) (p : Probation) (n c : Nat) : Bool :=
  let i := tabGet SnapIn.none x.snap.ins n
  match inputEntry m c with
  | none => i.t
  | some e =>
    if inputMode e = 6#8 then
      let one := fun (k : Nat) => decide ((inOf x k).sinceThreshold < 16)
      one (n / 2 * 2) && one (n / 2 * 2 + 1) && decide (16 ≤ (quadOf x (n / 2)).sinceIllegal)
    else i.t && (inputMode e != 3#8 || inputOssdp e == 0 || p.ossd)

/-- The probation of a channel has met its conditions (R270); a standard leg has no pair to be probed. The chain's is that of
its 16 strobes (R247). -/
def probationMet (s : State) (n : Nat) (p : Probation) : Bool :=
  let served := decide (16 ≤ p.frames)
  match activeCfg s, chanKind n with
  | some cfg, some (.input c k) => served && inputTested cfg.iomap (s.crust.at c) p k n
  | _, some (.source _ _) => served && decide (1 ≤ p.slotPasses)
  | _, some (.analog c _) => served && decide (16 ≤ p.slotPasses) && decide ((s.crust.at c).sinceReference < 16)
  | some cfg, some (.leg c k) => served && ((blocksOfLeg cfg.params c k).isEmpty || (p.hiProbe && p.loProbe))
  | _, some (.port _) => p.rejoined
  | _, some .actBus => p.scanned
  | _, some .indChain => decide (16 ≤ p.slotPasses)
  | _, _ => false

/-- R271: a pair through a re-admitted leg waits for a manual reset; R226's hold ends once none of its legs is out. -/
def returnPair (l : LaneSt) (p : Nat) : LaneSt :=
  match l.cfg with
  | none => l
  | some cfg =>
    match pairBlock cfg.params p with
    | none => l
    | some (k, r) =>
      let out := (groupLegs r .a).any (legOut l .a) || (groupLegs r .b).any (legOut l .b)
      let l1 := modPair l p fun q => { q with needReset := true, pairShort := q.pairShort && out }
      { l1 with blk := tabMod BlkSt.init l1.blk k fun b => { b with latch := sound0 } }

/-- The channels of one probation: a leg's is that of its whole group. -/
def endProbation (s : State) (n : Nat) : State :=
  let s1 := modChans s n fun r => { r with prob := none }
  let s2 := match chanKind n, activeCfg s with
    | some (.leg c k), some cfg =>
      modLanes s1 fun l => ((legsWith cfg.params c k).flatMap fun g => pairsOfLeg cfg.params c g).foldl returnPair l
    | _, _ => s1
  crumb s2 crReadmit n 0x02#8 []

/-- An anomaly of the channel has been reported and is not counted yet: it retires the channel again (R270). -/
def reported (s : State) (n : Nat) : Bool :=
  let l := reportingLane s
  let ps := (l.cfg.map fun c => c.params).getD []
  (s.core.found ++ l.reps).any fun r => countedChan ps r.chan == n

/-- PROBATION_END (R270). -/
def execProbationEnd (ch : Byte) (s : State) : Host.Outcome State Fault Refusal :=
  let n := ch.toNat
  match (chanOf (reportingLane s) n).prob with
  | some p => .next (if s.core.tickOn && probationMet s n p && !reported s n then endProbation s n else s)
  | none => .next s

end Sys2Proof.Machine
end

