-- ==== Sys2Proof/Machine/Install.lean ====
section
/-! DEFINITION. A loaf coming to run (R150 step 4, R152, R419): the lanes' fresh state from PARAM, the crusts configured by a
new handshake; and the self-test facts that start-up, the command run and the shutdown run share (R416-R418). -/

namespace Sys2Proof.Machine

/-- The initial state of every block instance; a HOSTBIT starts at its DEFAULT (07). -/
def initialBlocks (cfg : LoafCfg) : Tab BlkSt :=
  cfg.params.zipIdx.foldl (fun t e =>
    let b := initialBlk cfg e.2 e.1
    tabSet BlkSt.init t e.2 (if e.1.ty = tyHOSTBIT then { b with latch := hostBead (parB e.1 1) } else b)) []

/-- A pair's staging record with only its hold under R226 kept. -/
def freshPair (r : PairRec) : PairRec := { PairRec.init with pairShort := r.pairShort }

/-- A lane that begins to run a loaf: tallies, retirements and isolations stay, everything evaluated starts afresh. -/
def freshLane (l : LaneSt) (cfg : LoafCfg) : LaneSt :=
  { l with
    cfg := some cfg, beads := [], inBeads := [], vals := [], blockVals := [], blk := initialBlocks cfg, reps := l.reps,
    saved := none, pairs := tabMap PairRec.init l.pairs fun _ r => freshPair r, stdStaged := [], stdHoldOff := [],
    out := OutSet.empty, digest := 0, contrib := host0, noSafe := false, accepted := [], conns := [], proofs := [],
    verdict := .rejected, verdictBefore := .rejected, enteredOperate := false }

/-- Both lanes take their forms; host bits count as not yet delivered (HOSTBIT, 07). A vector or pattern of the old loaf's
indicator chain is dropped (DESIGN CHOICE, log 111). -/
def installLoaf (s : State) (a b : LoafCfg) : State :=
  { s with
    lane := ⟨freshLane s.lane.a a, freshLane s.lane.b b⟩
    mbx := { s.mbx with delivered := none }
    ind := { s.ind with vector := none, back := none }
    jrn := { s.jrn with cycles := ⟨none, none⟩, seen := none, rose := [] } }

/-- The crusts of the lanes in service take the new configuration by a handshake. -/
def renewHandshakes (s : State) : State :=
  let one := fun (s : State) (c : Side) => if laneLive s c && (s.crust.at c).logicPower then handshake s c else s
  one (one s .a) .b

/-- The DOORPOS offsets in force after start-up: the lanes' stored copies, where both are good and agree (R200). -/
def bootOffsets (n : NvSt) : Tab (Int × Int) :=
  match n.laneOffsets.a, n.laneOffsets.b with
  | some x, some y => if x = y then x else []
  | _, _ => []

/-! ## The active slot (R151) -/

def higherRecord (n : NvSt) : Option SlotRecord :=
  match n.records.a.crcOk, n.records.b.crcOk with
  | true, true => some (if n.records.a.seq < n.records.b.seq then n.records.b else n.records.a)
  | true, false => some n.records.a
  | false, true => some n.records.b
  | false, false => none

def activeSlot (n : NvSt) : Option Side := (higherRecord n).bind fun r => r.active

def activeImage (n : NvSt) : Option Image := (activeSlot n).map fun k => (n.slots.at k).image

/-- The loaf ID of the active slot, zeros without one. -/
def activeLoafId (n : NvSt) : List Byte :=
  match activeImage n with
  | some i => loafIdOf i
  | none => zeros 8

/-- R151: the record that names a slot active, written over the copy with the lower sequence number. -/
def writeRecord (n : NvSt) (active : Option Side) : NvSt :=
  let r := higherRecord n
  let next : SlotRecord := { seq := (r.map fun x => x.seq + 1).getD 1, active := active, crcOk := true }
  let onB := n.records.a.crcOk && (!n.records.b.crcOk || decide (n.records.b.seq ≤ n.records.a.seq))
  { n with records := if onB then n.records.set .b next else n.records.set .a next }

def setSlot (n : NvSt) (k : Side) (st : SlotState) : NvSt := { n with slots := n.slots.set k { n.slots.at k with state := st } }

/-! ## Self-test blocks (R416) -/

/-- The expected MISR of each block. -/
def expectedMisr (b : Nat) : W32 :=
  match b with
  | 0x01 => 0x3A71C2E9
  | 0x02 => 0x5D0E8B14
  | 0x03 => 0x91B407C6
  | 0x04 => 0x6C2FD358
  | 0x05 => 0x0E934AB7
  | 0x06 => 0xB7581E20
  | 0x07 => 0x24E6F90D
  | 0x08 => 0xC13D6A82
  | 0x09 => 0x7F4025DB
  | 0x0A => 0x48A9B361
  | 0x0B => 0xE2C75F1A
  | 0x0C => 0x1B6DC4F3
  | 0x0D => 0x8F027DA5
  | 0x0E => 0x3095E86C
  | 0x0F => 0xA4D80B3E
  | 0x10 => 0x5B17E2C9
  | 0x11 => 0xD6F33A50
  | 0x12 => 0x29AC91F7
  | 0x13 => 0x6E584C0B
  | _ => 0

def setFull : List Nat := (List.range 19).map (· + 1)
def setQuick : List Nat := [0x07, 0x08, 0x09, 0x0B]
/-- The command and shutdown set: every block but the hearth's. -/
def setCommand : List Nat := setFull.filter fun b => b != 0x08 && b != 0x09

/-- The crust whose analog part a block tests. -/
def analogCrust (b : Nat) : Option Side := if b = 0x11 then some .a else if b = 0x12 then some .b else none

/-- R418, R435: a crust analog block is not run, or ends so, where its crust's field supply is below lockout at its start or comes
to be in it: always where the lockout has stood throughout, never where none has stood. -/
def runBlocked (w : LockWindow) (b : Nat) (r : RunResult) : Bool :=
  match analogCrust b with
  | some c => w.seen.at c && (r.lockedOut || !w.free.at c)
  | none => false

/-- The lockouts with which a run begins. -/
def openWindow (s : State) : LockWindow :=
  { seen := s.crust.map fun x => x.lockout, free := s.crust.map fun x => !x.lockout }

/-- Step 2 of start-up lies within one command, in which a lockout may also begin or end (log 5). -/
def bootWindow (s : State) : LockWindow := { openWindow s with seen := ⟨true, true⟩ }

/-- The blocks that a SELFTEST_RUN runs, and those that its reply reports (R419). -/
def askedBlocks (b : Byte) : List Nat := if b = 0xFF#8 then setCommand else [b.toNat].filter fun x => setCommand.contains x
def reportedBlocks (b : Byte) : List Nat := if b = 0xFF#8 then setFull else [b.toNat]

/-- R421: a command run with the FABRIC block is in test hold, and the bypass is closed. -/
def testsFabric (s : State) : Bool :=
  s.test.hold && match s.test.asked with
    | some (_, b) => (askedBlocks b).contains 0x0C
    | none => false

def noBadRows : SramRows := { failing := [], retestOk := true }

def goodRun (b : Nat) : RunResult := { lockedOut := false, pass := true, misr := expectedMisr b, rows := noBadRows }

/-- The outcome of a block as the surroundings give it; a block not named passes with its expected signature. -/
def runOf (runs : List BlockRun) (b : Nat) : BlockRun :=
  (runs.find? fun r => r.block.toNat == b).getD
    { block := BitVec.ofNat 8 b, first := goodRun b, rerun := goodRun b, badPages := [], crcUnits := 0 }

/-- The lane whose SRAM a block tests. -/
def sramLane (b : Nat) : Option Side := if b = 0x02 then some .a else if b = 0x05 then some .b else none

/-- R426: the soft spare rows of a lane SRAM. -/
def softSpares : Nat := 32

/-- R427: a lane SRAM block fails when more rows fail than there are soft spare rows, or one of those fails its retest. -/
def rowsOk (b : Nat) (x : SramRows) : Bool :=
  (sramLane b).isNone || (decide (x.failing.eraseDups.length ≤ softSpares) && x.retestOk)

/-- A run of a block passes only where every step did, its MISR is the expected one (R416) and its rows could be repaired
(R427). -/
def runPassed (b : Nat) (r : RunResult) : Bool := r.pass && r.misr == expectedMisr b && rowsOk b r.rows

/-- How a block ends (R418, R431, R435): not run, passed, failed and passed its rerun, failed with the rerun not run, failed
twice. -/
inductive BlockEnd where
  | idle
  | passed
  | transient
  | unsettled
  | permanent
  deriving DecidableEq, Repr

def blockEnd (w : LockWindow) (runs : List BlockRun) (b : Nat) : BlockEnd :=
  let r := runOf runs b
  if runBlocked w b r.first then .idle
  else if runPassed b r.first then .passed
  else if runBlocked w b r.rerun then .unsettled
  else if runPassed b r.rerun then .transient
  else .permanent

/-- The MISR of a block that was not run: nothing was compressed, so a free value of this run. -/
def idleMisr (s : State) (b : Nat) : W32 := u32At ((List.range 4).map fun i => Config.freeByte s.drawn (4 * b + i)) 0

def idleResult (s : State) (b : Nat) : Byte × Byte × W32 := (BitVec.ofNat 8 b, 0x02, idleMisr s b)

/-- The result of a block in a boot run, which has no rerun: 0x00 pass, 0x01 fail, 0x02 not run, with its MISR. -/
def blockResult (s : State) (w : LockWindow) (runs : List BlockRun) (b : Nat) : Byte × Byte × W32 :=
  match blockEnd w runs b with
  | .idle => idleResult s b
  | .passed => (BitVec.ofNat 8 b, 0x00, expectedMisr b)
  | _ => (BitVec.ofNat 8 b, 0x01, (runOf runs b).first.misr)

/-- A block fails at its first run. -/
def blockFails (w : LockWindow) (runs : List BlockRun) (b : Nat) : Bool :=
  match blockEnd w runs b with
  | .idle => false
  | .passed => false
  | _ => true

/-- R427: the soft repair map that a run leaves for a lane: each row that the last run of its SRAM block found failing is
mapped to a soft spare row; a block not run, or failed, leaves the map as it was. -/
def softMapAfter (runs : List BlockRun) (b : Nat) (old : List W16) : List W16 :=
  let r := runOf runs b
  if runPassed b r.first then r.first.rows.failing.eraseDups
  else if runPassed b r.rerun then r.rerun.rows.failing.eraseDups
  else old

/-- Soft repair at the end of a run (R417, R427). -/
def softRepair (s : State) (runs : List BlockRun) (set : List Nat) : State :=
  let one := fun (b : Nat) (old : List W16) => if set.contains b then softMapAfter runs b old else old
  { s with test := { s.test with softMap := ⟨one 0x02 s.test.softMap.a, one 0x05 s.test.softMap.b⟩ } }

/-! ## The pages of the journal (R437, R429) -/

/-- The pages of the journal, and the bytes of a page. -/
def journalPages : Nat := 12288
def pageBytes : Nat := 4096

/-- The first 28 bytes of a page header. -/
def headerBody (pseq : Nat) (boot frame : W32) (first state : Byte) : List Byte :=
  [0x43, 0x52, 0x4D, 0x42] ++ leBytes 4 pseq ++ le32 boot ++ le32 frame ++ [first, state] ++ zeros 10

/-- A page header with its HCRC. -/
def pageHeader (body : List Byte) : List Byte := body ++ le32 (crc32c body)

/-- The header of page `p` in a new STATE; a page never written gets MAGIC and zeros beside it. -/
def stateHeader (n : NvSt) (p : Nat) (state : Byte) : List Byte :=
  if (tabFind n.pages p).isSome then pageHeader (listSet (memReadBytes n.journal (pageBytes * p) 28) 17 state)
  else pageHeader (headerBody 0 0 0 0 state)

/-- R429: the hearth marks a journal page found uncorrectable as bad, with its crumb; not while the journal is read-only (R63,
R445). -/
def markBad (s : State) (p : Nat) : State :=
  if journalPages ≤ p || s.nv.badPages.contains p || !hearthLive s || s.jrn.closed then s
  else
    crumb { s with nv := { s.nv with
      badPages := s.nv.badPages ++ [p], pages := tabDel s.nv.pages p
      journal := memWriteBytes s.nv.journal (pageBytes * p) (stateHeader s.nv p 0x03)
      openPage := if s.nv.openPage = some p then none else s.nv.openPage } } crJournal 0xFF 0x01 (0x00#8 :: leBytes 2 p)

/-- What the MRAM block's scan of one run finds in the journal region. -/
def scanPages (s : State) (runs : List BlockRun) (set : List Nat) : State :=
  if set.contains 0x0A then (runOf runs 0x0A).badPages.foldl (fun s p => markBad s p.toNat) s else s

end Sys2Proof.Machine
end

