-- ==== Sys2Proof/Machine/Fabric.lean ====
section
/-! DEFINITION. Fabric links (12) and the tick of a member (04): frames and their link check (R284-R286), the transmitter of
a port with its queues and time spans (R287-R290, R310, R93), routing (R300, R301), hop retry, lock and its loss (R281-R283),
join gaps (R292-R294, R308), discovery (R296-R299), ring blocking and healing (R303-R306), TICK and sync (R107-R110, R317). -/

namespace Sys2Proof.Machine

/-! ## Frames on the line (R284-R286) -/

def clsTick : BitVec 4 := 1
def clsProofA : BitVec 4 := 2
def clsProofB : BitVec 4 := 3
def clsSafe : BitVec 4 := 4
def clsMbx : BitVec 4 := 5
def clsDisc : BitVec 4 := 6
def clsBulk : BitVec 4 := 7

def headerBytes (f : Frame) : List Byte :=
  [f.cls.setWidth 8 ||| (if f.retry then 0x10#8 else 0), f.hop, f.src, f.dst, BitVec.ofNat 8 f.payload.length, f.seq]

/-- Header, payload and link CRC. -/
def frameBytes (f : Frame) : List Byte :=
  let b := headerBytes f ++ f.payload
  b ++ le32 (crc32 b)

def parseFrame (b : List Byte) : Frame :=
  { cls := (byteAt b 0).setWidth 4, retry := bitOf (byteAt b 0) 4, hop := byteAt b 1, src := byteAt b 2, dst := byteAt b 3,
    seq := byteAt b 5, payload := (b.drop 6).take (b.length - 10) }

def linkCrcOk (b : List Byte) : Bool := decide (10 ≤ b.length) && crc32 (b.take (b.length - 4)) == u32At b (b.length - 4)

/-- A known class and a LEN that agrees with the frame (R286). -/
def frameKnown (b : List Byte) : Bool :=
  inRange4 (byteAt b 0) && decide ((byteAt b 4).toNat ≤ 128) && (byteAt b 4).toNat + 10 == b.length
where
  inRange4 (x : Byte) : Bool := decide (1 ≤ x.toNat % 16) && decide (x.toNat % 16 ≤ 7)

/-- SOF, header, payload, CRC and EOF at 0.16 us a byte, in 10 ns units (R279). -/
def frameTime (f : Frame) : Nat := (f.payload.length + 12) * 16

def isCutThrough (c : BitVec 4) : Bool := decide (c.toNat ≤ 4)

/-- The priority of a class (R286). -/
def classPrio (c : BitVec 4) : Nat := if c = clsDisc then 5 else if c = clsMbx then 6 else c.toNat

/-- The last moment at which a frame of a class may end: the end of X for PROOF and SAFE, the start of G for the
store-and-forward classes (R93, R290, R338). -/
def spanEnd (tf : Byte) (c : BitVec 4) : Nat :=
  if c = clsTick then tfUnits tf else if isCutThrough c then endX tf else startG tf

def spanStart (tf : Byte) (c : BitVec 4) : Nat :=
  if c = clsTick then 0 else if isCutThrough c then endS tf else endX tf

/-- A frame whose SOF leaves at an offset lies within its class's span. -/
def spanHolds (tf : Byte) (start : Nat) (f : Frame) : Bool :=
  decide (spanStart tf f.cls ≤ start) && decide (start + frameTime f ≤ spanEnd tf f.cls)

/-- A frame may start now. -/
def mayStart (s : State) (f : Frame) : Bool := spanHolds s.core.tfCode s.core.off.toNat f

/-! ## The transmitter of a port -/

/-- What waits at a port, retransmissions first, with its priority. -/
def waiting (p : PortSt) : List (TxRec × Nat) :=
  let fresh := fun (f : Frame) => (({ frame := f, retried := false, cancelled := false, aborted := false, first := 0,
                                      eof := { frame := 0, off := 0 } } : TxRec), classPrio f.cls)
  (p.retries.map fun r => (r, classPrio r.frame.cls)) ++ p.cut.map fresh ++ p.own.map fresh ++ p.sf.map fresh

/-- The first of the waiting frames with the least priority number among those that may start. -/
def bestOf (s : State) : List (TxRec × Nat) → Option (TxRec × Nat)
  | [] => none
  | x :: r =>
    match bestOf s r with
    | none => if mayStart s x.1.frame then some x else none
    | some y => if mayStart s x.1.frame && decide (x.2 ≤ y.2) then some x else some y

def dropFrame (l : List Frame) (f : Frame) : List Frame := l.erase f

/-- The path and IDX of SEG 0 of a tunnelled request of this module's own. -/
def requestStart (f : Frame) : Option (Bool × BitVec 2) :=
  let b := byteAt f.payload 0
  if f.cls = clsMbx ∧ f.hop = 0 ∧ b &&& 0x0B#8 = 0 then some (bitOf b 6, (b >>> 4).setWidth 2) else none

/-- R387: the deadline of a remote request is counted from the frame in which its SEG 0 is sent. -/
def markSent (s : State) (f : Frame) : State :=
  match requestStart f with
  | none => s
  | some (path, idx) =>
    let mark := fun (e : QEntry) => if e.st = .sent path idx none then { e with st := .sent path idx (some s.core.frameNo) } else e
    { s with mbx := { s.mbx with queue := s.mbx.queue.map mark } }

/-- A free transmitter starts the next frame; in a join gap none starts (R294, R310). A hop retry counts as it starts (R354). -/
def pump (s : State) (p : PortId) : State :=
  let q := portOf s p
  if q.tx.isSome || q.st != .up || s.fab.gap then s
  else match bestOf s (waiting q) with
    | none => s
    | some (r, _) =>
      let isRetry := q.retries.contains r
      let rec' := if isRetry then r else { r with first := s.core.frameNo }
      modPort (markSent (if isRetry then countRetry s else s) r.frame) p fun q => { q with
        tx := some rec'
        retries := if isRetry then q.retries.erase r else q.retries
        cut := if !isRetry && q.cut.contains r.frame then dropFrame q.cut r.frame else q.cut
        own := if !isRetry && !q.cut.contains r.frame && q.own.contains r.frame then dropFrame q.own r.frame else q.own
        sf := if !isRetry && !q.cut.contains r.frame && !q.own.contains r.frame then dropFrame q.sf r.frame else q.sf }

def pumpBoth (s : State) : State := pump (pump s .p0) .p1

def isSafeFrame (f : Frame) : Bool := f.cls == clsSafe

/-- R340: the frames of a port that are cancelled: those not yet begun are removed, and with them what is kept for a retry; one
begun completes as COMPLETE_ABORT_LATE and is not retried. -/
def cancelWhere (gone : Frame → Bool) (q : PortSt) : PortSt :=
  { q with
    own := q.own.filter fun f => !gone f
    retries := q.retries.filter fun r => !gone r.frame
    kept := q.kept.filter fun r => !gone r.frame
    tx := q.tx.map fun r => if gone r.frame then { r with cancelled := true } else r }

/-- A frame of this module's own joins a port's queue. -/
def sendOwn (s : State) (p : PortId) (f : Frame) : State :=
  pump (modPort s p fun q => { q with own := q.own ++ [f] }) p

/-- R287: the outgoing copy of a cut-through frame whose EOF arrives now: its SOF left 1.6 us after the SOF that came in. -/
def cutStart (s : State) (f : Frame) : Nat := s.core.off.toNat - frameTime f + 160

def txOf (s : State) (f : Frame) (aborted : Bool) : TxRec :=
  { frame := f, retried := false, cancelled := false, aborted := aborted, first := s.core.frameNo,
    eof := { frame := 0, off := 0 } }

/-- A cut-through frame passes on: at once through a free transmitter, else it waits with up to 4 (R287); one that cannot end
within its span does not start (R338). -/
def cutThrough (s : State) (p : PortId) (f : Frame) : State :=
  let q := portOf s p
  if q.tx.isNone && !s.fab.gap && spanHolds s.core.tfCode (cutStart s f) f then
    modPort s p fun q => { q with tx := some (txOf s f false) }
  else if 4 ≤ q.cut.length then countCutDrop s
  else modPort s p fun q => { q with cut := q.cut ++ [f] }

/-- A frame to be forwarded (R287, R288): a new copy, no retransmission itself, cut through or stored with up to 16. -/
def forwardFrame (s : State) (p : PortId) (f : Frame) : State :=
  let q := portOf s p
  let g := { f with retry := false }
  if q.st != .up then s
  else if isCutThrough f.cls then cutThrough s p g
  else if 16 ≤ q.sf.length then countSfdrop s
  else pump (modPort s p fun q => { q with sf := q.sf ++ [g] }) p

/-- The next SEQ of a class for the module's own frames (R284). -/
def nextSeq (s : State) (c : BitVec 4) : Byte × State :=
  let n := tabGet 0 s.fab.seqs c.toNat
  (n, { s with fab := { s.fab with seqs := tabSet 0 s.fab.seqs c.toNat (n + 1) } })

def ownSrc (s : State) : Byte := (ownStation s).getD 0xFE#8

/-- A new frame of this module's own (R284). -/
def newFrame (s : State) (c : BitVec 4) (dst : Byte) (payload : List Byte) : Frame × State :=
  let (n, s1) := nextSeq s c
  ({ cls := c, retry := false, hop := 0, src := ownSrc s, dst := dst, seq := n, payload := payload }, s1)

def portUp (s : State) (p : PortId) : Bool := (portOf s p).st == .up

def sendOut (s : State) (ps : List PortId) (c : BitVec 4) (dst : Byte) (payload : List Byte) : State :=
  let (f, s1) := newFrame s c dst payload
  ps.foldl (fun s p => if portUp s p then sendOwn s p f else s) s1

/-! ## Branches (R301, R302, R303, R327) -/

def planOf (s : State) : Option Plan := (activeCfg s).bind fun c => c.plan

def planRing (s : State) : Bool := (planOf s).any fun p => p.ring

def planN (s : State) : Nat := ((planOf s).map fun p => p.members.length).getD 0

/-- The manager's port of the P1 branch: in a line its cabled port (R302). -/
def p1Port (s : State) : PortId := if planRing s then .p1 else s.fab.cabled.getD .p1

/-- The ports out of which the manager sends (R301, R303). -/
def branchPorts (s : State) : List PortId := if s.fab.topo.healed then [.p1, .p0] else [p1Port s]

/-- R303: this worker is the last of an unbroken ring, from which nothing passes over the link to the manager's P0 but BREAK
and LINKREADY. -/
def ringEnd (s : State) : Bool :=
  !s.fab.topo.healed && match s.fab.station with
  | some k => k + 1 == s.fab.callN
  | none => false

def isBreakOrReady (f : Frame) : Bool := f.cls == clsDisc && (byteAt f.payload 0 == 0x05#8 || byteAt f.payload 0 == 0x07#8)

/-- R300, R303: a worker may forward a frame out of a port; what a tail would send out of a port that is DOWN goes nowhere. -/
def onward (s : State) (p : PortId) (f : Frame) : Bool := !ringEnd s || s.fab.upstream == some p || isBreakOrReady f

/-- The topology that the plan gives (R303, R306). -/
def plannedTopo (s : State) : Topo := { healed := false, p1Tail := BitVec.ofNat 8 (planN s - 1), p0Tail := 0xFF#8 }

/-- The port towards a station. -/
def portTo (s : State) (peer : Byte) : PortId :=
  let t := s.fab.topo
  if isManager s then
    if t.healed && decide (t.p1Tail.toNat < peer.toNat) then .p0 else p1Port s
  else
    let st := ((s.fab.station).getD 0).toNat
    let up := s.fab.upstream.getD .p0
    let away := if t.healed && decide (t.p1Tail.toNat < st) then
        decide (t.p0Tail.toNat ≤ peer.toNat) && decide (peer.toNat < st)
      else decide (st < peer.toNat) && (!t.healed || decide (peer.toNat ≤ t.p1Tail.toNat))
    if away then up.other else up

/-! ## Reception and routing -/

def bindOf (s : State) : Option Bind := (activeCfg s).map fun c => c.bind

def ownTag (s : State) : List Byte := ((bindOf s).map fun b => b.tag).getD []

/-- R333: a proof unit folds its signature and contribution into a chain message; true where VALUE's parity failed. -/
def foldProof (s : State) (l : Side) (payload : List Byte) : List Byte × Bool :=
  let sig := ((bindOf s).map fun b => b.sig).getD 0
  let x := s.lane.at l
  let c := if x.retired || (ownStation s).isNone then host0 else x.contrib
  let bad := !parityOk (byteAt payload 11)
  let v := andBeads [parityChecked (byteAt payload 11), c]
  let crc := crc16From (u16At payload 12) (le16 sig)
  (bytesAt payload 0 10 ++ [satInc (byteAt payload 10), v] ++ le16 crc, bad)

def proofLane (c : BitVec 4) : Side := if c = clsProofA then .a else .b

def isProof (c : BitVec 4) : Bool := c == clsProofA || c == clsProofB

def proofIn (b : List Byte) : ProofIn :=
  { frame := u32At b 0, seg := u32At b 4, branch := byteAt b 8, origin := byteAt b 9, count := byteAt b 10,
    value := byteAt b 11, crc := u16At b 12 }

def portAnomaly (s : State) (p : PortId) (code : Byte) : State := foundReport s (transient (chanPort p) code)

/-- A chain message at the manager: folded on the P1 branch, kept where its EOF lies before the end of X (R335, R336). -/
def proofAtManager (s : State) (p : PortId) (f : Frame) (t : BitVec 20) : State :=
  if f.payload.length ≠ 14 ∨ endX s.core.tfCode ≤ t.toNat then s
  else
    let l := proofLane f.cls
    let (b, bad) := if byteAt f.payload 8 = 1#8 then foldProof s l f.payload else (f.payload, false)
    let s1 := if bad then portAnomaly s p anSafeCode else s
    modLive (modLane s1 l fun x => { x with proofs := x.proofs ++ [proofIn b] }) fun c =>
      { c with fablat := BitVec.ofNat 16 (t.toNat / 10) }

/-- A frame addressed to this unadmitted module by hop and tag (R296, R300). -/
def forUs (s : State) (f : Frame) : Bool :=
  f.dst == 0xFE#8 && f.cls == clsDisc && byteAt f.payload 1 == s.fab.hop && bytesAt f.payload 4 8 == ownTag s

/-- R300, R301: a frame that arrived on `p` is forwarded out of the other port: at a worker a chain message that goes upstream and
every frame not for itself alone, at a manager a unicast for the other branch of a healed ring. -/
def relays (s : State) (p : PortId) (f : Frame) : Bool :=
  decide (f.hop.toNat < 63) && ownStation s != some f.src &&
  if isManager s then
    !isProof f.cls && f.dst != 0 && f.dst != 0xFF#8 && f.dst != 0xFE#8 && s.fab.topo.healed && portTo s f.dst == p.other
  else if isProof f.cls then s.fab.upstream == some p.other
  else (f.cls == clsTick || (s.fab.station != some f.dst && !forUs s f)) && onward s p.other f

/-- A chain message at a worker passes upstream, folded on its way (R333). -/
def proofAtWorker (s : State) (p : PortId) (f : Frame) : State :=
  if !relays s p f || f.payload.length != 14 then s
  else
    let (b, bad) := foldProof s (proofLane f.cls) f.payload
    let s1 := if bad then portAnomaly s p anSafeCode else s
    forwardFrame s1 p.other { f with hop := f.hop + 1, payload := b }

def toInbox (s : State) (p : PortId) (f : Frame) : State := { s with fab := { s.fab with inbox := s.fab.inbox ++ [(p, f)] } }

/-- R301: what the manager does with a frame. -/
def routeManager (s : State) (p : PortId) (f : Frame) (t : BitVec 20) : State :=
  if isProof f.cls then proofAtManager s p f t
  else if f.dst = 0 ∨ f.dst = 0xFF#8 ∨ f.dst = 0xFE#8 then toInbox s p f
  else if relays s p f then forwardFrame s p.other { f with hop := f.hop + 1 }
  else s

/-- R300: what a worker does with a frame. -/
def routeWorker (s : State) (p : PortId) (f : Frame) : State :=
  if isProof f.cls then proofAtWorker s p f
  else if f.cls = clsTick then toInbox s p f
  else if s.fab.station = some f.dst ∨ forUs s f then toInbox s p f
  else
    let s1 := if f.dst = 0xFF#8 then toInbox s p f else s
    if relays s p f then forwardFrame s1 p.other { f with hop := f.hop + 1 } else s1

/-- The payload of this manager's TICK in this frame (R316). -/
def tickPayload (s : State) : List Byte :=
  le32 s.core.frameNo ++ [s.core.tfCode] ++ le32 (((bindOf s).map fun b => b.seg).getD 0) ++ zeros 3

/-- R299: a TICK at a manager that is not its own: its own can come back at the P0 of a ring alone, as a copy of this frame's. -/
def foreignTick (s : State) (p : PortId) (f : Frame) : Bool :=
  isManager s && f.cls == clsTick &&
  (bypassClosed s || !planRing s || p == .p1 || f.payload.take 9 != (tickPayload s).take 9)

/-- A frame with a good link CRC (R286, R299, R300). -/
def routeFrame (s : State) (p : PortId) (b : List Byte) (t : BitVec 20) : State :=
  let f := parseFrame b
  if !frameKnown b then countDiscarded s
  else if foreignTick s p f then toInbox s p f
  else if decide (63 ≤ f.hop.toNat) && !(isManager s || s.fab.station == some f.dst) then s
  else if ownStation s = some f.src then s
  else if isManager s then routeManager s p f t
  else routeWorker s p f

/-! ## Code groups (R280, R289) -/

/-- How the groups after an SOF end. -/
inductive FrameEnd where
  | good
  | abort
  | cut
  deriving DecidableEq, Repr

/-- What the code groups of a reception hold: the bytes of the frame, a SYMBOL event within it, and its end. A HOPNAK ordered
set is stripped from the data stream (R289); the row HOPNAK_RECEIVE acts on it. -/
structure Taken where
  bytes : List Byte
  symbol : Bool
  ending : FrameEnd
  deriving DecidableEq, Repr

def takeGroups : List CodeGroup → Taken
  | [] => { bytes := [], symbol := false, ending := .cut }
  | .k281 :: .data _ :: .data _ :: r => takeGroups r
  | .k297 :: _ => { bytes := [], symbol := false, ending := .good }
  | .k307 :: _ => { bytes := [], symbol := false, ending := .abort }
  | .k285 :: _ => { bytes := [], symbol := false, ending := .cut }
  | .k277 :: _ => { bytes := [], symbol := false, ending := .cut }
  | .data b :: r => let x := takeGroups r; { x with bytes := b :: x.bytes }
  | .symbol :: r => { takeGroups r with symbol := true }
  | .k281 :: r => { takeGroups r with symbol := true }

/-- R280: an invalid group outside a frame is a SYMBOL event too; there is no frame to ask for again (log 80). -/
def idleSymbols (s : State) (p : PortId) (idle : List CodeGroup) : State :=
  if idle.contains .symbol then countLinkErr (portAnomaly s p anSymbol) else s

/-- R287: the outgoing copy of a cut-through frame that fails its link CRC is ended by EOF abort. -/
def abortCopy (s : State) (p : PortId) (b : List Byte) : State :=
  let f := parseFrame b
  let q := portOf s p.other
  if relays s p f && isCutThrough f.cls && (!isProof f.cls || byteAt b 4 == 14#8) && decide (10 ≤ b.length) && q.st == .up &&
      q.tx.isNone && !s.fab.gap && spanHolds s.core.tfCode (cutStart s f) f then
    modPort s p.other fun q => { q with tx := some (txOf s f true) }
  else s

/-- R289: a frame that fails its link CRC or holds a SYMBOL event: one anomaly against the port, and a HOPNAK. -/
def failFrame (s : State) (p : PortId) (x : Taken) : State :=
  let s1 := countLinkErr (portAnomaly s p (if x.symbol then anSymbol else anLinkCrc))
  let s2 := modPort s1 p fun q => { q with naks := q.naks ++ [((byteAt x.bytes 0).setWidth 4, byteAt x.bytes 5)] }
  abortCopy s2 p x.bytes

def isDisc (k : Byte) (f : Frame) : Bool := f.cls == clsDisc && byteAt f.payload 0 == k

/-- R312: a REPORT that reaches the manager after a later CALL than the one it answers is discarded (log 88). -/
def lateReport (s : State) (earlier : Bool) (b : List Byte) : Bool :=
  earlier && isManager s && frameKnown b && isDisc 0x02 (parseFrame b)

/-- A whole frame taken from the line of a port. -/
def takeFrame (s : State) (p : PortId) (x : Taken) (earlier : Bool) (t : BitVec 20) : State :=
  let good := !x.symbol && x.ending == .good && linkCrcOk x.bytes
  match (portOf s p).st with
  | .bypass =>
    if good && frameKnown x.bytes && (parseFrame x.bytes).cls == clsTick && roleOf s != 0 then
      toInbox s p (parseFrame x.bytes) else s
  | .up =>
    if x.ending = .abort then s
    else if !good then failFrame s p x
    else if lateReport s earlier x.bytes then s
    else routeFrame s p x.bytes t
  | _ => s

/-- FABRIC_FRAME_RECEIVE (R280, R286, R289, R293, R300, R312): the code groups of a reception outside a frame and from an SOF
on, `t` the end of the frame; `earlier` where a REPORT in it answers an earlier CALL than the last. -/
def execFabricFrameReceive (p : PortId) (idle groups : List CodeGroup) (earlier : Bool) (t : BitVec 20) (s : State) :
    Host.Outcome State Fault Refusal :=
  if s.core.inReset then .next s
  else
    let s0 := setOff s t
    let s1 := if (portOf s0 p).st = .up then idleSymbols s0 p idle else s0
    .next (match groups with
      | .k277 :: r => takeFrame s1 p (takeGroups r) earlier t
      | _ => s1)

/-! ## The end of a transmission, and hop retry (R287, R290, R340) -/

/-- A sent frame is kept for 2.5 us after its EOF. -/
def keptFresh (s : State) (now : Stamp) (r : TxRec) : Bool := decide (unitsBetween s r.eof now ≤ 250)

/-- FABRIC_FRAME_TRANSMIT_END (R287, R290, R340). -/
def execFabricFrameTransmitEnd (p : PortId) (t : BitVec 20) (s : State) : Host.Outcome State Fault Refusal :=
  match (portOf s p).tx with
  | none => .next s
  | some r =>
    let now := stampAt s t
    let s0 := setOff s t
    let s1 := modPort s0 p fun q => { q with
      tx := none
      kept := (q.kept.filter (keptFresh s now)) ++
        (if r.frame.cls = clsTick || r.cancelled || r.aborted then [] else [{ r with eof := now }]) }
    let s2 := if r.cancelled then countAbortLate s1 else s1
    let s3 := if isProof r.frame.cls && isWorker s && !r.aborted then
        modLive s2 fun c => { c with fablat := BitVec.ofNat 16 (t.toNat / 10) } else s2
    .next (pump s3 p)

/-- R290, R265: the retransmission may be made. -/
def retryAllowed (s : State) (now : Stamp) (r : TxRec) : Bool :=
  !r.retried && r.frame.cls != clsTick && keptFresh s now r && r.first == s.core.frameNo &&
  decide (now.off.toNat + frameTime r.frame ≤ spanEnd s.core.tfCode r.frame.cls)

/-- HOPNAK_RECEIVE (R290). -/
def execHopnakReceive (p : PortId) (cls : BitVec 4) (seq : Byte) (t : BitVec 20) (s : State) :
    Host.Outcome State Fault Refusal :=
  let now := stampAt s t
  match (portOf s p).kept.find? fun r => r.frame.cls == cls && r.frame.seq == seq with
  | some r =>
    if retryAllowed s now r then
      let again := { r with retried := true, frame := { r.frame with retry := true } }
      .next (pump (modPort (setOff s t) p fun q =>
        { q with kept := q.kept.erase r, retries := q.retries ++ [again] }) p)
    else .next s
  | none => .next s

/-! ## Lock (R281-R283, R304, R306) -/

def consequence (s : State) (code : Byte) (conn : W16) : State := crumb s crConsequence 0xFF code (le16 conn)

def stationByte (s : State) : Byte := (ownStation s).getD 0xFE#8

/-- A worker's DISC message to the manager, out of its upstream port and, for BREAK, out of the other one too (R304). -/
def discUp (s : State) (both : Bool) (except : PortId) (payload : List Byte) : State :=
  let ps := (if both then [PortId.p0, .p1] else [s.fab.upstream.getD .p0]).filter fun p => p != except
  sendOut s ps clsDisc 0x00 payload

def topoPayload (t : Topo) (atGap : Bool) : List Byte :=
  [0x06, byteOfBool t.healed, t.p1Tail, t.p0Tail, byteOfBool atGap]

def fabricCrumb (s : State) (code station reason : Byte) (tag : List Byte) : State :=
  crumb s crFabric 0xFF code ([station, reason] ++ tag)

/-- The topology in force from the next tick as far as it is known. -/
def comingTopo (s : State) : Topo := s.fab.topoTick.getD s.fab.topo

/-- The end of a break has reported: the module that told the break, on the port it told, or the tail of its branch. -/
def endReady (s : State) (told : Option (Byte × Byte)) (tail : Byte) : Bool :=
  s.fab.ready.any fun e => match told with
    | some (station, port) => (e.1 == station || e.1 == tail) && e.2 == port
    | none => e.1 == tail

/-- R306: both ends of every break have reported, as far as their links can carry a report: the tails of a healed ring, the
manager standing for a branch that holds no worker; the tail of a line, whose other end lies beyond the break. -/
def allReady (s : State) : Bool :=
  let t := comingTopo s
  endReady s s.fab.ends.a t.p1Tail && (!t.healed || endReady s s.fab.ends.b (if t.p0Tail = 0xFF#8 then 0 else t.p0Tail))

/-- R306: once every end has reported, TOPO restores the plan's topology from the end of the next join gap. -/
def restoreIfReady (s : State) : State :=
  if allReady s then
    let t := plannedTopo s
    fabricCrumb (sendOut { s with fab := { s.fab with topoGap := some t } } [.p1, .p0] clsDisc 0xFF (topoPayload t true))
      0x04 t.p1Tail 0 []
  else s

def noteReady (s : State) (station port : Byte) : State :=
  restoreIfReady { s with fab := { s.fab with ready := s.fab.ready ++ [(station, port)] } }

/-- R306: STANDBY is reported to the manager; the manager holds its own report. -/
def reportReady (s : State) (p : PortId) : State :=
  if isManager s then noteReady s 0 (BitVec.ofNat 8 p.num)
  else discUp s false p [0x07, BitVec.ofNat 8 p.num, stationByte s]

/-! ## Breaks (R304, R305, R309, R313) -/

/-- The admitted workers' stations in rising order (R297). -/
def admittedStations (s : State) : List Nat := (s.fab.members.filter fun e => e.2.state == 1).map (·.1)

/-- The first admitted station after `r`, 0xFF where there is none; the last one before it, the manager where there is none. -/
def nextStation (s : State) (r : Byte) : Byte :=
  BitVec.ofNat 8 (((admittedStations s).find? fun k => decide (r.toNat < k)).getD 0xFF)
def lastStation (s : State) (r : Byte) : Byte :=
  BitVec.ofNat 8 ((((admittedStations s).filter fun k => decide (k < r.toNat)).getLast?).getD 0)

/-- The topology after station `r`, the last one before the break as its branch counts, has seen it (R304, R305). -/
def topoAfterBreak (s : State) (fromP1 : Bool) (r : Byte) : Topo :=
  let t := comingTopo s
  if t.healed then (if fromP1 then { t with p1Tail := r } else { t with p0Tail := r })
  else if planRing s then
    if fromP1 then { healed := true, p1Tail := r, p0Tail := nextStation s r }
    else { healed := true, p1Tail := lastStation s r, p0Tail := r }
  else { t with p1Tail := r }

/-- The manager changes the topology from the next tick and broadcasts it. -/
def changeTopo (s : State) (t : Topo) : State :=
  sendOut (fabricCrumb { s with fab := { s.fab with topoTick := some t } } 0x04 t.p1Tail 0 []) [.p1, .p0] clsDisc 0xFF
    (topoPayload t false)

/-- R304, R305, R309: the manager heals the ring, or shortens a branch, from the next tick; `e` is the end that told the
break, on the side `c`, the other end being unknown where nothing was broken before. -/
def healTo (s : State) (t : Topo) (r : Byte) (c : Side) (e : Byte × Byte) : State :=
  let known := if (comingTopo s).healed then s.fab.ends else ⟨none, none⟩
  let s1 := { s with fab := { s.fab with topoGap := none, ready := [], ends := known.set c (some e) } }
  changeTopo (fabricCrumb s1 0x03 r 0 []) t

def healBreak (s : State) (arrival : PortId) (r : Byte) (e : Byte × Byte) : State :=
  healTo s (topoAfterBreak s (arrival == p1Port s) r) r (if arrival == p1Port s then .a else .b) e

/-- The manager's own port has gone DOWN: its P1 branch, or its P0 end of a ring, holds no worker any more. -/
def ownBreak (s : State) (p : PortId) : State :=
  let e := (0#8, BitVec.ofNat 8 p.num)
  if p = p1Port s then healBreak s p 0 e
  else if planRing s then healTo s { healed := true, p1Tail := (comingTopo s).p1Tail, p0Tail := 0xFF#8 } 0 .b e
  else s

/-- R305: a worker admitted beyond the tail of its branch is the last that can be reached. -/
def extendBranch (s : State) (k : Byte) (p0Branch : Bool) : State :=
  let t := comingTopo s
  if p0Branch then
    if t.healed && (t.p0Tail == 0xFF#8 || decide (k.toNat < t.p0Tail.toNat)) then changeTopo s { t with p0Tail := k } else s
  else if t.p1Tail.toNat < k.toNat then changeTopo s { t with p1Tail := k } else s

/-- A member reached over `p` at a hop position; the admitted station of greatest position not beyond `h`, and whether an
admitted worker lies beyond it. -/
def branchMembers (s : State) (p : PortId) : List (Nat × Member) :=
  s.fab.members.filter fun e => e.2.state == 1 && e.2.p0Branch == (p != p1Port s)

def lastWithin (s : State) (p : PortId) (h : Nat) : Byte :=
  BitVec.ofNat 8 (((branchMembers s p).foldl (fun (b : Nat × Nat) e =>
    if e.2.h.toNat ≤ h ∧ b.2 ≤ e.2.h.toNat then (e.1, e.2.h.toNat) else b) (0, 0)).1)

/-- R304: the BREAK of a worker not yet admitted lies at its hop position; it changes the topology only where an admitted
worker lies beyond it. -/
def breakUnadmitted (s : State) (p : PortId) (hop port : Byte) : State :=
  if (branchMembers s p).any fun e => decide (hop.toNat < e.2.h.toNat) then
    healBreak s p (lastWithin s p hop.toNat) (0xFE#8, port)
  else s

/-- A worker's BREAK (R304), out of its upstream port and of its other port if that is UP. -/
def sendBreak (s : State) (p : PortId) : State := discUp s true p [0x05, BitVec.ofNat 8 p.num, stationByte s]

/-- R313: a BREAK that still waits at a port is not sent where that port goes DOWN too. -/
def withdrawBreak (q : PortSt) : PortSt := { q with own := q.own.filter fun f => !isDisc 0x05 f }

/-- A port has gone to DOWN (R304, R305, R313): the manager acts on its own break, a worker reports it; while its other port
has lost lock too, the report waits for that port's relock, and goes nowhere where that port goes DOWN as well. -/
def portDown (s0 : State) (p : PortId) : State :=
  let s := modPort s0 p withdrawBreak
  if isManager s then ownBreak s p
  else if (portOf s p.other).relocking then { s with fab := { s.fab with breakDue := some p } }
  else if s.fab.breakDue = some p.other then { s with fab := { s.fab with breakDue := none } }
  else sendBreak s p

/-- A port has relocked: a BREAK of the other port that waited for it goes out. -/
def breakReleased (s : State) (p : PortId) : State :=
  if s.fab.breakDue = some p.other then sendBreak { s with fab := { s.fab with breakDue := none } } p.other else s

/-- A port in UP has relocked (R283): a loss that is to be reported was that of a neighbour's change. -/
def relocked (s : State) (p : PortId) (quiet : Bool) : State :=
  let s1 := breakReleased s p
  if quiet then s1 else consequence s1 csNeighbourChange 0

/-- R302: the port by which a line's manager first locks is its cabled one. -/
def noteCable (s : State) (p : PortId) : State :=
  if isManager s && s.fab.cabled.isNone then { s with fab := { s.fab with cabled := some p } } else s

/-- RECEIVER_LOCK (R281, R283). -/
def execReceiverLock (p : PortId) (s : State) : Host.Outcome State Fault Refusal :=
  let q := portOf s p
  match q.st with
  | .down => .next (reportReady (modPort (noteCable s p) p fun q => { q with st := .standby }) p)
  | .up =>
    .next (if q.relocking then relocked (modPort s p fun q => { q with relocking := false, lossQuiet := false }) p q.lossQuiet
    else s)
  | .locking => .next (modPort s p fun q => { q with st := .up, lossReported := false })
  | _ => .next s

/-- LOCK_LOSS (R281, R283): what the loss is to be reported as is settled by the moment at which lock is lost. -/
def execLockLoss (p : PortId) (s : State) : Host.Outcome State Fault Refusal :=
  match (portOf s p).st with
  | .up =>
    .next (if (portOf s p).relocking then s
    else modPort s p fun q => { q with relocking := true, lossQuiet := s.fab.gap || s.fab.sync == .loss })
  | .standby => .next (portDown (modPort s p fun q => { q with st := .down }) p)
  | _ => .next s

/-- RELOCK_TIMEOUT (R283, R304, R313). -/
def execRelockTimeout (p : PortId) (s : State) : Host.Outcome State Fault Refusal :=
  let q := portOf s p
  if q.st = .up ∧ q.relocking then
    let s1 := if q.lossQuiet || q.lossReported then s else portAnomaly s p anLockLoss
    .next (portDown (modPort s1 p fun q =>
      { q with st := .down, relocking := false, lossQuiet := false, lossReported := true, tx := none }) p)
  else .next s

/-! ## Join gaps (R292-R294, R308) -/

def portsRetired (s : State) : Bool :=
  let l := reportingLane s
  (chanOf l (chanPort .p0)).retired || (chanOf l (chanPort .p1)).retired

/-- R45, R292: the module may open its bypass in this gap. -/
def mayJoin (s : State) : Bool :=
  bypassClosed s && s.core.bootStep != .held && s.core.mode != .shutdown && !s.fab.duplicate && !portsRetired s &&
  !testsFabric s &&
  (s.core.mode != .safeHold || s.host.hearth) &&
  ((isWorker s && decide (16 ≤ s.fab.heard)) || (isManager s && s.fab.listenOver))

/-- R318: this module's end of the link of a port measures in the first half: a manager's end, and the end that is its
module's upstream port, unless that link ends at a manager's port. -/
def measuresFirst (s : State) (p : PortId) : Bool := isManager s || (s.fab.upstream == some p && s.fab.tickHop != 0)

/-- The round trip found in the half in which this end measures. -/
def ownHalf (s : State) (env : JoinEnv) (p : PortId) : Option Nat :=
  if measuresFirst s p then env.half1.at p.side else env.half2.at p.side

/-- R318: d from the round trip, which is known modulo the 640 ns of two idle pairs. -/
def linkDelay (roundTrip : Nat) : Nat :=
  (((roundTrip : Int) - Config.ownLatency - Config.loopLatency) % 640).toNat / 2

/-- A measured delay that is kept (R318, R319). -/
def newDelay (q : PortSt) (roundTrip : Option Nat) : Option Nat :=
  match roundTrip with
  | some x => if linkDelay x ≤ 200 then some (linkDelay x) else q.delay
  | none => q.delay

/-- A port in the join gap: a joining port locks or goes to DOWN; a relocked one stays UP; new links are measured. -/
def joinPort (joining locked : Bool) (rt : Option Nat) (q : PortSt) : PortSt :=
  if joining then { q with st := if locked then .up else .down, delay := if locked then newDelay q rt else q.delay,
                           relocking := false, lossQuiet := false, lossReported := false }
  else if locked && q.st == .locking then { q with st := .up, delay := newDelay q rt, relocking := false, lossReported := false }
  else if locked && q.relocking then { q with relocking := false, lossQuiet := false, delay := newDelay q rt }
  else { q with delay := newDelay q rt }

/-- Every output is off in the mode (R62). -/
def outputsOff (m : Mode) : Bool := m == .boot || m == .configure || m == .safeHold || m == .shutdown

/-- The module has opened its bypass (R66, R272, R295): its station, its proof and, where a worker joins with its outputs off,
these outputs wait for admission and the proving period (log 95). The port that has locked is a line's cabled one (R302). -/
def joined (s : State) : State :=
  { s with
    fab := { s.fab with
      rejoin := false, proofFrames := 0, proofReady := false, heard := 0, sync := .inSync, missed := 0, station := none
      awaitAdmit := s.fab.awaitAdmit || (isWorker s && outputsOff s.core.mode)
      cabled := if portUp s .p1 then some .p1 else if portUp s .p0 then some .p0 else s.fab.cabled
      topo := if isManager s then plannedTopo s else s.fab.topo }
    core := { s.core with bootStep := if s.core.bootStep = .join then .proving else s.core.bootStep } }

/-- R304, R305: a joining port that has not locked has gone to DOWN. -/
def joinBreaks (s : State) : State :=
  let one := fun (s : State) (p : PortId) =>
    if (portOf s p).st != .down then s
    else if isManager s then ownBreak s p
    else if (portOf s p.other).st == .up then sendBreak s p
    else s
  one (one s .p0) .p1

/-- R283, R304: a port that had lost lock before the gap has relocked in it. -/
def gapRelocked (before : State) (env : JoinEnv) (s : State) (p : PortId) : State :=
  let q := portOf before p
  if q.st == .up && q.relocking && env.locked.at p.side then relocked s p q.lossQuiet else s

/-- The start of the join gap (R104, R105). -/
def gapStart (tf : Byte) : Nat := if tfUnits tf = 25000 then 0 else endX tf

/-- JOIN_GAP (R104, R105, R294). -/
def execJoinGap (env : JoinEnv) (s : State) : Host.Outcome State Fault Refusal :=
  if s.core.tickOn && s.core.frameNo.toNat % 256 == 0 && !s.fab.gap then
    let joining := mayJoin s
    let s1 := setOff { s with fab := { s.fab with gap := true } } (BitVec.ofNat 20 (gapStart s.core.tfCode))
    if bypassClosed s && !joining then .next s1
    else
      let s2 := modPort (modPort s1 .p0 (joinPort joining env.locked.a (ownHalf s env .p0))) .p1
        (joinPort joining env.locked.b (ownHalf s env .p1))
      .next (if joining then syncIrq s (joinBreaks (joined s2)) else gapRelocked s env (gapRelocked s env s2 .p0) .p1)
  else .next s

/-- R312: a worker's branch follows the topology in force. -/
def followBranches (t : Topo) (ms : Tab Member) : Tab Member :=
  ms.map fun e => (e.1, { e.2 with p0Branch := t.healed && t.p0Tail != 0xFF#8 && decide (t.p0Tail.toNat ≤ e.1) })

/-- JOIN_GAP_END (R306, R308). -/
def execJoinGapEnd (s : State) : Host.Outcome State Fault Refusal :=
  if s.fab.gap then
    let up := fun (q : PortSt) => if q.st = .standby then { q with st := .up, lossReported := false } else q
    let s1 := { s with fab := { s.fab with gap := false } }
    let s2 := match s.fab.topoGap with
      | some t =>
        let s2 := modPort (modPort s1 .p0 up) .p1 up
        { s2 with fab := { s2.fab with
            topo := t, topoGap := none, upstream := none, ready := [], ends := ⟨none, none⟩, members := followBranches t s2.fab.members } }
      | none => s1
    .next (pumpBoth (setOff s2 (BitVec.ofNat 20 (gapStart s.core.tfCode + 20000))))
  else .next s

/-! ## Discovery (R296-R299) -/

/-- The first inbox frame that fits, taken out. -/
def takeInbox (s : State) (p : PortId → Frame → Bool) : Option (PortId × Frame × State) :=
  match s.fab.inbox.find? fun e => p e.1 e.2 with
  | some e => some (e.1, e.2, { s with fab := { s.fab with inbox := s.fab.inbox.erase e } })
  | none => none

def seg32 (s : State) : List Byte := le32 (((bindOf s).map fun b => b.seg).getD 0)

/-- A worker's REPORT (R296). -/
def reportPayload (s : State) (cfg : LoafCfg) (p : PortId) : List Byte :=
  [0x02, s.fab.hop, BitVec.ofNat 8 p.num, cfg.tfCode, cfg.role, s.core.mode.code, byteOfBool s.fab.station.isSome, 0] ++
  padTo 8 cfg.bind.tag ++ le32 cfg.bind.seg ++ [cfg.bind.pos, 0] ++ le16 cfg.bind.sig ++ padTo 8 cfg.loafId

/-- The manager tells its workers the topology they are to run (R303, R314), unless one is pending for a join gap's end. -/
def sendTopo (s : State) : State :=
  if s.fab.topoGap.isSome then s else sendOut s (branchPorts s) clsDisc 0xFF (topoPayload (comingTopo s) false)

/-- CALL (R296, R312): a manager broadcasts it, and the topology with it (R303); a worker answers the one it has received. -/
def execCall (s : State) : Host.Outcome State Fault Refusal :=
  match activeCfg s with
  | none => .next s
  | some cfg =>
    if isManager s then
      .next (if bypassClosed s || s.core.inReset then s
      else
        let s1 := { s with fab := { s.fab with
          callNo := s.fab.callNo + 1, inbox := s.fab.inbox.filter fun e => !isDisc 0x02 e.2 } }
        sendTopo (sendOut s1 (branchPorts s1) clsDisc 0xFF ([0x01, cfg.tfCode] ++ seg32 s ++ [BitVec.ofNat 8 (planN s)])))
    else
      match takeInbox s fun _ f => isDisc 0x01 f with
      | none => .next s
      | some (p, f, s1) =>
        let s2 := { s1 with fab := { s1.fab with hop := f.hop + 1, callN := byteAt f.payload 6 } }
        .next (sendOut s2 [p] clsDisc 0x00 (reportPayload s2 cfg p))

/-- What a REPORT carries. -/
structure Report where
  h : Byte
  tf : Byte
  role : Byte
  mode : Byte
  tag : List Byte
  seg : W32
  pos : Byte
  sig : W16
  /-- The station at which the worker says it is admitted. -/
  station : Option Byte
  deriving DecidableEq, Repr

def parseReport (f : Frame) : Report :=
  let b := f.payload
  { h := byteAt b 1, tf := byteAt b 3, role := byteAt b 4, mode := byteAt b 5, tag := bytesAt b 8 8, seg := u32At b 16,
    pos := byteAt b 20, sig := u16At b 22, station := if bitOf (byteAt b 6) 0 then some f.src else none }

/-- The station whose plan entry holds the tag. -/
def planIndex (p : Plan) (tag : List Byte) : Option Nat := (p.members.zipIdx.find? fun e => e.1.tag == tag).map (·.2)

def memberNone : Member := { state := 0, reason := 0, h := 0, mode := 0, tag := [], p0Branch := false, call := 0 }

/-- R297: another worker holds a station: one admitted there that has answered this CALL or the last one before it. The
reporting worker is the same one where it stands at that one's place, or says that it is admitted there and the other has not
reported at this CALL: healing or restoring may have moved it (R307; log 37). -/
def heldByOther (s : State) (station : Nat) (r : Report) (p0Branch : Bool) : Bool :=
  let m := tabGet memberNone s.fab.members station
  m.state == 1 && decide (s.fab.callNo ≤ m.call + 1) &&
  !((m.h == r.h && m.p0Branch == p0Branch) || (r.station == some (BitVec.ofNat 8 station) && m.call != s.fab.callNo))

/-- R297: no other worker holds the position, and it fits the branch, as the REPORTs to the present CALL tell. Station 0 is the
manager's own. -/
def orderOk (s : State) (n station : Nat) (r : Report) (p0Branch : Bool) : Bool :=
  let nearer := s.fab.members.filter fun e =>
    e.2.state == 1 && e.2.call == s.fab.callNo && e.2.p0Branch == p0Branch && decide (e.2.h.toNat < r.h.toNat)
  decide (station ≠ 0) && !heldByOther s station r p0Branch &&
  if p0Branch then decide (r.h.toNat + station ≤ n) && nearer.all fun e => decide (station < e.1)
  else decide (r.h.toNat ≤ station) && nearer.all fun e => decide (e.1 < station)

/-- R297: the station to admit at, or the reason for refusal with the station concerned (0xFF where none is). -/
def judgeReport (s : State) (cfg : LoafCfg) (plan : Plan) (r : Report) (p0Branch : Bool) : Sum Nat (Nat × Byte) :=
  match planIndex plan r.tag with
  | none => .inr (0xFF, 0x01)
  | some k =>
    let sig := ((plan.members[k]?).map fun e => e.sig).getD 0
    if r.seg ≠ plan.seg ∨ r.pos.toNat ≠ k ∨ r.sig ≠ sig then .inr (k, 0x02)
    else if !orderOk s plan.members.length k r p0Branch then .inr (k, 0x03)
    else if r.tf ≠ cfg.tfCode then .inr (k, 0x04)
    else if r.role ≠ 1 then .inr (k, 0x05)
    else .inl k

def recordMember (s : State) (k : Nat) (m : Member) : State :=
  { s with fab := { s.fab with members := tabSet memberNone s.fab.members k m } }

/-- R297: the refusal recorded: by hop where no station is named, or where another worker holds the station. -/
def recordRefusal (s : State) (k : Nat) (r : Report) (m : Member) : State :=
  if k = 0xFF ∨ k = 0 ∨ heldByOther s k r m.p0Branch = true then
    { s with fab := { s.fab with refusedHops := tabSet memberNone s.fab.refusedHops m.h.toNat m } }
  else recordMember s k m

/-- The manager admits or refuses a REPORT. -/
def takeReport (s : State) (cfg : LoafCfg) (plan : Plan) (p : PortId) (f : Frame) : State :=
  let r := parseReport f
  let p0 := p != p1Port s
  let m : Member := { state := 1, reason := 0, h := r.h, mode := r.mode, tag := r.tag, p0Branch := p0, call := s.fab.callNo }
  match judgeReport s cfg plan r p0 with
  | .inl k =>
    let s2 := fabricCrumb (recordMember s k m) 0x02 (BitVec.ofNat 8 k) 0 r.tag
    sendOut (extendBranch s2 (BitVec.ofNat 8 k) p0) [p] clsDisc 0xFE ([0x03, r.h, BitVec.ofNat 8 k, 0] ++ r.tag)
  | .inr (k, why) =>
    let s3 := fabricCrumb (recordRefusal s k r { m with state := 2, reason := why }) 0x01 (BitVec.ofNat 8 k) why r.tag
    sendOut s3 [p] clsDisc 0xFE ([0x04, r.h, why, 0] ++ r.tag)

/-- REPORT (R297, R298): the manager judges the REPORT that arrived first. -/
def execReport (s : State) : Host.Outcome State Fault Refusal :=
  match activeCfg s, planOf s, (if isManager s then takeInbox s fun _ f => isDisc 0x02 f else none) with
  | some cfg, some plan, some (p, f, s1) => .next (takeReport s1 cfg plan p f)
  | _, _, _ => .next s

/-- ADMIT (R296): a worker takes the station assigned. -/
def execAdmitMsg (s : State) : Host.Outcome State Fault Refusal :=
  match (if isWorker s then takeInbox s fun _ f => isDisc 0x03 f && forUs s f else none) with
  | some (_, f, s1) => .next { s1 with fab := { s1.fab with station := some (byteAt f.payload 2), refused := false } }
  | none => .next s

/-- REFUSE (R297, R298): the worker loses its admission at the next tick and goes on forwarding. -/
def execRefuse (s : State) : Host.Outcome State Fault Refusal :=
  match (if isWorker s then takeInbox s fun _ f => isDisc 0x04 f && forUs s f else none) with
  | some (_, _, s1) => .next { s1 with fab := { s1.fab with refused := true } }
  | none => .next s

/-- BREAK (R304): before the start of G the manager acts in the same frame. -/
def execBreakMsg (s : State) : Host.Outcome State Fault Refusal :=
  if s.core.off.toNat < startG s.core.tfCode then
    match (if isManager s then takeInbox s fun _ f => isDisc 0x05 f else none) with
    | some (p, f, s1) =>
      let r := byteAt f.payload 2
      .next (if r = 0xFE#8 then breakUnadmitted s1 p f.hop (byteAt f.payload 1)
        else healBreak s1 p r (r, byteAt f.payload 1))
    | none => .next s
  else .next s

def parseTopo (b : List Byte) : Topo := { healed := byteAt b 1 == 1, p1Tail := byteAt b 2, p0Tail := byteAt b 3 }

/-- TOPO (R303, R306, R309, R314): a manager broadcasts the topology it runs; a worker takes the new tails at the next tick,
where a TOPO pending for a join gap's end is cancelled, or at the end of the next join gap. -/
def execTopo (s : State) : Host.Outcome State Fault Refusal :=
  if isManager s then .next (if bypassClosed s || s.core.inReset then s else sendTopo s)
  else match (if isWorker s then takeInbox s fun _ f => isDisc 0x06 f else none) with
  | some (_, f, s1) =>
    let t := parseTopo f.payload
    .next (if bitOf (byteAt f.payload 4) 0 then { s1 with fab := { s1.fab with topoGap := some t } }
      else { s1 with fab := { s1.fab with topoTick := some t, topoGap := none } })
  | none => .next s

/-- LINKREADY (R306). -/
def execLinkready (s : State) : Host.Outcome State Fault Refusal :=
  match (if isManager s then takeInbox s fun _ f => isDisc 0x07 f else none) with
  | some (_, f, s1) => .next (noteReady s1 (byteAt f.payload 2) (byteAt f.payload 1))
  | none => .next s

/-! ## TICK and sync (R107-R110, R293, R299, R317) -/

/-- A TICK that a member does not treat as missing (R317). -/
def tickValid (cfg : LoafCfg) (b : List Byte) : Bool :=
  b.length == 12 && natAt b 9 3 != 0xFFFFFF && u32At b 5 == cfg.bind.seg && byteAt b 4 == cfg.tfCode

/-- CORR of the outgoing copy (R317, R319). -/
def corrOut (q : PortSt) (b : List Byte) (residence : Nat) : Nat := min (natAt b 9 3 + q.delay.getD 150 + residence) 0xFFFFFF

def forwardTick (s : State) (p : PortId) (f : Frame) (residence : Nat) : State :=
  let b := if f.payload.length = 12 then bytesAt f.payload 0 9 ++ leBytes 3 (corrOut (portOf s p) f.payload residence)
    else f.payload
  if relays s p f then forwardFrame s p.other { f with hop := f.hop + 1, payload := b } else s

/-- R317: the phase error in ns of a TICK whose SOF arrived `arrival` after the module's own tick: its frame start is the
arrival minus the delay travelled, CORR and the delay of the link it came over (R319). -/
def tickError (q : PortSt) (b : List Byte) (arrival : Int) : Int := arrival - (natAt b 9 3 + q.delay.getD 150 : Nat)

/-- R109: the error against the nearer manager tick. -/
def nearerTick (tf : Byte) (err : Int) : Int :=
  let period : Int := 10 * (tfUnits tf : Int)
  let r := err % period
  if period < 2 * r then r - period else r

/-- R293, R292: a TICK heard through the closed bypass gives the frame number, the phase and the side it comes from. -/
def hearTick (s0 : State) (p : PortId) (f : Frame) (err : Int) : State :=
  let n := u32At f.payload 0
  let s := takeFrameNo s0 n
  let next := s.fab.heardFrame == some (n - 1)
  { s with
    core := { s.core with slewNs := nearerTick s.core.tfCode err }
    fab := { s.fab with heard := if next then min (s.fab.heard + 1) 16 else 1, heardFrame := some n, gotTick := true,
                        upstream := some p, tickHop := f.hop } }

/-- Within the tolerance of R107: 0.5 us for each hop from the manager. -/
def inTolerance (s : State) (err : Int) : Bool := decide (err.natAbs ≤ 500 * max 1 s.fab.hop.toNat)

/-- R107, R109: a valid TICK at a joined member, its phase error as it counts. FRAME is taken up on a re-entry alone (log 102). -/
def followTick (s0 : State) (p : PortId) (f : Frame) (err : Int) : State :=
  let s := { s0 with fab := { s0.fab with tickHop := f.hop } }
  if s.fab.sync = .loss then
    let s := takeFrameNo s (u32At f.payload 0)
    { s with
      core := { s.core with slewNs := nearerTick s.core.tfCode err }
      fab := { s.fab with sync := .inSync, missed := 0, gotTick := true, upstream := some p,
                          settled := inTolerance s (nearerTick s.core.tfCode err), proofFrames := 0, proofReady := false } }
  else
    { s with
      core := { s.core with slewNs := err }
      fab := { s.fab with sync := .inSync, missed := 0, gotTick := true, upstream := some p,
                          settled := s.fab.settled || inTolerance s err } }

/-- R107, R109: a TICK is used where it lies within 5 us of its expected time, which a correction still under way shifts; in
sync loss any valid one is. -/
def tickUsed (s : State) (err : Int) : Bool :=
  decide (s.fab.sync = .loss) || decide ((err - s.core.slewNs).natAbs ≤ 5000)

/-- R299: another manager's TICK closes the bypass until reset. -/
def duplicateManager (s : State) : State :=
  let s1 := leaveFabric s
  fabricCrumb { s1 with fab := { s1.fab with duplicate := true } } 0x05 0 0 []

/-- TICK_RECEIVE (R107, R109, R299, R300, R317): `arrivalNs` is the arrival of its SOF after the module's own tick,
`residenceNs` the time from SOF in to SOF out. A broadcast is forwarded whether or not this member treats it as missing. -/
def execTickReceive (arrivalNs : Int) (residenceNs : Nat) (s : State) : Host.Outcome State Fault Refusal :=
  match activeCfg s, takeInbox s fun _ f => f.cls == clsTick with
  | some cfg, some (p, f, s1) =>
    let err := tickError (portOf s p) f.payload arrivalNs
    let valid := tickValid cfg f.payload
    if isManager s then .next (if s.fab.duplicate then s1 else duplicateManager s1)
    else if bypassClosed s then .next (if valid then hearTick s1 p f err else s1)
    else
      let s2 := forwardTick s1 p f residenceNs
      .next (if valid && tickUsed s err then syncIrq s (followTick s2 p f err) else s2)
  | _, _ => .next s

/-- At Tf = 250 us the join-gap frame has no TICK (R105). -/
def noTickFrame (s : State) : Bool := tfUnits s.core.tfCode == 25000 && s.core.frameNo.toNat % 256 == 0

/-- TICK_MISSING (R108, R105, R292). -/
def execTickMissing (s : State) : Host.Outcome State Fault Refusal :=
  if isWorker s && s.core.tickOn && !s.fab.gotTick && !noTickFrame s then
    .next (if bypassClosed s then { s with fab := { s.fab with heard := 0, heardFrame := none, gotTick := true } }
    else if s.fab.sync = .loss then { s with fab := { s.fab with gotTick := true } }
    else syncIrq s { s with fab := { s.fab with missed := s.fab.missed + 1, gotTick := true, sync := .holdover } })
  else .next s

/-- A SAFE frame of this module's own. -/
def ownSafe (f : Frame) : Bool := isSafeFrame f && f.hop == 0

/-- R108, R329: from the instant of sync loss the proof contribution is false, that already staged for this frame included, and
no SAFE copy of this module's own leaves. -/
def loseSync (s0 : State) : State :=
  let s := modPort (modPort s0 .p0 (cancelWhere ownSafe)) .p1 (cancelWhere ownSafe)
  modLanes { s with fab := { s.fab with sync := .loss, proofReady := false, proofFrames := 0, settled := false } }
    fun l => { l with contrib := host0 }

/-- SYNC_LOSS (R108). -/
def execSyncLoss (s : State) : Host.Outcome State Fault Refusal :=
  .next (if isWorker s && decide (16 ≤ s.fab.missed) && s.fab.sync != .loss then syncIrq s (loseSync s)
  else s)

/-- A re-admitted port has rejoined and served its proving period (R270). -/
def markRejoined (s : State) : State :=
  let f := fun (r : ChanRec) => { r with prob := r.prob.map fun p => { p with rejoined := true } }
  modLanes s fun l => modChan (modChan l (chanPort .p0) f) (chanPort .p1) f

/-- SYNC_PROVING_END (R109, R270): 16 frames within the tolerance have passed. -/
def execSyncProvingEnd (s : State) : Host.Outcome State Fault Refusal :=
  .next (if !bypassClosed s && s.fab.sync == .inSync && s.fab.settled && decide (16 ≤ s.fab.proofFrames) then
    markRejoined { s with fab := { s.fab with proofReady := true } }
  else s)

/-- MANAGER_LISTEN_EXPIRY (R292). -/
def execManagerListenExpiry (s : State) : Host.Outcome State Fault Refusal :=
  .next (if isManager s && bypassClosed s && !s.fab.duplicate && decide (512 ≤ s.fab.listened) then
    { s with fab := { s.fab with listenOver := true } }
  else s)

end Sys2Proof.Machine
end

