-- ==== Sys2Proof/Machine/Modes.lean ====
section
/-! DEFINITION. What the mode and the supplies switch on and off beside the outputs: the actuator bus with AUX3V3 (R45, R49,
R460, R463, R473), the indicator port (R45, R245, R247, R252), and the end of a learning run (R199, R208). -/

namespace Sys2Proof.Machine

def inServiceMode (m : Mode) : Bool := m == .configure || m == .operate || m == .maintain || m == .degraded

/-- R266: a port, the actuator bus or the indicator chain is out of service from the tick after its retirement in phase C. -/
def retiredNow (s : State) (n : Nat) : Bool := (chanOf (reportingLane s) n).retired && !s.core.retiring.contains n

/-- Such a channel has the effects of its retirement, on probation too (R266, R270). -/
def outNow (s : State) (n : Nat) : Bool := chanOut (chanOf (reportingLane s) n) && !s.core.retiring.contains n

/-- R45, R49, R460: the actuator bus and AUX3V3 are on: in a mode in service, with an ACTBUS entry, and while crust A, which
feeds them, has its logic power and is not below lockout. -/
def busActive (s : State) (m : Mode) : Bool :=
  inServiceMode m && s.crust.a.logicPower && !s.crust.a.lockout && match activeCfg s with
  | some c => (actBusEntry c.iomap).isSome
  | none => false

/-- The ACT_SCANs that wait for a scan are abandoned (R382). -/
def abortScans (s : State) : State :=
  s.act.scanVia.foldl (fun s v => replyErr s v stAborted abortMode) { s with act := { s.act with scanVia := [] } }

/-- R463, R473: the bus becomes active and is scanned, or goes off and ends what waits for it; an ACT_SCAN that waits is
abandoned too in a mode that does not permit it (R382). -/
def busMode (before s : State) : State :=
  let on := busActive s s.core.mode
  let s1 := if on && modeGate s.core.mode 0x79 [] then s else abortScans s
  if on && !busActive before before.core.mode then { s1 with act := { s1.act with scanDue := true } }
  else if !on then { s1 with act := { s1.act with scanDue := false } }
  else s1

/-- R45, R245: the indicator port runs. -/
def indRuns (s : State) (m : Mode) : Bool :=
  (inServiceMode m || m == .safeHold) && match activeCfg s with
  | some c => (indChainEntry c.iomap).isSome && !retiredNow s chanIndChain
  | none => false

/-- R245, R247, R252: the port stops, IC_OEN high first, then IC_D, IC_CLK and IC_STB low. -/
def stopInd (x : IndSt) : IndSt :=
  let y := { x with oen := false }
  { y with run := false, skip := false, icD := [], icClk := false, icStb := false }

def indMode (s : State) : State :=
  if indRuns s s.core.mode then { s with ind := { s.ind with run := true } } else { s with ind := stopInd s.ind }

/-- A learning run ends, its command answered with `status`. -/
def endLearn (s : State) (status : Byte) (detail : Nat) : State :=
  match s.mbx.learn with
  | some r => replyErr (modMbx s fun m => { m with learn := none }) r.via status detail
  | none => s

end Sys2Proof.Machine
end

