-- ==== Sys2Proof/Machine/Eval.lean ====
section
/-! DEFINITION. Phase E (R92): delivery of SAFE imports and their ageing (R122, R123, R324, R325), the exchanged chain verdicts
(R336), the evaluation of both lane forms (R118-R121, R138-R140, R419), the partner-clock check (R13, R479), and the tally
update at its end (R254); CONN_TIMEOUT (R325) and PROVING_PERIOD_END (R79). -/

namespace Sys2Proof.Machine

/-! ## Imports -/

/-- The instances of IMPORT blocks of a connection. -/
def importInsts (cfg : LoafCfg) (conn : W16) : List Nat :=
  (cfg.params.zipIdx.filter fun e => e.1.ty == tyIMPORT && parN e.1 0 == conn.toNat).map (·.2)

def modImport (l : LaneSt) (cfg : LoafCfg) (conn : W16) (f : ImportSt → ImportSt) : LaneSt :=
  { l with blk := (importInsts cfg conn).foldl (fun t i => tabMod BlkSt.init t i fun b => { b with imp := f b.imp }) l.blk }

/-- The import state of a connection, timed out where no block holds one. -/
def importOf (l : LaneSt) (cfg : LoafCfg) (conn : W16) : ImportSt :=
  match importInsts cfg conn with
  | i :: _ => (tabGet BlkSt.init l.blk i).imp
  | [] => ImportSt.init

def imports (cfg : LoafCfg) : List Conn := cfg.seeds.filter fun c => !c.isExport
def exports (cfg : LoafCfg) : List Conn := cfg.seeds.filter fun c => c.isExport

def acceptedCopy (l : LaneSt) (conn : W16) : Option Accepted := l.accepted.find? fun a => a.conn == conn

/-- R324: the copy that both lanes accepted. -/
def deliverable (s : State) (conn : W16) : Option Accepted :=
  match acceptedCopy s.lane.a conn, acceptedCopy s.lane.b conn with
  | some x, some y =>
    if x.seq = y.seq ∧ x.frame = y.frame ∧ x.beads = y.beads ∧ laneLive s .a ∧ laneLive s .b then some x else none
  | _, _ => none

def timeoutBeads (k : Conn) : List Byte := List.replicate k.beads timeoutBead

/-- R122, R123: a delivered bead, AGE 0, or the substitute of a bead whose parity fails. -/
def deliveredBead (b : Byte) : Byte := if parityOk b then setAge b 0 else paritySub

def deliverTo (a : Accepted) (i : ImportSt) : ImportSt :=
  { i with ref := a.seq, since := 0, refValid := true, timedOut := false, beads := a.beads.map deliveredBead }

/-- A frame without delivery: the beads age, or stay timed out. -/
def ageImport (k : Conn) (i : ImportSt) : ImportSt :=
  { i with since := min (i.since + 1) 0xFF, beads := if i.timedOut then timeoutBeads k else i.beads.map aged }

/-- R324, R326: one import before evaluation. -/
def deliverConn (cfg : LoafCfg) (s : State) (k : Conn) : State :=
  match deliverable s k.connId with
  | some a =>
    let s1 := modLanes s fun l => modImport l cfg k.connId (deliverTo a)
    if a.beads.all parityOk then s1
    else if k.canFd then countCanerr s1
    else laneReport s1 (transient (0x80 + a.port) anParity)
  | none =>
    let s1 := modLanes s fun l => modImport l cfg k.connId (ageImport k)
    match acceptedCopy s.lane.a k.connId, acceptedCopy s.lane.b k.connId with
    | some _, some _ => countMismatch (crumb s1 crConsequence 0xFF csCopyMismatch (le16 k.connId))
    | _, _ => s1

def deliverAll (s : State) : State :=
  match activeCfg s with
  | some cfg => (imports cfg).foldl (deliverConn cfg) s
  | none => s

/-- R420: in test hold imports only age. -/
def ageAll (s : State) : State :=
  match activeCfg s with
  | some cfg => (imports cfg).foldl (fun s k => modLanes s fun l => modImport l cfg k.connId (ageImport k)) s
  | none => s

/-- R325, R265, R340: the timeout of one import; every frame of it that this module has begun or keeps for a retry is
cancelled. -/
def timeOut (cfg : LoafCfg) (k : Conn) (s : State) : State :=
  let s1 := modLanes s fun l =>
    let x := modImport l cfg k.connId fun i => { i with timedOut := true, refValid := false, beads := timeoutBeads k }
    let c := tabGet ConnRec.init x.conns k.connId.toNat
    { x with conns := tabSet ConnRec.init x.conns k.connId.toNat { c with echo := none, timeouts := min (c.timeouts + 1) 0xFFFF } }
  let cut := cancelWhere fun f => isSafeFrame f && u16At f.payload 0 == k.connId
  countTimeout (crumb (modPort (modPort s1 .p0 cut) .p1 cut) crConsequence 0xFF csConnTimeout (le16 k.connId))

/-- A connection's TIMEOUT has run out at the end of this window, with no delivery in it (R325). -/
def timeoutDue (s : State) (cfg : LoafCfg) (k : Conn) : Bool :=
  let i := importOf (reportingLane s) cfg k.connId
  !i.timedOut && decide (k.timeout ≤ i.since + 1) && (deliverable s k.connId).isNone

/-- CONN_TIMEOUT (R132, R325, R342): at the end of window X, TIMEOUT frames after the last delivery, with none in this
window. -/
def execConnTimeout (conn : W16) (s : State) : Host.Outcome State Fault Refusal :=
  match activeCfg s with
  | none => .next s
  | some cfg =>
    match (imports cfg).find? fun k => k.connId == conn with
    | none => .next s
    | some k => .next (if s.core.tickOn && s.core.phase == .e && timeoutDue s cfg k then timeOut cfg k s else s)

/-! ## Chain verdicts (R336) -/

/-- PROOFHEAD's SEG from the two verdicts. -/
def segBead (s : State) : Byte :=
  let v := fun (l : Side) => if laneLive s l then (s.lane.at l).verdict else .rejected
  match v .a, v .b with
  | .accepted, .accepted => sound1
  | .rejected, _ => host0
  | _, .rejected => host0
  | _, _ => sound0

/-! ## DIAG -/

/-- A channel shows as retired: itself, through its group, or with its lane (R214, R267). -/
def shownRetired (s : State) (l : LaneSt) (n : Nat) : Bool :=
  (match chanSide n with
   | some c => (s.lane.at c).retired
   | none => false) ||
  match l.cfg with
  | some cfg => (chanOf l (countedChan cfg.params n)).retired
  | none => (chanOf l n).retired

/-- The DIAG selections whose answer is V = 1. -/
def diagCodes (s : State) (l : LaneSt) : List Nat :=
  let one := fun (k : Nat) (b : Bool) => if b then [k] else []
  one 0x01 (bothInService s) ++ one 0x02 (syncBit s || roleOf s == 0) ++
  one 0x03 (s.core.lateLast.a || s.core.lateLast.b) ++
  ((List.range 16).filter fun n => (pairRecOf l n).deferred).map (0x10 + ·) ++
  ((List.range 16).filter fun n => shownRetired s l (chanLeg .a n)).map (0x20 + ·) ++
  ((List.range 16).filter fun n => shownRetired s l (chanLeg .b n)).map (0x30 + ·) ++
  ((List.range 24).filter fun n => shownRetired s l (chanIn .a n)).map (0x40 + ·) ++
  ((List.range 24).filter fun n => shownRetired s l (chanIn .b n)).map (0x58 + ·) ++ one 0x70 s.core.safen

/-! ## Evaluation of a form -/

/-- What evaluation writes: beads, block state, the values that blocks form. -/
structure EvSt where
  beads : Tab Byte
  blk : Tab BlkSt
  vals : Tab Val
  deriving DecidableEq, Repr

/-- R123: a bead read from lane memory, 0xB0 where its parity fails. -/
def readBead (hits : List Nat) (e : EvSt) (i : Nat) : Byte :=
  if hits.contains i then paritySub else parityChecked (tabGet paritySub e.beads i)

def writeBead (e : EvSt) (i : Nat) (b : Byte) : EvSt := { e with beads := tabSet paritySub e.beads i b }

/-- The outputs of a block on their beads; an output that is not connected goes nowhere. -/
def writeBeads (e : EvSt) : List (Option Nat) → List Byte → EvSt
  | some i :: is, b :: bs => writeBeads (writeBead e i b) is bs
  | none :: is, _ :: bs => writeBeads e is bs
  | _, _ => e

def valKey : ValSrc → Nat
  | .count ch => inChanNum ch
  | .freq ch => inChanNum ch
  | .quad p => 0x100 + p
  | .analog ch => chanAna ch.crust ch.num.val
  | .derate p => 0x200 + p
  | .pos i => i
  | .cv i => i

/-- A value source as the lane holds it: of a channel, or formed by a block. -/
def valueOf (l : LaneSt) (e : EvSt) (v : ValSrc) : Val :=
  match v with
  | .pos i => tabGet Val.none e.vals i
  | .cv i => tabGet Val.none e.vals i
  | w => tabGet Val.none l.vals (valKey w)

/-- R419: in the first frame after test hold the latch of the permit's block stands at 0x8F before its own rule is applied. -/
def permitLatch (justEnded : Bool) (permit : Option Nat) (outs : List (Option Nat)) (st : BlkSt) : BlkSt :=
  match permit with
  | some i => if justEnded && outs.contains (some i) then { st with latch := sound1 } else st
  | none => st

/-- One element. -/
def evalElem (ctx : BlkCtx) (cfg : LoafCfg) (l : LaneSt) (hits bad : List Nat) (justEnded : Bool) (e : EvSt) : Elem → EvSt
  | .gate op ins out => writeBead e out (gateBead op (ins.map (readBead hits e)))
  | .rod table ins out => writeBead e out (rodBead table (ins.map (readBead hits e)))
  | .block inst ins outs vals =>
    match cfg.params[inst]? with
    | none => e
    | some r =>
      let old := permitLatch justEnded cfg.form.permit outs (tabGet BlkSt.init e.blk inst)
      let st := readState (bad.contains inst) old
      let pr := match pairOf r with
        | some p => pairRecOf l p
        | none => PairRec.init
      let (st', bs, v) := stepBlock ctx r st pr (ins.map fun i => i.map (readBead hits e))
        (vals.map fun w => (w, valueOf l e w))
      let e1 := { e with blk := tabSet BlkSt.init e.blk inst (keepLatch r.ty old st') }
      let e2 := match v with
        | some x => { e1 with vals := tabSet Val.none e1.vals inst x }
        | none => e1
      writeBeads e2 outs bs

/-- One lane's evaluation of a frame: `hits` are the beads, and `bad` the instances whose state, read with a parity error. -/
def evalLane (ctx : BlkCtx) (hits bad : List Nat) (justEnded : Bool) (l : LaneSt) : LaneSt :=
  match l.cfg with
  | none => l
  | some cfg =>
    let beads := cfg.form.inputs.foldl (fun t e =>
      tabSet paritySub t e.2 (tabGet paritySub l.inBeads (inChanNum e.1))) l.beads
    let e := cfg.form.elems.foldl (evalElem ctx cfg l hits bad justEnded) { beads := beads, blk := l.blk, vals := l.blockVals }
    { l with beads := e.beads, blk := e.blk, blockVals := e.vals }

def blkCtx (s : State) (l : LaneSt) (seg : Byte) : BlkCtx :=
  { hold := s.core.mode == .boot || l.enteredOperate, hostBits := s.mbx.delivered, hostBad := l.hostBad, seg := seg, offsets := l.offsets,
    diagOn := diagCodes s l }

/-- Both lanes in service evaluate; one whose clock has stopped does not (R485). -/
def evaluate (env : PhaseEEnv) (seg : Byte) (s : State) (l : Side) : State :=
  let x := s.lane.at l
  if x.retired || x.stopped then s
  else modLane s l fun x => evalLane (blkCtx s x seg) (env.parity.at l) (env.stateParity.at l) s.test.justEnded x

/-- R123, R259: what evaluation finds against its own lane. A bead that came from the hearth with a parity error is counted
against the lane that checks it (DESIGN CHOICE, log 69: it has no source channel). -/
def evalFaults (env : PhaseEEnv) (s : State) (l : Side) : State :=
  if (s.lane.at l).retired || (s.lane.at l).stopped then s
  else
    let par := !(env.parity.at l).isEmpty || !(env.stateParity.at l).isEmpty || !(s.lane.at l).hostBad.isEmpty
    let ecc := env.eccDouble.at l
    let s1 := modLane s l fun x =>
      { x with parityHit := x.parityHit || par, eccHit := x.eccHit || ecc, forcedLate := x.forcedLate || ecc }
    let s2 := if par then laneReport s1 (transient (chanLane l) anEvalParity) else s1
    if ecc then laneReport s2 (transient (chanLane l) anEccDouble) else s2

/-! ## The partner clock (R13, R479) -/

def gateOk (l : Side) (n : Nat) : Bool :=
  match l with
  | .a => decide (12846 ≤ n) && decide (n ≤ 13369)
  | .b => decide (20071 ≤ n) && decide (n ≤ 20889)

def clockCheck (s : State) (l : Side) : State :=
  let x := s.lane.at l
  match x.gate with
  | none => s
  | some n =>
    if x.retired || x.stopped then s
    else
      let d := if gateOk l n then 0 else x.clockDev + 1
      let s1 := modLane s l fun y => { y with clockDev := d, gate := none }
      if 2 ≤ d then rangeFault s1 else s1

/-! ## The tally update (R254) -/

def laneTally (s : State) (l : LaneSt) : Tab ChanRec × List TallyEv :=
  let m := (l.cfg.map fun c => c.iomap).getD []
  let ps := (l.cfg.map fun c => c.params).getD []
  tallyTable m ps s.lane.a.retired s.lane.b.retired l.reps l.chans

def keepSaved (blk : Tab BlkSt) (x : LaneSt) : LaneSt := { x with saved := some { blk := blk, chans := x.chans, reps := x.reps } }

/-- R275: the reports of a channel that is retired are not tallied, and wait for a re-admission accepted in this frame. -/
def keptReps (x : LaneSt) : List Rep :=
  let ps := (x.cfg.map fun c => c.params).getD []
  x.reps.filter fun r => (chanOf x (countedChan ps r.chan)).retired

def tallyLane (s : State) (x : LaneSt) : LaneSt :=
  if x.retired then x else { x with chans := (laneTally s x).1, reps := keptReps x }

/-- The tally update of both lanes; what it decided is put into effect in phase C. -/
def tallyUpdate (blk : Two (Tab BlkSt)) (s : State) : State :=
  let es := (laneTally s (reportingLane s)).2
  let s1 := { s with lane := ⟨keepSaved blk.a s.lane.a, keepSaved blk.b s.lane.b⟩ }
  { s1 with lane := s1.lane.map (tallyLane s), core := { s1.core with outcomes := es } }

/-- PHASE_E (R91, R92): from the end of window X to the end of phase E. -/
def execPhaseE (env : PhaseEEnv) (s : State) : Host.Outcome State Fault Refusal :=
  if !(s.core.tickOn && s.core.phase == .e) then .next s
  else
    let s0 := toPhase s .c (endE s.core.tfCode)
    if s.test.hold then .next (clockCheck (clockCheck (ageAll s0) .a) .b)
    else
      let s1 := deliverAll s0
      let seg := segBead s1
      let s2 := evaluate env seg (evaluate env seg s1 .a) .b
      let s3 := evalFaults env (evalFaults env (countEcc s2 env.corrected) .a) .b
      let s4 := clockCheck (clockCheck s3 .a) .b
      let s5 := tallyUpdate ⟨s1.lane.a.blk, s1.lane.b.blk⟩ s4
      .next (modLive s5 fun c => { c with evalA := env.evalTime.a, evalB := env.evalTime.b })

/-! ## The end of the proving period (R36, R79, R80, R344) -/

/-- R79: a channel configured has passed what sets its T; homing is no condition. -/
def chanProved (s : State) (cfg : LoafCfg) (c : Side) : Bool :=
  let snap := (s.crust.at c).snap
  let l := reportingLane s
  let ins := (List.range 24).all fun n =>
    let m := modeOfInput cfg.iomap (chanIn c n)
    m == 0 || chanOut (chanOf l (chanIn c n)) || (tabGet SnapIn.none snap.ins n).t
  let quads := (List.range 2).all fun p =>
    (quadEntry cfg.iomap (sideBase c + p)).isNone || chanOut (chanOf l (chanIn c (2 * p))) ||
      chanOut (chanOf l (chanIn c (2 * p + 1))) || decide (16 ≤ (quadOf (s.crust.at c) p).sinceIllegal)
  let ana := (List.range 4).all fun k =>
    (analogEntry cfg.iomap c k).isNone || chanOut (chanOf l (chanAna c k)) || (tabGet SnapVal.none snap.ana k).t
  ins && quads && ana

def noTally (l : LaneSt) : Bool := l.chans.all fun e => (isLaneChan e.1).isSome || e.2.retired || decide (e.2.tally = 0)

/-- The proving period may end in this frame. -/
def provingMet (s : State) : Bool :=
  match activeCfg s with
  | none => false
  | some cfg =>
    s.core.tickOn && s.core.mode == .boot && s.core.bootStep == .proving && decide (16 ≤ s.core.proving) && !s.core.disturbed &&
    s.core.outcomes.isEmpty && bothInService s && s.core.fatal.isEmpty && chanProved s cfg .a && chanProved s cfg .b &&
    noTally (reportingLane s) && (s.nv.life == .commission || s.nv.life == .field)

/-- PROVING_PERIOD_END: after phase E of its last frame; the outputs staged in this frame already obey OPERATE. A member
that has served the 16 frames of its proof contribution contributes from the tick that begins OPERATE (R80, R272). -/
def execProvingPeriodEnd (s : State) : Host.Outcome State Fault Refusal :=
  .next (if provingMet s && s.core.phase == .c then
    { s with
      core := { s.core with modeNext := some (.operate, .request) }
      fab := { s.fab with proofReady := s.fab.proofReady || (!bypassClosed s && decide (16 ≤ s.fab.proofFrames)) } }
  else s)

end Sys2Proof.Machine
end

