-- ==== Sys2Proof/Machine/Staging.lean ====
section
/-! DEFINITION. What one lane stages in phase C: the energise check and the decision for each safety pair (R70, R127, R169-R173,
R216, R223, R226, R229), the shared-high overlap rule (R213), standard legs (R63, R128, R223), the contribution L (R334), and the
output set and the digests under comparison (R142, R255, R527). -/

namespace Sys2Proof.Machine

/-! ## Reading the beads of blocks -/

/-- The input beads of a block instance in a form. -/
def blockIns (f : LaneForm) (inst : Nat) : List (Option Nat) :=
  match f.elems.findSome? fun e => match e with
    | .block i ins _ _ => if i = inst then some ins else none
    | _ => none with
  | some l => l
  | none => []

/-- A bead as the staging stage reads it: an unsound 0 where nothing is connected, 0xB0 where parity fails (R127). -/
def stagedBead (l : LaneSt) (i : Option Nat) : Byte :=
  match i with
  | some k => parityChecked (beadOf l k)
  | none => host0

/-- The instance of the first block of a type. -/
def firstOfType (ps : List ParamRec) (ty : Byte) : Option (Nat × ParamRec) :=
  (ps.zipIdx.find? fun e => e.1.ty == ty).map fun e => (e.2, e.1)

/-! ## One pair (R171) -/

/-- What the whole frame imposes on every pair of a lane. -/
structure StageCtx where
  mode : Mode
  /-- The lifecycle state lets pairs be energised (R72). -/
  life : Bool
  /-- A worker that waits for its admission and its proving period: its outputs stay off (R295). -/
  awaits : Bool
  holdMask : W16
  permit : Bool
  /-- A lane fault counted in this frame (R37). -/
  laneFault : Bool
  /-- A field supply of either crust was out in the last valid snapshot of it (R61). -/
  supplyOut : Bool
  deriving DecidableEq, Repr

def isRail (r : ParamRec) : Bool := r.ty == tyRAILCUT

/-- The block has EDM: QPAIR by parameter, RAILCUT always (R169, R173). -/
def edmOn (r : ParamRec) : Bool := isRail r || (r.ty == tyQPAIR && parB r 4)

/-- MAINT (R168, R172). -/
def maintMark (r : ParamRec) : Bool := (r.ty == tyQPAIR || r.ty == tyLOCKDRV) && parB r 3

/-- R63, R70, R72, R173, R295: the mode permits the pair. -/
def modePermits (c : StageCtx) (r : ParamRec) (pair : Nat) : Bool :=
  c.life && !c.awaits && match c.mode with
  | .operate => true
  | .maintain =>
    c.permit && (isRail r || (maintMark r && c.holdMask.getLsbD pair && !c.laneFault))
  | _ => false

/-- R216, R223, R226, R229, R61: nothing holds the pair off. -/
def notHeld (c : StageCtx) (l : LaneSt) (p : PairRec) : Bool :=
  p.holdOff == 0 && !heldByShort p && !p.stuck && !pairShortHeld l && !c.supplyOut

/-- The demand bead, the FB or MIRROR bead, and the block's state of a pair. -/
structure PairView where
  pair : Nat
  inst : Nat
  r : ParamRec
  demand : Byte
  fb : Option Byte
  st : BlkSt
  pr : PairRec
  deriving DecidableEq, Repr

def pairView (cfg : LoafCfg) (l : LaneSt) (pair : Nat) : Option PairView :=
  match pairBlock cfg.params pair with
  | none => none
  | some (inst, r) =>
    let ins := blockIns cfg.form inst
    some { pair := pair, inst := inst, r := r, demand := stagedBead l (ins.getD 0 none)
           fb := if edmOn r then some (stagedBead l (ins.getD 1 none)) else none
           st := tabGet BlkSt.init l.blk inst, pr := pairRecOf l pair }

/-- R171 up to the EDM condition at switch-on. -/
def wanted (c : StageCtx) (ps : List ParamRec) (l : LaneSt) (v : PairView) : Bool :=
  isTT (agelimOf v.r) v.demand &&
  (!(restartOf v.r || v.pr.needReset) || v.st.latch == sound1) &&
  v.st.code != 3 && !pairRetired ps l v.pair && modePermits c v.r v.pair && notHeld c l v.pr

/-- R170: the pair was committed on at the tick before the last and off at the last. -/
def gapEnds (p : PairRec) : Bool := p.before && !p.committed

/-- R169: the pair would switch on while FB is not trusted-true, outside a one-frame gap. -/
def edmBlocks (v : PairView) : Bool :=
  match v.fb with
  | some b => !v.pr.committed && !gapEnds v.pr && !isTT (agelimOf v.r) b
  | none => false

/-- The decision on one pair before R213: staged on, and whether EDMFAULT is entered. -/
def decidePair (c : StageCtx) (ps : List ParamRec) (l : LaneSt) (v : PairView) : Bool × Bool :=
  let w := wanted c ps l v
  if w && edmBlocks v then (false, true) else (w, false)

/-! ## The shared-high overlap rule (R213) -/

def inGroup (r : ParamRec) (h : Nat) : Bool :=
  (r.ty == tyQPAIR || r.ty == tyLOCKDRV) && legsShared r && legsHigh r == h

/-- The pairs of one shared group taken in ascending order: the pairs deferred. -/
def deferIn (limit : Nat) : Nat → List (PairView × Bool) → List Nat
  | _, [] => []
  | sum, (v, on) :: r =>
    if !on || v.pr.committed then deferIn limit sum r
    else if sum + legsInom v.r ≤ limit then deferIn limit (sum + legsInom v.r) r
    else v.pair :: deferIn limit sum r

/-- The pairs that R213 defers, over all shared-high groups. -/
def deferredPairs (vs : List (PairView × Bool)) : List Nat :=
  (List.range 16).flatMap fun h =>
    let g := vs.filter fun e => inGroup e.1.r h
    match g with
    | [] => []
    | e :: _ =>
      let limit := 500 * 2 ^ legsHW e.1.r
      let sum := (g.filter fun e => e.2 && e.1.pr.committed).foldl (fun n e => n + legsInom e.1.r) 0
      deferIn limit sum g

/-- What a lane decides on its pairs in phase C. -/
structure Decision where
  view : PairView
  on : Bool
  edmFault : Bool
  deferred : Bool
  deriving DecidableEq, Repr

def decisions (c : StageCtx) (cfg : LoafCfg) (l : LaneSt) : List Decision :=
  let vs := (drivenPairs cfg.params).filterMap (pairView cfg l)
  let ds := vs.map fun v => (v, decidePair c cfg.params l v)
  let dp := deferredPairs (ds.map fun e => (e.1, e.2.1))
  ds.map fun e =>
    let d := dp.contains e.1.pair
    { view := e.1, on := e.2.1 && !d, edmFault := e.2.2, deferred := d }

/-! ## Standard legs (R63, R128, R223) -/

/-- The standard legs of a crust: leg number and entry. -/
def standardLegs (cfg : LoafCfg) (c : Side) : List (Nat × List Byte) :=
  (List.range 17).filterMap fun n => (standardLeg cfg.iomap c n).map fun e => (n, e)

/-- The programmed safe state, HOLD keeping what was staged last. -/
def safeState (e : List Byte) (last : Bool) : Bool :=
  if byteAt e 3 = 0x01#8 then true else if byteAt e 3 = 0x02#8 then last else false

/-- A standard leg in phase C: `safe` where the programmed safe state applies whatever the mode (R419). -/
def standardOn (mode : Mode) (safe : Bool) (l : LaneSt) (c : Side) (n : Nat) (e : List Byte) : Bool :=
  let last := tabGet false l.stdStaged n
  let out := legOut l c n || decide (0 < tabGet 0 l.stdHoldOff n)
  !out &&
  if safe then safeState e last
  else match mode with
    | .configure => safeState e last
    | .safeHold => safeState e last
    | .operate => beadV (beadOf l (natAt e 4 2))
    | .maintain => beadV (beadOf l (natAt e 4 2))
    | .degraded => beadV (beadOf l (natAt e 4 2))
    | _ => false

/-! ## The contribution L (R334) -/

/-- The conditions on the member, apart from LOCAL. -/
def mayContribute (s : State) (mode : Mode) : Bool :=
  mode == .operate && (ownStation s).isSome && s.fab.proofReady && s.fab.sync != .loss && roleOf s != 0

def contribution (s : State) (mode : Mode) (cfg : LoafCfg) (l : LaneSt) : Byte :=
  match firstOfType cfg.params tyPROOF with
  | none => host0
  | some (inst, r) =>
    let b := stagedBead l ((blockIns cfg.form inst).getD 0 none)
    if !mayContribute s mode then host0
    else if isTT (agelimOf r) b then sound1
    else if isSound0 b && decide (beadAge b ≤ agelimOf r) then sound0
    else host0

/-! ## The output set and the digests (R142, R255, R527) -/

def pairOuts (ds : List Decision) : List PairOut :=
  ds.map fun d => { pair := d.view.pair, on := d.on, demand := d.view.demand, fb := d.view.fb }

/-- The compared bytes outside the pairs. -/
def otherOuts (cfg : LoafCfg) (l : LaneSt) (contrib : Byte) : List Byte :=
  ([Side.a, Side.b].flatMap fun c => (standardLegs cfg c).map fun e => beadOf l (natAt e.2 4 2)) ++
  (cfg.params.zipIdx.flatMap fun e =>
    if e.1.ty = tyEXPORT then (blockIns cfg.form e.2).map (stagedBead l)
    else if e.1.ty = tyPROOF then [stagedBead l ((blockIns cfg.form e.2).getD 0 none), contrib]
    else []) ++
  (match cfg.form.permit with
   | some i => [beadOf l i]
   | none => [])

/-- The states of the output blocks as staging leaves them, `final` being what is finally staged (R142, R169, R176). -/
def stageBlks (final : Decision → Bool) (ds : List Decision) (blk : Tab BlkSt) : Tab BlkSt :=
  ds.foldl (fun t d => tabMod BlkSt.init t d.view.inst
    (stagedBlk (edmOn d.view.r) d.edmFault (final d) d.view.pr.committed)) blk

/-- The CRC over a tally table (R255). -/
def tallyCrc (chans : Tab ChanRec) : W32 :=
  crc32c (allChans.flatMap fun n =>
    let r := tabGet ChanRec.clear chans n
    Config.tallyBytes r.tally r.clean r.retired)

/-- The two tally checks differ. -/
def tallyDiffers (x y : Tab ChanRec) (upset : Two W32) : Bool :=
  if x = y then upset.a != upset.b else (tallyCrc x ^^^ upset.a) != (tallyCrc y ^^^ upset.b)

/-- The pairs whose entries differ between two output sets. -/
def differingPairs (x y : List PairOut) : List Nat :=
  (List.range 17).filter fun p => (x.find? fun o => o.pair == p) != (y.find? fun o => o.pair == p)

/-! ## A fault of a lane found after staging (R36, R37) -/

/-- A disturbance of the proving period's last frame takes its OPERATE back (R36, R79). -/
def disturb (s : State) : State :=
  let cancel := s.core.mode == .boot && s.core.modeNext == some (.operate, .request)
  { s with core := { s.core with disturbed := true, modeNext := if cancel then none else s.core.modeNext } }

/-- EDMT of a block with EDM (07). -/
def edmtOf (r : ParamRec) : Nat := if isRail r then parN r 0 else parN r 5

/-- The state of an output block whose pair is taken back after it was staged on. -/
def unstagedBlk (r : ParamRec) (pr : PairRec) (st : BlkSt) : BlkSt :=
  if pr.committed then stagedBlk (edmOn r) false false true st
  else if st.code = 2#8 ∧ edmOn r ∧ pr.sinceCommit < edmtOf r then st
  else if st.code = 3#8 then st
  else { st with code := 0, tmr := Timer.stopped }

/-- One pair staged off after all. -/
def unstagePair (cfg : LoafCfg) (l : LaneSt) (p : Nat) : LaneSt :=
  match pairBlock cfg.params p with
  | none => l
  | some (k, r) =>
    let pr := pairRecOf l p
    if pr.staged then
      { modPair l p (fun q => { q with staged := false, ownLeg := false }) with
        blk := tabMod BlkSt.init l.blk k (unstagedBlk r pr) }
    else modPair l p fun q => { q with ownLeg := false }

/-- The pairs that a lane fault takes off, KA and KB among them where `rail`. -/
def faultPairs (rail : Bool) (cfg : LoafCfg) : List Nat := (drivenPairs cfg.params).filter fun p => rail || decide (p < 16)

def unstageLane (rail : Bool) (l : LaneSt) : LaneSt :=
  match l.cfg with
  | none => l
  | some cfg => (faultPairs rail cfg).foldl (unstagePair cfg) l

/-- The legs and drive commands of those pairs taken out of the set that a crust has been staged. -/
def unstageCrust (rail : Bool) (cfg : LoafCfg) (c : Side) (y : CrustSt) : CrustSt :=
  let ns := (faultPairs rail cfg).flatMap fun p => match pairBlock cfg.params p with
    | some (_, r) => (0x20 + p) :: (0x40 + p) :: groupLegs r c
    | none => []
  { y with staged := y.staged.map fun t => ns.foldl (fun t n => tabSet false t n false) t }

def unstage (rail : Bool) (s : State) : State :=
  match activeCfg s with
  | none => s
  | some cfg =>
    let s1 := modCrust (modCrust s .a (unstageCrust rail cfg .a)) .b (unstageCrust rail cfg .b)
    modLanes s1 (unstageLane rail)

/-- R36, R37: a lane fault found once the frame's outputs are staged. In the last frame of the proving period OPERATE and its
outputs are taken back; in MAINTAIN every pair goes off at the next tick. -/
def laneFault (s : State) (r : Rep) : State :=
  let t := disturb (laneReport s r)
  if s.core.phase != .h && s.core.phase != .g then t
  else if s.core.mode == .boot && s.core.modeNext == some (.operate, .request) then
    modLanes (unstage true t) fun l => { l with contrib := host0 }
  else if s.core.mode == .maintain then unstage false t
  else t

/-! ## What reaches the crust -/

/-- The set staged to a crust: the legs of the pairs on that the IOMAP gives to safety (R209), the standard legs on, the drive
commands of lock pairs, and which pairs are on. -/
def stagedSet (cfg : LoafCfg) (c : Side) (on : List Nat) (std : Tab Bool) : Tab Bool :=
  let legs := on.flatMap fun p => match pairBlock cfg.params p with
    | some (_, r) => (groupLegs r c).filter (safetyLeg cfg.iomap c)
    | none => []
  let drives := on.filterMap fun p => match pairBlock cfg.params p with
    | some (_, r) => if r.ty = tyLOCKDRV then some (0x20 + p) else none
    | none => none
  let t1 := legs.foldl (fun t n => tabSet false t n true) []
  let t2 := std.foldl (fun t e => if e.2 then tabSet false t e.1 true else t) t1
  (drives ++ on.map (0x40 + ·)).foldl (fun t n => tabSet false t n true) t2

end Sys2Proof.Machine
end

