-- ==== Sys2Proof/Machine/Safe.lean ====
section
/-! DEFINITION. Window X (13): SAFE copies released (R320-R322, R327-R329, R338), received and checked over the fabric and over
CAN FD (R323, R326, R328); proof chains started by the tails (R332) and judged by the manager's lanes (R335, R336, R345); the
CAN FD controller (R361-R367). -/

namespace Sys2Proof.Machine

/-! ## The CAN FD controller (R361-R367) -/

def canUp (c : CanSt) : Bool := c.on && !c.disabled && !c.busOff

/-- The data length of the smallest DLC that holds `n` bytes. -/
def dlcLen (n : Nat) : Nat :=
  if n ≤ 8 then n else if n ≤ 12 then 12 else if n ≤ 16 then 16 else if n ≤ 20 then 20 else if n ≤ 24 then 24
  else if n ≤ 32 then 32 else if n ≤ 48 then 48 else 64

/-- The lowest identifier queued (R363), the earliest of them first. -/
def lowestCan : List CanTx → Option CanTx
  | [] => none
  | x :: r =>
    match lowestCan r with
    | none => some x
    | some y => if y.ident.toNat < x.ident.toNat then some y else some x

/-- A controller that sends nothing offers the lowest identifier (R363). Whether the bus is free at that moment, so that the
frame wins arbitration at once, is a free value; else it waits, and may be aborted, until it is sent (R367; log 103). -/
def canStart (s : State) : State :=
  if !canUp s.can || s.can.txq.any fun t => t.won then s
  else match lowestCan s.can.txq with
    | some t =>
      let s1 := { s with drawn := s.drawn + 1 }
      if Config.freeBit s.drawn then
        { s1 with can := { s.can with txq := modFirst (fun x => x == t) (fun x => { x with won := true }) s.can.txq } }
      else s1
    | none => s

/-- The frame that the controller sends: the one that has won arbitration, else the one that has waited for the bus. -/
def sentCan (s : State) : Option CanTx :=
  match s.can.txq.find? fun t => t.won with
  | some t => some t
  | none => lowestCan s.can.txq

/-- A frame queued, padded to its DLC with 0x00 (R364, R365). -/
def canQueue (s : State) (ident : BitVec 11) (data : List Byte) (safe : Option (W16 × Side)) : State :=
  if !s.can.on || s.can.disabled then s
  else
    let t : CanTx := { ident := ident, data := padTo (dlcLen data.length) data, safe := safe, won := false, aborted := false }
    { s with can := { s.can with txq := s.can.txq ++ [t] } }

/-- CAN_TRANSMIT_END (R367): the frame that won arbitration ends, without error where `ok`. -/
def execCanTransmitEnd (ok : Bool) (s : State) : Host.Outcome State Fault Refusal :=
  match (if canUp s.can then sentCan s else none) with
  | none => .next s
  | some t =>
    let gone := { s with can := { s.can with txq := delFirst (fun x => x == t) s.can.txq } }
    let again := { s with can := { s.can with txq := modFirst (fun x => x == t) (fun x => { x with won := false }) s.can.txq } }
    .next (canStart (match ok, t.aborted with
      | true, false => gone
      | true, true => countCanerr gone
      | false, false => countCanerr again
      | false, true => countCanerr (countCanerr gone)))

/-- CAN_ERROR_PASSIVE (R366): each entry is told, also one after the controller has been error active again. -/
def execCanErrorPassive (s : State) : Host.Outcome State Fault Refusal :=
  .next (if canUp s.can then
    setIrq1 (crumb { s with can := { s.can with errorPassive := true } } crHost 0xFF 0x02 []) irqCan
  else s)

/-- CAN_BUS_OFF (R366, R367): a frame being sent goes back to the queue, one aborted meanwhile ends as ABORT_LATE_ERROR. -/
def execCanBusOff (s : State) : Host.Outcome State Fault Refusal :=
  .next (if canUp s.can then
    let late := s.can.txq.filter fun t => t.won && t.aborted
    let q := (s.can.txq.filter fun t => !(t.won && t.aborted)).map fun t => { t with won := false }
    let s1 := modLive { s with can := { s.can with busOff := true, txq := q } } fun c =>
      { c with canerr := satAdd c.canerr late.length }
    setIrq1 (crumb s1 crHost 0xFF 0x03 []) irqCan
  else s)

/-- CAN_BUS_OFF_RECOVERY (R366). -/
def execCanBusOffRecovery (s : State) : Host.Outcome State Fault Refusal :=
  .next (if s.can.busOff then canStart { s with can := { s.can with busOff := false, errorPassive := false } } else s)

/-! ## SAFE copies (R320-R322) -/

def laneByte : Side → Byte
  | .a => 0x0A
  | .b => 0x0B

def seedOf (k : Conn) : Side → W32
  | .a => k.seedA
  | .b => k.seedB

/-- The safety code over the message bytes before it, for a lane's seed; none without the engine or the key (R322, R431). -/
def safeCode (s : State) (k : Conn) (l : Side) (body : List Byte) : Option (List Byte) :=
  match k.keySlot with
  | none => some (le32 (crc32cFrom (seedOf k l) body))
  | some i =>
    if s.meas.disabled then none
    else (tabFind s.nv.safeKeys i).map fun key => (aesCmac key (le32 (seedOf k l) ++ body)).take 8

def codeLen (k : Conn) : Nat := if k.keySlot.isSome then 8 else 4

/-- The bead bytes of an export, as phase E of the frame before left them. -/
def exportBeads (cfg : LoafCfg) (x : LaneSt) (k : Conn) : List Byte :=
  match cfg.params.zipIdx.find? fun e => e.1.ty == tyEXPORT && parN e.1 0 == k.connId.toNat with
  | some e => padTo k.beads ((blockIns cfg.form e.2).map (stagedBead x))
  | none => zeros k.beads

def connRecOf (x : LaneSt) (id : W16) : ConnRec := tabGet ConnRec.init x.conns id.toNat

def modConn (x : LaneSt) (id : W16) (f : ConnRec → ConnRec) : LaneSt :=
  { x with conns := tabMod ConnRec.init x.conns id.toNat f }

/-- The paired connection differs in bit 0 (R328). -/
def pairedConn (id : W16) : W16 := id ^^^ 1

/-- The message bytes of a copy up to its code (R320). -/
def safeBody (s : State) (cfg : LoafCfg) (l : Side) (k : Conn) : List Byte :=
  let x := s.lane.at l
  let echo := if k.canFd then (connRecOf x (pairedConn k.connId)).echo.getD 0xFFFFFFFF#32 else 0xFFFFFFFF#32
  le16 k.connId ++ [laneByte l, BitVec.ofNat 8 k.beads] ++ le16 (connRecOf x k.connId).seq ++ le32 s.core.frameNo ++
    le32 echo ++ exportBeads cfg x k

/-- A waiting SAFE frame of this module's own for a connection and lane. -/
def sameCopy (k : Conn) (l : Side) (f : Frame) : Bool :=
  ownSafe f && u16At f.payload 0 == k.connId && byteAt f.payload 2 == laneByte l

/-- R338, R340: a newer copy replaces an unsent older one at either port, counted as STALE; one that has begun is cancelled. -/
def supersede (s : State) (k : Conn) (l : Side) : State :=
  let one := fun (s : State) (p : PortId) =>
    countStale (modPort s p (cancelWhere (sameCopy k l))) ((portOf s p).own.filter (sameCopy k l)).length
  one (one s .p0) .p1

/-- R364, R367: a queued CAN FD copy that is superseded. -/
def supersedeCan (s : State) (k : Conn) (l : Side) : State :=
  let mine := fun (t : CanTx) => t.safe == some (k.connId, l)
  let gone := (s.can.txq.filter fun t => mine t && !t.won).length
  let q := (s.can.txq.filter fun t => !mine t || t.won).map fun t => if mine t then { t with aborted := true } else t
  let s1 := countStale { s with can := { s.can with txq := q } } gone
  modLive s1 fun c => { c with canerr := satAdd c.canerr gone }

/-- The lane generates a copy of this connection in this frame (R105, R321, R329, R343). -/
def releases (s : State) (l : Side) (k : Conn) : Bool :=
  laneLive s l && !(s.lane.at l).noSafe && !s.test.hold &&
  (k.canFd || (!noTickFrame s && !(isWorker s && s.fab.sync == .loss)))

/-- The older copies of a connection and lane that have not been sent are removed, on the connection's own path. -/
def dropOlder (s : State) (k : Conn) (l : Side) : State := if k.canFd then supersedeCan s k l else supersede s k l

/-- One copy released, or a frame without one, in which an older one that still waits is not sent either (R321, R329, R343; log
104). -/
def releaseCopy (cfg : LoafCfg) (l : Side) (s : State) (k : Conn) : State :=
  if !releases s l k then
    modLane (dropOlder s k l) l fun x => modConn x k.connId fun c => { c with since := min (c.since + 1) 0xFF }
  else
    let body := safeBody s cfg l k
    let s1 := modLane s l fun x => modConn x k.connId fun c => { c with seq := c.seq + 1, since := 0 }
    match safeCode s k l body with
    | none => s1
    | some code =>
      if k.canFd then
        canQueue (dropOlder s1 k l) (k.connId.setWidth 11) (body ++ code) (some (k.connId, l))
      else
        let p := portTo s1 k.peer
        sendOut (dropOlder s1 k l) [p] clsSafe k.peer (body ++ code)

def releaseAll (s : State) : State :=
  match activeCfg s with
  | none => s
  | some cfg =>
    canStart ((exports cfg).foldl (fun s k => releaseCopy cfg .b (releaseCopy cfg .a s k) k) s)

/-! ## Proof chains (R331-R336) -/

/-- The tail and branch that this module starts a chain for (R332). -/
def tailOf (s : State) : Option Byte :=
  let t := s.fab.topo
  if isManager s then (if t.p1Tail = 0 then some 1 else none)
  else match s.fab.station with
    | some k =>
      if s.fab.sync = .loss then none
      else if k = t.p1Tail then some 1 else if t.healed && k == t.p0Tail then some 0 else none
    | none => none

def chainStart (s : State) (l : Side) (branch : Byte) : List Byte :=
  (foldProof s l (le32 s.core.frameNo ++ le32 (((bindOf s).map fun b => b.seg).getD 0) ++ [branch, stationByte s, 0, sound1] ++
    le16 (match l with
      | .a => 0xFFFF#16
      | .b => 0xC3C3#16))).1

/-- A tail's message: a worker sends it upstream, the manager keeps its own. -/
def startChain (branch : Byte) (s : State) (l : Side) : State :=
  let b := chainStart s l branch
  if isManager s then modLane s l fun x => { x with proofs := x.proofs ++ [proofIn b] }
  else sendOut s [s.fab.upstream.getD .p0] (match l with
    | .a => clsProofA
    | .b => clsProofB) 0x00 b

def startChains (s : State) : State :=
  match tailOf s with
  | some br => if noTickFrame s then s else startChain br (startChain br s .a) .b
  | none => s

/-- WINDOW_X_OPEN (R91, R321, R332): after phase S, once in a frame. -/
def execWindowXOpen (s : State) : Host.Outcome State Fault Refusal :=
  if !(s.core.tickOn && s.core.phase == .x && !s.core.xOpen) then .next s
  else
    let s1 := { s with core := { s.core with xOpen := true, off := BitVec.ofNat 20 (endS s.core.tfCode) } }
    let s2 := releaseAll (startChains s1)
    .next (pumpBoth (modLanes s2 fun x => { x with noSafe := false }))

/-- The signatures fed into a chain, in order (R335). -/
def chainCrc (l : Side) (sigs : List W16) : W16 :=
  crc16From (match l with
    | .a => 0xFFFF#16
    | .b => 0xC3C3#16) (sigs.flatMap le16)

/-- A topology has a P0 branch: a healed ring whose break does not lie at the manager's own P0 (log 71). -/
def hasP0 (t : Topo) : Bool := t.healed && t.p0Tail != 0xFF#8

/-- R335: the topology covers every entry exactly once. -/
def coverage (t : Topo) (n : Nat) : Bool :=
  if hasP0 t then decide (t.p0Tail.toNat = t.p1Tail.toNat + 1) && decide (t.p0Tail.toNat < n)
  else decide (t.p1Tail.toNat + 1 = n)

/-- The branches of a topology: BRANCH, tail, the signatures in the order of folding. -/
def branches (t : Topo) (sigs : List W16) : List (Byte × Byte × List W16) :=
  let p1 := (1#8, t.p1Tail, (sigs.take (t.p1Tail.toNat + 1)).reverse)
  if hasP0 t then [p1, (0#8, t.p0Tail, sigs.drop t.p0Tail.toNat)] else [p1]

/-- The messages of one branch in this window, whatever their content: a second one rejects the chain (R345). -/
def branchMsgs (x : LaneSt) (branch : Byte) : List ProofIn := x.proofs.filter fun m => m.branch == branch

/-- A message is of this frame, segment and topology, with the COUNT and CRC expected (R336, R341). -/
def msgFits (s : State) (seg : W32) (l : Side) (b : Byte × Byte × List W16) (m : ProofIn) : Bool :=
  m.frame == s.core.frameNo && m.seg == seg && m.origin == b.2.1 && m.count.toNat == min b.2.2.length 255 &&
  m.crc == chainCrc l b.2.2

/-- R336: the verdict of one manager lane on its chain. -/
def judge (s : State) (plan : Plan) (l : Side) (x : LaneSt) : Verdict :=
  let sigs := plan.members.map fun e => e.sig
  let bs := branches s.fab.topo sigs
  let msgs := bs.map fun b => (b, branchMsgs x b.1)
  let formed := msgs.all fun e => match e.2 with
    | [m] => msgFits s plan.seg l e.1 m
    | _ => false
  if !coverage s.fab.topo sigs.length || !formed then .rejected
  else if msgs.all fun e => e.2.all fun m => m.value == sound1 then .accepted
  else .wellFormedFalse

/-- A verdict is given, and a chain newly rejected or false is journalled as a consequence (R262, R440). -/
def judgeLane (plan : Plan) (s : State) (l : Side) : State :=
  let x := s.lane.at l
  if x.retired then s
  else
    let v := judge s plan l x
    let s1 := modLane s l fun x => { x with verdict := v }
    if v = x.verdictBefore then s1
    else match v with
      | .accepted => s1
      | .wellFormedFalse => consequence s1 csChainFalse 0
      | .rejected => consequence s1 csChainRejected 0

/-- R338: a chain message that has not started, of this module's own or passing through, is not sent. -/
def dropProofs (q : PortSt) : PortSt :=
  { q with own := q.own.filter fun f => !isProof f.cls, cut := q.cut.filter fun f => !isProof f.cls }

/-- WINDOW_X_END (R91, R336, R338): the chains are judged; store-and-forward frames may go. -/
def execWindowXEnd (s : State) : Host.Outcome State Fault Refusal :=
  if !(s.core.tickOn && s.core.phase == .x && s.core.xOpen) then .next s
  else
    let s1 := modPort (modPort (toPhase s .e (endX s.core.tfCode)) .p0 dropProofs) .p1 dropProofs
    let s2 := match planOf s1 with
      | some plan => if isManager s1 then judgeLane plan (judgeLane plan s1 .a) .b else s1
      | none => s1
    .next (pumpBoth s2)

/-! ## Reception of SAFE copies (R323, R326, R328) -/

/-- The fields of a received message. -/
structure SafeMsg where
  conn : W16
  lane : Byte
  nb : Nat
  seq : W16
  frame : W32
  echo : W32
  beads : List Byte
  body : List Byte
  code : List Byte
  deriving DecidableEq, Repr

def parseSafe (b : List Byte) (codeBytes : Nat) : SafeMsg :=
  let nb := (byteAt b 3).toNat
  { conn := u16At b 0, lane := byteAt b 2, nb := nb, seq := u16At b 4, frame := u32At b 6, echo := u32At b 10,
    beads := bytesAt b 14 nb, body := b.take (14 + nb), code := bytesAt b (14 + nb) codeBytes }

/-- What a check of a copy decided. -/
inductive SafeCheck where
  | accepted
  | discarded
  | badCode
  deriving DecidableEq, Repr

/-- Check 5: the SEQ window after the last delivered message. -/
def seqFits (i : ImportSt) (timeout : Nat) (seq : W16) : Bool :=
  !i.refValid || (decide (1 ≤ (seq - i.ref).toNat) && decide ((seq - i.ref).toNat ≤ timeout))

/-- R323: a copy of this connection has been taken for the lane in this frame already, whatever became of it (log 72). -/
def secondCopy (x : LaneSt) (m : SafeMsg) : Bool := (acceptedCopy x m.conn).isSome || x.seenCopies.contains m.conn

/-- Checks 2 to 5 of a copy on connection `k` by lane `l`; `size` is the payload length that agrees with NB and the mode. -/
def checkCopy (s : State) (cfg : LoafCfg) (k : Conn) (l : Side) (len size : Nat) (m : SafeMsg) : SafeCheck :=
  let x := s.lane.at l
  if secondCopy x m then .discarded
  else if m.nb ≠ k.beads ∨ len ≠ size then .discarded
  else if s.meas.disabled && k.keySlot.isSome then .discarded
  else if safeCode s k l m.body ≠ some m.code then .badCode
  else
    let fresh := if k.canFd then m.echo != 0xFFFFFFFF#32 && decide ((s.core.frameNo - m.echo).toNat ≤ k.timeout)
      else m.frame == s.core.frameNo
    if !fresh || !seqFits (importOf x cfg k.connId) k.timeout m.seq then .discarded
    else .accepted

def keepCopy (s : State) (l : Side) (m : SafeMsg) (port : Nat) : State :=
  modLane s l fun x => { x with accepted := x.accepted ++
    [{ conn := m.conn, seq := m.seq, frame := m.frame, beads := m.beads, port := port }] }

/-- The copy counts as taken for its lane (R323). -/
def sawCopy (s : State) (l : Side) (m : SafeMsg) : State :=
  modLane s l fun x => { x with seenCopies := x.seenCopies ++ [m.conn] }

/-- The lane a message names. -/
def namedLane (b : Byte) : Option Side :=
  if b = 0x0A#8 then some .a else if b = 0x0B#8 then some .b else none

/-- A copy from the fabric at its lane (R323). -/
def fabricCopy (s : State) (cfg : LoafCfg) (p : PortId) (f : Frame) (l : Side) : State :=
  let id := u16At f.payload 0
  match (imports cfg).find? fun k => k.connId == id && !k.canFd && k.peer == f.src with
  | none => countSafedisc s
  | some k =>
    let m := parseSafe f.payload (codeLen k)
    let s1 := sawCopy s l m
    match checkCopy s cfg k l f.payload.length (14 + m.nb + codeLen k) m with
    | .accepted => keepCopy s1 l m p.num
    | .discarded => countSafedisc s1
    | .badCode => portAnomaly s1 p anSafeCode

/-- SAFE_COPY_RECEIVE (R323, R329, R420). -/
def execSafeCopyReceive (s : State) : Host.Outcome State Fault Refusal :=
  match activeCfg s, takeInbox s fun _ f => f.cls == clsSafe with
  | some cfg, some (p, f, s1) =>
    if s.test.hold || (isWorker s && s.fab.sync == .loss) then .next s1
    else match namedLane (byteAt f.payload 2) with
      | some l => .next (if laneLive s l then fabricCopy s1 cfg p f l else s1)
      | none => .next (countSafedisc s1)
  | _, _ => .next s

/-- A copy from CAN FD at its lane: a copy that passes checks 1 to 3 gives the ECHO of the paired export (R326, R328). -/
def canCopy (s : State) (cfg : LoafCfg) (data : List Byte) (l : Side) : State :=
  let id := u16At data 0
  match (imports cfg).find? fun k => k.connId == id && k.canFd with
  | none => countSafedisc s
  | some k =>
    let m := parseSafe data (codeLen k)
    let size := dlcLen (14 + m.nb + codeLen k)
    let passed3 := m.nb == k.beads && data.length == size && safeCode s k l m.body == some m.code
    let r := checkCopy s cfg k l data.length size m
    let s0 := sawCopy s l m
    let s1 := if passed3 then modLane s0 l fun x => modConn x k.connId fun c => { c with echo := some m.frame } else s0
    match r with
    | .accepted => keepCopy s1 l m 0
    | _ => countSafedisc s1

/-- CAN_SAFE_RECEIVE (R328, R361, R363). -/
def execCanSafeReceive (f : CanFrame) (s : State) : Host.Outcome State Fault Refusal :=
  if !canUp s.can || f.ext || !f.fdf || decide (0x400 ≤ f.ident.toNat) then .next s
  else match activeCfg s with
    | none => .next s
    | some cfg =>
      if s.test.hold then .next s
      else if u16At f.data 0 ≠ f.ident.setWidth 16 then .next (countSafedisc s)
      else match namedLane (byteAt f.data 2) with
        | some l => .next (if laneLive s l then canCopy s cfg f.data l else s)
        | none => .next (countSafedisc s)

end Sys2Proof.Machine
end

