-- ==== Sys2Proof/Machine/Mailbox.lean ====
section
/-! DEFINITION. The mailbox (15): images and their checks (R374, R379), taking slots and tunnel requests (R365, R376, R377,
R380), remote commands (R384-R387), writing replies (R375, R376, R386), and the start of a command (R380-R382, R388). -/

namespace Sys2Proof.Machine

/-! ## Images (R374) -/

def reqLen (b : List Byte) : Nat := natAt b 3 2

/-- The bytes of an image up to and with its CRC. -/
def imageSize (b : List Byte) : Nat := 12 + reqLen b

/-- R375: the image of a reply. -/
def replyImage (cmd tag target status : Byte) (payload : List Byte) : List Byte :=
  let b := [cmd, tag, 0x01] ++ leBytes 2 payload.length ++ [target, status, 0x00] ++ payload
  b ++ le32 (crc32c b)

/-- R379 step 8, header part. -/
def badHeader (b : List Byte) : Option Nat :=
  if byteAt b 2 ≠ 0 then some 2 else if byteAt b 6 ≠ 0 then some 6 else if byteAt b 7 ≠ 0 then some 7 else none

def entryFrom (s : State) (via : Via) (b : List Byte) (st : QState) : QEntry :=
  { via := via, cmd := byteAt b 0, tag := byteAt b 1, target := byteAt b 5, badField := badHeader b, taken := s.core.frameNo,
    payload := bytesAt b 8 (reqLen b), st := st }

def refusedSt (status : Byte) (detail : Nat) : QState := .replied status (leBytes 4 detail)

/-! ## Remote requests (R384, R385) -/

/-- The requester path of a request posted here: SPI or the CAN FD tunnel; a request from the fabric has none. -/
def pathOf : Via → Option Bool
  | .slot _ => some false
  | .can _ => some true
  | .fabric _ _ => none

/-- R384: the station is admitted and does not lie beyond a break; a port of this module's own that is not UP is one (log 110). -/
def reachable (s : State) (k : Byte) : Bool :=
  let t := s.fab.topo
  portUp s (portTo s k) && (tabGet memberNone s.fab.members k.toNat).state == 1 &&
  (decide (k.toNat ≤ t.p1Tail.toNat) || (t.healed && decide (t.p0Tail.toNat ≤ k.toNat)))

/-- IDX in use on a path. -/
def idxBusy (s : State) (path : Bool) (i : BitVec 2) : Bool :=
  s.mbx.queue.any fun e => match e.st with
    | .sent p j _ => p == path && j == i
    | _ => false

def freeIdx (s : State) (path : Bool) : Option (BitVec 2) :=
  [0#2, 1#2, 2#2, 3#2].find? fun i => !idxBusy s path i

/-- The MBX payloads of an image (R385). -/
def mbxSegments (b : List Byte) (reply path : Bool) (idx : BitVec 2) : List (List Byte) :=
  let n := (b.length + 126) / 127
  (List.range n).map fun k =>
    (BitVec.ofNat 8 (k % 4) ||| (if k + 1 = n then 0x04#8 else 0) ||| (if reply then 0x08#8 else 0) |||
      ((idx.setWidth 8) <<< 4) ||| (if path then 0x40#8 else 0)) :: bytesAt b (127 * k) 127

def sendImage (s : State) (dst : Byte) (b : List Byte) (reply path : Bool) (idx : BitVec 2) : State :=
  (mbxSegments b reply path idx).foldl (fun s seg => sendOut s [portTo s dst] clsMbx dst seg) s

/-- A request for another station. -/
def takeRemote (s : State) (via : Via) (b : List Byte) : State :=
  let k := byteAt b 5
  let put := fun (s : State) (st : QState) => modMbx s fun m => { m with queue := m.queue ++ [entryFrom s via b st] }
  match pathOf via with
  | none => put s (refusedSt stNotManager 0)
  | some path =>
    if !isManager s then put s (refusedSt stNotManager 0)
    else if !reachable s k then put s (refusedSt stRemoteUnreachable k.toNat)
    else match freeIdx s path with
      | none => put s (refusedSt stNakRetry 4)
      | some i => sendImage (put s (.sent path i none)) k (b.take (imageSize b)) false path i

/-! ## Taking a request (R377, R379 steps 1 to 4) -/

/-- Steps 1, 2 and 4, with the state that the queue entry begins in; step 3 is apart. -/
def firstChecks (b : List Byte) (remote : Bool) : QState :=
  if 244 < reqLen b then refusedSt stBadLength 244
  else if u32At b (8 + reqLen b) ≠ crc32c (b.take (8 + reqLen b)) then refusedSt stBadCrc 0
  else if remote then .waiting
  else if (cmdRow (byteAt b 0)).isNone then refusedSt stUnknownCmd 0
  else .waiting

/-- A request joins the hearth queue. -/
def takeRequest (s : State) (via : Via) (b : List Byte) : State :=
  let remote := byteAt b 5 != 0xFF#8 && ownStation s != some (byteAt b 5)
  let st := firstChecks b remote
  if remote && st == .waiting then takeRemote s via b
  else modMbx s fun m => { m with queue := m.queue ++ [entryFrom s via b st] }

def queueFull (s : State) : Bool := decide (16 ≤ s.mbx.queue.length)

def slotState (s : State) (k : Nat) : MbxState := s.mbx.slots.toList.getD k .free

def setSlotState (s : State) (k : Nat) (x : MbxState) : State :=
  modMbx s fun m => { m with slots := m.slots.setIfInBounds k x }

def slotImage (s : State) (k : Nat) : List Byte := memReadBytes s.mbx.mem (256 * k) 256

/-- The lowest POSTED slot taken into the queue (R377). -/
def takeSlot (s : State) : State :=
  if !hearthLive s || queueFull s then s
  else match ([0, 1, 2, 3, 4, 5, 6, 7] : List (Fin 8)).find? fun k => slotState s k.val == .posted with
    | some k => takeRequest (setSlotState s k.val .taken) (.slot k) (slotImage s k.val)
    | none => s

/-- SLOT_TAKE (R377). -/
def execSlotTake (s : State) : Host.Outcome State Fault Refusal := .next (takeSlot s)

/-! ## The CAN FD tunnel (R365, R372) -/

/-- The frames of a reply image in the CAN FD tunnel. -/
def canSegments (b : List Byte) (idx : BitVec 2) : List (List Byte) :=
  let n := (b.length + 62) / 63
  (List.range n).map fun k =>
    (BitVec.ofNat 8 (k % 8) ||| (if k + 1 = n then 0x08#8 else 0) ||| ((idx.setWidth 8) <<< 4)) :: bytesAt b (63 * k) 63

def sendTunnel (s : State) (idx : BitVec 2) (b : List Byte) : State :=
  canStart ((canSegments b idx).foldl (fun s d => canQueue s (0x440#11 + s.can.node.setWidth 11) d none) s)

/-- R367: queued frames of a discarded tunnel request are aborted. -/
def abortTunnel (s : State) (idx : BitVec 2) : State :=
  let mine := fun (t : CanTx) => t.safe.isNone && ((byteAt t.data 0) >>> 4).setWidth 2 == idx
  let gone := (s.can.txq.filter fun t => mine t && !t.won).length
  let q := (s.can.txq.filter fun t => !mine t || t.won).map fun t => if mine t then { t with aborted := true } else t
  modLive { s with can := { s.can with txq := q } } fun c => { c with canerr := satAdd c.canerr gone }

def asmNone : Asm := { nextSeg := 0, bytes := [] }

def dropCanAsm (s : State) (idx : BitVec 2) : State :=
  { s with can := { s.can with asm := tabDel s.can.asm idx.toNat } }

/-- An incomplete request is discarded and counted. -/
def discardTunnel (s : State) (idx : BitVec 2) : State := countCanerr (abortTunnel (dropCanAsm s idx) idx)

/-- R358: a kick restarts the count. -/
def kick (s : State) : State := { s with host := { s.host with wdCount := 0, wdExpired := false } }

/-- R400: the slots whose last byte arrived before that of a tunnel request are taken before it. -/
def takeSlots : Nat → State → State
  | 0, s => s
  | n + 1, s => takeSlots n (takeSlot s)

/-- A complete tunnel request: BUSY, or accepted. -/
def tunnelRequest (s0 : State) (idx : BitVec 2) (b : List Byte) (busyNow : Bool) : State :=
  let s := takeSlots 8 s0
  if busyNow || (entryOf s (.can idx)).isSome || queueFull s then
    setIrq1 (sendTunnel s idx (replyImage (byteAt b 0) (byteAt b 1) (byteAt b 5) stBusy (leBytes 4 0))) irqCan
  else
    let s1 := takeRequest s (.can idx) (padTo 256 b)
    if bitOf s.host.hostwd 4 then kick s1 else s1

/-- CAN_TUNNEL_SEGMENT (R361, R363, R365, R372). -/
def execCanTunnelSegment (e : CanSegment) (s : State) : Host.Outcome State Fault Refusal :=
  let f := e.frame
  if !canUp s.can || !hearthLive s || f.ext || !f.fdf || f.ident ≠ 0x400#29 + s.can.node.setWidth 29 then .next s
  else
    let ctl := byteAt f.data 0
    let seg := ctl.toNat % 8
    let idx : BitVec 2 := (ctl >>> 4).setWidth 2
    let body := f.data.drop 1
    let old := tabFind s.can.asm idx.toNat
    let s1 := if old.isSome && seg == 0 then discardTunnel s idx else s
    let sofar := if seg = 0 then some asmNone else old
    match sofar with
    | none => .next (discardTunnel s1 idx)
    | some a =>
      if a.nextSeg ≠ seg ∨ 4 < seg then .next (discardTunnel s1 idx)
      else if bitOf ctl 3 then .next (tunnelRequest (dropCanAsm s1 idx) idx (a.bytes ++ body) e.busyNow)
      else .next { s1 with can := { s1.can with
        asm := tabPut s1.can.asm idx.toNat { nextSeg := seg + 1, bytes := a.bytes ++ body } } }

/-- CAN_TUNNEL_TIMEOUT (R365). -/
def execCanTunnelTimeout (idx : BitVec 2) (s : State) : Host.Outcome State Fault Refusal :=
  .next (if (tabFind s.can.asm idx.toNat).isSome then discardTunnel s idx else s)

/-! ## Remote commands at their two ends (R385-R387) -/

/-- One MBX segment added to the image under `key`: the image where it is complete, and what is kept. -/
def addSegment (s : State) (key : Nat) (b : List Byte) : Option (List Byte) × State :=
  let seg := (byteAt b 0).toNat % 4
  let old := tabFind s.fab.asm key
  let s1 := if old.isSome && seg == 0 then countMbxDiscarded s else s
  let drop := fun (s : State) => { s with fab := { s.fab with asm := tabDel s.fab.asm key } }
  match (if seg = 0 then some asmNone else old) with
  | none => (none, countMbxDiscarded s1)
  | some a =>
    if a.nextSeg ≠ seg ∨ 2 < seg then (none, countMbxDiscarded (drop s1))
    else
      let bytes := a.bytes ++ b.drop 1
      if bitOf (byteAt b 0) 2 then (some bytes, drop s1)
      else (none, { s1 with fab := { s1.fab with asm := tabPut s1.fab.asm key { nextSeg := seg + 1, bytes := bytes } } })

def segKey (b : List Byte) : Nat := natOfBool (bitOf (byteAt b 0) 6) * 4 + (byteAt b 0).toNat / 16 % 4

/-- The path and IDX of a segment. -/
def segPath (b : List Byte) : Bool × BitVec 2 := (bitOf (byteAt b 0) 6, ((byteAt b 0) >>> 4).setWidth 2)

/-- A complete image at its target: queued as a local command, or refused with NAK_RETRY (R383, R386). -/
def remoteRequest (s : State) (path : Bool) (idx : BitVec 2) (b : List Byte) : State :=
  if queueFull s || (entryOf s (.fabric path idx)).isSome then
    sendImage s 0x00 (replyImage (byteAt b 0) (byteAt b 1) (byteAt b 5) stNakRetry (leBytes 4 4)) true path idx
  else takeRequest s (.fabric path idx) (padTo 256 b)

/-- REMOTE_REQUEST_RECEIVE (R385, R386). -/
def execRemoteRequestReceive (s : State) : Host.Outcome State Fault Refusal :=
  if !hearthLive s || !isWorker s then .next s
  else match takeInbox s fun _ f => f.cls == clsMbx && !bitOf (byteAt f.payload 0) 3 with
    | none => .next s
    | some (_, f, s1) =>
      let (path, idx) := segPath f.payload
      match addSegment s1 (segKey f.payload) f.payload with
      | (some b, s2) => .next (remoteRequest s2 path idx b)
      | (none, s2) => .next s2

/-- The entry that awaits a reply. -/
def sentEntry (s : State) (path : Bool) (idx : BitVec 2) : Option QEntry :=
  s.mbx.queue.find? fun e => match e.st with
    | .sent p j _ => p == path && j == idx
    | _ => false

/-- A reply image answers a request that is awaited: from its station, with its CMD and TAG (R375, R387). -/
def answers (e : QEntry) (src : Byte) (b : List Byte) : Bool :=
  e.target == src && byteAt b 0 == e.cmd && byteAt b 1 == e.tag

/-- REMOTE_REPLY_RECEIVE (R386, R387): a reply that nobody awaits is discarded and counted. -/
def execRemoteReplyReceive (s : State) : Host.Outcome State Fault Refusal :=
  if !hearthLive s || !isManager s then .next s
  else match takeInbox s fun _ f => f.cls == clsMbx && bitOf (byteAt f.payload 0) 3 with
    | none => .next s
    | some (_, f, s1) =>
      let (path, idx) := segPath f.payload
      match addSegment s1 (16 * f.src.toNat + 8 + segKey f.payload) f.payload with
      | (some b, s2) =>
        match sentEntry s2 path idx with
        | some e => .next (if answers e f.src b then setQ s2 e.via (.relayed b) else countLateReply s2)
        | none => .next (countLateReply s2)
      | (none, s2) => .next s2

/-- The bound of a command in frames, rounded up (R387, R389). -/
def boundFrames (s : State) (cmd : Byte) : Nat :=
  if cmd = 0x02#8 ∨ cmd = 0x32#8 then 3
  else match cmdRow cmd with
    | some r => framesOfMs s r.boundMs
    | none => 0

/-- SEG 0 of a request still waits at a port. -/
def seg0Waits (s : State) (path : Bool) (idx : BitVec 2) : Bool :=
  [PortId.p0, PortId.p1].any fun p => (portOf s p).own.any fun f => requestStart f == some (path, idx)

/-- The frame in which SEG 0 was sent; of a request whose SEG 0 was lost with its port, the one in which it was taken (log 110). -/
def sentFrame (e : QEntry) : W32 :=
  match e.st with
  | .sent _ _ (some f) => f
  | _ => e.taken

/-- REMOTE_DEADLINE (R387, R398). -/
def execRemoteDeadline (path : Bool) (idx : BitVec 2) (s : State) : Host.Outcome State Fault Refusal :=
  match sentEntry s path idx with
  | some e =>
    .next (if hearthLive s && !seg0Waits s path idx && decide (boundFrames s e.cmd + 64 ≤ (s.core.frameNo - sentFrame e).toNat) then
      replyErr s e.via stRemoteTimeout 0 else s)
  | none => .next s

/-! ## Replies (R375, R376, R386) -/

/-- The reply image of an entry that has ended. -/
def replyBytes (e : QEntry) : Option (List Byte) :=
  match e.st with
  | .replied status payload => some (replyImage e.cmd e.tag e.target status payload)
  | .relayed b => some b
  | _ => none

/-- Where a reply goes. -/
def deliverReply (s : State) (via : Via) (b : List Byte) : State :=
  match via with
  | .slot k =>
    setIrq0 (setSlotState (modMbx s fun m => { m with mem := memWriteBytes m.mem (256 * k.val) (b.take 256) }) k.val .done)
      irqMbxDone
  | .can idx => sendTunnel s idx b
  | .fabric path idx => sendImage s 0x00 b true path idx

/-- R391, R393: with its reply written, what a command owes is delivered in the next phase S. -/
def payOne (m : MbxSt) (o : Owed) : MbxSt :=
  match o with
  | .chan n op => { m with chanOps := m.chanOps ++ [(n, op)] }
  | .bits v mask =>
    let old := m.hostBitsNext.getD (m.hostBits, m.hostSet)
    { m with hostBitsNext := some ((old.1 &&& ~~~mask) ||| (v &&& mask), old.2 ||| mask) }

def payOwed (s : State) (via : Via) : State :=
  modMbx s fun m => (m.owed.filter fun e => e.1 == via).foldl (fun m e => payOne m e.2)
    { m with owed := m.owed.filter fun e => e.1 != via }

/-- COMMAND_REPLY (R376, R380, R386): the reply is written and the entry ends. -/
def execCommandReply (via : Via) (s : State) : Host.Outcome State Fault Refusal :=
  match entryOf s via with
  | none => .next s
  | some e =>
    match replyBytes e with
    | some b =>
      .next (if hearthLive s then
        deliverReply (payOwed (modMbx s fun m => { m with queue := delFirst (fun x => x.via == via) m.queue }) via) via b else s)
    | none => .next s

/-! ## The start of a command (R380-R382, R388) -/

/-- A heavy command is executing. -/
def heavyRunning (s : State) : Bool := s.mbx.queue.any fun e => isHeavy e.cmd && e.st == .running

/-- The entries ahead of one. -/
def ahead (via : Via) : List QEntry → List QEntry
  | [] => []
  | e :: r => if e.via = via then [] else e :: ahead via r

/-- R380, R381: the entry of `via` is the next to start: every command taken before it has started, heavy ones that must wait
aside. -/
def startable (s : State) (via : Via) (cmd : Byte) : Option QEntry :=
  match entryOf s via with
  | none => none
  | some e =>
    let busy := heavyRunning s
    let clear := (ahead via s.mbx.queue).all fun x => x.st != .waiting || (isHeavy x.cmd && busy)
    if hearthLive s && e.cmd == cmd && e.st == .waiting && clear && !(isHeavy cmd && busy) then some e else none

def isLoafCmd (cmd : Byte) : Bool := decide (0x10 ≤ cmd.toNat) && decide (cmd.toNat ≤ 0x14)

/-- The key length of a KEY_LOAD's kind (R389). -/
def keyLength (kind : Byte) : Nat := if kind = 2 then 16 else 32

/-- The payload length that a KEY_LOAD must have: a lifecycle key that replaces another carries a tag. -/
def keyLoadLen (s : State) (kind : Byte) : Nat :=
  4 + keyLength kind + if kind = 3 ∧ s.nv.lifeKey.isSome then 32 else 0

def keyKind (kind : Byte) : Bool := kind == 1#8 || kind == 2#8 || kind == 3#8

/-- R379 step 7: LEN is as the command requires; else the length required, the least of a range. -/
def badLength (s : State) (e : QEntry) (r : CmdRow) : Option Nat :=
  let n := e.payload.length
  if e.cmd = 0x75#8 ∧ keyKind (byteAt e.payload 0) then
    (if n = keyLoadLen s (byteAt e.payload 0) then none else some (keyLoadLen s (byteAt e.payload 0)))
  else if n < r.lo ∨ r.hi < n then some r.lo else none

/-- R379 steps 5 to 8, header part: the first failing status with its DETAIL. -/
def gate (s : State) (e : QEntry) : Option (Byte × Nat) :=
  let life := s.nv.life
  if !lifeGate life e.cmd then
    some (if isLoafCmd e.cmd then stLoafLifecycle else stLifecycleDenied, life.code.toNat)
  else if !modeGate s.core.mode e.cmd e.payload then
    some (if isLoafCmd e.cmd then stLoafMode else stModeDenied, s.core.mode.code.toNat)
  else match cmdRow e.cmd with
    | none => some (stUnknownCmd, 0)
    | some r =>
      match badLength s e r, e.badField with
      | some n, _ => some (stBadLength, n)
      | none, some o => some (stBadParam, o)
      | none, none => none

/-- The slot offset of payload byte `i`, as BAD_PARAM gives it. -/
def fieldAt (i : Nat) : Nat := 8 + i

/-- A command of chapter 15 executes: its entry is next, its gates pass, and its own effect follows. -/
def runCmd (cmd : Byte) (via : Via) (s : State) (body : QEntry → State) : Host.Outcome State Fault Refusal :=
  match startable s via cmd with
  | none => .next s
  | some e =>
    match gate s e with
    | some (st, d) => .next (replyErr s via st d)
    | none => .next (body e)

/-! ## MODE_REQ (R62, R67, R371, R390) -/

/-- The codes that the host may request (R62). -/
def requestable (v : Byte) : Bool := v == 0x02#8 || v == 0x03#8 || v == 0x06#8 || v == 0x07#8

/-- R390: a MODE_SET not yet sampled is superseded by another write. -/
def abortModeSets (s : State) : State :=
  let drop := fun (e : QEntry) => if e.st == .awaitingMode false then { e with st := refusedSt stAborted abortSuperseded } else e
  modMbx s fun m => { m with queue := m.queue.map drop }

/-- A write of MODE_REQ: a requestable code, or 0x00, stands until it is sampled; any other code is refused. -/
def writeModeReq (s : State) (v : Byte) : State :=
  if requestable v || v == 0 then
    let s1 := abortModeSets s
    { s1 with host := { s1.host with modeReq := v, reqResult := 0, rewritten := s1.host.sampled.isSome } }
  else setIrq0 { s with host := { s.host with reqResult := 2 } } irqMode

/-- MODE_REQ_WRITE (R62, R371). -/
def execModeReqWrite (v : Byte) (s : State) : Host.Outcome State Fault Refusal := .next (whileLive s (writeModeReq s v))

end Sys2Proof.Machine
end

