-- ==== Sys2Proof/Machine/Inputs.lean ====
section
/-! DEFINITION. Field inputs (08): raw changes and debounce (R187, R188), test pulses (R189-R192), threshold checks (R191),
OSSD (R193), the counter path (R196-R198), analog conversions (R201, R202). Every event acts on the crust alone; the lanes see
it in the snapshot of the following tick. -/

namespace Sys2Proof.Machine

/-- The I/O map a crust works by: that of its lane, once the handshake has delivered it (R41). -/
def crustMap (s : State) (c : Side) : List (List Byte) :=
  if (s.crust.at c).handshake && (s.crust.at c).logicPower then
    match (s.lane.at c).cfg with
    | some cfg => cfg.iomap
    | none => []
  else []

/-- The slot number of the frame, FRAME_NO[3:0] (R189). -/
def slotOf (s : State) : Nat := s.core.frameNo.toNat % 16

/-- R205: the input reports this anomaly unless one that comes first is already found. -/
def InSt.report (i : InSt) (code : Byte) : InSt := { i with anomaly := firstAnomaly i.anomaly code }

/-- R194: a timestamp has a resolution of 100 ns, here taken downwards. -/
def stampGrid (x : Stamp) : Stamp := { x with off := BitVec.ofNat 20 (x.off.toNat / 10 * 10) }

/-- R194, R195: a debounced edge queued, or counted as an overflow. -/
def InSt.queueStamp (i : InSt) (at_ : Stamp) (level : Bool) : InSt :=
  if i.stamps.length < 16 then { i with stamps := i.stamps ++ [{ at_ := stampGrid at_, level := level }] }
  else { i with overflow := i.overflow + 1 }

/-- 50 us in 10 ns units (R188). -/
def recovery : Nat := 5000

def stampAfter (s : State) (x : Stamp) (u : Nat) : Stamp :=
  let tf := tfUnits s.core.tfCode
  let tot := x.off.toNat + u
  { frame := x.frame + BitVec.ofNat 32 (tot / tf), off := BitVec.ofNat 20 (tot % tf) }

/-- `x` lies before `y`. -/
def stampBefore (s : State) (x y : Stamp) : Bool := decide (0 < unitsBetween s x y)

/-- R188: the moment from which a change of the raw level is timed. -/
def changeTimedFrom (s : State) (e : List Byte) (i : InSt) (level : Bool) (now : Stamp) : Stamp :=
  if level then
    match i.maskUntil with
    | some m => if inputMode e = 2#8 && stampBefore s now m then m else now
    | none => now
  else now

/-- R188: a moment lies in the mask of the input's own source. -/
def inMask (s : State) (e : List Byte) (i : InSt) (now : Stamp) : Bool :=
  inputMode e == 2#8 && match i.maskFrom, i.maskUntil with
  | some m, some u => !stampBefore s now m && stampBefore s now u
  | _, _ => false

/-- R194: the time that a timestamp gives a change that begins now and is timed from `from_`: a fall within the mask is stamped
with the start of the mask that hides it (R188). -/
def stampOf (s : State) (e : List Byte) (i : InSt) (level : Bool) (from_ now : Stamp) : Stamp :=
  if !level && inMask s e i now then i.maskFrom.getD from_ else from_

/-- R188: the rise that a fall interrupts, where the fall may prove a pulse: one in the source's mask, or any of an OSSD's. -/
def riseKept (s : State) (e : List Byte) (i : InSt) (level : Bool) (now : Stamp) : Option Stamp :=
  if level || i.deb then none
  else if inMask s e i now || inputMode e == 3#8 then
    match i.pend with
    | some p => some p
    | none => i.riseHeld
  else none

/-- R188: a 0 of an OSSD input that lasted no longer than OSSDW is its own pulse. -/
def ownOssdPulse (s : State) (e : List Byte) (i : InSt) (level : Bool) (now : Stamp) : Bool :=
  inputMode e == 3#8 && level &&
  match i.fellAt with
  | some f => decide (unitsBetween s f now ≤ inputOssdw e)
  | none => false

/-- R188: a rise at the end of a pulse that left the rise before it untouched: the earlier one goes on. -/
def resumedRise (s : State) (e : List Byte) (i : InSt) (level : Bool) (now : Stamp) : Option Stamp :=
  if level && !i.deb && (inMask s e i now || ownOssdPulse s e i level now) then i.riseHeld else none

/-! ## Homing and learning captures (R198, R199) -/

/-- The quadrature pairs, 0 or 1 of the crust, whose reference an input is. -/
def refPairs (m : List (List Byte)) (c : Side) (n : Nat) : List Nat :=
  [0, 1].filter fun p =>
    match quadEntry m (sideBase c + p) with
    | some q => (byteAt q 5).toNat == chanIn c n
    | none => false

/-- R198, R207: the count held at the first raw edge of the reference, none within a reversal of direction. -/
def captureRef (now : Stamp) (q : QuadSt) : QuadSt :=
  { q with refCount := if q.count = q.turn then some q.count else none, refAt := some now }

def captureRefs (m : List (List Byte)) (c : Side) (n : Nat) (now : Stamp) (x : CrustSt) : CrustSt :=
  (refPairs m c n).foldl (fun x p => modQuad x p (captureRef now)) x

/-- R199: a captured count completes the cycle begun last where that cycle lacks its kind, and begins a new one otherwise:
a run may begin with the door open or closed. -/
def addCapture (caps : List (Option Int × Option Int)) (rising : Bool) (v : Int) : List (Option Int × Option Int) :=
  match caps.getLast?, rising with
  | some (o, none), true => caps.dropLast ++ [(o, some v)]
  | some (none, c), false => caps.dropLast ++ [(some v, c)]
  | _, true => caps ++ [(none, some v)]
  | _, false => caps ++ [(some v, none)]

/-- The offsets in force for a pair code: zero until confirmed. -/
def offsetsOf (l : LaneSt) (pair : Nat) : Int × Int := (tabFind l.offsets pair).getD (0, 0)

/-- R198: the count rebased so that the captured value becomes REFPOS - OFS_CLOSE. -/
def rebase (q : QuadSt) (captured : W32) (target : Int) : QuadSt :=
  let d := wordOfInt (target - captured.toInt)
  { q with
    count := q.count + d, turn := q.turn + d, homed := true, refCount := none, refAt := none
    lastRef := q.refAt.map fun r => (r, true) }

/-- The debounced edge of a reference input: homing, or a capture of the learning run. -/
def referenceEdge (s : State) (c : Side) (p : Nat) (rising : Bool) : State :=
  let q := quadOf (s.crust.at c) p
  let code := sideBase c + p
  match q.refCount, quadEntry (crustMap s c) code with
  | some cap, some e =>
    let fits := if rising then q.closing else !q.closing
    match s.mbx.learn with
    | some run =>
      if fits && (code == run.pairA || code == run.pairB) then
        { modCrust s c (fun x => modQuad x p fun q => { q with lastRef := q.refAt.map fun r => (r, false) }) with
          mbx := { s.mbx with
            learn := some { run with caps := run.caps.set c (addCapture (run.caps.at c) rising cap.toInt) } } }
      else s
    | none =>
      if rising && fits then
        let target : Int := (natAt e 3 2 : Int) - (offsetsOf (s.lane.at c) code).1
        let slip := decide ((byteAt e 6).toNat < (target - cap.toInt).natAbs)
        modCrust s c fun x =>
          let y := modQuad x p fun q => rebase q cap target
          if slip then modIn y (2 * p) fun i => i.report anHomeslip else y
      else s
  | _, _ => s

/-! ## Raw changes and debounce -/

/-- The debounced level changes: its timestamp is queued where configured, and a reference edge takes effect. -/
def acceptLevel (s : State) (c : Side) (n : Nat) (e : List Byte) (from_ : Stamp) (now : Stamp) : State :=
  let i := inOf (s.crust.at c) n
  let s1 := modCrust s c fun x => modIn x n fun i =>
    let j := { i with deb := i.raw, pend := none, pendStamp := none, riseHeld := none,
                      ossdMark := if i.raw then some now else i.ossdMark, ossdLate := if i.raw then false else i.ossdLate }
    if inputStamped e then j.queueStamp (i.pendStamp.getD from_) i.raw else j
  (refPairs (crustMap s c) c n).foldl (fun s p => referenceEdge s c p i.raw) s1

/-- R187, R498: the new level has been held for DEBOUNCE, which a crust realises up to 10 us short. -/
def heldLongEnough (s : State) (e : List Byte) (p now : Stamp) : Bool :=
  decide ((inputDebounce e : Int) - 1000 ≤ unitsBetween s p now)

/-- R498: DEBOUNCE is realised as at most its configured time, so by `now` a level held that long has been accepted. -/
def settleInput (now : Stamp) (c : Side) (s : State) (n : Nat) : State :=
  let i := inOf (s.crust.at c) n
  match i.pend, inputEntry (crustMap s c) (chanIn c n) with
  | some p, some e =>
    if isLevelMode (inputMode e) && i.raw != i.deb && decide ((inputDebounce e : Int) ≤ unitsBetween s p now) then
      acceptLevel s c n e p (stampAfter s p (inputDebounce e))
    else s
  | _, _ => s

/-- Every input of a crust whose DEBOUNCE has run out by a moment. -/
def settleCrust (now : Stamp) (s : State) (c : Side) : State := (List.range 24).foldl (settleInput now c) s

/-- A change of the raw level of a level input with a debounce time (R187, R188). -/
def timeChange (s : State) (e : List Byte) (level : Bool) (now : Stamp) (i : InSt) : InSt :=
  let own := ownOssdPulse s e i level now
  let start := match resumedRise s e i level now with
    | some p => p
    | none => if own then stampAfter s now recovery else changeTimedFrom s e i level now
  { i with
    raw := level, fellAt := if level then i.fellAt else some now
    pend := if level = i.deb then none else some start
    pendStamp := if level = i.deb then none else some (stampOf s e i level start now)
    riseHeld := riseKept s e i level now
    ossdMark := if own then some now else i.ossdMark, ossdLate := if own then false else i.ossdLate
    ossdSeen := i.ossdSeen || (own && i.deb) }

/-- The raw edge begins a change of the level: one that a pulse made or ends does not (R188, R198). -/
def beginsChange (s : State) (e : List Byte) (i : InSt) (level : Bool) (now : Stamp) : Bool :=
  level != i.deb && (resumedRise s e i level now).isNone

/-- A change of a raw level (R187, R188). -/
def rawChange (s : State) (c : Side) (n : Nat) (level : Bool) (now : Stamp) : State :=
  let m := crustMap s c
  let i := inOf (s.crust.at c) n
  if !(s.crust.at c).logicPower || i.raw = level then s
  else
    let plain := fun (x : CrustSt) => modIn x n fun i => { i with raw := level, fellAt := if level then i.fellAt else some now }
    match inputEntry m (chanIn c n) with
    | none => modCrust s c plain
    | some e =>
      if !isLevelMode (inputMode e) then modCrust s c plain
      else
        let capture := fun (x : CrustSt) => if beginsChange s e i level now then captureRefs m c n now x else x
        if inputDebounce e = 0 then acceptLevel (modCrust s c fun x => capture (plain x)) c n e now now
        else modCrust s c fun x => capture (modIn x n (timeChange s e level now))

/-- RAW_INPUT_CHANGE (R187). -/
def execRawInputChange (ch : InChan) (level : Bool) (t : BitVec 20) (s : State) : Host.Outcome State Fault Refusal :=
  .next (rawChange (settleInput (stampAt s t) ch.crust (setOff s t) ch.num.val) ch.crust ch.num.val level (stampAt s t))

/-- DEBOUNCE_EXPIRY (R187, R194): within the last 10 us of DEBOUNCE, or at its end (R498). -/
def execDebounceExpiry (ch : InChan) (t : BitVec 20) (s : State) : Host.Outcome State Fault Refusal :=
  let c := ch.crust
  let n := ch.num.val
  let u := settleInput (stampAt s t) c s n
  let i := inOf (u.crust.at c) n
  match i.pend, inputEntry (crustMap u c) (chanIn c n) with
  | some p, some e =>
    if isLevelMode (inputMode e) && i.raw != i.deb && heldLongEnough u e p (stampAt u t) then
      .next (acceptLevel (setOff u t) c n e p (stampAt u t))
    else .next u
  | _, _ => .next u

/-! ## Test pulses -/

/-- The slot of a source (R189). -/
def sourceSlot (src : SrcId) : Nat :=
  match src.crust with
  | .a => src.num.val
  | .b => 8 + src.num.val

/-- The inputs of a crust that are Tested. -/
def testedInputs (m : List (List Byte)) (c : Side) : List Nat :=
  (List.range 24).filter fun n => modeOfInput m (chanIn c n) == 2#8

def sourceOfInput (m : List (List Byte)) (c : Side) (n : Nat) : Nat :=
  match inputEntry m (chanIn c n) with
  | some e => (inputSource e).toNat
  | none => 0xFF

/-- The source is driven off for PW from 0.1 Tf: its Tested inputs are masked until 50 us after its end (R188, R189). -/
def startPulse (s : State) (src : SrcId) : State :=
  let c := src.crust
  let m := crustMap s c
  let off := tfUnits s.core.tfCode / 10
  let now : Stamp := { frame := s.core.frameNo, off := BitVec.ofNat 20 off }
  let until_ := stampAfter s now (sourcePw m c src.num.val + recovery)
  modCrust (setOff s (BitVec.ofNat 20 off)) c fun x =>
    let y := modSrc x src.num.val fun z => { z with pulseAt := some now, pulsed := true }
    (testedInputs m c).foldl (fun y n => modIn y n fun i =>
      { i with rawAtPulse := i.raw,
               riseHeld := if sourceOfInput m c n = src.num.val then none else i.riseHeld,
               maskUntil := if sourceOfInput m c n = src.num.val then some until_ else i.maskUntil,
               maskFrom := if sourceOfInput m c n = src.num.val then some now else i.maskFrom }) y

/-- The sources of a crust work in this mode (R45, R184). -/
def sourcesRun (s : State) (c : Side) : Bool :=
  laneLive s c && (s.crust.at c).handshake && (s.crust.at c).logicPower && !(s.crust.at c).lockout &&
  match s.core.mode with
  | .boot => true
  | .configure => s.mbx.learn.isSome
  | .operate => true
  | .maintain => true
  | .degraded => true
  | .shutdown => s.test.shutdown == 2
  | .safeHold => false

/-- R266, R270: a source in probation is held off, and its test runs and reports (log 107). -/
def sourceTested (s : State) (src : SrcId) : Bool :=
  sourcesRun s src.crust && (chanOf (reportingLane s) (chanSrc src.crust src.num.val)).prob.isSome

/-- A source works its schedule: the tick runs, and the source is on or in probation. -/
def sourceRuns (s : State) (src : SrcId) : Bool :=
  let x := s.crust.at src.crust
  s.core.tickOn && x.handshake && x.logicPower && ((srcOf x src.num.val).active || sourceTested s src)

/-- TEST_PULSE (R189). -/
def execTestPulse (src : SrcId) (s : State) : Host.Outcome State Fault Refusal :=
  .next (if sourceRuns s src && slotOf s == sourceSlot src && !(srcOf (s.crust.at src.crust) src.num.val).pulsed
    then startPulse s src else s)

/-- R192: the input awaits a retry from this source in this frame, the one after its failure. -/
def retryDue (s : State) (src : Fin 8) (i : InSt) : Bool :=
  i.retry.any fun e => e.1 == src && e.2 + 1 == s.core.frameNo

/-- The retry that was due from a source has been made, or falls away. -/
def InSt.dropRetry (i : InSt) (src : Fin 8) : InSt := { i with retry := i.retry.filter fun e => e.1 != src }

/-- RETRY_PULSE (R192): some input of the crust awaits a retry from this source. -/
def execRetryPulse (src : SrcId) (s : State) : Host.Outcome State Fault Refusal :=
  let x := s.crust.at src.crust
  let due := (testedInputs (crustMap s src.crust) src.crust).any fun n => retryDue s src.num (inOf x n)
  .next (if sourceRuns s src && due && !(srcOf x src.num.val).pulsed then startPulse s src else s)

/-- R190: the judgement of one input at its own source's sample point. A sample of 0 while the debounced level is 1 passes
by itself; every other judgement rests on the pulse, and none is made where the source does not confirm it (R264). -/
def pulseResult (sample confirmed deb : Bool) : Option Bool :=
  if !sample && deb then some true
  else if !confirmed then none
  else some (!sample)

/-- R190: the input reads 0 at a foreign sample point while it read 1 at the pulse start and at the end of the mask. -/
def foreignPulse (i : InSt) (sample maskEnd : Bool) : Bool := i.rawAtPulse && !sample && maskEnd

/-- R206: the pulse test as it stands before the frame's first judgement is kept. -/
def InSt.keepBefore (i : InSt) : InSt :=
  { i with before := some (i.before.getD
      { pulseT := i.pulseT, retry := i.retry, sincePulse := i.sincePulse, anomaly := i.anomaly }) }

/-- R206: a judgement of this frame is voided by a field supply event of the same frame. -/
def InSt.voidPulse (i : InSt) : InSt :=
  match i.before with
  | some b => { i with pulseT := b.pulseT, retry := [], sincePulse := b.sincePulse, anomaly := b.anomaly, before := none }
  | none => i

/-- A pulse test failed: the first failure leaves T and asks for a retry, a failed retry clears T (R192). -/
def pulseFailed (s : State) (i : InSt) (src : Fin 8) (code : Byte) : InSt :=
  let j := i.report code
  if retryDue s src i then { j.dropRetry src with pulseT := false }
  else { j with
    retry := (j.dropRetry src).retry ++ [(src, s.core.frameNo)], sincePulse := if i.pulseT then min i.sincePulse 15 else i.sincePulse }

/-- A pulse test passed, in the source's own slot or on a retry (R192). -/
def pulsePassed (i : InSt) (src : Fin 8) (ownSlot : Bool) : InSt :=
  if ownSlot then { i.dropRetry src with pulseT := true, sincePulse := 0 }
  else { i.dropRetry src with sincePulse := if i.pulseT then 0 else i.sincePulse }

/-- R190, R192: what one Tested input makes of a sampled pulse. In a frame in which its own source pulses as well, no foreign
test is made, and a retry due falls to the regular slots. -/
def judgeInput (s : State) (m : List (List Byte)) (x : CrustSt) (src : SrcId) (regular confirmed : Bool)
    (sample maskEnd : BitVec 24) (n : Nat) (i : InSt) : InSt :=
  let own := sourceOfInput m src.crust n
  let retrying := retryDue s src.num i
  if !(regular || retrying) then i
  else
    let j := i.keepBefore
    if own = src.num.val then
      match pulseResult (sample.getLsbD n) confirmed i.deb with
      | some true => pulsePassed j src.num regular
      | some false => pulseFailed s j src.num anMissedPulse
      | none => i
    else if (srcOf x own).pulsed then (if retrying then j.dropRetry src.num else i)
    else if foreignPulse i (sample.getLsbD n) (maskEnd.getLsbD n) then pulseFailed s j src.num anForeignPulse
    else if retrying then j.dropRetry src.num
    else i

/-- R206: own lockout or an undervoltage report in this frame: pulse tests are not evaluated. -/
def supplyBad (x : CrustSt) : Bool := x.uvSince || x.lockoutSince

/-- R184: a source reports the first of its anomalies in order. -/
def SrcSt.report (z : SrcSt) (code : Byte) : SrcSt := { z with anomaly := firstAnomaly z.anomaly code }

/-- PULSE_TEST_SAMPLE (R184, R190). A pulse is foreign to the inputs of the source's own crust alone (DESIGN CHOICE, log 119). -/
def execPulseTestSample (src : SrcId) (sample maskEnd : BitVec 24) (readbackMv : Nat) (s : State) :
    Host.Outcome State Fault Refusal :=
  let c := src.crust
  let x := s.crust.at c
  match (srcOf x src.num.val).pulseAt with
  | none => .next s
  | some p =>
    let m := crustMap s c
    let regular := slotOf s == sourceSlot src
    let confirmed := decide (readbackMv < 5500)
    let bad := supplyBad x
    let off := BitVec.ofNat 20 (p.off.toNat + sourcePw m c src.num.val - 1000)
    .next (modCrust (setOff s off) c fun x =>
      let y := modSrc x src.num.val fun z =>
        let z := { z with pulseAt := none }
        if bad then z
        else if confirmed then { z with readbackOk := z.readbackOk || regular }
        else z.report anSrcReadback
      if bad then (testedInputs m c).foldl (fun y n => modIn y n fun i =>
        i.dropRetry src.num) y
      else (testedInputs m c).foldl (fun y n => modIn y n (judgeInput s m x src regular confirmed sample maskEnd n)) y)

/-- R206: a field supply event voids the pulse tests that this frame has judged already. -/
def voidPulses (x : CrustSt) : CrustSt :=
  { x with
    ins := tabMap InSt.init x.ins fun _ i => i.voidPulse
    srcs := tabMap SrcSt.init x.srcs fun _ z =>
      { z with readbackOk := false, anomaly := if z.anomaly = anSrcReadback then 0 else z.anomaly } }

/-- THRESHOLD_CHECK (R191): the two inputs of the slot; a result for an input not in use is discarded. -/
def execThresholdCheck (c : Side) (pass0 pass1 : Bool) (s : State) : Host.Outcome State Fault Refusal :=
  let x := s.crust.at c
  let slot := slotOf s
  if !(s.core.tickOn && x.handshake && x.logicPower && decide (slot < 12)) then .next s
  else
    let m := crustMap s c
    let one := fun (x : CrustSt) (n : Nat) (pass : Bool) =>
      if modeOfInput m (chanIn c n) = 0#8 then x
      else modIn x n fun i => if pass then { i with sinceThreshold := 0 } else i.report anThreshold
    .next (modCrust (setOff s (BitVec.ofNat 20 (tfUnits s.core.tfCode / 20))) c fun x =>
      one (one x (2 * slot) pass0) (2 * slot + 1) pass1)

/-- SRC_OVERCURRENT (R184): only outside a pulse. -/
def execSrcOvercurrent (src : SrcId) (s : State) : Host.Outcome State Fault Refusal :=
  let z := srcOf (s.crust.at src.crust) src.num.val
  .next (if sourceRuns s src && z.active && z.pulseAt.isNone then
    modCrust s src.crust fun x => modSrc x src.num.val fun z => z.report anSrcOvercurrent
  else s)

/-- OSSD_PULSE_TIMEOUT (R193). -/
def execOssdPulseTimeout (ch : InChan) (t : BitVec 20) (s : State) : Host.Outcome State Fault Refusal :=
  let c := ch.crust
  let n := ch.num.val
  let i := inOf (s.crust.at c) n
  match i.ossdMark, inputEntry (crustMap s c) (chanIn c n) with
  | some mk, some e =>
    if inputMode e = 3#8 ∧ inputOssdp e ≠ 0 ∧ i.deb ∧ (inputOssdp e * 100000 : Int) ≤ unitsBetween s mk (stampAt s t) then
      .next (modCrust (setOff s t) c fun x => modIn x n fun i => { i with ossdLate := true })
    else .next s
  | _, _ => .next s

/-! ## The counter path (R196, R197) -/

/-- Two edges on one input closer together than 4 us. -/
def edgeTooSoon (s : State) (i : InSt) (now : Stamp) : Bool :=
  match i.lastAny with
  | some p => decide (unitsBetween s p now < 400)
  | none => false

/-- R197: the direction and the turning point after the count has moved to `n`. -/
def moveQuad (q : QuadSt) (n : W32) (dirhyst : Nat) : QuadSt :=
  if q.closing then
    if n.toInt < q.turn.toInt then { q with count := n, turn := n }
    else if (dirhyst : Int) ≤ n.toInt - q.turn.toInt then { q with count := n, turn := n, closing := false }
    else { q with count := n }
  else
    if q.turn.toInt < n.toInt then { q with count := n, turn := n }
    else if (dirhyst : Int) ≤ q.turn.toInt - n.toInt then { q with count := n, turn := n, closing := true }
    else { q with count := n }

/-- x4 decoding: the first input leads when, after the edge, first and second differ on an edge of the first, or agree on an
edge of the second. -/
def quadUp (edgeOnFirst first second reverse : Bool) : Bool :=
  let lead := if edgeOnFirst then first != second else first == second
  lead != reverse

/-- The edge taken by a Counter or Frequency input. -/
def countEdge (s : State) (mode : Byte) (i : InSt) (level : Bool) (now : Stamp) : InSt :=
  let tooSoon := edgeTooSoon s i now
  let j := { i with raw := level, deb := level, lastAny := some now }
  let k := if tooSoon then ({ j with overrate := true }).report anOverrate else j
  if !level then k
  else if mode = 4#8 then
    if k.overrate then k else { k with count := if k.count.toNat < 0x7FFFFFFF then k.count + 1 else k.count }
  else
    { k with period := (match i.lastEdge with
                        | some p => (unitsBetween s p now).toNat
                        | none => 0),
             lastEdge := some now, silent := false }

/-- R207: a count edge within one filter time of the reference's first raw edge is taken first, and the capture then takes
the result. -/
def recapture (s : State) (filter : Nat) (now : Stamp) (q : QuadSt) : QuadSt :=
  match q.refAt with
  | some r => if decide ((unitsBetween s r now).natAbs ≤ filter) then captureRef r q else q
  | none => q

/-- R207: a count edge within one filter time of the reference edge that homed the count is taken before it: the count stands
where the homing left it. -/
def rehome (s : State) (filter : Nat) (now : Stamp) (before q : QuadSt) : QuadSt :=
  match before.lastRef with
  | some (r, true) =>
    if decide ((unitsBetween s r now).natAbs ≤ filter) then
      { q with count := before.count, turn := q.turn + (before.count - q.count) }
    else q
  | _ => q

/-- R207: the capture of the learning run that a reference edge made takes the result of a count edge within one filter time. -/
def recaptureLearn (s : State) (c : Side) (p filter : Nat) (now : Stamp) (moved : Int) : State :=
  match s.mbx.learn, (quadOf (s.crust.at c) p).lastRef with
  | some run, some (r, false) =>
    if decide ((unitsBetween s r now).natAbs ≤ filter) then
      let shift := fun (v : Option Int) => v.map (· + moved)
      let last := fun (l : List (Option Int × Option Int)) => match l.getLast? with
        | some (o, some x) => l.dropLast ++ [(o, shift (some x))]
        | some (o, none) => l.dropLast ++ [(shift o, none)]
        | none => l
      { s with mbx := { s.mbx with learn := some { run with caps := run.caps.set c (last (run.caps.at c)) } } }
    else s
  | _, _ => s

/-- The level an edge leaves on a counter input. -/
def InSt.takeEdge (i : InSt) (level : Bool) (now : Stamp) : InSt :=
  { i with raw := level, deb := level, lastAny := some now }

/-- R196: an over-rate on an input of the counter path. -/
def InSt.overRate (i : InSt) : InSt := ({ i with overrate := true }).report anOverrate

/-- An edge taken, an over-rate where it comes within 4 us of the input's last one. -/
def InSt.edgeTaken (i : InSt) (s : State) (level : Bool) (now : Stamp) : InSt :=
  if edgeTooSoon s i now then (i.takeEdge level now).overRate else i.takeEdge level now

/-- R196: both phases change within one filter time: ILLEGAL, and the count does not move. -/
def illegalEdge (s : State) (n o p : Nat) (level : Bool) (now : Stamp) (x : CrustSt) : CrustSt :=
  let y := modIn (modIn x n fun i => i.edgeTaken s level now) o fun i => i.edgeTaken s (!i.raw) now
  modIn (modQuad y p fun q => { q with sinceIllegal := 0 }) (2 * p) fun i => i.report anIllegal

/-- R196, R197: an edge of one phase. An over-rate on either phase freezes the pair's count for the rest of the frame. -/
def phaseEdge (s : State) (n o p : Nat) (up : Bool) (level : Bool) (dirhyst filter : Nat) (now : Stamp) (x : CrustSt) :
    CrustSt :=
  let y := modIn x n fun i => i.edgeTaken s level now
  if (inOf y n).overrate || (inOf y o).overrate then y
  else modQuad y p fun q =>
    rehome s filter now q (recapture s filter now (moveQuad q (if up then q.count + 1 else q.count - 1) dirhyst))

/-- COUNTER_EDGE (R196). A level that holds less than FILTER is not taken. A pair counts in reverse as the entry of its first input
says (DESIGN CHOICE, log 118). -/
def execCounterEdge (ch : InChan) (level : Bool) (edge : HeldEdge) (t : BitVec 20) (s : State) :
    Host.Outcome State Fault Refusal :=
  let c := ch.crust
  let n := ch.num.val
  let m := crustMap s c
  let now := stampAt s t
  let i := inOf (s.crust.at c) n
  match inputEntry m (chanIn c n) with
  | none => .next s
  | some e =>
    let mode := inputMode e
    if i.raw = level ∨ edge.held < inputFilter e then .next s
    else if mode = 4#8 ∨ mode = 5#8 then
      .next (modCrust (setOff s t) c fun x => modIn x n fun i => countEdge s mode i level now)
    else if mode = 6#8 then
      let p := n / 2
      let o := if n % 2 = 0 then n + 1 else n - 1
      match quadEntry m (sideBase c + p), inputEntry m (chanIn c (2 * p)) with
      | some q, some fe =>
        let both := match edge.otherPhase with
          | some d => decide (d ≤ inputFilter e)
          | none => false
        let other := (inOf (s.crust.at c) o).raw
        let up := quadUp (n % 2 == 0) (if n % 2 = 0 then level else other) (if n % 2 = 0 then other else level) (inputReverse fe)
        let v := if both then setOff s t
          else recaptureLearn (setOff s t) c p (inputFilter e) now (if up then 1 else -1)
        .next (modCrust v c
          (if both then illegalEdge s n o p level now
           else phaseEdge s n o p up level (byteAt q 2).toNat (inputFilter e) now))
      | _, _ => .next s
    else .next s

/-- FREQUENCY_TIMEOUT (R196): 4 s without an edge. -/
def execFrequencyTimeout (ch : InChan) (s : State) : Host.Outcome State Fault Refusal :=
  let c := ch.crust
  let n := ch.num.val
  let i := inOf (s.crust.at c) n
  match i.lastEdge with
  | some p =>
    if modeOfInput (crustMap s c) (chanIn c n) = 5#8 ∧ 400000000 ≤ unitsBetween s p (stampAt s s.core.off) then
      .next (modCrust s c fun x => modIn x n fun i => { i with silent := true, lastEdge := none, period := 0 })
    else .next s
  | none => .next s

/-- R196: the frequency reported at a moment, in 0.01 Hz units: 10^10 over the interval in 10 ns units. -/
def frequencyAt (s : State) (i : InSt) (now : Stamp) : Nat :=
  if i.silent || i.period == 0 then 0
  else match i.lastEdge with
    | some p => 10000000000 / max i.period (unitsBetween s p now).toNat
    | none => 0

/-! ## Analog inputs (R201, R202) -/

/-- Full scale of an analog input in mV. -/
def analogRange (m : List (List Byte)) (c : Side) (n : Nat) : Nat :=
  match analogEntry m c n with
  | some e => if byteAt e 2 = 0 then 10000 else 30000
  | none => 30000

/-- A reading beyond the range by more than 5 %. -/
def analogBeyond (m : List (List Byte)) (c : Side) (n mv : Nat) : Bool := decide (analogRange m c n * 105 < mv * 100)

def AnaSt.report (a : AnaSt) (code : Byte) : AnaSt := if a.anomaly = 0 then { a with anomaly := code } else a

/-- R443: the sample that a running door cycle takes of a conversion, in its first 4 s. -/
def cycleSample (s : State) (c : Side) (n mv : Nat) (d : Nat) (r : Option CycleRec) : Option CycleRec :=
  match r, activeCfg s with
  | some y, some cfg =>
    match cycleEntry cfg.iomap d with
    | some e =>
      if (byteAt e 6).toNat = sideBase c + n ∧ (s.core.frameNo - y.start).toNat * tfUnits s.core.tfCode < 400000000 then
        some { y with samples := y.samples ++ [BitVec.ofNat 8 (min 255 (mv / max 1 (byteAt e 7).toNat))] }
      else r
    | none => r
  | _, _ => r

/-- ANALOG_CONVERSION (R201, R202). -/
def execAnalogConversion (ch : AnaId) (mv : Nat) (reference : Option Bool) (s : State) : Host.Outcome State Fault Refusal :=
  let c := ch.crust
  let n := ch.num.val
  let m := crustMap s c
  if !(s.crust.at c).logicPower || s.core.inReset then .next s
  else
    let refer := if 12 ≤ slotOf s then reference else none
    let s1 := modCrust s c fun x =>
      let y := modAna x n fun a =>
        { a with mv := mv, seq := a.seq + 1, fresh := true, stalled := false, bad := a.bad || analogBeyond m c n mv }
      match refer with
      | some true => { y with sinceReference := 0 }
      | some false =>
        (List.range 4).foldl (fun y k => modAna y k fun a => a.report anReference) y
      | none => y
    let s2 := if (analogEntry m c n).isSome && analogBeyond m c n mv then countAnalogOver s1 1 else s1
    .next (if hearthLive s then
      { s2 with jrn := { s2.jrn with
          cycles := ⟨cycleSample s c n mv 0 s.jrn.cycles.a, cycleSample s c n mv 1 s.jrn.cycles.b⟩ } }
    else s2)

/-- STALL (R202). -/
def execStall (ch : AnaId) (s : State) : Host.Outcome State Fault Refusal :=
  let c := ch.crust
  let n := ch.num.val
  .next (if (s.crust.at c).logicPower && !s.core.inReset && (analogEntry (crustMap s c) c n).isSome then
    modCrust s c fun x => modAna x n fun a => ({ a with stalled := true, bad := true }).report anStall
  else s)

end Sys2Proof.Machine
end

