-- ==== Sys2Proof/Machine/Outputs.lean ====
section
/-! DEFINITION. Field outputs (09): the 40 us readback (R212), probes of off pairs (R215-R218, R238), dark pulses (R219,
R220), the 0.9 Tf sample (R225, R39), blanking, trips and the thermal cut (R222), the LOCKDRV profile and its stuck-drive
watchdogs (R228, R229), crust silence (R230), and the current-sense check (R425). Every event acts on the crust alone; the
lanes see it in the snapshot of the following tick. -/

namespace Sys2Proof.Machine

/-- The configuration a crust works by, once the handshake has delivered it (R41). -/
def crustCfg (s : State) (c : Side) : Option LoafCfg :=
  if (s.crust.at c).handshake && (s.crust.at c).logicPower then (s.lane.at c).cfg else none

/-- A crust works its leg timetable: the tick runs, and the handshake has armed the crust (R212). -/
def crustWorks (s : State) (c : Side) : Bool :=
  s.core.tickOn && (s.crust.at c).handshake && (s.crust.at c).logicPower

def paramsOf (s : State) (c : Side) : List ParamRec :=
  match crustCfg s c with
  | some cfg => cfg.params
  | none => []

/-- R233: a leg reports the first of its anomalies in order. -/
def LegSt.report (l : LegSt) (code : Byte) : LegSt := { l with anomaly := firstAnomaly l.anomaly code }

/-- R214: an anomaly of a leg is reported by the leg that holds its group's tally. -/
def reportLeg (ps : List ParamRec) (c : Side) (n : Nat) (code : Byte) (x : CrustSt) : CrustSt :=
  modLeg x (tallyLeg ps c n) fun l => l.report code

/-- R222: the leg's thermal cut is open, or its group is open after a trip, or the crust holds it open by itself (R238):
no judgement is made on it. -/
def legUnjudged (l : LegSt) : Bool := l.thermal || l.tripped || l.holdNow

/-- The readback of one leg (R212). -/
def readLeg (ps : List ParamRec) (c : Side) (conducts : BitVec 17) (x : CrustSt) (n : Nat) : CrustSt :=
  let l := legOf x n
  if legUnjudged l || conducts.getLsbD n == l.cmd then x
  else reportLeg ps c n (if l.cmd then anStuckOff else anStuckOn) x

/-- LEG_READBACK (R212). -/
def execLegReadback (c : Side) (conducts : BitVec 17) (s : State) : Host.Outcome State Fault Refusal :=
  if crustWorks s c then
    .next (modCrust (setOff s 4000) c fun x => (List.range 17).foldl (readLeg (paramsOf s c) c conducts) x)
  else .next s

/-! ## Probes -/

/-- The slot of a pair: its number, and slot 0 for KA and KB (R212, R231). -/
def pairSlot (pair : Fin 17) : Nat := if pair.val = 16 then 0 else pair.val

def anyCmd (x : CrustSt) (ns : List Nat) : Bool := ns.any fun n => (legOf x n).cmd
def anyChanged (x : CrustSt) (ns : List Nat) : Bool := ns.any fun n => (legOf x n).changed

/-- R217: every leg of every pair that shares the pair's high-side group. -/
def sharers (ps : List ParamRec) (r : ParamRec) : List ParamRec :=
  if legsShared r && r.ty != tyRAILCUT then
    ps.filter fun q => (q.ty == tyQPAIR || q.ty == tyLOCKDRV) && legsHigh q == legsHigh r
  else [r]

/-- R45, R63: the modes in which pairs are probed, in BOOT the proving period alone; KA and KB only where they are in use. -/
def probesRun (s : State) (pair : Nat) : Bool :=
  match s.core.mode with
  | .operate => true
  | .maintain => true
  | .degraded => pair != 16
  | .boot => s.core.bootStep == .proving && pair != 16
  | _ => false

/-- R46, R49: a crust below lockout or in overvoltage lockout switches nothing on. -/
def suppliedCrust (x : CrustSt) : Bool := !x.lockout && !x.overvolt

/-- A probe by crust `c` is made of the pair of this block: its slot, the mode, the crust at work and supplied and its lane in
service, both legs off and unchanged in this frame (R234), for a high-side probe every pair of a shared group off (R217). -/
def probeDue (s : State) (c : Side) (pair : Fin 17) (ps : List ParamRec) (r : ParamRec) : Bool :=
  let hi := groupLegs r .a
  let lo := groupLegs r .b
  let lows := match c with
    | .a => (sharers ps r).flatMap fun q => groupLegs q .b
    | .b => lo
  crustWorks s c && laneLive s c && suppliedCrust (s.crust.at c) && probesRun s pair.val && slotOf s == pairSlot pair && !anyCmd s.crust.a hi && !anyCmd s.crust.b lows &&
  !anyChanged s.crust.a hi && !anyChanged s.crust.b lo

/-- R238, R425: the crust holds the group open at the next commit. -/
def holdGroup (x : CrustSt) (ns : List Nat) : CrustSt := modLegs x ns fun l => { l with holdNext := true }

/-- R215, R218, R425: what the crust makes of a probe of leg group `ns`, `legMa` being the current its limit of 10 mA is held
against. -/
def probeResult (ps : List ParamRec) (c : Side) (ns : List Nat) (pair : Nat) (both landOk : Bool) (legMa : Nat)
    (x : CrustSt) : CrustSt :=
  let n := ns.headD 0
  if ns.any (fun k => (legOf x k).senseBad) || decide (10 ≤ legMa) then holdGroup (reportLeg ps c n anProbeShort x) ns
  else if both && !landOk then reportLeg ps c n anLoadOpen x
  else { x with probePass := nodupInsert x.probePass pair }

/-- The start and the sample point of the high and the low window in 10 ns units (R212). -/
def highWindow (tf : Byte) : Nat :=
  match tf.toNat with
  | 0 => 2500
  | 1 => 5000
  | _ => tfUnits tf / 10

def lowWindow (tf : Byte) : Nat :=
  match tf.toNat with
  | 0 => 13500
  | _ => tfUnits tf / 2

/-- HIGH_SIDE_PROBE (R215): the QLn land in mV and the largest current of a leg of the high-side group. -/
def execHighSideProbe (pair : Fin 17) (landMv legMa : Nat) (s : State) : Host.Outcome State Fault Refusal :=
  let ps := paramsOf s .a
  match pairBlock ps pair.val with
  | none => .next s
  | some (_, r) =>
    if probeDue s .a pair ps r then
      .next (modCrust (setOff s (BitVec.ofNat 20 (highWindow s.core.tfCode))) .a
        (probeResult ps .a (groupLegs r .a) pair.val (laneLive s .b) (decide (14000 ≤ landMv)) legMa))
    else .next s

/-- LOW_SIDE_PROBE (R215): the high-side land in mV and the current of QLn's group as a whole. -/
def execLowSideProbe (pair : Fin 17) (landMv groupMa : Nat) (s : State) : Host.Outcome State Fault Refusal :=
  let ps := paramsOf s .b
  match pairBlock ps pair.val with
  | none => .next s
  | some (_, r) =>
    if probeDue s .b pair ps r then
      .next (modCrust (setOff s (BitVec.ofNat 20 (lowWindow s.core.tfCode))) .b
        (probeResult ps .b (groupLegs r .b) pair.val (laneLive s .a) (decide (landMv ≤ 2000)) groupMa))
    else .next s

/-! ## Dark pulses -/

/-- R220: on the high side no dark pulse falls in the pull-in or the hold of a lock that the group feeds; on the low side none
in the pull-in of the pair itself. -/
def lockSpared (s : State) (ps : List ParamRec) (c : Side) (r : ParamRec) : Bool :=
  let stage := fun (q : ParamRec) => (driveOf s.crust.a (parN q 0 % 16)).stage
  match c with
  | .a => (sharers ps r).any fun q => q.ty == tyLOCKDRV && stage q != 0
  | .b => r.ty == tyLOCKDRV && stage r == 1

/-- R219, R220, R234: the leg is opened for a dark pulse in this frame: a leg of the energised pair of this slot. -/
def darkPulseDue (s : State) (leg : LegId) (r : ParamRec) : Bool :=
  let hi := groupLegs r .a
  let lo := groupLegs r .b
  let x := s.crust.at leg.crust
  let l := legOf x leg.num.val
  l.cmd && anyCmd s.crust.a hi && anyCmd s.crust.b lo && !anyChanged s.crust.a hi && !anyChanged s.crust.b lo &&
  !l.blanking && !l.thermal && !l.tripped &&
  !lockSpared s (paramsOf s leg.crust) leg.crust r

/-- The output block whose dark pulse falls on this leg in this slot. -/
def darkBlock (s : State) (leg : LegId) : Option ParamRec :=
  let ps := paramsOf s leg.crust
  let slot := slotOf s
  if leg.num.val = 16 then
    if slot = 0 then (pairBlock ps 16).map (·.2) else none
  else
    match pairBlock ps slot with
    | some (_, r) => if (groupLegs r leg.crust).contains leg.num.val then some r else none
    | none => none

/-- DARK_PULSE (R219). -/
def execDarkPulse (leg : LegId) (seenOpen conductsAgain : Bool) (s : State) : Host.Outcome State Fault Refusal :=
  let c := leg.crust
  match darkBlock s leg with
  | none => .next s
  | some r =>
    if crustWorks s c && darkPulseDue s leg r then
      let w := match c with
        | .a => highWindow s.core.tfCode
        | .b => lowWindow s.core.tfCode
      .next (modCrust (setOff s (BitVec.ofNat 20 w)) c fun x =>
        if !seenOpen then reportLeg (paramsOf s c) c leg.num.val anStuckOn x
        else if !conductsAgain then reportLeg (paramsOf s c) c leg.num.val anStuckOff x
        else x)
    else .next s

/-! ## The 0.9 Tf sample (R225, R39) -/

/-- A current is drawn through a leg; the spec's one bound on a current that must not flow, 10 mA of R215, is taken. -/
def drawsCurrent (ma : Nat) : Bool := decide (10 ≤ ma)

/-- The pairs of whose group on a crust some leg meets `p`. -/
def pairsWith (ps : List ParamRec) (c : Side) (p : Nat → Bool) : List Nat :=
  (drivenPairs ps).filter fun k => decide (k < 16) &&
    match pairBlock ps k with
    | some (_, r) => (groupLegs r c).any p
    | none => false

/-- The pairs that a crust reports as energised, or as drawing a current, while its own leg of them is commanded off. -/
def pairsHot (x : CrustSt) (ps : List ParamRec) (c : Side) (p : Nat → Bool) : List Nat :=
  (pairsWith ps c p).filter fun k =>
    match pairBlock ps k with
    | some (_, r) => !anyCmd x (groupLegs r c)
    | none => false

def sampleCrust (s : State) (c : Side) (r : LandReading) (hot : Nat → Bool) : State :=
  if !crustWorks s c then s
  else modCrust s c fun x =>
    let ps := paramsOf s c
    { x with
      landHot := pairsHot x ps c fun n => hot (r.mv.toList.getD n 0)
      drawn := pairsHot x ps c fun n => drawsCurrent (r.ma.toList.getD n 0)
      carries := pairsWith ps c fun n => drawsCurrent (r.ma.toList.getD n 0) }

/-- LAND_SAMPLE (R212, R225). -/
def execLandSample (hi lo : LandReading) (s : State) : Host.Outcome State Fault Refusal :=
  .next (if s.core.tickOn then
    sampleCrust (sampleCrust (setOff s (BitVec.ofNat 20 (tfUnits s.core.tfCode * 9 / 10))) .a hi fun mv => decide (14000 ≤ mv))
      .b lo fun mv => decide (mv ≤ 2000)
  else s)

/-! ## Blanking, trips and the thermal cut (R222) -/

/-- A trip opens the leg's whole group and reports OVERCURRENT. -/
def tripLeg (s : State) (leg : LegId) : State :=
  let ps := paramsOf s leg.crust
  modCrust s leg.crust fun x =>
    reportLeg ps leg.crust leg.num.val anOvercurrent
      (modLegs x (legsWith ps leg.crust leg.num.val) fun l => { l with tripped := true, blanking := false, blankLeft := 0 })

/-- The end of a leg's blanking: it trips where its current limit is active or its thermal cut is open. -/
def endBlanking (s : State) (leg : LegId) (limitActive : Bool) : State :=
  let l := legOf (s.crust.at leg.crust) leg.num.val
  let s1 := modCrust s leg.crust fun x => modLeg x leg.num.val fun l => { l with blanking := false }
  if limitActive || l.thermal then tripLeg s1 leg else s1

/-- BLANKING_END (R222): BLANK has run out. -/
def execBlankingEnd (leg : LegId) (limitActive : Bool) (s : State) : Host.Outcome State Fault Refusal :=
  let l := legOf (s.crust.at leg.crust) leg.num.val
  .next (if crustWorks s leg.crust && l.blanking && l.blankLeft == 0 then endBlanking s leg limitActive else s)

/-- OVERCURRENT (R222): outside blanking, on a leg that is on. -/
def execOvercurrent (leg : LegId) (s : State) : Host.Outcome State Fault Refusal :=
  let l := legOf (s.crust.at leg.crust) leg.num.val
  .next (if crustWorks s leg.crust && l.cmd && !l.blanking && !l.tripped && !l.thermal then tripLeg s leg else s)

/-- THERMAL (R222): during blanking the cut only acts; outside it the leg reports and stays open. -/
def execThermal (leg : LegId) (s : State) : Host.Outcome State Fault Refusal :=
  let l := legOf (s.crust.at leg.crust) leg.num.val
  if (s.crust.at leg.crust).logicPower && !l.thermal then
    .next (modCrust s leg.crust fun x =>
      if l.blanking then modLeg x leg.num.val fun l => { l with thermal := true }
      else reportLeg (paramsOf s leg.crust) leg.crust leg.num.val anThermal
        (modLeg x leg.num.val fun l => { l with thermal := true, tripped := l.cmd }))
  else .next s

/-- THERMAL_RECLOSE (R222): the element has cooled; a leg that reported stays open until commanded on again. -/
def execThermalReclose (leg : LegId) (s : State) : Host.Outcome State Fault Refusal :=
  .next (modCrust s leg.crust fun x => modLeg x leg.num.val fun l => { l with thermal := false })

/-! ## Lock drive (R228, R229) -/

/-- The place of PULLIN and PULLMAX in the LOCKDRV parameter list (R172). -/
def pullIn (r : ParamRec) : Nat := parN r 6
def pullMax (r : ParamRec) : Nat := parN r 7

/-- The factor in percent and DERATE by the pull-ins started in the last 60 s (R228). -/
def derateOf (n : Nat) : Nat × Nat :=
  if n = 0 then (100, 0) else if n ≤ 2 then (85, 1) else if n ≤ 5 then (70, 2) else (60, 3)

def history (d : DriveSt) : Nat := d.bins.foldl (· + ·) 0

/-- R228: an on commit starts a pull-in. -/
def startPullIn (r : ParamRec) (d : DriveSt) : DriveSt :=
  let (f, k) := derateOf (history d)
  { d with
    stage := 1, ticksLeft := (pullIn r * f + 99) / 100, derate := k, level := none, disarmed := false,
    bins := match d.bins with
      | [] => [1]
      | b :: r => (b + 1) :: r }

/-- A pull-in whose time has run out passes into the hold. -/
def endPullIn (s : State) (pair : Nat) : State :=
  let d := driveOf s.crust.a pair
  if crustWorks s .a && d.stage == 1 && d.ticksLeft == 0 then
    modCrust s .a fun x => modDrive x pair fun d => { d with stage := 2 }
  else s

/-- PULL_IN_END (R228). -/
def execPullInEnd (pair : Fin 16) (s : State) : Host.Outcome State Fault Refusal := .next (endPullIn s pair.val)

/-- PULL_IN_LEVEL_SAMPLE (R229): a level below 10 mA disarms crust B's watchdog for this pull-in. -/
def execPullInLevelSample (pair : Fin 16) (ma : Nat) (s : State) : Host.Outcome State Fault Refusal :=
  let d := driveOf s.crust.b pair.val
  .next (if crustWorks s .b && d.stage == 1 && d.level.isNone then
    modCrust s .b fun x => modDrive x pair.val fun d => { d with level := some ma, disarmed := decide (ma < 10) }
  else s)

/-- R229: a crust's watchdog may cut: crust A from the on commit, whatever its sequencer does; crust B once armed by a level. -/
def watchdogArmed (c : Side) (d : DriveSt) : Bool :=
  match c with
  | .a => d.stage != 0
  | .b => d.stage == 1 && d.level.isSome && !d.disarmed

/-- STUCKDRIVE (R229). -/
def execStuckdrive (c : Side) (pair : Fin 16) (s : State) : Host.Outcome State Fault Refusal :=
  let ps := paramsOf s c
  match pairBlock ps pair.val with
  | some (_, r) =>
    if crustWorks s c && r.ty == tyLOCKDRV && watchdogArmed c (driveOf (s.crust.at c) pair.val) then
      let ns := groupLegs r c
      .next (modCrust s c fun x =>
        let y := modLegs x ns fun l => { l with tripped := true, blanking := false, blankLeft := 0 }
        let z := modDrive (reportLeg ps c (ns.headD 0) anStuckdrive y) pair.val fun d => { d with stage := 0 }
        { z with stuck := nodupInsert z.stuck pair.val })
    else .next s
  | none => .next s

/-- FIRING_HISTORY_BIN (R228): 60 bins of 1 s for each pair. -/
def shiftBins (d : DriveSt) : DriveSt :=
  let b := (0 :: d.bins).take 60
  { d with bins := if b.all (· == 0) then [] else b }

def execFiringHistoryBin (s : State) : Host.Outcome State Fault Refusal :=
  .next (if s.crust.a.logicPower then
    modCrust s .a fun x => { x with drives := tabMap DriveSt.init x.drives fun _ d => shiftBins d }
  else s)

/-! ## Silence (R230) and the current sense (R425) -/

/-- R230: what silence makes of a leg: SAFE on a standard leg, open on any other. A crust below lockout or in overvoltage
lockout closes nothing (R49). -/
def silenceLeg (dead : Bool) (m : List (List Byte)) (c : Side) (n : Nat) (l : LegSt) : LegSt :=
  match standardLeg m c n with
  | some e =>
    if byteAt e 3 = 0x01#8 ∧ !dead then { l with cmd := true }
    else if byteAt e 3 = 0x02#8 then l
    else { l with cmd := false, blanking := false, blankLeft := 0 }
  | none => { l with cmd := false, blanking := false, blankLeft := 0 }

/-- SILENCE of a crust in frames (R209). -/
def silenceFrames (m : List (List Byte)) (c : Side) : Nat :=
  match crustOut m c with
  | some e => (byteAt e 2).toNat
  | none => 4

/-- Ticks since the last valid output frame: none where this frame's has arrived. -/
def frameAge (x : CrustSt) : Nat := if x.staged.isSome then 0 else x.sinceFrame

/-- R230, R237: SILENCE has passed since the last valid frame, on a watchdog oscillator that may run 10 % fast; the time is
kept in ticks, and k ticks leave it below k + 1 frames. -/
def silenceOver (s : State) (c : Side) : Bool :=
  decide (9 * silenceFrames (crustMap s c) c ≤ 10 * (frameAge (s.crust.at c) + 1))

/-- SILENCE_TIMEOUT (R230). -/
def execSilenceTimeout (c : Side) (s : State) : Host.Outcome State Fault Refusal :=
  let x := s.crust.at c
  .next (if x.handshake && x.logicPower && !x.silent && silenceOver s c then
    modCrust s c fun x =>
      { x with
        silent := true, staged := none
        legs := tabEach LegSt.off x.legs 17 (silenceLeg (x.lockout || x.overvolt) (crustMap s c) c)
        drives := tabMap DriveSt.init x.drives fun _ d => { d with stage := 0, ticksLeft := 0, level := none } }
  else s)

/-- The legs checked in slot 12 + j: 4j to 4j + 3, and KA or KB in slot 12 (R425). -/
def senseLegs (slot : Nat) : List Nat :=
  (List.range 4).map (fun k => 4 * (slot - 12) + k) ++ (if slot = 12 then [16] else [])

/-- CURRENT_SENSE_CHECK (R425): the readings at 0 and at 50 mA of the slot's legs in order. -/
def execCurrentSenseCheck (c : Side) (zeroMa refMa : Vector Nat 5) (s : State) : Host.Outcome State Fault Refusal :=
  let slot := slotOf s
  if crustWorks s c && decide (12 ≤ slot) then
    .next (modCrust s c fun x => (senseLegs slot).zipIdx.foldl (fun x e =>
      let z := zeroMa.toList.getD e.2 0
      let r := refMa.toList.getD e.2 0
      modLeg x e.1 fun l => { l with senseBad := !(decide (z < 2) && decide (45 ≤ r) && decide (r ≤ 55)) }) x)
  else .next s

end Sys2Proof.Machine
end

