-- ==== Sys2Proof/Machine/Snapshot.lean ====
section
/-! DEFINITION. What a crust does at a tick (R95): the snapshot of its inputs, sources, analog values and legs as they stood
before the commit (R193, R196, R201, R205, R212, R228), the commit of the staged output set (R222, R228, R230, R238), and the
start of the next frame's counts. -/

namespace Sys2Proof.Machine

/-! ## The snapshot -/

/-- A test has passed within the last 16 frames (R114), by the frames since its last pass. -/
def passedLately (n : Nat) : Bool := decide (n ≤ 15)

def since16 (n : Nat) : Nat := min (n + 1) 16

/-- R193, R264: the source reports a fault in this frame, so the inputs it feeds show Q = 0: whichever anomaly it reports,
since SRC_READBACK is a source fault too and may hide a lasting SRC_OPEN. -/
def sourceFault (x : CrustSt) (k : Nat) : Bool := decide (k < 8) && (srcOf x k).anomaly != 0

/-- R193: Q of an input in this snapshot, before retirement and isolation. -/
def inputQ (x : CrustSt) (e : List Byte) (i : InSt) : Bool :=
  let ok := !x.lockoutSince && !i.frontend
  let fed := !sourceFault x (inputSource e).toNat
  match (inputMode e).toNat with
  | 1 => ok
  | 2 => ok && fed
  | 3 => ok
  | 4 => ok && fed && !i.overrate
  | 5 => ok && fed && !i.overrate
  | 6 => ok && fed && !i.overrate
  | _ => false

/-- R193: T of an input in this snapshot; of one phase for a quadrature input. -/
def inputT (e : List Byte) (i : InSt) : Bool :=
  let thr := passedLately i.sinceThreshold
  match (inputMode e).toNat with
  | 1 => thr
  | 2 => thr && i.pulseT && passedLately i.sincePulse
  | 3 => thr && !(decide (inputOssdp e ≠ 0) && i.deb && i.ossdLate)
  | 4 => thr && (decide (inputSmin e = 0) || passedLately i.sincePulse)
  | 5 => thr && (decide (inputSmin e = 0) || passedLately i.sincePulse)
  | 6 => thr
  | _ => false

def snapInput (s : State) (m : List (List Byte)) (c : Side) (x : CrustSt) (now : Stamp) (n : Nat) : SnapIn :=
  let i := inOf x n
  match inputEntry m (chanIn c n) with
  | none => SnapIn.none
  | some e =>
    { level := isLevelMode (inputMode e) && i.deb, q := inputQ x e i, t := inputT e i, anomaly := i.anomaly,
      value := if inputMode e = 4#8 then i.count.toInt else if inputMode e = 5#8 then frequencyAt s i now else 0,
      stamps := i.stamps, overflow := i.overflow, ossd := i.ossdSeen }

/-- R193, R197: a quadrature pair in the snapshot. -/
def snapQuad (m : List (List Byte)) (c : Side) (x : CrustSt) (p : Nat) : SnapVal :=
  let q := quadOf x p
  match quadEntry m (sideBase c + p), inputEntry m (chanIn c (2 * p)), inputEntry m (chanIn c (2 * p + 1)) with
  | some _, some e, some f =>
    let i := inOf x (2 * p)
    let j := inOf x (2 * p + 1)
    { value := q.count.toInt, q := inputQ x e i && inputQ x f j,
      t := inputT e i && inputT f j && decide (16 ≤ q.sinceIllegal) && q.homed, closing := q.closing, anomaly := 0,
      fresh := true, seq := 0 }
  | _, _, _ => SnapVal.none

/-- R201, R202. -/
def snapAnalog (m : List (List Byte)) (c : Side) (x : CrustSt) (n : Nat) : SnapVal :=
  let a := anaOf x n
  match analogEntry m c n with
  | none => { SnapVal.none with anomaly := a.anomaly }
  | some _ =>
    { value := a.mv, q := !analogBeyond m c n a.mv && !a.stalled && !a.bad, t := passedLately x.sinceReference,
      closing := true, anomaly := a.anomaly, fresh := a.fresh, seq := a.seq }

/-- A table over the keys 0 to `n` - 1. -/
def tabOf {α : Type} [DecidableEq α] (d : α) (n : Nat) (f : Nat → α) : Tab α :=
  ((List.range n).map fun k => (k, f k)).filter fun e => decide (e.2 ≠ d)

/-- The snapshot of a crust at a tick, `now` being the tick. -/
def takeSnap (s : State) (c : Side) (now : Stamp) (x : CrustSt) : Snap :=
  let m := crustMap s c
  { ins := tabOf SnapIn.none 24 (snapInput s m c x now)
    quads := tabOf SnapVal.none 2 (snapQuad m c x)
    ana := tabOf SnapVal.none 4 (snapAnalog m c x)
    srcs := tabOf 0 8 fun k => (srcOf x k).anomaly
    srcPass := indicesWhere 8 fun k => (srcOf x k).readbackOk
    legs := tabOf 0 17 fun k => (legOf x k).anomaly
    history := tabOf 0 16 fun k => history (driveOf x k)
    landHot := x.landHot, drawn := x.drawn, carries := x.carries, probePass := x.probePass, stuck := x.stuck
    held := indicesWhere 17 fun k => (legOf x k).holdNow
    uv := x.uvSince, lockout := x.lockoutSince, overvolt := x.overvoltSince
    out := x.lockoutSince || x.overvoltSince || x.lostOut, supplyEvent := x.supplyEvent }

/-- The largest load current in mA that a source of a crust carried in the frame now ending. -/
def sourceMax (maxMa : Vector Nat 8) (k : Nat) : Nat := maxMa.toList.getD k 0

/-- R184: an input in use names this source with a SMIN that its load current stayed below. -/
def sourceOpen (m : List (List Byte)) (c : Side) (maxMa : Vector Nat 8) (k : Nat) : Bool :=
  (List.range 24).any fun n =>
    match inputEntry m (chanIn c n) with
    | some e => inputMode e != 0 && (inputSource e).toNat == k && decide (sourceMax maxMa k < inputSmin e)
    | none => false

/-- R193: a Counter or Frequency input whose source carried at least its own SMIN. -/
def sminMet (m : List (List Byte)) (c : Side) (maxMa : Vector Nat 8) (n : Nat) : Bool :=
  match inputEntry m (chanIn c n) with
  | some e => (inputMode e == 4#8 || inputMode e == 5#8) && decide (inputSmin e ≤ sourceMax maxMa (inputSource e).toNat)
  | none => false

/-- What the tick finds on the inputs and sources themselves: FRONTEND (R193), SRC_OPEN (R184), and the source current of
Counter and Frequency inputs (R193). -/
def judgeAtTick (s : State) (c : Side) (frontend : BitVec 24) (maxMa : Vector Nat 8) (x : CrustSt) : CrustSt :=
  let m := crustMap s c
  let y := (List.range 8).foldl (fun y k =>
    if sourceOpen m c maxMa k && (srcOf y k).active then modSrc y k fun z => z.report anSrcOpen else y) x
  (List.range 24).foldl (fun y n =>
    if modeOfInput m (chanIn c n) = 0#8 then y
    else
      let bad := frontend.getLsbD n
      let fine := sminMet m c maxMa n
      if bad || fine || (inOf y n).frontend then
        modIn y n fun i =>
          let j := { i with frontend := bad, sincePulse := if fine then 0 else i.sincePulse }
          if bad then j.report anFrontend else j
      else y) y

/-- R192: a retry falls in the frame after its failure or not at all. -/
def retryLapses (now : Stamp) (i : InSt) : List (Fin 8 × W32) := i.retry.filter fun e => e.2 + 1 == now.frame

/-- The per-frame facts of a crust start afresh once the snapshot is latched (R195, R205, R233), `now` being the tick. -/
def startFrame (now : Stamp) (x : CrustSt) : CrustSt :=
  { x with
    ins := tabEach InSt.init x.ins 24 fun _ i =>
      { i with stamps := [], overflow := 0, ossdSeen := false, anomaly := 0, overrate := false, sinceThreshold := since16 i.sinceThreshold,
               sincePulse := since16 i.sincePulse, retry := retryLapses now i, before := none }
    quads := tabEach QuadSt.init x.quads 2 fun _ q => { q with sinceIllegal := since16 q.sinceIllegal }
    srcs := tabMap SrcSt.init x.srcs fun _ z => { z with anomaly := 0, readbackOk := false, pulsed := false }
    ana := tabMap AnaSt.init x.ana fun _ a => { a with fresh := false, anomaly := 0, bad := a.stalled }
    sinceReference := since16 x.sinceReference
    legs := tabMap LegSt.off x.legs fun _ l => { l with anomaly := 0, blankLeft := l.blankLeft - 1 }
    landHot := [], drawn := [], carries := [], probePass := [], stuck := [], supplyEvent := false
    uvSince := x.undervolt, lockoutSince := x.lockout, overvoltSince := x.overvolt, lostOut := false, snapLost := false
    sinceFrame := if x.staged.isSome then 1 else x.sinceFrame + 1 }

/-! ## The commit -/

/-- The key under which a staged set carries the drive command of a LOCKDRV pair. -/
def driveKey (p : Nat) : Nat := 0x20 + p

/-- The key under which a staged set names a pair that it switches on. -/
def pairKey (p : Nat) : Nat := 0x40 + p

/-- The blocks of a leg whose pairs the staged set switches on: its own block, or those of a shared group (R168, R213). -/
def blocksOn (cfg : LoafCfg) (c : Side) (set : Tab Bool) (n : Nat) : List ParamRec :=
  (blocksOfLeg cfg.params c n).filter fun r => match pairOf r with
    | some p => tabGet false set (pairKey p)
    | none => false

/-- BLANK of a leg in ticks (R222): that of the block whose pair switches it on; of several, the first in PARAM order (DESIGN
CHOICE, log 109). -/
def blankOf (cfg : Option LoafCfg) (c : Side) (set : Tab Bool) (n : Nat) : Nat :=
  match cfg with
  | none => 0
  | some cfg =>
    match blocksOn cfg c set n ++ blocksOfLeg cfg.params c n with
    | r :: _ => blankTicks cfg.tfCode r
    | [] =>
      match standardLeg cfg.iomap c n with
      | some e => ticksOfMs cfg.tfCode (byteAt e 6).toNat
      | none => 0

/-- R222: blanking runs from the on commit of a leg whose BLANK is not 0. -/
def blankFrom (blank : Nat) (on : Bool) (l : LegSt) : Bool × Nat :=
  if !on then (false, 0) else if l.cmd then (l.blanking, l.blankLeft) else (decide (blank ≠ 0), blank)

/-- R95, R238: one leg at the commit: as staged, unless the crust holds it open by itself. -/
def commitLeg (cfg : Option LoafCfg) (c : Side) (set : Tab Bool) (n : Nat) (l : LegSt) : LegSt :=
  let staged := tabGet false set n
  let on := staged && !l.holdNext
  let b := blankFrom (blankOf cfg c set n) on l
  { l with
    cmd := on, changed := on != l.cmd, tripped := l.tripped && staged, blanking := b.1, blankLeft := b.2
    holdNow := l.holdNext, holdNext := false }

/-- R228, R229: the drive of one LOCKDRV pair at the commit. -/
def commitDrive (c : Side) (set : Tab Bool) (blocked : Bool) (r : ParamRec) (p : Nat) (d : DriveSt) : DriveSt :=
  if !tabGet false set (driveKey p) then { d with stage := 0, ticksLeft := 0, level := none, disarmed := false }
  else if d.stage = 0 then
    if blocked then d
    else match c with
      | .a => startPullIn r d
      | .b => { d with stage := 1, level := none, disarmed := false }
  else d

def lockDrives (cfg : Option LoafCfg) : List (Nat × ParamRec) :=
  match cfg with
  | none => []
  | some cfg => (List.range 16).filterMap fun p =>
    match pairBlock cfg.params p with
    | some (_, r) => if r.ty = tyLOCKDRV then some (p, r) else none
    | none => none

/-- The commit may take place: the crust is at work and neither locked out nor silent (R41, R49, R230). -/
def mayCommit (x : CrustSt) : Bool := x.logicPower && x.handshake && !x.lockout && !x.overvolt && !x.silent

/-- The commit of the staged set; a crust without one holds its committed outputs (R230). -/
def commit (cfg : Option LoafCfg) (c : Side) (x : CrustSt) : CrustSt :=
  match x.staged with
  | none => { x with legs := tabMap LegSt.off x.legs fun _ l => { l with changed := false, holdNow := false } }
  | some set =>
    let y := { x with staged := none }
    if !mayCommit x then y
    else
      let z := { y with legs := tabEach LegSt.off y.legs 17 (commitLeg cfg c set) }
      (lockDrives cfg).foldl (fun z e =>
        let legs := groupLegs e.2 c
        let blocked := legs.any fun n => (legOf z n).tripped || !(legOf z n).cmd
        modDrive z e.1 (commitDrive c set blocked e.2 e.1)) z

/-- A pull-in running at crust A is one tick shorter. -/
def drivesTick (x : CrustSt) : CrustSt :=
  { x with drives := tabMap DriveSt.init x.drives fun _ d => { d with ticksLeft := d.ticksLeft - 1 } }

/-! ## Sources by mode (R45, R184) -/

/-- A retired source is held off, in probation too (R266, R270). They are set at a tick alone, also where a learning run or the
shutdown self-test begins or ends (DESIGN CHOICE, log 108). -/
def setSources (s : State) (c : Side) : State :=
  let run := sourcesRun s c
  let l := reportingLane s
  modCrust s c fun x => { x with srcs := tabEach SrcSt.init x.srcs 8 fun k z =>
    let r := chanOf l (chanSrc c k)
    { z with active := run && !chanOut r, pulseAt := if run && !r.retired then z.pulseAt else none } }

/-- One crust at the tick: judged, its snapshot latched before the commit, then the staged set committed (R95). A retired
lane's crust opens everything (R267). -/
def crustTick (env : TickEnv) (s : State) (c : Side) : State :=
  let x0 := s.crust.at c
  if !x0.logicPower then modCrust s c fun x => { x with snap := Snap.empty }
  else
    let now : Stamp := { frame := s.core.frameNo + 1, off := 0 }
    let x1 := judgeAtTick s c (env.frontend.at c) (env.srcMaxMa.at c) x0
    let snap := takeSnap s c now x1
    let cfg := crustCfg s c
    modCrust s c fun _ =>
      let y := commit cfg c (drivesTick (startFrame now { x1 with snap := snap }))
      if (s.lane.at c).retired then openCrust y else y

end Sys2Proof.Machine
end

