-- ==== Sys2Proof/Machine/PhaseS.lean ====
section
/-! DEFINITION. Phase S (R92): the hearth's deliveries to the lanes (R70, R391, R393, R419), the forming of the input beads
and values from the snapshots and the cross-lane exchange (R117, R122, R123, R126, R129, R193), and the reports that the
snapshots carry (R213-R229, R258, R263, R270). -/

namespace Sys2Proof.Machine

/-! ## Beads of the field inputs -/

/-- The source of an input is out of service, so the input carries Q = 0 (R264, R266). -/
def sourceOut (l : LaneSt) (m : List (List Byte)) (c : Side) (n : Nat) : Bool :=
  match inputEntry m (chanIn c n) with
  | some e => decide ((inputSource e).toNat < 8) && chanOut (chanOf l (chanSrc c (inputSource e).toNat))
  | none => false

/-- R117: an input has a debounced level. -/
def hasLevel (m : List (List Byte)) (c : Side) (n : Nat) : Bool := isLevelMode (modeOfInput m (chanIn c n))

/-- R117: the bead that the owning lane forms from a valid snapshot. -/
def snapBead (l : LaneSt) (m : List (List Byte)) (c : Side) (snap : Snap) (n : Nat) : Byte :=
  let i := tabGet SnapIn.none snap.ins n
  mkBead i.level { q := i.q && !sourceOut l m c n, t := i.t, d := true, f := false, age := 0 }

/-- The bead of one input in one lane: `fresh` where a valid snapshot reached this lane, `bad` where the entry check found a
parity error. DESIGN CHOICE, log 78: without a valid snapshot the bead that ages (R122) is the one of the frame before as
applied, with the V and F of a force or override removed since; log 79: a force or override shows over the 0x08 of an input
that has no debounced level (R117). -/
def inputBead (l : LaneSt) (m : List (List Byte)) (c : Side) (snap : Snap) (ownerOut fresh bad : Bool) (n : Nat) : Byte :=
  let r := chanOf l (chanIn c n)
  let src :=
    if !hasLevel m c n then host0
    else if bad then paritySub
    else if fresh then snapBead l m c snap n
    else aged (tabGet paritySub l.inBeads (chanIn c n))
  appliedBead (ownerOut || chanOut r) r.iso r.force src

/-- A value with the effects of its channel's record: retired Q = 0 and F = 1, isolated Q = 0 (R193, R266). -/
def chanVal (ownerOut : Bool) (rs : List ChanRec) (srcOut : Bool) (v : Val) : Val :=
  let out := ownerOut || rs.any chanOut
  { v with q := v.q && !out && !srcOut && !(rs.any fun r => r.iso.isSome), f := v.f || out }

def agedVal (v : Val) : Val := { v with age := min (v.age + 1) 3 }

/-- The value a lane holds after the snapshot of this frame, or the last one aged (R122). -/
def freshOr (fresh : Bool) (old new : Val) : Val := if fresh then new else agedVal old

def snapVal (q t closing : Bool) (value : Int) : Val :=
  { value := value, q := q, t := t, f := false, age := 0, closing := closing }

/-- The values of one crust's channels in one lane: Counter and Frequency inputs, quadrature pairs, analog inputs, DERATE. -/
def laneVals (l : LaneSt) (m : List (List Byte)) (ps : List ParamRec) (c : Side) (snap : Snap) (ownerOut fresh : Bool) :
    List (Nat × Val) :=
  let old := fun (k : Nat) => { tabGet Val.none l.vals k with f := false }
  let ins := (List.range 4).filterMap fun n =>
    let mode := modeOfInput m (chanIn c n)
    if mode = 4#8 ∨ mode = 5#8 then
      let i := tabGet SnapIn.none snap.ins n
      some (chanIn c n, chanVal ownerOut [chanOf l (chanIn c n)] (sourceOut l m c n)
        (freshOr fresh (old (chanIn c n)) (snapVal i.q i.t true i.value)))
    else none
  let quads := (List.range 2).filterMap fun p =>
    let code := sideBase c + p
    match quadEntry m code with
    | some _ =>
      let q := tabGet SnapVal.none snap.quads p
      some (0x100 + code, chanVal ownerOut [chanOf l (chanIn c (2 * p)), chanOf l (chanIn c (2 * p + 1))]
        (sourceOut l m c (2 * p) || sourceOut l m c (2 * p + 1))
        (freshOr fresh (old (0x100 + code)) (snapVal q.q q.t q.closing q.value)))
    | none => none
  let ana := (List.range 4).filterMap fun k =>
    match analogEntry m c k with
    | some _ =>
      let a := tabGet SnapVal.none snap.ana k
      some (chanAna c k, chanVal ownerOut [chanOf l (chanAna c k)] false
        (freshOr fresh (old (chanAna c k)) (snapVal a.q a.t true a.value)))
    | none => none
  let der := if c = .a then
      (List.range 16).filterMap fun p =>
        match pairBlock ps p with
        | some (_, r) =>
          if r.ty = tyLOCKDRV then
            let o := old (0x200 + p)
            some (0x200 + p, if fresh && !ownerOut then snapVal true true true (derateOf (tabGet (0 : Nat) snap.history p)).2
              else { o with q := false })
          else none
        | none => none
    else []
  ins ++ quads ++ ana ++ der

/-- A valid snapshot of a crust has arrived (R96, R259): it was not lost in a RESYNC of the barrier FIFO, and none is due (R487,
R488). -/
def snapValid (env : PhaseSEnv) (s : State) (c : Side) : Bool :=
  let x := s.crust.at c
  env.crustOk.at c && x.logicPower && !x.resync && !x.snapLost

/-- A lane takes one crust's inputs: its own from the snapshot, the partner's over the cross-lane link (R117, R122). A lane whose
clock has stopped takes nothing in (R485). -/
def takeInputs (s : State) (env : PhaseSEnv) (l : Side) (x : LaneSt) (c : Side) : LaneSt :=
  match (if x.retired || x.stopped then none else x.cfg) with
  | none => x
  | some cfg =>
    let m := cfg.iomap
    let snap := (s.crust.at c).snap
    let ownerOut := (s.lane.at c).retired
    let fresh := snapValid env s c && !ownerOut && (l == c || (env.crossOk && !(s.lane.at c).stopped))
    let hit := fun (n : Nat) => fresh && env.parity.any fun h =>
      h.chan.crust == c && h.chan.num.val == n && (!h.cross || l != c)
    let crossHit := fun (n : Nat) => env.parity.any fun h => h.chan.crust == c && h.chan.num.val == n && h.cross
    let beads := (List.range 24).foldl (fun t n =>
      tabSet paritySub t (chanIn c n) (inputBead x m c snap ownerOut fresh (hit n) n)) x.inBeads
    { x with
      inBeads := beads
      vals := (laneVals x m cfg.params c snap ownerOut fresh).foldl (fun t e => tabSet Val.none t e.1 e.2) x.vals
      entryParity := x.entryParity || (l != c && (List.range 24).any fun n => hit n && crossHit n && hasLevel m c n) }

/-! ## Edges of a running door cycle (R443) -/

def snapEdges (c : Side) (x : Snap) : List (Stamp × Bool × Byte) :=
  x.ins.flatMap fun e => e.2.stamps.map fun t => (t.at_, t.level, BitVec.ofNat 8 (chanIn c e.1))

def addEdges (es : List (Stamp × Bool × Byte)) (r : CycleRec) : CycleRec :=
  let all := r.edges ++ es
  { r with edges := all.take 32, edgesCut := r.edgesCut || decide (32 < all.length) }

def cycleEdges (s : State) (c : Side) (x : Snap) : State :=
  let es := snapEdges c x
  if es.isEmpty || !hearthLive s then s
  else { s with jrn := { s.jrn with cycles := s.jrn.cycles.map fun r => r.map (addEdges es) } }

def overflowCount (x : Snap) : Nat := x.ins.foldl (fun n e => n + e.2.overflow) 0

/-! ## Reports of a snapshot -/

/-- A leg's anomaly as a report: STUCK_ON and PAIRSHORT are permanent (R258). -/
def legRep (c : Side) (n : Nat) (code : Byte) : Rep :=
  if code = anStuckOn ∨ code = anPairshort then permanent (chanLeg c n) code else transient (chanLeg c n) code

/-- A supply event stands or began (R263). -/
def snapSupply (x : Snap) : Bool := x.uv || x.lockout || x.overvolt || x.supplyEvent

/-- The reports of one valid snapshot. Within a supply event input reports and transient leg reports are its effects (R206,
R263). -/
def snapReps (cfg : LoafCfg) (l : LaneSt) (c : Side) (x : Snap) : List Rep :=
  (x.ins.filterMap fun e =>
    if e.2.anomaly = 0 ∨ snapSupply x then none else some (transient (chanIn c e.1) e.2.anomaly)) ++
  (x.srcs.map fun e => transient (chanSrc c e.1) e.2) ++
  (x.ana.filterMap fun e => if e.2.anomaly = 0 then none else some (transient (chanAna c e.1) e.2.anomaly)) ++
  ((x.legs.map fun e => legRep c e.1 e.2).filter fun r => r.permanent || !snapSupply x) ++
  (if x.supplyEvent then
    ((List.range 17).filter fun n => legConfigured cfg c n &&
      (chanOf l (chanLeg c (tallyLeg cfg.params c n))).prob.isNone).map fun n => transient (chanLeg c n) anSupply
  else [])

/-- R216, R223, R229: what a snapshot changes in a lane's staging records. Passed probes first, so that a short found in
the same frame asks for later ones. -/
def snapPairs (cfg : LoafCfg) (c l : Side) (x : Snap) (r : LaneSt) : LaneSt :=
  let r1 := x.probePass.foldl (fun r p => modPair r p fun q =>
    match c with
    | .a => { q with shortHi := false }
    | .b => { q with shortLo := false }) r
  let r2 := x.legs.foldl (fun r e =>
    let pairs := (legsWith cfg.params c e.1).flatMap fun n => pairsOfLeg cfg.params c n
    if e.2 = anProbeShort then pairs.foldl (fun r p => modPair r p fun q => { q with shortHi := true, shortLo := true }) r
    else if e.2 = anOvercurrent ∨ e.2 = anThermal then
      if pairs.isEmpty then
        (if c = l then { r with stdHoldOff := tabSet 0 r.stdHoldOff e.1 17 } else r)
      else pairs.foldl (fun r p => modPair r p fun q => { q with holdOff := 17 }) r
    else r) r1
  x.stuck.foldl (fun r p => modPair r p fun q => { q with stuck := true }) r2

/-- Probation facts that a snapshot brings (R270): probes of a pair, readback passes of a source, fresh conversions with a
passed reference; a standing supply event starts the probations of the crust's channels again. -/
def snapProbation (cfg : LoafCfg) (c : Side) (x : Snap) (l : LaneSt) : LaneSt :=
  let upd := fun (l : LaneSt) (n : Nat) (f : Probation → Probation) =>
    if (chanOf l n).prob.isSome then modChan l n fun r => { r with prob := r.prob.map f } else l
  let l1 := x.probePass.foldl (fun l p =>
    match pairBlock cfg.params p with
    | none => l
    | some (_, r) =>
      ([Side.a, Side.b].flatMap fun d => (groupLegs r d).map fun n => chanLeg d (tallyLeg cfg.params d n)).foldl
        (fun l n => upd l n fun q =>
          match c with
          | .a => { q with hiProbe := true }
          | .b => { q with loProbe := true }) l) l
  let l2 := x.srcPass.foldl (fun l k => upd l (chanSrc c k) fun q => { q with slotPasses := q.slotPasses + 1 }) l1
  let l3 := x.ana.foldl (fun l e => if e.2.fresh && e.2.t then
    upd l (chanAna c e.1) fun q => { q with slotPasses := q.slotPasses + 1 } else l) l2
  let l3 := x.ins.foldl (fun l e => if e.2.ossd then upd l (chanIn c e.1) fun q => { q with ossd := true } else l) l3
  if snapSupply x then
    { l3 with chans := tabMap ChanRec.clear l3.chans fun n r =>
        if chanSide n = some c ∧ r.prob.isSome then
          { r with prob := some freshProbation }
        else r }
  else l3

/-- What a valid snapshot brings to both lanes and the hearth: its reports, what they change in the staging records and the
probations, whether the supply is out (R61), the stamps of a door cycle (R194, R443) and the stamps lost (R195). -/
def useSnapshot (cfg : LoafCfg) (s : State) (c : Side) : State :=
  let x := (s.crust.at c).snap
  let s1 := (snapReps cfg (reportingLane s) c x).foldl laneReport s
  let f := fun (l : Side) (r : LaneSt) =>
    { snapProbation cfg c x (snapPairs cfg c l x r) with supplyOut := r.supplyOut.set c x.out }
  countOverflow (cycleEdges (modLane (modLane s1 .a (f .a)) .b (f .b)) c x) (overflowCount x)

/-- A snapshot that is not valid is lost: the crust reports the supply event and the supply out again with its next one. -/
def loseSnapshot (s : State) (c : Side) : State :=
  modCrust s c fun x => { x with supplyEvent := x.supplyEvent || x.snap.supplyEvent, lostOut := x.lostOut || x.snap.out }

/-- One crust's snapshot as both lanes take it, or CRUSTLINK against the owning lane (R259). -/
def takeSnapshot (env : PhaseSEnv) (s : State) (c : Side) : State :=
  if (s.lane.at c).retired then s
  else if !snapValid env s c then laneReport (loseSnapshot s c) (transient (chanLane c) anCrustlink)
  else
    match activeCfg s with
    | none => s
    | some cfg => useSnapshot cfg s c

/-- R261: both crusts of lanes in service are lost: a fatal fault, and no CRUSTLINK. -/
def crustsLost (s : State) : Bool := bothInService s && !s.crust.a.logicPower && !s.crust.b.logicPower

def takeSnapshots (env : PhaseSEnv) (s : State) : State :=
  if crustsLost s then fatalFault s ftBothCrusts else takeSnapshot env (takeSnapshot env s .a) .b

/-- R123: one transient for each parity error, against the source channel. -/
def parityReps (env : PhaseSEnv) (s : State) : State :=
  env.parity.foldl (fun s h => laneReport s (transient (inChanNum h.chan) anParity)) s

/-- R225, R39: the pairs whose two crusts report them energised, or drawing a current, while both legs are commanded off; and
a retired pair through which a current flows while its high leg serves another pair. -/
def shortedPairs (s : State) (cfg : LoafCfg) : List Nat :=
  let a := s.crust.a.snap
  let b := s.crust.b.snap
  (drivenPairs cfg.params).filter fun p => decide (p < 16) &&
    ((a.landHot.contains p && b.landHot.contains p) || (a.drawn.contains p && b.drawn.contains p) ||
      (pairRetired cfg.params (reportingLane s) p && a.carries.contains p && b.drawn.contains p))

/-- PAIRSHORT: both legs are retired at the end of phase E, and R226 holds from now. -/
def pairShort (cfg : LoafCfg) (s : State) (p : Nat) : State :=
  match pairBlock cfg.params p with
  | none => s
  | some (_, r) =>
    let legs := [Side.a, Side.b].map fun c => chanLeg c ((groupLegs r c).headD 0)
    legs.foldl (fun s n => laneReport s (permanent n anPairshort))
      (modLanes s fun l => modPair l p fun q => { q with pairShort := true })

def findShorts (env : PhaseSEnv) (s : State) : State :=
  if bothInService s && snapValid env s .a && snapValid env s .b then
    match activeCfg s with
    | some cfg => (shortedPairs s cfg).foldl (pairShort cfg) s
    | none => s
  else s

/-! ## Deliveries of the hearth -/

def applyChanOp (s : State) (e : Nat × ChanOp) : State :=
  modLanes s fun l => modChan l e.1 fun r =>
    match e.2 with
    | .isolate v => { r with iso := some v }
    | .restore => { r with iso := none }
    | .force v => { r with force := v }

/-- R70, R391, R393, R419: channel operations, host bits, the MAINT_HOLD mask of this frame, and a SELFTEST_RUN asked for. -/
def hearthDeliver (s : State) : State :=
  if !hearthLive s then s
  else
    let s1 := s.mbx.chanOps.foldl applyChanOp s
    let (bits, set) := s1.mbx.hostBitsNext.getD (s1.mbx.hostBits, s1.mbx.hostSet)
    let f := s1.core.frameNo.toNat
    { s1 with
      mbx := { s1.mbx with
        chanOps := [], hostBits := bits, hostSet := set, hostBitsNext := none, delivered := some (hostWord s1 bits set),
        holdMask := tabGet 0 s1.mbx.holds f, holds := s1.mbx.holds.filter fun e => decide ((BitVec.ofNat 32 e.1 - s1.core.frameNo - 1).toNat < 8) }
      test := { s1.test with learned := s1.test.asked.isSome } }

/-- R480: a stopped clock's report enters the watching lane. -/
def stopEnters (s : State) : State :=
  if s.core.clockStop then fatalFault { s with core := { s.core with clockStop := false, stopFound := true } } ftClockStop
  else s

/-- The clock faults of this frame's start: a stopped clock, then the tick interval's (R97, R490). -/
def clockStopEnters (s : State) : State :=
  let t := stopEnters s
  if t.core.rangeDue then rangeFault { t with core := { t.core with rangeDue := false } } else t

/-- An activation that the lanes do not agree on ends (R150, R153): the crumb of R439, and LOAF_IDENTITY. -/
def refuseSwitch (s : State) (w : PendingSwitch) : State :=
  let k : Byte := match w.slot with
    | .a => 0
    | .b => 1
  let s1 := crumb (modMbx s fun m => { m with switch := none }) crLoaf 0xFF stLoafIdentity (k :: padTo 8 w.cfgA.loafId)
  match w.via with
  | some v => replyErr s1 v stLoafIdentity 0
  | none => s1

/-- Step 3 of R150: the lanes have exchanged their loaf IDs and check words; where all four agree the activation goes on. -/
def agreeSwitch (env : PhaseSEnv) (s : State) : State :=
  match (if env.crossOk then s.mbx.switch else none) with
  | none => s
  | some w =>
    if identityAgrees env.identityUpset w.cfgA w.cfgB then modMbx s fun m => { m with switch := some { w with agreed := true } }
    else refuseSwitch s w

/-- The beads of the hearth that reach each lane with a parity error (R123). -/
def hostParity (env : PhaseSEnv) (s : State) : State :=
  if hearthLive s then
    modLane (modLane s .a fun l => { l with hostBad := env.hostParity.a }) .b fun l => { l with hostBad := env.hostParity.b }
  else s

/-- The exchange of phase S. -/
def exchangeInputs (env : PhaseSEnv) (s : State) : State :=
  let s0 := hostParity env s
  let s1 := modLane s0 .a fun x => takeInputs s0 env .a (takeInputs s0 env .a x .a) .b
  let s2 := modLane s1 .b fun x => takeInputs s0 env .b (takeInputs s0 env .b x .a) .b
  let s3 := takeSnapshots env s2
  let s4 := findShorts env (parityReps env s3)
  if !env.crossOk && bothInService s4 then
    laneReport (laneReport s4 (transient (chanLane .a) anCrosslink)) (transient (chanLane .b) anCrosslink)
  else s4

/-- R222, R228, R498: no realised time exceeds its configured one, so what ran out at the tick has ended by now: blanking, with a
trip where the thermal cut is open, and crust A's pull-ins. -/
def endTimes (s : State) : State :=
  let due := fun (c : Side) => (List.finRange 17).filter fun n =>
    let l := legOf (s.crust.at c) n.val
    crustWorks s c && l.blanking && l.blankLeft == 0
  let endLeg := fun (c : Side) (s : State) (n : Fin 17) => endBlanking s ⟨c, n⟩ false
  let s1 := (due .b).foldl (endLeg .b) ((due .a).foldl (endLeg .a) s)
  (List.range 16).foldl endPullIn s1

/-- PHASE_S (R91, R92): from the tick to the end of phase S. In test hold the lanes take nothing and report nothing (R420);
a supply event that begins there is not tallied afterwards either (DESIGN CHOICE, log 112). -/
def execPhaseS (env : PhaseSEnv) (s : State) : Host.Outcome State Fault Refusal :=
  if !(s.core.tickOn && s.core.phase == .s) then .next s
  else
    let s1 := agreeSwitch env (clockStopEnters (hearthDeliver (toPhase (endTimes s) .x (endS s.core.tfCode))))
    .next (if s.test.hold then s1 else exchangeInputs env s1)

end Sys2Proof.Machine
end

