-- ==== Sys2Proof/Machine/Supply.lean ====
section
/-! DEFINITION. Supplies, resets and start-up (02, 03, 16, 17): brown-out, RSTN and internal reset (R49-R51, R58), crust
logic power (R41), field supply events (R49, R60, R61, R263), and the start-up sequence from the release of reset to the end
of step 5 (R76-R78, R84, R85, R402-R406, R417). -/

namespace Sys2Proof.Machine

/-! ## Core resets -/

/-- VDD33_BROWN_OUT (R49): `removed` where VDD33 goes away altogether (R85). -/
def execVdd33BrownOut (removed : Bool) (s : State) : Host.Outcome State Fault Refusal := .next (powerLoss s removed)

/-- RSTN_LOW (R50): below 1 us ignored, from 10 us a reset, between them a free choice. -/
def execRstnLow (widthNs : Nat) (s : State) : Host.Outcome State Fault Refusal :=
  if widthNs < 1000 then .next s
  else if 10000 ≤ widthNs then .next (coreReset s .rstn)
  else
    let s1 := { s with drawn := s.drawn + 1 }
    .next (if Config.freeBit s.drawn then coreReset s1 .rstn else s1)

/-- INTERNAL_RESET (R51). -/
def execInternalReset (s : State) : Host.Outcome State Fault Refusal := .next (coreReset s .internalCause)

/-! ## Crust logic power (R41) -/

/-- CRUST_LOGIC_POWER_LOSS (R41); with crust A the actuator bus and AUX3V3 go off. -/
def execCrustLogicPowerLoss (c : Side) (s : State) : Host.Outcome State Fault Refusal :=
  .next (busMode s (modCrust s c fun x => { openCrust x with logicPower := false, handshake := false }))

/-- CRUST_LOGIC_POWER_RETURN (R41, R228, R486, R487): the crust restarts with its history at 0 and its outputs open, and its barrier
FIFOs wait for their RESYNC. -/
def execCrustLogicPowerReturn (c : Side) (s : State) : Host.Outcome State Fault Refusal :=
  .next (if (s.crust.at c).logicPower || !s.core.vddGood then s
  else busMode s (modCrust s c fun x => { resetCrust x with logicPower := true, drives := [] }))

/-! ## Field supplies (R49, R263) -/

/-- A field supply event stands on a crust. -/
def eventStands (x : CrustSt) : Bool := x.undervolt || x.lockout || x.overvolt

/-- A condition begins: it is one event with any that stands already (R61, R263). -/
def beginEvent (s : State) (x : CrustSt) : CrustSt :=
  { x with supplyEvent := x.supplyEvent || (!eventStands x && x.logicPower && !s.core.inReset) }

/-- L_PLUS_UNDERVOLTAGE (R49, R206): the report alone opens nothing. DESIGN CHOICE (log 65): also where both crusts report it,
since R40 speaks of a dip that reaches lockout. -/
def execLPlusUndervoltage (c : Side) (s : State) : Host.Outcome State Fault Refusal :=
  .next (modCrust s c fun x => { voidPulses (beginEvent s x) with undervolt := true, uvSince := true })

/-- L_PLUS_UNDERVOLTAGE_CLEARED (R49). -/
def execLPlusUndervoltageCleared (c : Side) (s : State) : Host.Outcome State Fault Refusal :=
  .next (if (s.crust.at c).lockout then s else modCrust s c fun x => { x with undervolt := false })

/-- A lockout begins or ends: a test run that goes on has seen it (R418, R435). -/
def noteLockout (s : State) (c : Side) (on : Bool) : State :=
  let w := s.test.lockouts
  { s with test := { s.test with
      lockouts := if on then { w with seen := w.seen.set c true } else { w with free := w.free.set c true } } }

/-- L_PLUS_LOCKOUT (R49, R206): legs, KA or KB and the test sources open, and AUX3V3 with crust A's. -/
def execLPlusLockout (c : Side) (s : State) : Host.Outcome State Fault Refusal :=
  .next (busMode s (modCrust (noteLockout s c true) c fun x => { openCrust (voidPulses (beginEvent s x)) with lockout := true, lockoutSince := true }))

/-- The legs and KA or KB of a crust open; its test sources stay (R49, overvoltage). -/
def openLegs (x : CrustSt) : CrustSt := { openCrust x with srcs := x.srcs }

/-- OVERVOLTAGE_LOCKOUT (R49). -/
def execOvervoltageLockout (c : Side) (s : State) : Host.Outcome State Fault Refusal :=
  .next (modCrust s c fun x => { openLegs (beginEvent s x) with overvolt := true, overvoltSince := true })

/-- A lockout has cleared: the handshake is renewed where no other lockout stands (R49); a crust whose handshake fails
retires its lane (R78); in reset the crust waits for the handshake of the start-up (R60). -/
def renewAfterLockout (s : State) (c : Side) (ok : Bool) : State :=
  let x := s.crust.at c
  if s.core.inReset || !x.logicPower || !x.handshake || x.lockout || x.overvolt then s
  else if ok then handshake s c
  else laneReport (modCrust s c fun x => { x with handshake := false }) (permanent (chanLane c) anHandshake)

/-- L_PLUS_LOCKOUT_CLEARED (R49); with crust A's the actuator bus is on again and is scanned (R463). -/
def execLPlusLockoutCleared (c : Side) (handshakeOk : Bool) (s : State) : Host.Outcome State Fault Refusal :=
  .next (if (s.crust.at c).lockout then
    busMode s (renewAfterLockout (modCrust (noteLockout s c false) c fun x => { x with lockout := false }) c handshakeOk)
  else s)

/-- OVERVOLTAGE_CLEARED (R49): as a lockout cleared. -/
def execOvervoltageCleared (c : Side) (handshakeOk : Bool) (s : State) : Host.Outcome State Fault Refusal :=
  .next (if (s.crust.at c).overvolt then
    renewAfterLockout (modCrust s c fun x => { x with overvolt := false }) c handshakeOk
  else s)

/-! ## Step 1: boot counter and token (R84, R406) -/

/-- R406: the counter goes on, written over the copy that was not read. -/
def advanceBoot (n : NvSt) : NvSt :=
  let v := satInc (bootCount n)
  let readA := match n.bootCopies.a, n.bootCopies.b with
    | some x, some y => decide (y.toNat ≤ x.toNat)
    | some _, none => true
    | _, _ => false
  { n with bootCopies := if readA then n.bootCopies.set .b (some v) else n.bootCopies.set .a (some v) }

/-- R84: the token permits the quick self-test. -/
def tokenValid (n : NvSt) : Bool :=
  match n.token with
  | some t => t.crcOk && t.bootCount + 1 == bootCount n && t.loafId == activeLoafId n && t.life == n.life.code &&
      (n.life == .commission || n.life == .field)
  | none => false

/-! ## Step 2: self-test (R417, R428, R431) -/

def bootSet (quick : Bool) : List Nat := if quick then setQuick else setFull

/-- The map of a repair record whose CRC is good (R428). -/
def repairMap (n : NvSt) : Option (Two (List W16)) :=
  match n.repair with
  | some r => if r.crcOk then some r.rows else none
  | none => none

/-- Soft repair at boot: a full run maps the rows that it finds, a quick boot loads the map of the repair record (R427, R428);
the map of the run before is volatile. -/
def bootRepair (s : State) (quick : Bool) (runs : List BlockRun) : State :=
  let t := { s with test := { s.test with softMap := ⟨[], []⟩ } }
  if quick then { t with test := { t.test with softMap := (repairMap s.nv).getD ⟨[], []⟩ } } else softRepair t runs (bootSet quick)

/-- The boot run passes: no block fails, and a quick boot finds its repair map. -/
def bootTestOk (s : State) (quick : Bool) (runs : List BlockRun) : Bool :=
  !((bootSet quick).any (blockFails (bootWindow s) runs)) && (!quick || (repairMap s.nv).isSome)

/-! ## Step 3: measurement (R402) -/

def fuseRecord (n : NvSt) : List Byte := [n.life.code] ++ n.serial ++ [0x03#8] ++ n.fuses.flatMap le32

def imageOf (n : NvSt) (i : Nat) : List Byte := n.images.getD i []

/-- The six measurements of step 3 in order: register and v. -/
def step3Values (n : NvSt) : List (Nat × List Byte) :=
  [(6, sha256 (fuseRecord n)), (0, sha256 (imageOf n 0)), (1, sha256 (imageOf n 1)), (2, sha256 (imageOf n 2)),
   (3, sha256 (imageOf n 3 ++ imageOf n 4)),
   (5, if n.calib.isEmpty then zeros 32 else sha256 (Config.calibrationBytes n.calib))]

def extendAll (s : State) (l : List (Nat × List Byte)) : State := l.foldl (fun s e => extendM s e.1 e.2) s

def setMstate (s : State) (v : Byte) : State := { s with meas := { s.meas with mstate := v } }

/-- R404: a boot that stops after `done` of the seven measurements marks the others and locks M0-M6. -/
def markRest (s : State) (done : Nat) : State :=
  setMstate (extendAll s (([6, 0, 1, 2, 3, 5, 4].drop done).map fun r => (r, List.replicate 32 0xFF#8))) 0x03#8

/-- M4: the digest of the active slot's image up to its trailer (R403). -/
def step4Value (n : NvSt) : List Byte :=
  match activeImage n with
  | some i => sha256 (beforeTrailer i)
  | none => zeros 32

/-! ## The hearth firmware starts (R157, R362, R378) -/

def writingInvalid (k : LoafSlot) : LoafSlot := if k.state = .writing then { k with state := .invalid } else k

/-- R464, R467: the pending counts saved in MRAM, and the UIDs last recorded. -/
def reloadChips (n : NvSt) : Tab ChipSt :=
  (List.range 8).foldl (fun t i => tabSet ChipSt.init t i
    { ChipSt.init with pending := tabGet (0 : Nat) n.actPending i, uid := tabGet [] n.actUid i }) []

/-- R483, R493: a loaf that the lanes have agreed on is a value on its way from SYSBUS to the lanes, and is delivered; its
command is lost with the hearth. -/
def heldSwitch (s : State) : Option PendingSwitch :=
  match s.mbx.switch with
  | some w => if w.agreed then some { w with via := none } else none
  | none => none

/-- R378: the command of a self-test is lost with the hearth; a run that has reached the lanes goes on without a reply. -/
def loseTest (t : TestSt) : TestSt :=
  if t.learned || t.holdNext || t.hold then { t with asked := t.asked.map fun a => (none, a.2) } else { t with asked := none }

/-- Everything the hearth holds in its own memory starts afresh; the window goes on. -/
def hearthStart (s : State) : State :=
  { s with
    nv := { s.nv with slots := s.nv.slots.map writingInvalid }
    host := { s.host with hearth := true, fwMajor := 2, fwMinor := 4, lifeReg := s.nv.life.code }
    mbx := { s.mbx with slots := Vector.replicate 8 .free, queue := [], nonce := none, learn := none, switch := heldSwitch s, owed := [] }
    test := loseTest s.test
    jrn := { s.jrn with sessions := ⟨none, none⟩, holds := [], cycles := ⟨none, none⟩, seen := none, rose := [] }
    act := { chips := reloadChips s.nv, recoverDue := true, scanDue := false, scanVia := [] } }

def canApply (s : State) : State :=
  match s.nv.canCfg with
  | some (on, node, nominal, data) =>
    { s with can := { s.can with on := on, node := node, nominal := nominal, dataRate := data } }
  | none => s

def causeCode : ResetCause → Byte
  | .powerOn => 0x01
  | .rstn => 0x02
  | .brownOut => 0x03
  | .internalCause => 0x04

/-! ## Step 5 and the end of the sequence (R64, R78, R89) -/

/-- The handshake of one crust: three failures retire its lane (R78, R259). A supply event that began in reset and still
stands is reported from now (R40, R263). -/
def bootHandshake (lost : Bool) (s : State) (c : Side) : State :=
  if !laneLive s c then s
  else if !lost then
    modCrust (handshake (modCrust s c bootCrust) c) c fun x => { x with supplyEvent := eventStands x }
  else retireAtOnce s c anHandshake

/-- MODE_REQ = CONFIGURE is honoured at the end of step 5 (R89, R68). -/
def honourConfigure (s : State) (asked : Bool) : State :=
  if asked then setIrq0 { s with host := { s.host with modeReq := 0, reqResult := 1 } } irqMode else s

/-- The start-up ends in SAFE_HOLD (R64). -/
def stopInSafeHold (s : State) : State :=
  setMode { s with core := { s.core with bootStep := .ended } } .safeHold .fault

/-- A request written before the end of step 5 that a fault overtakes stays in MODE_REQ for the new mode (R69, R89). -/
def keepAsked (s : State) (asked : Bool) : State :=
  if asked then { s with host := { s.host with modeReq := 0x02 } } else s

/-- The mode at the end of step 5. -/
def endOfStep5 (s : State) (asked : Bool) : State :=
  if !laneLive s .a && !laneLive s .b then stopInSafeHold (keepAsked s asked)
  else if !bothInService s then
    setMode (keepAsked { s with core := { s.core with bootStep := .ended } } asked) .degraded .fault
  else
    match activeCfg s with
    | none =>
      setMode (honourConfigure { s with core := { s.core with bootStep := .ended } } asked) .configure
        (if asked then .request else .fault)
    | some cfg =>
      if asked then setMode (honourConfigure { s with core := { s.core with bootStep := .ended } } true) .configure .request
      else { s with core := { s.core with bootStep := if cfg.role = 0 then .proving else .join } }

/-- What the listen-through beside steps 4 and 5 has heard (R77, R292, R293): a worker takes its frame number from the TICKs
heard, a manager counts the frames without one; a TICK that it hears is another manager's (R299). -/
def heardAtBoot (env : BootEnv) (s : State) : State :=
  let t := { s with fab := { s.fab with
      heard := min env.heard 16, heardFrame := env.heardFrame, listened := min env.silentFrames 512 } }
  if isWorker s then { t with core := { t.core with frameNo := env.heardFrame.getD t.core.frameNo } }
  else if isManager s && decide (0 < env.heard) then duplicateManager t
  else t

/-- MODE_REQ = CONFIGURE has been written before the end of step 5 (R89). -/
def configureAsked (s : State) (env : BootEnv) : Bool := env.configureAsked || s.host.modeReq == 0x02#8

/-- Steps 4 and 5: the loaf, the tick, the handshakes. -/
def steps4and5 (s : State) (env : BootEnv) : State :=
  let s1 := setMstate (extendM s 4 (step4Value s.nv)) 0x02#8
  let off := bootOffsets s1.nv
  let s2 := modLanes s1 fun l => { l with offsets := off }
  let s3 := match activeImage s2.nv with
    | some i => if (lanesVerify s2.nv env.identityUpset i).isNone then installLoaf s2 (loafCfg i .a) (loafCfg i .b) else s2
    | none => s2
  let tf := match activeCfg s3 with
    | some cfg => cfg.tfCode
    | none => s3.core.tfCode
  let s4 := heardAtBoot env { s3 with core := { s3.core with tickOn := true, tfCode := tf } }
  let lost := fun (c : Side) => laneLive s4 c && (3 ≤ env.handshakeFails.at c || !(s4.crust.at c).logicPower)
  let s5 := if lost .a && lost .b then fatalFault s4 ftBothCrusts else s4
  syncIrq s (endOfStep5 (bootHandshake (lost .b) (bootHandshake (lost .a) s5 .a) .b) (configureAsked s env))

/-- The MODE crumb of a reset that took the module out of another mode (R439, R441). -/
def resetCrumb (s : State) : State :=
  match s.core.modeBefore with
  | some m => if m = .boot then s else crumb s crMode 0xFF Mode.boot.code [m.code, ModeWhy.reset.code]
  | none => s

/-- The BOOT crumb (R439), with the self-test results that the boot ROM kept (R445). -/
def bootCrumb (s : State) (quick : Bool) : State :=
  let results := s.test.results.map fun r => (r.1, r.2.1)
  crumb s crBoot 0xFF (causeCode s.core.cause)
    (le32 (bootCount s.nv) ++ [byteOfBool quick] ++ (List.range 15).map (Config.bootResult results))

/-- The hearth firmware has been loaded and starts: CAN FD as stored, the crumbs of the start-up. -/
def startHearth (s : State) (env : BootEnv) (quick : Bool) : State :=
  scanPages (resetCrumb (bootCrumb (canApply (hearthStart s)) quick)) env.runs (bootSet quick)

/-- Step 3: measurement, microcode and firmware. Each image is released from the buffer in which it was measured (R402), so a
failure after the second measurement, M0's, finds the hearth firmware started (R404). -/
def step3 (s : State) (env : BootEnv) (quick : Bool) : State :=
  match env.step3Fail with
  | some k =>
    let s1 := extendAll s ((step3Values s.nv).take k.val)
    stopInSafeHold (markRest (if 2 ≤ k.val then startHearth s1 env quick else s1) k.val)
  | none =>
    let s1 := startHearth (extendAll s (step3Values s.nv)) env quick
    if s.nv.life = .retired then stopInSafeHold (markRest s1 6)
    else { s1 with core := { s1.core with startUp := some env } }

/-- The start-up goes on after step 3, before the first tick (R76, log 5). -/
def finishStart (s : State) : State :=
  match (if s.core.inReset then none else s.core.startUp) with
  | some env => steps4and5 { s with core := { s.core with startUp := none } } env
  | none => s

/-- R85: a lane retired comes back once VDD33 has been removed since and a full self-test has passed. -/
def restoreLane (l : LaneSt) : LaneSt := if l.powerCycled then { l with retired := false } else l

def restoreLanes (s : State) (quick : Bool) : State := if quick then s else modLanes s restoreLane

def powerCrust (c : CrustSt) : CrustSt := { c with logicPower := true }

/-- The start-up sequence from step 1 (R76). -/
def startUp (s : State) (env : BootEnv) : State :=
  let nv := advanceBoot s.nv
  let quick := tokenValid nv
  let s1 := { s with
    nv := { nv with token := none }
    core := { s.core with inReset := false, vddGood := true, startUp := none }
    crust := if s.core.vddGood then s.crust else s.crust.map powerCrust }
  let s2 := bootRepair { s1 with
    drawn := s1.drawn + 1
    test := { s1.test with source := 1, results := (bootSet quick).map (blockResult s1 (bootWindow s1) env.runs) } } quick env.runs
  if bootTestOk s2 quick env.runs then step3 (restoreLanes s2 quick) env quick
  else stopInSafeHold (markRest s2 0)

/-- RESET_RELEASE (R49, R76): steps 1 to 3. -/
def execResetRelease (env : BootEnv) (s : State) : Host.Outcome State Fault Refusal :=
  .next (if s.core.inReset then startUp s env else s)

end Sys2Proof.Machine
end

