-- ==== Sys2Proof/Machine/Tick.lean ====
section
/-! DEFINITION. TICK (R95): the statistics latch (R451), the change of mode (R64, R67, R69, R278), the interval check (R97),
snapshot and commit of both crusts, the new frame number (R112), the loaf switch (R150), and what takes effect at a tick: the
sampling of MODE_REQ (R67), re-admissions (R270), offsets (R200), topologies (R304), SAFEN (R232), TICK itself (R316). -/

namespace Sys2Proof.Machine

/-! ## Modes -/

def isForce : ChanOp → Bool
  | .force _ => true
  | .isolate _ => false
  | .restore => false

def owesForce : Owed → Bool
  | .chan _ op => isForce op
  | .bits _ _ => false

def owesChan : Owed → Bool
  | .chan _ _ => true
  | .bits _ _ => false

/-- R124, R131: all forces go at the tick on which the module leaves MAINTAIN. -/
def dropForces (s : State) : State :=
  { modLanes s fun l => { l with chans := tabMap ChanRec.clear l.chans fun _ r => { r with force := none } } with
    mbx := { s.mbx with
      chanOps := s.mbx.chanOps.filter fun e => !isForce e.2
      owed := s.mbx.owed.filter fun e => !owesForce e.2 } }

/-- A learning run ends with the mode, or with the lane whose retirement changes it (R199, R208). -/
def dropLearn (s : State) : State := endLearn s stAborted (if bothInService s then abortMode else abortLane)

/-- R155: a mode change that falls before the lanes have agreed abandons the activation. -/
def dropSwitch (s : State) : State :=
  match s.mbx.switch with
  | some w =>
    if w.agreed then s
    else
      let s1 := modMbx s fun m => { m with switch := none }
      match w.via with
      | some v => replyErr s1 v stLoafMode s.core.mode.code.toNat
      | none => s1
  | none => s

/-- R66, R79: BOOT is entered for the proving period, through step 6 where the loaf asks for it. -/
def enterProving (s : State) : State :=
  let join := s.fab.rejoin && roleOf s != 0
  let s1 := { s with core := { s.core with bootStep := if join then .join else .proving, proving := 0 } }
  if join then leaveFabric s1 else s1

/-- R82, R467: the bypass closes, the pending pull-in counts are saved, the flush begins. -/
def enterShutdown (old : Mode) (s : State) : State :=
  let t := leaveFabric s
  { t with
    nv := { t.nv with actPending := tabMap (0 : Nat) (t.act.chips.map fun e => (e.1, e.2.pending)) fun _ n => n }
    test := { t.test with shutdown := 1, fromSafeHold := old == .safeHold } }

/-- MODE_CUR takes a mode at a tick. -/
def enterMode (s : State) (m : Mode) (why : ModeWhy) : State :=
  let old := s.core.mode
  let s1 := dropSwitch (dropLearn (setMode s m why))
  let s2 := if old = .maintain ∧ m ≠ .maintain then dropForces s1 else s1
  match m with
  | .boot => enterProving s2
  | .operate => modLanes { s2 with core := { s2.core with bootStep := .ended } } fun l => { l with enteredOperate := true }
  | .shutdown => enterShutdown old s2
  | .safeHold =>
    let s3 := { s2 with core := { s2.core with bootStep := .ended } }
    if hearthLive s3 then s3 else leaveFabric s3
  | _ => { s2 with core := { s2.core with bootStep := .ended } }

/-- The mode that the next tick shows, and that the staging of this frame obeys: a fatal fault before a lane retirement before
a request (R64, R69, R87, R278). -/
def nextMode (s : State) : Option (Mode × ModeWhy) :=
  let m := s.core.mode
  if !s.core.fatal.isEmpty && m != .safeHold && m != .shutdown then some (.safeHold, .fault)
  else if !bothInService s && (m == .boot || m == .configure || m == .operate || m == .maintain) then some (.degraded, .fault)
  else s.core.modeNext

def changeMode (s : State) : State :=
  let s1 := { s with core := { s.core with modeNext := none } }
  match nextMode s with
  | some (m, why) => busMode s (indMode (enterMode s1 m why))
  | none => indMode s1

/-! ## Checks of the lanes (R97) -/

/-- R97: the interval between two ticks, in ns by the lane's own clock, differs from Tf by more than 3 %. -/
def intervalBad (tf : Byte) (ns : Nat) : Bool :=
  let want : Int := (10 * tfUnits tf : Nat)
  decide (3 * want < 100 * ((ns : Int) - want).natAbs)

/-- The interval that ends with a tick is held against the frame period in force in it. -/
def intervalCheck (env : TickEnv) (tf : Byte) (s : State) (l : Side) : State :=
  let x := s.lane.at l
  if x.retired || x.stopped then s
  else
    let n := if intervalBad tf (env.intervalNs.at l) then x.tickDev + 1 else 0
    let s1 := modLane s l fun y => { y with tickDev := n }
    if 2 ≤ n then { s1 with core := { s1.core with rangeDue := true } } else s1

/-- The staging record moves on (R170): a change at this commit starts the EDM time anew (R169). -/
def pairTick (r : PairRec) : PairRec :=
  if r.staged = r.committed then { r with before := r.committed, sinceCommit := r.sinceCommit + 1 }
  else { r with before := r.committed, committed := r.staged, due := true, sinceCommit := 0 }

/-- R254, R275: a report against a channel that is retired goes, unless a re-admission has been accepted meanwhile. -/
def repStands (s : State) (l : LaneSt) (r : Rep) : Bool :=
  let n := countedChan ((l.cfg.map fun c => c.params).getD []) r.chan
  !(chanOf l n).retired || s.mbx.readmits.contains n

/-- The reports that stand at a tick: in test hold nothing is reported but the results of the test, which stand at its end
(R420). -/
def tickReps (s : State) (l : LaneSt) : List Rep :=
  if l.retired || (s.test.hold && s.test.holdNext) then []
  else if s.test.hold then l.reps
  else (l.reps ++ s.core.found).filter (repStands s l)

/-- What a lane keeps from frame to frame, at the tick. -/
def laneTick (s : State) (l : LaneSt) : LaneSt :=
  { l with
    pairs := tabMap PairRec.init l.pairs fun _ r => pairTick r
    saved := none, gate := none, parityHit := false, eccHit := false, entryParity := false, hostBad := [], accepted := []
    seenCopies := [], proofs := []
    verdictBefore := l.verdict, verdict := .rejected, reps := tickReps s l }

/-! ## The loaf switch (R150, R66, R340, R367, R405) -/

/-- The new loaf changes role, plan, panel tag or Tf (R66). -/
def stationChanged (old : Option LoafCfg) (new : LoafCfg) : Bool :=
  match old with
  | none => true
  | some o => o.role != new.role || o.plan != new.plan || o.bind.tag != new.bind.tag || o.tfCode != new.tfCode

/-- R340: the module's own SAFE frames, and its connections closed by a loaf switch. -/
def cancelSafe (q : PortSt) : PortSt := cancelWhere ownSafe q

/-- R367: queued SAFE copies are aborted; one that has won arbitration completes. -/
def abortCanSafe (s : State) : State :=
  let gone := s.can.txq.filter fun t => t.safe.isSome && !t.won
  let s1 := { s with can := { s.can with
      txq := (s.can.txq.filter fun t => t.safe.isNone || t.won).map fun t =>
        if t.safe.isSome then { t with aborted := true } else t } }
  gone.foldl (fun s _ => countCanerr s) s1

def clearIsolations (s : State) : State :=
  { modLanes s fun l => { l with chans := tabMap ChanRec.clear l.chans fun _ r => { r with iso := none } } with
    mbx := { s.mbx with chanOps := [], owed := s.mbx.owed.filter fun e => !owesChan e.2 } }

def sideByte : Side → Byte
  | .a => 0
  | .b => 1

/-- Both lanes switch; a loaf without a fabric role closes the bypass (R292); the slot record names the new ACTIVE slot, and the old one becomes VALID. -/
def switchLoaf (s : State) (w : PendingSwitch) : State :=
  let old := activeCfg s
  let nv1 := match activeSlot s.nv with
    | some k => if k = w.slot then s.nv else setSlot s.nv k .valid
    | none => s.nv
  let nv2 := setSlot (writeRecord nv1 (some w.slot)) w.slot .active
  let id := w.cfgA.loafId
  let s1 := { s with nv := nv2, mbx := { s.mbx with switch := none } }
  let s2 := modPort (modPort (abortCanSafe s1) .p0 cancelSafe) .p1 cancelSafe
  let s3 := renewHandshakes (installLoaf (clearIsolations s2) w.cfgA w.cfgB)
  let s4 := { s3 with fab := { s3.fab with rejoin := s3.fab.rejoin || stationChanged old w.cfgA } }
  let s4 := if w.cfgA.role = 0 then leaveFabric { s4 with fab := { s4.fab with awaitAdmit := false } } else s4
  let s5 := crumb (measEvent s4 0x01 id [sideByte w.slot]) crLoaf 0xFF stOk ([sideByte w.slot] ++ padTo 8 id)
  busMode s (indMode (match w.via with
    | some v => replyOk s5 v (padTo 8 id)
    | none => s5))

def takeSwitch (s : State) : State :=
  match s.mbx.switch with
  | some w => if w.agreed then switchLoaf s w else s
  | none => s

/-! ## Mode request (R67, R86, R89) -/

def sampleModeReq (s : State) : State :=
  let v := s.host.modeReq
  let take := hearthLive s && v != 0 && (s.core.mode != .boot || v == 0x07#8)
  let mark := fun (e : QEntry) => if take && e.st == .awaitingMode false then { e with st := .awaitingMode true } else e
  { s with
    host := { s.host with sampled := if take then some v else none, rewritten := false }
    mbx := { s.mbx with queue := s.mbx.queue.map mark } }

/-! ## What else takes effect at the tick -/

/-- R270: probation begins, with the tally and the clean-frame count at 0. -/
def startProbation (s : State) (n : Nat) : State :=
  let s1 := modChans s n fun r => { r with tally := 0, clean := 0, retired := false, prob := some freshProbation }
  match chanKind n with
  | some .actBus => { s1 with act := { s1.act with recoverDue := true } }
  | some .indChain => { s1 with ind := { s1.ind with oen := false } }
  | _ => s1

def takeReadmits (s : State) : State :=
  indMode (s.mbx.readmits.foldl startProbation { s with mbx := { s.mbx with readmits := [] } })

/-- R200: confirmed offsets take effect. -/
def takeOffsets (s : State) : State :=
  if s.mbx.confirm.isEmpty then s
  else
    { modLanes s fun l => { l with offsets := s.mbx.confirm.foldl (fun t e => tabPut t e.1 e.2) l.offsets } with
      mbx := { s.mbx with confirm := [] } }

/-- R79, R36: the frames of the proving period; it starts again in the frame after a disturbance, once no channel has a
tally above 0. A lane is no channel. -/
def tallyStands (l : LaneSt) : Bool := l.chans.any fun e => (isLaneChan e.1).isNone && !e.2.retired && decide (0 < e.2.tally)

def provingTick (s : State) : State :=
  if s.core.mode = .boot ∧ s.core.bootStep = .proving then
    let n := if tallyStands (reportingLane s) then 0 else if s.core.disturbed then 1 else s.core.proving + 1
    let tf := match activeCfg s with
      | some c => c.tfCode
      | none => s.core.tfCode
    { s with core := { s.core with proving := n, disturbed := false, tfCode := tf } }
  else { s with core := { s.core with disturbed := false } }

/-- R110: the greater of 0.5 us and 0.1 % of Tf is corrected in each frame. -/
def slew (tf : Byte) (x : Int) : Int :=
  let k : Int := max 500 (tfUnits tf / 100 : Nat)
  if x < -k then x + k else if k < x then x - k else 0

/-- R110: what of the phase error this frame corrects, in phase G. -/
def gapOf (s : State) : Int := s.core.slewNs - slew s.core.tfCode s.core.slewNs

/-- R295: a worker's outputs are free once it is admitted and has served its proving period. -/
def admitEnds (s : State) : Bool := s.fab.awaitAdmit && !(s.fab.station.isSome && s.fab.proofReady)

/-- The fabric at a tick: no retry carries into a later frame (R265), a topology takes force (R304), a refused worker gives its
station up (R297), proving and listening go on, this frame's TICK is awaited. -/
def fabricTick (s : State) : State :=
  let joined := !bypassClosed s
  let serving := joined && s.fab.sync == .inSync && s.fab.settled
  let clearNaks := fun (q : PortSt) => { q with naks := [], retries := [] }
  let t := s.fab.topoTick.getD s.fab.topo
  { s with
    core := { s.core with slewNs := slew s.core.tfCode s.core.slewNs, gapNs := gapOf s }
    fab := { s.fab with
      ports := s.fab.ports.map clearNaks
      topo := t, topoTick := none
      members := if s.fab.topoTick.isSome then followBranches t s.fab.members else s.fab.members
      station := if s.fab.refused then none else s.fab.station, refused := false, awaitAdmit := admitEnds s
      streams := s.fab.streams.map fun x => { x with idle := x.idle + 1 }
      proofFrames := if serving then min (s.fab.proofFrames + 1) 16 else s.fab.proofFrames
      listened := if isManager s && !joined then min (s.fab.listened + 1) 512 else s.fab.listened
      gotTick := false } }

/-- R316: the manager's TICK, out of its branch ports. -/
def sendTick (s : State) : State :=
  if isManager s && !noTickFrame s then sendOut s (branchPorts s) clsTick 0xFF (tickPayload s) else s

/-- A reply that waits for the end of test hold is due. -/
def dueReply (e : QEntry) : QEntry :=
  match e.st with
  | .afterHold status payload => { e with st := .replied status payload }
  | _ => e

/-- R382, R399: a SELFTEST_RUN that is not yet in test hold is abandoned at the tick at which the module leaves MAINTAIN or has
lost a lane. -/
def dropTest (s : State) : State :=
  let leaving := match nextMode s with
    | some (m, _) => m != .maintain
    | none => s.core.mode != .maintain
  match s.test.asked with
  | none => s
  | some (via, _) =>
    if s.test.hold || !leaving then s
    else
      let t := { s with test := { s.test with asked := none, learned := false, holdNext := false } }
      match via with
      | some v => replyErr t v stAborted (if bothInService s then abortMode else abortLane)
      | none => t

/-- R421: with the FABRIC block among its blocks a run closes the bypass. -/
def holdFabric (s : State) : State := if testsFabric s && !bypassClosed s then leaveFabric s else s

/-- R419: test hold begins or ends, and at its end the reply is due. -/
def holdTick (s : State) : State :=
  let t := { s with test := { s.test with
    hold := s.test.holdNext, justEnded := s.test.hold && !s.test.holdNext, learned := false
    lockouts := if s.test.holdNext && !s.test.hold then openWindow s else s.test.lockouts } }
  if t.test.hold then holdFabric t else modMbx t fun m => { m with queue := m.queue.map dueReply }

/-- R457: the crumbs of the door cycles that ended in the frame before, door 0's first. -/
def flushCycles (s : State) : State :=
  (s.jrn.ended.a ++ s.jrn.ended.b).foldl pushCrumb { s with jrn := { s.jrn with ended := ⟨[], []⟩ } }

/-- The new frame begins (R112). -/
def nextFrame (s : State) : State :=
  { s with
    core := { s.core with
      frameNo := s.core.frameNo + 1, off := 0, phase := .s, xOpen := false, stopFound := false, lateLast := ⟨s.stat.live.lateA, s.stat.live.lateB⟩, found := [] }
    lane := s.lane.map (laneTick s)
    mbx := { s.mbx with holdMask := 0 }
    host := { s.host with wdCount := min (s.host.wdCount + 1) 262144 } }

/-- R266: what phase C retired outside the lanes' tables goes out of service. -/
def takeRetiring (s : State) : State :=
  s.core.retiring.foldl retireEffects { s with core := { s.core with retiring := [] } }

/-- The whole tick in order: crusts latch and commit, the frame's counts are latched, the new frame begins, the mode changes,
and everything that waits for a tick takes effect. -/
def tickAll (env : TickEnv) (s : State) : State :=
  let now : Stamp := { frame := s.core.frameNo + 1, off := 0 }
  let s1 := crustTick env (crustTick env (settleCrust now (settleCrust now s .a) .b) .a) .b
  let s2 := nextFrame s1
  let s3 := latchFrame s2 s.core.frameNo
  let s4 := provingTick (takeReadmits (takeOffsets (takeSwitch (changeMode (takeRetiring (flushCycles (holdTick (dropTest s3))))))))
  let s5 := intervalCheck env s.core.tfCode (intervalCheck env s.core.tfCode s4 .a) .b
  let s6 := setSources (setSources (sampleModeReq s5) .a) .b
  let s7 := sendTick (fabricTick s6)
  syncIrq s { s7 with core := { s7.core with safen := safenLevel s7 } }

/-- TICK (R91, R95): after phase G. The first one comes when the start-up has done its steps 4 and 5 (R76). -/
def execTick (env : TickEnv) (s : State) : Host.Outcome State Fault Refusal :=
  let t := finishStart s
  .next (if t.core.tickOn && t.core.phase == .g then tickAll env t else t)

end Sys2Proof.Machine
end

