-- ==== Sys2Proof/Machine/CmdHost.lean ====
section
/-! DEFINITION. The identity and mode commands, the loaf commands, and SHUTDOWN (15: tables 0x0_, 0x1_, 0x3_; R390-R392, R149-R155
of 06). -/

namespace Sys2Proof.Machine

def sideOf (b : Byte) : Side := if b = 0 then .a else .b

/-- BAD_PARAM on payload byte `i`. -/
def badParam (s : State) (via : Via) (i : Nat) : State := replyErr s via stBadParam (fieldAt i)

/-! ## Identity and mode (0x0_) -/

/-- ECHO (R389). -/
def execEcho (via : Via) (s : State) : Host.Outcome State Fault Refusal :=
  runCmd 0x00 via s fun e => replyOk s via e.payload

/-- The reply of IDENTITY (R389). -/
def identityBytes (s : State) : List Byte :=
  [0x4B, 0x53, 0x30, 0x00, 0x03, 0x02, 0x04, 0x04] ++ padTo 8 s.nv.serial ++
  (match activeCfg s with
   | some c => padTo 8 c.loafId
   | none => zeros 8) ++
  [match activeSlot s.nv with
   | some k => sideByte k
   | none => 0xFF, s.nv.life.code, s.core.mode.code, roleOf s, (ownStation s).getD 0xFE#8, 0x00] ++ le32 (bootCount s.nv)

/-- IDENTITY (R389). -/
def execIdentity (via : Via) (s : State) : Host.Outcome State Fault Refusal :=
  runCmd 0x01 via s fun _ => replyOk s via (identityBytes s)

/-- A request written into MODE_REQ whose reply waits for its evaluation (R390). -/
def requestMode (s : State) (via : Via) (v : Byte) : State := setQ (writeModeReq s v) via (.awaitingMode false)

/-- MODE_SET (R62, R389, R390): a code that the host may not request is refused where it is written. -/
def execModeSet (via : Via) (s : State) : Host.Outcome State Fault Refusal :=
  runCmd 0x02 via s fun e =>
    let v := byteAt e.payload 0
    if v = 0 ∨ 7 < v.toNat then badParam s via 0
    else if requestable v then requestMode s via v
    else
      let next := match nextMode s with
        | some (m, _) => m.code
        | none => s.core.mode.code
      replyOk (writeModeReq s v) via [0x02, next]

/-- The mask of a MAINT_HOLD accepted for frame `f`, also where that frame has begun while the command waited (R391). -/
def keepHold (s : State) (f : W32) (mask : W16) : State :=
  modMbx s fun m => { m with
    holds := tabSet 0 m.holds f.toNat mask, holdMask := if f = s.core.frameNo then mask else m.holdMask }

/-- MAINT_HOLD (R70, R71, R391): judged at the frame in which the request was taken. -/
def execMaintHold (via : Via) (s : State) : Host.Outcome State Fault Refusal :=
  runCmd 0x03 via s fun e =>
    let f := u32At e.payload 0
    let n := (f - e.taken).toNat
    if n = 0 ∨ 0x80000000 ≤ n then replyErr s via stLate s.core.frameNo.toNat
    else if 4 < n then replyErr s via stTooEarly s.core.frameNo.toNat
    else replyOk (keepHold s f (u16At e.payload 4)) via []

/-- HOSTBIT_SET (R389, R391). -/
def execHostbitSet (via : Via) (s : State) : Host.Outcome State Fault Refusal :=
  runCmd 0x04 via s fun e =>
    let v := u64At e.payload 0
    let mask := u64At e.payload 8
    replyOk (modMbx s fun m => { m with owed := m.owed ++ [(via, .bits v mask)] }) via (le64 (bitsInForce s))

/-- R359: defaults apply while a host bit of the loaf has not been set again since the expiry. -/
def defaultsStand (s : State) : Bool :=
  let owed := s.mbx.owed.foldl (fun w e => match e.2 with
    | .chan _ _ => w
    | .bits _ mask => w ||| mask) (0 : W64)
  let set := (s.mbx.hostBitsNext.getD (s.mbx.hostBits, s.mbx.hostSet)).2 ||| owed
  s.mbx.defaultsApply && (hostBlocks s).1 &&& ~~~set != 0

/-- HOSTBIT_GET (R389). -/
def execHostbitGet (via : Via) (s : State) : Host.Outcome State Fault Refusal :=
  runCmd 0x05 via s fun _ => replyOk s via (le64 (bitsInForce s) ++ [byteOfBool (defaultsStand s)])

/-! ## Loaf (0x1_) -/

def slotCode : SlotState → Byte
  | .empty => 0x00
  | .writing => 0x01
  | .valid => 0x02
  | .invalid => 0x03
  | .active => 0x04

def putSlot (s : State) (k : Side) (x : LoafSlot) : State := { s with nv := { s.nv with slots := s.nv.slots.set k x } }

def loafSlotOf (s : State) (k : Side) : LoafSlot := s.nv.slots.at k

/-- LOAF_WRITE's data placed (R392): START discards what the slot holds. A write that fails while its bytes are being written leaves
the earlier ones in place; the spec names no reply for it, so status and payload are free values (log 99). -/
def writeLoaf (s : State) (w : LoafWriteOp) (k : Side) (start : Bool) (data : List Byte) : State :=
  let old := if start then [] else (loafSlotOf s k).image
  if w.fails then
    let (free, s1) := drawBytes s 5
    setQ (putSlot s1 k { state := .writing, image := old }) w.via (.replied (byteAt free 0) (free.drop 1))
  else replyOk (putSlot s k { state := .writing, image := old ++ data }) w.via (leBytes 4 (old ++ data).length)

/-- LOAF_WRITE (R149, R392): every condition is checked before anything is written. DESIGN CHOICE, log 76: LOAF_LENGTH's
detail is the length that the write would reach, and a VALID slot whose activation waits for the tick takes a START. -/
def execLoafWrite (w : LoafWriteOp) (s : State) : Host.Outcome State Fault Refusal :=
  runCmd 0x10 w.via s fun e =>
    let p := e.payload
    let via := w.via
    let k := sideOf (byteAt p 0)
    let start := bitOf (byteAt p 1) 0
    let off := natAt p 2 4
    let x := loafSlotOf s k
    if 1 < (byteAt p 0).toNat then badParam s via 0
    else if byteAt p 1 &&& 0xFE#8 ≠ 0 then badParam s via 1
    else if natAt p 6 2 ≠ 0 then badParam s via 6
    else if x.state = .active then replyErr s via stLoafSlot (slotCode x.state).toNat
    else if start && off != 0 then badParam s via 2
    else if !start && (x.state != .writing || off != x.image.length) then badParam s via 2
    else if 0x200000 < off + (p.length - 8) then replyErr s via stLoafLength (off + (p.length - 8))
    else writeLoaf s w k start (p.drop 8)

/-- The crumb of a loaf's check or activation that fails (R439). -/
def loafCrumb (s : State) (k : Side) (status : Byte) (image : List Byte) : State :=
  crumb s crLoaf 0xFF status ([sideByte k] ++ padTo 8 (loafIdOf image))

/-- The outcome of LOAF_CHECK's checks (R149, R153). -/
def checkSlot (s : State) (via : Via) (k : Side) : State :=
  let x := loafSlotOf s k
  match checkImage x.image with
  | none => replyOk (loafCrumb (putSlot s k { x with state := .valid }) k stOk x.image) via [slotCode .valid]
  | some (st, d) => replyErr (loafCrumb (putSlot s k { x with state := .invalid }) k st x.image) via st d

/-- LOAF_CHECK (R149, R153). -/
def execLoafCheck (via : Via) (s : State) : Host.Outcome State Fault Refusal :=
  runCmd 0x11 via s fun e =>
    let b := byteAt e.payload 0
    let x := loafSlotOf s (sideOf b)
    if 1 < b.toNat then badParam s via 0
    else if x.state = .empty ∨ x.state = .active then replyErr s via stLoafSlot (slotCode x.state).toNat
    else checkSlot s via (sideOf b)

/-- R150 steps 1 and 2, in the order of R153: the first failing status. -/
def activationCheck (n : NvSt) (image : List Byte) : Option (Byte × Nat) :=
  match hearthCheck n image with
  | some r => some r
  | none => lanesCheck n image

/-- R150: the checks of steps 1 and 2 passed; the lanes agree in the next phase S and both switch at the tick after it. The
command runs until then. -/
def beginSwitch (s : State) (via : Via) (k : Side) (image : List Byte) : State :=
  modMbx (setQ s via .running) fun m =>
    { m with switch := some { via := some via, slot := k, agreed := false, cfgA := loafCfg image .a, cfgB := loafCfg image .b } }

/-- LOAF_ACTIVATE (R150, R153). -/
def execLoafActivate (via : Via) (s : State) : Host.Outcome State Fault Refusal :=
  runCmd 0x12 via s fun e =>
    let b := byteAt e.payload 0
    let x := loafSlotOf s (sideOf b)
    if 1 < b.toNat then badParam s via 0
    else if x.state ≠ .valid then replyErr s via stLoafSlot (slotCode x.state).toNat
    else match activationCheck s.nv x.image with
      | some (st, d) => replyErr (loafCrumb s (sideOf b) st x.image) via st d
      | none => beginSwitch s via (sideOf b) x.image

/-- The reply of LOAF_INFO: all after the state is 0 unless the slot is VALID or ACTIVE (R389). -/
def loafInfoBytes (x : LoafSlot) : List Byte :=
  let i := x.image
  if x.state = .valid ∨ x.state = .active then
    [slotCode x.state, hdrTf i, byteAt i 0x0D, hdrRole i] ++ bytesAt i 8 4 ++ bytesAt i 0x1C 4 ++ padTo 8 (loafIdOf i) ++
      padTo 16 (bytesAt i 0x30 16)
  else slotCode x.state :: zeros 35

/-- LOAF_INFO (R389). -/
def execLoafInfo (via : Via) (s : State) : Host.Outcome State Fault Refusal :=
  runCmd 0x13 via s fun e =>
    let b := byteAt e.payload 0
    if 1 < b.toNat then badParam s via 0 else replyOk s via (loafInfoBytes (loafSlotOf s (sideOf b)))

/-- LOAF_ERASE (R389). -/
def execLoafErase (via : Via) (s : State) : Host.Outcome State Fault Refusal :=
  runCmd 0x14 via s fun e =>
    let b := byteAt e.payload 0
    let x := loafSlotOf s (sideOf b)
    if 1 < b.toNat then badParam s via 0
    else if x.state = .active then replyErr s via stLoafSlot (slotCode x.state).toNat
    else replyOk (putSlot s (sideOf b) LoafSlot.empty) via [slotCode .empty]

/-! ## SHUTDOWN -/

/-- SHUTDOWN (R64, R82, R389): the request is that of MODE_REQ = SHUTDOWN; it replies once the transition is accepted. -/
def execShutdown (via : Via) (s : State) : Host.Outcome State Fault Refusal :=
  runCmd 0x32 via s fun _ => requestMode s via 0x07#8

/-- SHUTDOWN_STATUS (R389). -/
def execShutdownStatus (via : Via) (s : State) : Host.Outcome State Fault Refusal :=
  runCmd 0x33 via s fun _ => replyOk s via [s.test.shutdown]

end Sys2Proof.Machine
end

