-- ==== Sys2Proof/Machine/PhaseC.lean ====
section
/-! DEFINITION. Phase C (R527): late frames (R98, R99, R276), the tally's outcomes put into effect (R266-R268), the evaluation
of MODE_REQ and the loss of the maintenance permit (R64-R69, R88), the comparison of the lanes (R142, R143, R255, R260, R527),
staging to the crusts (R171, R237, R259, R419), and the indicator vector (R241, R465). -/

namespace Sys2Proof.Machine

/-! ## Late frames -/

/-- The lane has not delivered, as a lane whose clock has stopped never does, or is treated as late (R98, R259, R424, R485). -/
def isLate (env : PhaseCEnv) (s : State) (l : Side) : Bool :=
  laneLive s l && (env.late.at l || (s.lane.at l).forcedLate || (s.lane.at l).stopped)

def anyLate (env : PhaseCEnv) (s : State) : Bool := isLate env s .a || isLate env s .b

/-- R99, R276: the frame's updates of a lane are taken back; its reports are counted in the next frame. -/
def takeBack (x : LaneSt) : LaneSt :=
  match x.saved with
  | none => x
  | some v =>
    let n := (x.cfg.map fun c => c.params.length).getD 0
    { x with
      blk := (List.range n).foldl (fun t i =>
        tabSet BlkSt.init t i (lateBlk (tabGet BlkSt.init v.blk i) (tabGet BlkSt.init x.blk i))) []
      chans := v.chans, reps := v.reps ++ x.reps, saved := none }

/-- LATE against a lane that really was late; a lane treated as late has its own anomaly (R259, R262). -/
def lateRep (env : PhaseCEnv) (s : State) (l : Side) : State :=
  if laneLive s l && (env.late.at l || (s.lane.at l).stopped) && !(s.lane.at l).forcedLate then laneReport s (transient (chanLane l) anLate) else s

/-- An uncorrectable error of a lane's memory, counted in the frame that it makes late (R259). -/
def isEccRep (n : Nat) (r : Rep) : Bool := r.code == anEccDouble && r.chan == n

/-- The tally update that a late frame makes for lane channel `n`: its ECC_DOUBLE alone. -/
def countEccRep (n : Nat) (x : LaneSt) : LaneSt × List TallyEv :=
  let rs := x.reps.filter (isEccRep n)
  if rs.isEmpty then (x, [])
  else
    let r := tallyChan (tallyTD ((x.cfg.map fun c => c.iomap).getD []) n) n rs (chanOf x n)
    ({ modChan x n (fun _ => r.1) with reps := x.reps.filter fun q => !isEccRep n q }, r.2)

def countEccLane (x : LaneSt) : LaneSt × List TallyEv :=
  let p := countEccRep (chanLane .a) x
  let q := countEccRep (chanLane .b) p.1
  (q.1, p.2 ++ q.2)

def countEccLate (s : State) : State :=
  { modLanes s (fun x => (countEccLane x).1) with core := { s.core with outcomes := (countEccLane (reportingLane s)).2 } }

def lateFrame (env : PhaseCEnv) (s : State) : State :=
  let s1 := modLanes s takeBack
  let s2 := applyOutcomes (countEccLate (lateRep env (lateRep env s1 .a) .b))
  modLive (disturb s2) fun c =>
    { c with
      lateA := isLate env s .a, lateB := isLate env s .b
      evalA := if isLate env s .a then 0xFFFF else c.evalA, evalB := if isLate env s .b then 0xFFFF else c.evalB }

/-! ## Modes (R64-R69, R88) -/

/-- The maintenance-permit bead is trusted-true in every lane in service (R14, R162). -/
def permitHeld (s : State) : Bool :=
  let one := fun (l : Side) => !laneLive s l || match (s.lane.at l).cfg with
    | some cfg => permitTT cfg (s.lane.at l).beads
    | none => false
  one .a && one .b && (laneLive s .a || laneLive s .b)

/-- R64, R66, R72, R156: the mode that a request leads to, none where it is refused. Only a switch that waits bars OPERATE: one
sampled after the switch and before its reply is posted is accepted (DESIGN CHOICE, log 113). -/
def requestTarget (s : State) (v : Byte) : Option Mode :=
  let m := s.core.mode
  let loaf := s.lane.a.cfg.isSome && s.lane.b.cfg.isSome && s.mbx.switch.isNone
  let life := s.nv.life == .commission || s.nv.life == .field
  if v = 0x07#8 then
    (if m = .configure ∨ m = .operate ∨ m = .maintain ∨ m = .degraded ∨ m = .safeHold then some .shutdown else none)
  else if v = 0x02#8 then (if (m = .operate ∨ m = .maintain) ∧ permitHeld s then some .configure else none)
  else if v = 0x03#8 then
    (if m = .maintain ∨ (m = .configure ∧ loaf ∧ life) then some .boot else none)
  else if v = 0x06#8 then (if m = .operate ∧ permitHeld s then some .maintain else none)
  else none

/-- A fault takes MODE_CUR at the next tick. -/
def faultComing (s : State) : Bool :=
  match nextMode { s with core := { s.core with modeNext := none } } with
  | some _ => true
  | none => false

/-- R88: the permit is lost in MAINTAIN. -/
def permitLost (s : State) : Bool := s.core.mode == .maintain && !permitHeld s

/-- The mode that MODE_CUR shows from the next tick, which the staged outputs obey (R67). -/
def stageMode (s : State) : Mode :=
  match nextMode s with
  | some (m, _) => m
  | none => s.core.mode

/-- R390: the commands that waited for this evaluation answer. -/
def answerMode (target : Option Mode) (s : State) (e : QEntry) : State :=
  if e.st ≠ .awaitingMode true then s
  else
    let next := (target.getD (stageMode s)).code
    if e.cmd = 0x02#8 then replyOk s e.via [if target.isSome then 0x01 else 0x02, next]
    else if target.isSome then replyOk s e.via [] else replyErr s e.via stModeDenied s.core.mode.code.toNat

/-- R68, R371: the evaluation ends: MODE_REQ is written back unless it was written again, REQ_RESULT and the interrupt. -/
def endRequest (s : State) (target : Option Mode) : State :=
  let s1 := s.mbx.queue.foldl (answerMode target) s
  let s2 := { s1 with
    host := { s1.host with
      sampled := none
      modeReq := if s1.host.rewritten then s1.host.modeReq else 0
      reqResult := if s1.host.rewritten then 0 else if target.isSome then 1 else 2 } }
  let s3 := match target with
    | some m => { s2 with core := { s2.core with modeNext := some (m, .request) } }
    | none => s2
  setIrq0 s3 irqMode

/-- A request that a fault overtakes stays, to be sampled again (R69). -/
def keepRequest (s : State) : State :=
  let back := fun (e : QEntry) => if e.st == .awaitingMode true then { e with st := .awaitingMode false } else e
  { s with host := { s.host with sampled := none }, mbx := { s.mbx with queue := s.mbx.queue.map back } }

/-- The mode evaluation of a frame; `deaf` where no lane can accept (test hold, a late lane). -/
def evaluateMode (deaf : Bool) (s : State) : State :=
  let lost := !deaf && permitLost s
  if faultComing s then keepRequest s
  else if lost then keepRequest { s with core := { s.core with modeNext := some (.boot, .fault) } }
  else match s.host.sampled with
    | some v => endRequest s (if deaf then none else requestTarget s v)
    | none => s

/-! ## Comparison (R260, R527) -/

/-- What one lane brings to the comparison. -/
structure LaneOut where
  ds : List Decision
  contrib : Byte
  others : List Byte
  deriving DecidableEq, Repr

/-- The MAINT_HOLD beads that reached a lane without a parity error (R123). -/
def soundHolds (l : LaneSt) (mask : W16) : W16 :=
  l.hostBad.foldl (fun m k => if 64 ≤ k then m &&& ~~~(1#16 <<< (k - 64)) else m) mask

def stageCtx (s : State) (laneFault : Bool) (l : LaneSt) : StageCtx :=
  { mode := stageMode s, life := s.nv.life == .commission || s.nv.life == .field
    awaits := s.fab.awaitAdmit && !bypassClosed s
    holdMask := soundHolds l s.mbx.holdMask
    permit := (match l.cfg with
      | some cfg => permitTT cfg l.beads
      | none => false)
    laneFault := laneFault
    supplyOut := l.supplyOut.a || l.supplyOut.b }

def laneOut (s : State) (laneFault : Bool) (l : LaneSt) : LaneOut :=
  match l.cfg with
  | none => { ds := [], contrib := host0, others := [] }
  | some cfg =>
    let ds := decisions (stageCtx s laneFault l) cfg l
    let c := contribution s (stageMode s) cfg l
    { ds := ds, contrib := c, others := otherOuts cfg l c }

/-- The state digest of a lane (R142): of its state as the frame leaves it, where a pair on which the lanes' entries differ is
staged off in both (R527, log 17). -/
def digestOut (off : Option Nat) (ds : List Decision) (l : LaneSt) : W32 :=
  match l.cfg with
  | none => 0
  | some cfg => crc32c (digestBytes cfg (stageBlks (fun d => d.on && off != some d.view.pair) ds l.blk))

/-- The outcome of a comparison: which pairs it stages off, and whether everything goes off. -/
inductive Verdict2 where
  | agree
  | onePair (p : Nat)
  | all
  deriving DecidableEq, Repr

/-- The one safety pair to whose entries a difference is confined. -/
def onePairOf (x y : LaneOut) : Option Nat :=
  match differingPairs (pairOuts x.ds) (pairOuts y.ds) with
  | [p] => if p < 16 then some p else none
  | _ => none

def compareOuts (env : PhaseCEnv) (s : State) (x y : LaneOut) : Verdict2 :=
  let off := onePairOf x y
  let rest := x.others != y.others ||
    (digestOut off x.ds s.lane.a ^^^ env.digestUpset.a) != (digestOut off y.ds s.lane.b ^^^ env.digestUpset.b) ||
    tallyDiffers s.lane.a.chans s.lane.b.chans env.tallyUpset
  if rest then .all
  else match off with
    | some p => .onePair p
    | none => if (differingPairs (pairOuts x.ds) (pairOuts y.ds)).isEmpty then .agree else .all

/-- R260: a lane records EVAL_PARITY or ECC_DOUBLE in this frame, and the disagreement is counted with it. -/
def laneAttributed (s : State) : Bool :=
  let one := fun (l : LaneSt) => l.parityHit || l.eccHit
  one s.lane.a || one s.lane.b

/-- R130: a parity substitution at a cross-lane entry of this frame has been counted already. -/
def entryAttributed (s : State) : Bool := s.lane.a.entryParity || s.lane.b.entryParity

/-- R130, R255, R260: the disagreement counts against both lanes: a tally mismatch always, an upset of a digest unit where no
lane accounts for it, any other difference where no parity substitution does either. -/
def disagreeCounted (env : PhaseCEnv) (s : State) : Bool :=
  tallyDiffers s.lane.a.chans s.lane.b.chans env.tallyUpset ||
  (!laneAttributed s && (env.digestUpset.a != env.digestUpset.b || !entryAttributed s))

def disagreement (env : PhaseCEnv) (s : State) : State :=
  let t := disturb s
  if disagreeCounted env s then
    laneReport (laneReport t (transient (chanLane .a) anDisagree)) (transient (chanLane .b) anDisagree)
  else t

/-- R143, R157: the lanes' loaf check words differ as the lanes hold them. -/
def identityBroken (env : PhaseCEnv) (s : State) : Bool :=
  bothInService s &&
    (s.lane.a.cfg.map fun c => c.check ^^^ env.checkUpset.a) != (s.lane.b.cfg.map fun c => c.check ^^^ env.checkUpset.b)

/-! ## Staging -/

/-- The staging record of one pair after phase C: `on` as staged by both lanes, `own` where this lane alone keeps its leg of KA
and KB on, `late` in a late frame, whose commits stay to be evaluated (R99). -/
def recordPair (on own late deferred : Bool) (d : Option Decision) (p : PairRec) : PairRec :=
  { p with
    staged := on, ownLeg := own, due := p.due && late, deferred := deferred, holdOff := p.holdOff - 1
    stuck := p.stuck && (match d with
      | some x => isTT (agelimOf x.view.r) x.view.demand
      | none => false)
    needReset := p.needReset && (match d with
      | some x => x.view.st.latch != sound1
      | none => true) }

/-- What the whole of phase C asks of the staging of one lane. -/
structure StageOrder where
  mode : Mode
  safe : Bool
  late : Bool
  pairsOff : Bool
  pairOff : Option Nat
  lateSelf : Bool
  railToo : Bool
  contribOff : Bool
  noSafe : Bool
  deriving DecidableEq, Repr

/-- A decision as finally staged. -/
def finalOn (o : StageOrder) (d : Decision) : Bool :=
  d.on && !o.lateSelf && !(o.pairsOff && (decide (d.view.pair < 16) || o.railToo)) && o.pairOff != some d.view.pair

/-- What the record of a pair shows as staged on: in a late frame the rail contactor is open through the late lane, whatever
the other lane stages (R98, R170, R231). -/
def recordOn (o : StageOrder) (d : Decision) : Bool := finalOn o d && !o.late

/-- One lane's own records and standard legs. -/
def stageLane (o : StageOrder) (out : LaneOut) (c : Side) (x : LaneSt) : LaneSt :=
  let cfg := x.cfg
  let dOf := fun (p : Nat) => out.ds.find? fun d => d.view.pair == p
  let std := match cfg with
    | some k => (standardLegs k c).foldl (fun t e =>
        tabSet false t e.1 (!o.lateSelf && standardOn o.mode o.safe x c e.1 e.2)) []
    | none => []
  { x with
    pairs := tabEach PairRec.init x.pairs 17 fun p r =>
      match dOf p with
      | some d => recordPair (recordOn o d) (finalOn o d && o.late) o.late d.deferred (some d) r
      | none => recordPair false false o.late false none r
    blk := if o.late then x.blk else stageBlks (recordOn o) out.ds x.blk
    stdStaged := std, stdHoldOff := tabMap 0 x.stdHoldOff fun _ n => n - 1
    out := { pairs := pairOuts out.ds, others := out.others }, digest := digestOut o.pairOff out.ds x
    contrib := if o.contribOff || o.lateSelf then host0 else out.contrib
    noSafe := o.noSafe || o.lateSelf
    enteredOperate := false, forcedLate := false }

/-- A lane in service whose output frame does not reach its crust: the link fails, the crust is unpowered, the barrier FIFO waits
for its RESYNC (R488), or the lane's clock has stopped (R485). -/
def frameLost (env : PhaseCEnv) (s : State) (c : Side) : Bool :=
  laneLive s c &&
    !(env.delivered.at c && (s.crust.at c).logicPower && !(s.crust.at c).resync && !(s.lane.at c).stopped)

/-- The set reaches the crust as a valid output frame, or CRUSTLINK is counted (R230, R237, R259). -/
def stageCrust (env : PhaseCEnv) (s : State) (c : Side) : State :=
  let x := s.lane.at c
  if x.retired then modCrust s c fun y => { y with staged := none }
  else if !frameLost env s c then
    let on := (x.pairs.filter fun e => e.2.staged || e.2.ownLeg).map (·.1)
    let set := match x.cfg with
      | some cfg => stagedSet cfg c on x.stdStaged
      | none => []
    modCrust s c fun y => { y with staged := some set }
  else laneReport s (transient (chanLane c) anCrustlink)

/-! ## The indicator vector (R241, R442, R465) -/

/-- The bead indices a CYCLE entry names: START, END, MARK0-MARK3. -/
def cycleBeads (e : List Byte) : List Nat := [natAt e 2 2, natAt e 4 2, natAt e 8 2, natAt e 10 2, natAt e 12 2, natAt e 14 2]

def vectorOf (s : State) (cfg : LoafCfg) (x : LaneSt) : IndVector :=
  let v := fun (i : Nat) => decide (i < 0xFFFF) && beadV (beadOf x i)
  { tag := s.core.frameNo
    bits := (indMaps cfg.iomap).map fun e => v (natAt e 6 2)
    cycles := [0, 1].flatMap fun d => match cycleEntry cfg.iomap d with
      | some e => (cycleBeads e).map v
      | none => List.replicate 6 false
    pullIns := (List.range 16).filter fun p => match pairBlock cfg.params p with
      | some (_, r) => r.ty == tyLOCKDRV && (pairRecOf x p).staged && !(pairRecOf x p).committed
      | none => false }

/-- R443: a MARK that rises for the first time in a cycle is noted, in ms from the frame of START. -/
def noteMarks (s : State) (rose : List Bool) (d : Nat) (c : CycleRec) : CycleRec :=
  let ms := (s.core.frameNo - c.start).toNat * tfUnits s.core.tfCode / 100000
  { c with marks := c.marks.zipIdx.map fun e =>
      if e.1.isNone && rose.getD (6 * d + 2 + e.2) false then some ms else e.1 }

/-- The chip of index `i` counts a pull-in where its pair began one; an advance that failed is tried again (R466). -/
def countChip (cfg : LoafCfg) (pairs : List Nat) (t : Tab ChipSt) (i : Nat) : Tab ChipSt :=
  match actChipEntry cfg.iomap i with
  | some e =>
    if pairs.contains (byteAt e 3).toNat then
      tabMod ChipSt.init t i fun x => { x with pending := x.pending + 1, advanceFailed := false }
    else t
  | none => t

/-- R465, R468: the pull-in bits added to the chips' pending counts; a retired bus counts no wear. -/
def countPullIns (s : State) (cfg : LoafCfg) (pairs : List Nat) : State :=
  if outNow s chanActBus then s
  else { s with act := { s.act with chips := (List.range 8).foldl (countChip cfg pairs) s.act.chips } }

/-- What the hearth takes from the vector of this frame; without one, its bits are lost. -/
def takeVector (s : State) : State :=
  match s.ind.vector, activeCfg s with
  | some v, some cfg =>
    if hearthLive s then
      let rose := match s.jrn.seen with
        | some old => v.cycles.zipIdx.map fun e => e.1 && !old.getD e.2 false
        | none => v.cycles.map fun _ => false
      countPullIns { s with jrn := { s.jrn with
        seen := some v.cycles, rose := rose
        cycles := ⟨s.jrn.cycles.a.map (noteMarks s rose 0), s.jrn.cycles.b.map (noteMarks s rose 1)⟩ } } cfg v.pullIns
    else s
  | _, _ => { s with jrn := { s.jrn with rose := [] } }

def postVector (env : PhaseCEnv) (before s : State) : State :=
  let from_ := if laneLive s .a && !isLate env before .a then some s.lane.a
    else if laneLive s .b && !isLate env before .b then some s.lane.b else none
  let vec := match from_ with
    | some x => x.cfg.map fun cfg => vectorOf s cfg x
    | none => none
  takeVector { s with ind := { s.ind with vector := vec } }

/-! ## PHASE_C -/

/-- R419: the lanes act on a SELFTEST_RUN they have learnt of: everything off or at SAFE, test hold from the next tick. -/
def beginHold (s : State) : State :=
  if s.test.learned then { s with test := { s.test with learned := false, holdNext := true } } else s

/-- R259: an output frame does not reach its crust. -/
def linkLost (env : PhaseCEnv) (s : State) : Bool := frameLost env s .a || frameLost env s .b

/-- Comparison and staging of a frame that is not in test hold. -/
def compareAndStage (env : PhaseCEnv) (before : State) (laneFault late : Bool) (s : State) : State :=
  let oa := laneOut s laneFault s.lane.a
  let ob := laneOut s laneFault s.lane.b
  let v := if late || !bothInService s then Verdict2.agree else compareOuts env s oa ob
  let s1 := if v = .agree then s else disagreement env s
  let found := v ≠ .agree || linkLost env s
  let s1 := if found then disturb s1 else s1
  -- a fault in the proving period takes OPERATE back, and everything stays off (R36)
  let back := found && s.core.mode == .boot
  let all := v = .all || back
  -- a lane fault in MAINTAIN stages every pair off (R37)
  let fault := found && s.core.mode == .maintain
  let off := late || all || fault || !bothInService s || s.test.learned
  let order := fun (l : Side) => ({
    mode := stageMode s1, safe := s.test.learned, late := late, pairsOff := off
    pairOff := (match v with
      | .onePair p => some p
      | _ => none)
    lateSelf := isLate env before l, railToo := all || !bothInService s || s.test.learned
    contribOff := all || s.test.learned, noSafe := v = .all } : StageOrder)
  let s2 := { s1 with lane := ⟨
    if s1.lane.a.retired then s1.lane.a else stageLane (order .a) oa .a s1.lane.a,
    if s1.lane.b.retired then s1.lane.b else stageLane (order .b) ob .b s1.lane.b⟩ }
  stageCrust env (stageCrust env s2 .a) .b

/-- R131: a CHAN_FORCE of a frame in which the module leaves MAINTAIN is refused; otherwise it applies from the next phase
S. -/
def leavingMaintain (s : State) : Bool :=
  match nextMode s with
  | some (m, _) => m != .maintain
  | none => false

def isInputChan (n : Nat) : Bool :=
  match chanKind n with
  | some (.input _ _) => true
  | _ => false

/-- A channel operation that its command's reply sets going (R393). -/
def oweChanOp (s : State) (via : Via) (n : Nat) (op : ChanOp) : State :=
  modMbx s fun m => { m with owed := m.owed ++ [(via, .chan n op)] }

def decideForce (s : State) (e : QEntry) : State :=
  if e.st ≠ .awaitingStage then s
  else if leavingMaintain s then replyErr s e.via stModeDenied s.core.mode.code.toNat
  else
    let v := (byteAt e.payload 1).toNat
    replyOk (oweChanOp s e.via (byteAt e.payload 0).toNat (.force (if v = 0 then none else some (v == 2)))) e.via []

def decideForces (s : State) : State := s.mbx.queue.foldl decideForce s

/-- R420: in test hold nothing is compared or staged; a sampled MODE_REQ is refused. -/
def heldFrame (s : State) : State :=
  let s1 := decideForces (evaluateMode true { s with core := { s.core with outcomes := [] } })
  { modLanes s1 fun l => { l with contrib := host0, noSafe := true, forcedLate := false } with
    ind := { s1.ind with vector := none }, jrn := { s1.jrn with rose := [] } }

/-- A frame with an evaluation behind it. -/
def liveFrame (env : PhaseCEnv) (s : State) : State :=
  let late := anyLate env s
  let laneFault := s.core.outcomes.any fun e => (isLaneChan e.chan).isSome
  let s1 := if late then lateFrame env s else applyOutcomes s
  let s2 := if identityBroken env s1 then fatalFault s1 ftLoafIdentity else s1
  let s3 := decideForces (evaluateMode late s2)
  let s4 := compareAndStage env s laneFault late s3
  postVector env s (beginHold s4)

/-- PHASE_C (R91, R527): from the end of phase E to the end of phase C. -/
def execPhaseC (env : PhaseCEnv) (s : State) : Host.Outcome State Fault Refusal :=
  if !(s.core.tickOn && s.core.phase == .c) then .next s
  else
    let s0 := toPhase s .h (endC s.core.tfCode)
    .next (if s.test.hold then heldFrame s0 else liveFrame env s0)

end Sys2Proof.Machine
end

