-- ==== Sys2Proof/Machine/Window.lean ====
section
/-! DEFINITION. The host port (14): the register window with its shadows (R352-R356), the host check-value units (R360), SPI
transactions (R347-R351), doorbells and slots (R353, R376, R397), W1C bits and the running value (R357, R370), the host
watchdog (R358, R359), the hearth's heartbeat (R353, R378), and the indicator port's registers (R248, R251). -/

namespace Sys2Proof.Machine

/-! ## Host check-value units (R360) -/

def unitOf (s : State) (n : Fin 4) : CrcUnit := s.host.crc.get n

def modUnit (s : State) (n : Fin 4) (f : CrcUnit → CrcUnit) : State :=
  { s with host := { s.host with crc := s.host.crc.set n (f (unitOf s n)) } }

def polyInitial (p : BitVec 2) : W32 :=
  match p.toNat with
  | 0 => 0xFF#32
  | 1 => 0xFFFF#32
  | _ => 0xFFFFFFFF#32

def polyMask (p : BitVec 2) : W32 := polyInitial p

def polyFinal (p : BitVec 2) : W32 :=
  match p.toNat with
  | 0 => 0xFF#32
  | 1 => 0#32
  | _ => 0xFFFFFFFF#32

/-- One byte folded into the running value. -/
def foldByte (u : CrcUnit) (b : Byte) : CrcUnit :=
  { u with run := match u.poly.toNat with
    | 0 => (crc8Byte (u.run.setWidth 8) b).setWidth 32
    | 1 => (crc16Byte (u.run.setWidth 16) b).setWidth 32
    | 2 => crc32Byte u.run b
    | _ => crc32cByte u.run b }

/-- CRCn_RUN as it reads: bytes above the width of POLY read 0. -/
def runRead (u : CrcUnit) : W32 := u.run &&& polyMask u.poly

/-- Bytes above the width ignore writes. -/
def setRun (u : CrcUnit) (v : W32) : CrcUnit := { u with run := v &&& polyMask u.poly }

def initUnit (u : CrcUnit) : CrcUnit := { u with run := polyInitial u.poly }

/-- The value that GO compares: the running value with the final XOR, or raw. -/
def comparedValue (u : CrcUnit) : W32 := if u.raw then runRead u else runRead u ^^^ polyFinal u.poly

/-- GO: MATCH is written, and a mismatch raises IRQ_STAT1.CRCn. -/
def goUnit (s : State) (n : Fin 4) : State :=
  let ok := comparedValue (unitOf s n) == (unitOf s n).expect
  let s1 := modUnit s n fun u => { u with hit := ok }
  if ok then s1 else setIrq1 s1 (4 + n.val)

/-- A commit of CRCn_CTL: POLY, RAW and SNOOP, then INIT, then GO. -/
def writeCtl (s : State) (n : Fin 4) (v : Byte) : State :=
  let s1 := modUnit s n fun u => { u with poly := v.setWidth 2, raw := bitOf v 5, snoop := bitOf v 6 }
  let s2 := if bitOf v 4 then modUnit s1 n initUnit else s1
  if bitOf v 2 then goUnit s2 n else s2

/-- CRC_INIT (R360). -/
def execCrcInit (unit : Fin 4) (s : State) : Host.Outcome State Fault Refusal := .next (whileLive s (modUnit s unit initUnit))

/-- CRC_GO (R360). -/
def execCrcGo (unit : Fin 4) (s : State) : Host.Outcome State Fault Refusal := .next (whileLive s (goUnit s unit))

/-- CRCN_DATA_WRITE (R360). -/
def execCrcnDataWrite (unit : Fin 4) (v : Byte) (s : State) : Host.Outcome State Fault Refusal :=
  .next (whileLive s (modUnit s unit fun u => foldByte u v))

/-- The written running value, with a data byte accepted in the same cycle folded into it (R357). -/
def runWrite (u : CrcUnit) (v : W32) (sameCycle : Option Byte) : CrcUnit :=
  match sameCycle with
  | some b => foldByte (setRun u v) b
  | none => setRun u v

/-- CRCN_RUN_WRITE (R357). -/
def execCrcnRunWrite (unit : Fin 4) (v : W32) (sameCycle : Option Byte) (s : State) : Host.Outcome State Fault Refusal :=
  .next (whileLive s (modUnit s unit fun u => runWrite u v sameCycle))

/-! ## Slots and doorbells (R353, R376, R397) -/

def slotsAvailable (s : State) : Bool := s.host.hearth

/-- A slot that the host may write: not POSTED, not TAKEN, and available. -/
def slotWritable (s : State) (k : Nat) : Bool :=
  slotsAvailable s && slotState s k != .posted && slotState s k != .taken

/-- An access error: the transaction is discarded (R349). -/
def accessError (s : State) : State := setIrq1 { s with host := { s.host with prevAccess := true } } irqSpiErr

/-- A byte written into a slot: the first one into a FREE slot makes it FILLING. -/
def writeSlot (s : State) (o : Nat) (v : Byte) : State :=
  let k := o / 256
  let s1 := modMbx s fun m => { m with mem := memWrite m.mem o v }
  if slotState s k = .free then setSlotState s1 k .filling else s1

/-- SLOT_WRITE (R353, R376). -/
def execSlotWrite (addr : BitVec 11) (v : Byte) (s : State) : Host.Outcome State Fault Refusal :=
  .next (whileLive s (if slotWritable s (addr.toNat / 256) then writeSlot s addr.toNat v else accessError s))

/-- One bit of MBX_POST. -/
def postBit (s : State) (k : Nat) : State :=
  if slotsAvailable s && slotState s k == .filling then setSlotState s k .posted else setIrq1 s irqSpiErr

/-- One bit of MBX_ACK. -/
def ackBit (s : State) (k : Nat) : State :=
  if slotsAvailable s && (slotState s k == .done || slotState s k == .filling) then setSlotState s k .free
  else setIrq1 s irqSpiErr

def bitsOf (v : Byte) : List Nat := (List.range 8).filter fun k => bitOf v k

/-- MBX_POST (R353, R376). -/
def execMbxPost (mask : Byte) (s : State) : Host.Outcome State Fault Refusal := .next (whileLive s ((bitsOf mask).foldl postBit s))

/-- MBX_ACK (R353, R376). -/
def execMbxAck (mask : Byte) (s : State) : Host.Outcome State Fault Refusal := .next (whileLive s ((bitsOf mask).foldl ackBit s))

/-! ## W1C registers, HOSTWD, SPI_CFG, the indicator port's registers -/

/-- A W1C write: what hardware sets in the same cycle stays set (R357). -/
def clearBits (old mask hwSet : Byte) : Byte := (old &&& ~~~mask) ||| hwSet

def clearIrq (s : State) (hiByte : Bool) (mask hwSet : Byte) : State :=
  if hiByte then { s with host := { s.host with irqStat1 := clearBits s.host.irqStat1 mask (hwSet &&& 0xF7#8) } }
  else { s with host := { s.host with irqStat0 := clearBits s.host.irqStat0 mask hwSet } }

/-- IRQ_STAT_CLEAR (R357, R370). -/
def execIrqStatClear (hiByte : Bool) (mask hwSet : Byte) (s : State) : Host.Outcome State Fault Refusal :=
  .next (whileLive s (clearIrq s hiByte mask hwSet))

/-- A committed write of HOSTWD is a kick (R352, R358). -/
def writeHostwd (s : State) (v : Byte) : State := kick { s with host := { s.host with hostwd := v &&& 0x1F#8 } }

/-- HOSTWD_WRITE (R357, R358). -/
def execHostwdWrite (v : Byte) (s : State) : Host.Outcome State Fault Refusal := .next (whileLive s (writeHostwd s v))

def writeSpiCfg (s : State) (v : Byte) : State := { s with host := { s.host with crcEn := bitOf v 0 } }

/-- SPI_CFG_WRITE (R351, R373). -/
def execSpiCfgWrite (v : Byte) (s : State) : Host.Outcome State Fault Refusal := .next (whileLive s (writeSpiCfg s v))

/-- OEN_OFF = 1 raises IC_OEN; a 0 lets it fall at the end of the next strobe (R245, R251). -/
def writeIndCtl (s : State) (v : Byte) : State :=
  { s with ind := { s.ind with oenOff := bitOf v 0, oen := s.ind.oen && (s.ind.icStb || !bitOf v 0) } }

/-- OEN_OFF_WRITE (R251). -/
def execOenOffWrite (v : Byte) (s : State) : Host.Outcome State Fault Refusal := .next (whileLive s (writeIndCtl s v))

def clearInd (s : State) (mask hwSet : Byte) : State :=
  let s1 := { s with ind := { s.ind with
    late := (s.ind.late && !bitOf mask 1) || bitOf hwSet 1, stbwd := (s.ind.stbwd && !bitOf mask 2) || bitOf hwSet 2 } }
  if bitOf hwSet 1 || bitOf hwSet 2 then setIrq0 s1 irqInd else s1

/-- IND_STAT_CLEAR (R251). -/
def execIndStatClear (mask hwSet : Byte) (s : State) : Host.Outcome State Fault Refusal := .next (whileLive s (clearInd s mask hwSet))

/-! ## The window (R352-R356) -/

/-- The check-value unit and the offset in it that an address names. -/
def crcAddr (a : Nat) : Option (Fin 4 × Nat) :=
  if 0x40 ≤ a ∧ a < 0x80 then some (Fin.ofNat 4 ((a - 0x40) / 16), a % 16) else none

/-- The multi-byte registers: lowest address and length. -/
def multiRegs : List (Nat × Nat) :=
  [(0x000, 2), (0x002, 2), (0x008, 8), (0x014, 4), (0x032, 2), (0x084, 4), (0x088, 2), (0x08A, 2), (0x08C, 2), (0x08E, 2),
   (0x090, 2), (0x092, 2), (0x096, 2), (0x098, 2), (0x09A, 2), (0x09C, 2)] ++
  [0x40, 0x50, 0x60, 0x70].flatMap fun b => [(b + 8, 4), (b + 12, 4)]

/-- The multi-byte register that an address lies in. -/
def multiOf (a : Nat) : Option (Nat × Nat) := multiRegs.find? fun r => decide (r.1 ≤ a) && decide (a < r.1 + r.2)

def crcByteAt (u : CrcUnit) (o : Nat) : Byte :=
  if o = 0 then u.poly.setWidth 8 ||| (if u.hit then 0x08#8 else 0) ||| (if u.raw then 0x20#8 else 0) |||
      (if u.snoop then 0x40#8 else 0)
  else if 8 ≤ o ∧ o < 12 then byteAt (le32 (runRead u)) (o - 8)
  else if 12 ≤ o then byteAt (le32 u.expect) (o - 12)
  else 0

/-- IND_STAT (R248). -/
def indStat (s : State) : Byte :=
  byteOfBits [s.ind.run, s.ind.late, s.ind.stbwd, (chanOf (reportingLane s) chanIndChain).retired, s.ind.oen]

def mbxCode : MbxState → Nat
  | .free => 0
  | .filling => 1
  | .posted => 2
  | .taken => 3
  | .done => 4

/-- MBX_STATE: two slots to a byte, 0xF where unavailable. -/
def mbxStateByte (s : State) (i : Nat) : Byte :=
  if slotsAvailable s then BitVec.ofNat 8 (mbxCode (slotState s (2 * i)) + 16 * mbxCode (slotState s (2 * i + 1))) else 0xFF#8

def slotBits (s : State) (x : MbxState) : Byte :=
  if slotsAvailable s then byteOfBits ((List.range 8).map fun k => slotState s k == x) else 0

/-- The latched statistics from 0x080 (R354). -/
def statBytes (s : State) : List Byte :=
  let c := s.stat.latched
  [s.stat.gen, 0, 0, 0] ++ le32 s.stat.frame ++ le16 c.evalA ++ le16 c.evalB ++ le16 c.fablat ++ le16 c.linkerr ++
    le16 c.retry ++ le16 c.trans ++ [byteOfBits [c.lateA, c.lateB, c.lateInd], 0] ++ le16 c.stale ++ le16 c.sfdrop ++
    le16 c.safedisc ++ le16 c.canerr

/-- The registers from 0x000 to 0x02F. -/
def lowBytes (s : State) : List Byte :=
  [0x4B, 0x53, 0x30, 0x00, 0x03, s.host.fwMajor, s.host.fwMinor, 0x04] ++ padTo 8 s.nv.serial ++
  [statusByte s, s.core.mode.code, s.host.modeReq, s.host.lifeReg] ++ le32 s.core.frameNo ++
  [s.host.irqStat0, s.host.irqStat1, s.host.irqEn0, s.host.irqEn1, s.host.hostwd, byteOfBool s.host.crcEn, 0, 0] ++
  [slotBits s .free, slotBits s .posted, slotBits s .done, 0x00, mbxStateByte s 0, mbxStateByte s 1, mbxStateByte s 2,
   mbxStateByte s 3]

/-- The live value of a location; reserved ones read 0x00. -/
def liveByte (s : State) (a : Nat) : Byte :=
  if a < 0x30 then byteAt (lowBytes s) a
  else if a = 0x30 then indStat s
  else if a = 0x31 then byteOfBool s.ind.oenOff
  else if a = 0x32 ∨ a = 0x33 then byteAt (le16 s.ind.lateCnt) (a - 0x32)
  else if a = 0x34 then s.ind.seq
  else if 0x80 ≤ a ∧ a < 0xC0 then byteAt (statBytes s) (a - 0x80)
  else if 0x800 ≤ a ∧ a < 0x1000 then memRead s.mbx.mem (a - 0x800)
  else match crcAddr a with
    | some (n, o) => crcByteAt (unitOf s n) o
    | none => 0

/-- R355: a byte read from the window, with the latching of a read shadow. -/
def readByte (s : State) (a : Nat) : Byte × State :=
  match multiOf a with
  | none => (liveByte s a, s)
  | some (base, n) =>
    if a = base then
      let v := (List.range n).map fun i => liveByte s (base + i)
      (byteAt v 0, { s with host := { s.host with readShadow := tabSet [] s.host.readShadow base v } })
    else (byteAt (tabGet [] s.host.readShadow base) (a - base), s)

/-- R349: a location that a write may address. -/
def writable (s : State) (a : Nat) : Bool :=
  a == 0x12 || a == 0x18 || a == 0x19 || a == 0x1A || a == 0x1B || a == 0x1C || a == 0x1D || a == 0x21 || a == 0x23 ||
  a == 0x30 || a == 0x31 ||
  (match crcAddr a with
   | some (_, o) => o == 0 || o == 4 || decide (8 ≤ o)
   | none => false) ||
  (decide (0x800 ≤ a) && decide (a < 0x1000) && slotWritable s ((a - 0x800) / 256))

/-- R356: the bytes of a multi-byte register at its commit: those waiting in the write shadow, the present value for the
others, and the highest as written. -/
def committedWord (s : State) (base : Nat) (v : Byte) : W32 :=
  let part := fun (i : Nat) => match s.host.writeShadow.find? fun e => e.1 == base + i with
    | some e => e.2
    | none => liveByte s (base + i)
  u32At [part 0, part 1, part 2, v] 0

def shadowWrite (s : State) (a : Nat) (v : Byte) : State :=
  { s with host := { s.host with writeShadow := (s.host.writeShadow.filter fun e => e.1 != a) ++ [(a, v)] } }

def dropShadow (s : State) (base : Nat) : State :=
  { s with host := { s.host with writeShadow := s.host.writeShadow.filter fun e => decide (e.1 < base) || decide (base + 4 ≤ e.1) } }

/-- A committed byte at a location of a check-value unit. -/
def writeCrc (s : State) (n : Fin 4) (o a : Nat) (v : Byte) : State :=
  if o = 0 then writeCtl s n v
  else if o = 4 then modUnit s n fun u => foldByte u v
  else if o = 11 then
    let w := committedWord s (a - 3) v
    modUnit (dropShadow s (a - 3)) n fun u => setRun u w
  else if o = 15 then
    let w := committedWord s (a - 3) v
    modUnit (dropShadow s (a - 3)) n fun u => { u with expect := w }
  else shadowWrite s a v

/-- One committed byte of a write (R349, R352). -/
def commitByte (s : State) (a : Nat) (v : Byte) : State :=
  if a = 0x12 then writeModeReq s v
  else if a = 0x18 then clearIrq s false v 0
  else if a = 0x19 then clearIrq s true v 0
  else if a = 0x1A then { s with host := { s.host with irqEn0 := v } }
  else if a = 0x1B then { s with host := { s.host with irqEn1 := v } }
  else if a = 0x1C then writeHostwd s v
  else if a = 0x1D then writeSpiCfg s v
  else if a = 0x21 then (bitsOf v).foldl postBit s
  else if a = 0x23 then (bitsOf v).foldl ackBit s
  else if a = 0x30 then clearInd s v 0
  else if a = 0x31 then writeIndCtl s v
  else if 0x800 ≤ a ∧ a < 0x1000 then writeSlot s (a - 0x800) v
  else match crcAddr a with
    | some (n, o) => writeCrc s n o a v
    | none => s

/-- REGISTER_WRITE (R352): a committed write of a writable location. -/
def execRegisterWrite (addr : BitVec 12) (v : Byte) (s : State) : Host.Outcome State Fault Refusal :=
  .next (whileLive s (if writable s addr.toNat then commitByte s addr.toNat v else s))

/-! ## SPI transactions (R347-R351) -/

/-- SPISTAT (R347). -/
def spistat (s : State) : Byte :=
  byteOfBits [s.host.prevCrc, s.host.prevAccess, irqAsserted s, s.host.hearth] ||| 0xA0#8

def spiAddr (b : List Byte) : Nat := (byteAt b 0).toNat % 16 * 256 + (byteAt b 1).toNat
def spiFix (b : List Byte) : Bool := bitOf (byteAt b 0) 6
def spiLen (b : List Byte) : Nat := (byteAt b 2).toNat + 1

/-- The address of data byte `i`. -/
def spiAddrOf (b : List Byte) (i : Nat) : Nat := if spiFix b then spiAddr b else spiAddr b + i

def spiHead (s : State) : List Byte := [spistat s, s.core.mode.code, s.core.frameNo.setWidth 8]

/-- A transaction begins with the faults of the one before no longer shown to the next. -/
def spiBegin (s : State) (sdo : List Byte) : State :=
  { s with host := { s.host with prevCrc := false, prevAccess := false, sdo := sdo } }

def crcFault (s : State) : State := setIrq1 { s with host := { s.host with prevCrc := true } } irqSpiCrc

/-- The data bytes of a write with their addresses. -/
def spiData (b : List Byte) : List (Nat × Byte) := (List.range (spiLen b)).map fun i => (spiAddrOf b i, byteAt b (3 + i))

/-- The faults of a write, none where it commits (R349). -/
def writeFaults (s : State) (b : List Byte) (oddBits : Bool) : Bool × Bool :=
  let n := 3 + spiLen b + natOfBool s.host.crcEn
  if oddBits || b.length ≠ n then (true, false)
  else
    let bad := (spiData b).any fun e => decide (0xFFF < e.1) || !writable s e.1
    let crc := s.host.crcEn && byteAt b (3 + spiLen b) != crc8 (b.take (3 + spiLen b))
    (bad, crc)

/-- SPI_WRITE (R349, R351, R356, R373). -/
def execSpiWrite (sdi : List Byte) (oddBits : Bool) (s : State) : Host.Outcome State Fault Refusal :=
  if !portLive s || bitOf (byteAt sdi 0) 7 then .next s
  else
    let sdo := (spiHead s ++ List.replicate (sdi.length - 3) 0xFF#8).take sdi.length
    let (access, crc) := writeFaults s sdi oddBits
    let s1 := spiBegin s sdo
    let s2 := if access then accessError s1 else s1
    let s3 := if crc then crcFault s2 else s2
    .next (if access || crc then s3 else (spiData sdi).foldl (fun s e => commitByte s e.1 e.2) s3)

/-- R360: snooping units fold in a data byte sent from the slot range. -/
def snoopByte (s : State) (a : Nat) (v : Byte) : State :=
  if 0x800 ≤ a ∧ a < 0x1000 then
    ([0, 1, 2, 3] : List (Fin 4)).foldl (fun s n => if (unitOf s n).snoop then modUnit s n fun u => foldByte u v else s) s
  else s

/-- The data of a read, sent byte by byte with its side effects; an address beyond 0xFFF reads 0x00. -/
def readData (b : List Byte) : Nat → Nat → State → List Byte × State
  | 0, _, s => ([], s)
  | n + 1, i, s =>
    let a := spiAddrOf b i
    let (v, s1) := if a ≤ 0xFFF then readByte s a else (0, s)
    let (r, s2) := readData b n (i + 1) (snoopByte s1 a v)
    (v :: r, s2)

/-- SPI_READ (R347, R350, R351). Only bytes that are clocked out are sent. -/
def execSpiRead (sdi : List Byte) (oddBits : Bool) (s : State) : Host.Outcome State Fault Refusal :=
  if !portLive s || !bitOf (byteAt sdi 0) 7 then .next s
  else
    let n := spiLen sdi
    let whole := sdi.length - natOfBool oddBits
    let sent := min n (whole - 4)
    let crcOn := s.host.crcEn
    let bad := crcOn && decide (4 ≤ whole) && byteAt sdi 3 != crc8 (sdi.take 3)
    let head := spiHead s
    let s1 := spiBegin s []
    let (data, s2) := if bad then (zeros sent, crcFault s1) else readData sdi sent 0 s1
    let past := decide (0 < sent) && decide (0xFFF < spiAddrOf sdi (sent - 1))
    let s3 := if past then accessError s2 else s2
    let dcrc := crc8 (sdi.take 3 ++ data)
    let tail := (if crcOn then [if bad then dcrc ^^^ 0xFF#8 else dcrc] else []) ++
      List.replicate sdi.length 0xFF#8
    let sdo := (head ++ [0x00] ++ data ++ (if sent = n then tail else [])).take sdi.length
    .next { s3 with host := { s3.host with sdo := sdo } }

/-! ## The host watchdog (R358, R359) -/

/-- The count at which HOSTWD.TO expires, none while it is disabled. -/
def wdTimeout (v : Byte) : Option Nat := if v.toNat % 16 = 0 then none else some (2 ^ (v.toNat % 16 + 3))

/-- HOST_WATCHDOG_EXPIRY (R358, R359). -/
def execHostWatchdogExpiry (s : State) : Host.Outcome State Fault Refusal :=
  match wdTimeout s.host.hostwd with
  | none => .next s
  | some n =>
    .next (if s.core.tickOn && decide (n ≤ s.host.wdCount) && !s.host.wdExpired then
      let s1 := setIrq0 { s with host := { s.host with wdExpired := true } } irqHostwd
      crumb (modMbx s1 fun m => { m with
        hostBitsNext := some (m.hostBits, 0), defaultsApply := true, holds := [] }) crHost 0xFF 0x01 []
    else s)

/-! ## The hearth's heartbeat (R353, R378) -/

/-- R378: the commands of the queue are lost without reply, and with them what waits for a reply of theirs. -/
def loseCommands (s : State) : State :=
  { modMbx s fun m => { m with queue := [], learn := none, switch := heldSwitch s, owed := [] } with
    act := { s.act with scanVia := [] }, test := loseTest s.test }

/-- Every slot becomes FREE (R378). -/
def freeSlots (s : State) : State := modMbx (loseCommands s) fun m => { m with slots := Vector.replicate 8 .free }

/-- HEARTH_HEARTBEAT_LOSS (R353, R378): the slots become unavailable; in SAFE_HOLD the bypass closes (R45). -/
def execHearthHeartbeatLoss (s : State) : Host.Outcome State Fault Refusal :=
  let t := loseCommands { s with host := { s.host with hearth := false } }
  .next (if !s.host.hearth then s else if s.core.mode = .safeHold then syncIrq s (leaveFabric t) else t)

/-- The firmware has started since the reset (R352). -/
def hearthStarted (s : State) : Bool := !s.core.inReset && s.host.fwMajor != 0

/-- HEARTH_HEARTBEAT_RETURN (R378). -/
def execHearthHeartbeatReturn (s : State) : Host.Outcome State Fault Refusal :=
  .next (if hearthStarted s && !s.host.hearth then freeSlots { s with host := { s.host with hearth := true } } else s)

/-- HEARTH_RESTART (R157, R378, R468): the firmware starts anew, the window goes on. -/
def execHearthRestart (s : State) : Host.Outcome State Fault Refusal :=
  .next (if hearthStarted s then hearthStart s else s)

end Sys2Proof.Machine
end

