-- ==== Sys2Proof/Machine/CmdChan.lean ====
section
/-! DEFINITION. The channel commands and IND_STATUS (15: table 0x2_; R124, R125, R131 of 05, R269, R270, R275 of 11, R393). -/

namespace Sys2Proof.Machine

/-- The channel under which a number is tallied: its group's leg (R214). -/
def ownChan (s : State) (n : Nat) : Nat :=
  match activeCfg s with
  | some cfg => countedChan cfg.params n
  | none => n

def sideRetired (s : State) (n : Nat) : Bool :=
  match chanSide n with
  | some c => (s.lane.at c).retired
  | none => false

/-- The state of a channel as CHAN_STATUS codes it (R267, R393). -/
def chanState (s : State) (n : Nat) : Byte :=
  let r := chanOf (reportingLane s) (ownChan s n)
  match isLaneChan n with
  | some l => if (s.lane.at l).retired then 0x02 else 0x00
  | none =>
    if r.prob.isSome && !sideRetired s n then 0x01
    else if r.retired || sideRetired s n then 0x02
    else if (chanOf (reportingLane s) n).iso.isSome then 0x03
    else match activeCfg s with
      | some cfg => if chanConfigured cfg n then 0x00 else 0x04
      | none => 0x04

def chanRecord (s : State) (n : Nat) : List Byte :=
  let r := chanOf (reportingLane s) (ownChan s n)
  [BitVec.ofNat 8 n, chanState s n, BitVec.ofNat 8 r.tally, r.code]

/-- CHAN_STATUS (R389, R393): the count runs over the assigned numbers. -/
def execChanStatus (via : Via) (s : State) : Host.Outcome State Fault Refusal :=
  runCmd 0x20 via s fun e =>
    let first := (byteAt e.payload 0).toNat
    let count := (byteAt e.payload 1).toNat
    let list := (allChans.filter fun n => decide (first ≤ n)).take count
    if (chanKind first).isNone then badParam s via 0
    else if count = 0 ∨ 48 < count ∨ list.length < count then badParam s via 1
    else replyOk s via (list.flatMap (chanRecord s))

/-- The pair blocks of a leg that hold an RST input (R269). -/
def hasResetPath (cfg : LoafCfg) (c : Side) (n : Nat) : Bool :=
  (blocksOfLeg cfg.params c n).all fun r =>
    match cfg.params.idxOf? r with
    | some k => ((blockIns cfg.form k).getD (if r.ty = tyLOCKDRV then 1 else 2) none).isSome
    | none => false

def resetPathOk (s : State) (n : Nat) : Bool :=
  match activeCfg s, chanKind n with
  | some cfg, some (.leg c k) => hasResetPath cfg c k
  | _, _ => true

/-- A re-admission accepted: probation from the next tick (R270). -/
def acceptReadmit (s : State) (n : Nat) : State :=
  let s1 := modMbx (modChans s n fun r => { r with tally := 0, clean := 0 }) fun m => { m with readmits := nodupInsert m.readmits n }
  crumb s1 crReadmit n 0x01 []

/-- CHAN_READMIT (R269, R270). -/
def execChanReadmit (via : Via) (s : State) : Host.Outcome State Fault Refusal :=
  runCmd 0x21 via s fun e =>
    let n := (byteAt e.payload 0).toNat
    let k := ownChan s n
    if (chanKind n).isNone || (isLaneChan n).isSome then badParam s via 0
    else if sideRetired s n then replyErr s via stLaneRetired 0
    else if !(chanOf (reportingLane s) k).retired || s.mbx.readmits.contains k then replyErr s via stNotRetired 0
    else if !resetPathOk s n then replyErr s via stNoResetPath 0
    else replyOk (acceptReadmit s k) via []

/-- CHAN_ISOLATE (R125, R389). -/
def execChanIsolate (via : Via) (s : State) : Host.Outcome State Fault Refusal :=
  runCmd 0x22 via s fun e =>
    let n := (byteAt e.payload 0).toNat
    let v := byteAt e.payload 1
    if !isInputChan n then badParam s via 0
    else if 1 < v.toNat then badParam s via 1
    else replyOk (oweChanOp s via n (.isolate (v == 1#8))) via []

/-- The channel is isolated, or will be from the next phase S. -/
def isolatedSoon (s : State) (n : Nat) : Bool :=
  let owed := s.mbx.owed.filterMap fun e => match e.2 with
    | .chan k op => some (k, op)
    | .bits _ _ => none
  (s.mbx.chanOps ++ owed).foldl (fun b e => if e.1 = n then (match e.2 with
    | .isolate _ => true
    | .restore => false
    | .force _ => b) else b) (chanOf (reportingLane s) n).iso.isSome

/-- CHAN_RESTORE (R125, R389). -/
def execChanRestore (via : Via) (s : State) : Host.Outcome State Fault Refusal :=
  runCmd 0x23 via s fun e =>
    let n := (byteAt e.payload 0).toNat
    if (chanKind n).isNone || !isolatedSoon s n then badParam s via 0
    else replyOk (oweChanOp s via n .restore) via []

/-- The phase C of this frame is still to come, which decides whether the module leaves MAINTAIN. -/
def beforeStage (s : State) : Bool := s.core.tickOn && s.core.phase != .h && s.core.phase != .g

/-- CHAN_FORCE (R124, R131): a command that comes before phase C waits for it. -/
def execChanForce (via : Via) (s : State) : Host.Outcome State Fault Refusal :=
  runCmd 0x24 via s fun e =>
    let n := (byteAt e.payload 0).toNat
    let v := (byteAt e.payload 1).toNat
    if !isInputChan n then badParam s via 0
    else if 2 < v then badParam s via 1
    else if beforeStage s then setQ s via .awaitingStage
    else decideForce s { e with st := .awaitingStage }

/-- IND_STATUS (R249, R389). -/
def execIndStatus (via : Via) (s : State) : Host.Outcome State Fault Refusal :=
  runCmd 0x26 via s fun _ =>
    replyOk s via ([indStat s, 0x00] ++ le16 s.ind.lateCnt ++ le16 s.ind.trips ++ [0x00, 0x00] ++ packBits 32 s.ind.front)

end Sys2Proof.Machine
end

