-- ==== Sys2Proof/Machine/Actuator.lean ====
section
/-! DEFINITION. The actuator identity bus (19; ACT_STATUS and ACT_SCAN of 15): scans and authentication (R463, R464, R475),
failed transactions (R462), wear (R466, R467, R472, R474), recovery and retirement (R468, R469). -/

namespace Sys2Proof.Machine

/-! ## Chips and crumbs -/

def chipOf (s : State) (i : Nat) : ChipSt := tabGet ChipSt.init s.act.chips i

def modAct (s : State) (f : ActSt → ActSt) : State := { s with act := f s.act }

def setChip (s : State) (i : Nat) (x : ChipSt) : State :=
  modAct s fun a => { a with chips := tabSet ChipSt.init a.chips i x }

/-- The configured chips in index order: index and ACTCHIP entry. -/
def chipEntries (s : State) : List (Nat × List Byte) :=
  match activeCfg s with
  | some cfg => if (actBusEntry cfg.iomap).isSome then
      (List.range 8).filterMap fun i => (actChipEntry cfg.iomap i).map fun e => (i, e) else []
  | none => []

def chipAddress (e : List Byte) : Byte := byteAt e 2
def chipKey (s : State) (e : List Byte) : Option (List Byte) := tabFind s.nv.actKeys (byteAt e 4).toNat
def chipWarn (e : List Byte) : W32 := u32At e 8
def chipLimit (e : List Byte) : W32 := u32At e 12

/-- The body of an ACTUATOR crumb (R471). -/
def actBody (index address : Byte) (count : W32) (uid : List Byte) (pulses : Nat) : List Byte :=
  [index, address] ++ le32 count ++ padTo 8 uid ++ leBytes 2 pulses

def actCrumb (s : State) (code : Byte) (body : List Byte) : State := crumb s crActuator chanActBus code body

def busCrumb (s : State) (code : Byte) (pulses : Nat) : State := actCrumb s code (actBody 0xFF 0x00 0 [] pulses)

def chipCrumb (s : State) (code : Byte) (i : Nat) (e : List Byte) (x : ChipSt) : State :=
  actCrumb s code (actBody (BitVec.ofNat 8 i) (chipAddress e) x.count x.uid 0)

/-- The bus channel's record, as the lanes hold it. -/
def busRec (s : State) : ChanRec := chanOf (reportingLane s) chanActBus

/-- The hearth may use the bus. -/
def busUsable (s : State) : Bool := hearthLive s && busActive s s.core.mode && !retiredNow s chanActBus

/-! ## Status (R470) -/

def busState (s : State) : Byte :=
  if ((activeCfg s).bind fun c => actBusEntry c.iomap).isNone then 0x03
  else if (busRec s).prob.isSome then 0x01
  else if (busRec s).retired then 0x02
  else 0x00

def busSpeed (s : State) : Byte :=
  match (activeCfg s).bind fun c => actBusEntry c.iomap with
  | some e => byteAt e 1
  | none => 0

def chipFlags (x : ChipSt) : Byte :=
  byteOfBits [x.present, x.authOk, x.authFail, x.warn, x.limit, x.uidChanged, x.noKey]

def chipRecord (s : State) (c : Nat × List Byte) : List Byte :=
  let x := chipOf s c.1
  [BitVec.ofNat 8 c.1, chipAddress c.2, chipFlags x, byteAt c.2 3] ++ le32 x.count ++ leBytes 2 (min x.pending 0xFFFF) ++
  zeros 2 ++ padTo 8 x.uid

def actStatusBytes (s : State) : List Byte :=
  let chips := chipEntries s
  [busState s, busSpeed s, BitVec.ofNat 8 chips.length, 0x00] ++ chips.flatMap (chipRecord s)

/-- ACT_STATUS (R470). -/
def execActStatus (via : Via) (s : State) : Host.Outcome State Fault Refusal :=
  runCmd 0x78 via s fun _ => replyOk s via (actStatusBytes s)

/-- ACT_SCAN (R463, R468, R472): it answers when the scan ends. -/
def execActScan (via : Via) (s : State) : Host.Outcome State Fault Refusal :=
  runCmd 0x79 via s fun _ =>
    if busState s = 0x02#8 then replyErr s via stBusRetired 0
    else if !busActive s s.core.mode then replyOk s via (actStatusBytes s)
    else modAct (setQ s via .running) fun a => { a with scanDue := true, scanVia := a.scanVia ++ [via] }

/-! ## Scan (R463, R464) -/

/-- A wear flag newly set writes its crumb (R466). -/
def wearCrumbs (s : State) (i : Nat) (e : List Byte) (old new : ChipSt) : State :=
  let s1 := if new.warn && !old.warn then chipCrumb s 0x05 i e new else s
  if new.limit && !old.limit then chipCrumb s1 0x06 i e new else s1

/-- The wear flags that a COUNT sets. -/
def withWear (e : List Byte) (x : ChipSt) : ChipSt :=
  { x with warn := decide (chipWarn e ≤ x.count), limit := decide (chipLimit e ≤ x.count) }

/-- What a chip must answer to a challenge. -/
def expectedHmac (key challenge uid : List Byte) (count : W32) (address : Byte) : List Byte :=
  hmacSha256 key (challenge ++ uid ++ le32 count ++ [address])

/-- R475: a chip whose UID changed is unproven until it authenticates. -/
def noteProof (n : NvSt) (i : Nat) (uid : List Byte) (changed ok : Bool) : NvSt :=
  { n with
    actUid := tabSet [] n.actUid i uid
    actUnproven := if ok then n.actUnproven.filter fun j => j != i else if changed then nodupInsert n.actUnproven i
      else n.actUnproven }

/-- A chip that answered INFO; `hmac` is its answer to CHALLENGE, none where that transaction failed. -/
def chipAnswer (s : State) (i : Nat) (e : List Byte) (uid : List Byte) (count : W32) (hmac : Option (List Byte)) : State :=
  let (challenge, s1) := drawBytes s 16
  let old := chipOf s1 i
  let ok := match chipKey s1 e with
    | some key => hmac == some (expectedHmac key challenge uid count (chipAddress e))
    | none => false
  let last := tabGet [] s1.nv.actUid i
  let changed := !last.isEmpty && last != uid
  let new := withWear e { old with
    present := true, authOk := ok, authFail := !ok, noKey := (chipKey s1 e).isNone, uidChanged := changed
    count := count, uid := uid, pending := if changed then 0 else old.pending }
  let s2 := setChip { s1 with nv := noteProof s1.nv i uid changed ok } i new
  let s3 := if ok then s2 else chipCrumb s2 0x02 i e new
  let s4 := if changed then chipCrumb s3 0x04 i e new else s3
  wearCrumbs s4 i e old new

/-- One chip of a scan; the anomaly of a failed transaction is CHIP_TRANSACTION_FAIL's. -/
def scanChip (s : State) (i : Nat) (e : List Byte) (r : ChipReply) : State :=
  let x := chipOf s i
  let off := { x with present := false, authOk := false, authFail := false, uidChanged := false, noKey := false }
  match r with
  | .absent => chipCrumb (setChip s i off) 0x03 i e off
  | .failed none => setChip s i { off with present := true }
  | .failed (some a) => chipAnswer s i e a.1 a.2 none
  | .present uid count hmac => chipAnswer s i e uid count (some hmac)

/-- A transaction of the scan failed. -/
def scanFailed (r : ChipReply) : Bool :=
  match r with
  | .failed _ => true
  | _ => false

/-- The scan has ended: its crumb, the probation's condition where it succeeded (R270, R469), and the replies that waited. -/
def endScan (ok : Bool) (s : State) : State :=
  let s1 := busCrumb (modAct s fun a => { a with scanDue := false, scanVia := [] }) 0x01 0
  let s2 := if ok then modChans s1 chanActBus fun r => { r with prob := r.prob.map fun p => { p with scanned := true } } else s1
  s.act.scanVia.foldl (fun t v => replyOk t v (actStatusBytes t)) s2

/-- BUS_SCAN (R463): the replies in index order of the configured chips. -/
def execBusScan (replies : List ChipReply) (s : State) : Host.Outcome State Fault Refusal :=
  .next (if busUsable s && s.act.scanDue && !s.act.recoverDue then
    endScan (!(replies.take (chipEntries s).length).any scanFailed) ((chipEntries s).zipIdx.foldl (fun s c => scanChip s c.1.1 c.1.2 (replies.getD c.2 .absent)) s)
  else s)

/-- CHIP_TRANSACTION_FAIL (R462, R473). -/
def execChipTransactionFail (retryFails : Bool) (s : State) : Host.Outcome State Fault Refusal :=
  .next (if busUsable s && retryFails then foundReport s (transient chanActBus anChipNak) else s)

/-! ## Wear (R466) -/

/-- An advance is due and may run now (R466, R472): not of a chip whose UID changed and that has not authenticated since (R475). -/
def advanceDue (s : State) (i : Nat) : Bool :=
  let x := chipOf s i
  busUsable s && !outNow s chanActBus && !s.act.scanDue && !s.act.recoverDue && decide (256 ≤ x.pending) && !x.advanceFailed &&
  !s.nv.actUnproven.contains i

/-- R467: the pending counts saved in the key area. -/
def savePending (s : State) : State :=
  { s with nv := { s.nv with actPending := tabMap (0 : Nat) (s.act.chips.map fun c => (c.1, c.2.pending)) fun _ n => n } }

def advanceFails (s : State) (i : Nat) (e : List Byte) (x : ChipSt) : State :=
  let y := { x with advanceFailed := true }
  chipCrumb (setChip s i y) 0x07 i e y

/-- The chip answered ADVANCE and CHALLENGE, neither of which carries a UID: the HMAC is judged under the one recorded. The flags of
the last scan stay (R464). -/
def advanceAnswer (s : State) (i : Nat) (e : List Byte) (count : W32) (hmac : List Byte) : State :=
  let (challenge, s1) := drawBytes s 16
  let old := chipOf s1 i
  let auth := match chipKey s1 e with
    | some key => hmac == expectedHmac key challenge old.uid count (chipAddress e)
    | none => false
  let new := withWear e { old with count := count }
  if auth && count.toNat == old.count.toNat + 256 then
    let done := { new with pending := old.pending - 256 }
    wearCrumbs (savePending (setChip s1 i done)) i e old done
  else wearCrumbs (advanceFails s1 i e new) i e old new

def advanceChip (s : State) (i : Nat) (e : List Byte) (r : ChipReply) : State :=
  match r with
  | .absent => advanceFails s i e (chipOf s i)
  | .failed _ => advanceFails s i e (chipOf s i)
  | .present _ count hmac => advanceAnswer s i e count hmac

/-- WEAR_ADVANCE (R466, R474). -/
def execWearAdvance (idx : Fin 8) (reply : ChipReply) (s : State) : Host.Outcome State Fault Refusal :=
  match (chipEntries s).find? fun c => c.1 == idx.val with
  | some (i, e) => .next (if advanceDue s i then advanceChip s i e reply else s)
  | none => .next s

/-! ## Recovery (R468) -/

/-- SDA stayed low through three attempts of nine pulses: BUS_STUCK. -/
def busStuck (s : State) : State :=
  let s1 := foundReport (modAct s fun a => { a with recoverDue := false, scanDue := false, scanVia := [] })
    (permanent chanActBus anBusStuck)
  s.act.scanVia.foldl (fun t v => replyErr t v stBusRetired 0) (busCrumb s1 0x09 27)

/-- SDA is high after `n` pulses, 0 where the check before a START found it high: a recovery is followed by a scan. -/
def busRecovered (s : State) (n : Nat) : State :=
  let s1 := modAct s fun a => { a with recoverDue := false, scanDue := a.scanDue || a.recoverDue || n != 0 }
  if n = 0 then s1 else busCrumb s1 0x08 n

/-- BUS_RECOVERY (R468, R472): `releasedAt` counts the pulses after which SDA was high, none where it never was. -/
def execBusRecovery (releasedAt : Option Nat) (s : State) : Host.Outcome State Fault Refusal :=
  .next (if !busUsable s then s
  else match releasedAt with
    | some n => if n ≤ 27 then busRecovered s n else busStuck s
    | none => busStuck s)

end Sys2Proof.Machine
end

