-- ==== Sys2Proof/Machine/Bulk.lean ====
section
/-! DEFINITION. BULK streams (R339 of 13): a receiver acknowledges what it has in order, a sender has at most four frames
unacknowledged, resends after 16 frames and gives up after the fourth resend. -/

namespace Sys2Proof.Machine

def modStreams (s : State) (f : List Stream → List Stream) : State :=
  { s with fab := { s.fab with streams := f s.fab.streams } }

def isStream (peer stream : Byte) (x : Stream) : Bool := x.peer == peer && x.stream == stream

def streamOf (s : State) (peer stream : Byte) : Option Stream := s.fab.streams.find? (isStream peer stream)

def setStream (s : State) (peer stream : Byte) (f : Stream → Stream) : State :=
  modStreams s fun l => l.map fun x => if isStream peer stream x then f x else x

/-- A BULK payload (R339). -/
def bulkPayload (stream wseq flags : Byte) (data : List Byte) : List Byte := [stream, wseq, flags] ++ data

def sendBulk (s : State) (peer stream wseq flags : Byte) (data : List Byte) : State :=
  sendOut s [portTo s peer] clsBulk peer (bulkPayload stream wseq flags data)

/-- Frames sent to a peer and not yet acknowledged, over all its streams. -/
def unackedTo (s : State) (peer : Byte) : Nat :=
  s.fab.streams.foldl (fun n x => if x.peer = peer then n + x.unacked.length else n) 0

/-- Waiting data of a stream sent while fewer than four frames to the peer are unacknowledged. -/
def refill : Nat → State → Byte → Byte → State
  | 0, s, _, _ => s
  | n + 1, s, peer, stream =>
    match streamOf s peer stream with
    | none => s
    | some x =>
      match x.waiting with
      | [] => s
      | d :: r =>
        if 4 ≤ unackedTo s peer then s
        else
          let s1 := setStream s peer stream fun y =>
            { y with next := y.next + 1, unacked := y.unacked ++ [(y.next, d)], waiting := r
                     idle := if y.unacked.isEmpty then 0 else y.idle }
          refill n (sendBulk s1 peer stream x.next 0 d) peer stream

def refillPeer (s : State) (peer : Byte) : State :=
  s.fab.streams.foldl (fun s x => if x.peer = peer then refill 4 s peer x.stream else s) s

/-- What is still unacknowledged once `wseq` and everything before it is acknowledged; an acknowledgement of nothing that
waits changes nothing. -/
def afterAck (wseq : Byte) (l : List (Byte × List Byte)) : List (Byte × List Byte) :=
  match l.findIdx? fun e => e.1 == wseq with
  | some i => l.drop (i + 1)
  | none => l

def takeAck (s : State) (peer stream wseq : Byte) : State :=
  refillPeer (setStream s peer stream fun x =>
    let left := afterAck wseq x.unacked
    if left.length = x.unacked.length then x else { x with unacked := left, resends := 0, idle := 0 }) peer

def bulkKey (peer stream : Byte) : Nat := peer.toNat * 256 + stream.toNat

/-- A data frame: kept where it is the next in order, and what stands in order acknowledged. -/
def takeData (s : State) (peer stream wseq : Byte) (data : List Byte) : State :=
  let key := bulkKey peer stream
  let last := tabFind s.fab.bulkIn key
  let want : Byte := match last with
    | some w => w + 1
    | none => 0
  let s1 := if wseq = want then
      { s with fab := { s.fab with bulkIn := tabPut s.fab.bulkIn key wseq, bulkData := s.fab.bulkData ++ [data] } }
    else s
  match tabFind s1.fab.bulkIn key with
  | some w => sendBulk s1 peer stream w 1 []
  | none => s1

/-- BULK_RECEIVE (R339). -/
def execBulkReceive (s : State) : Host.Outcome State Fault Refusal :=
  match takeInbox s fun _ f => f.cls == clsBulk with
  | some (_, f, s1) =>
    let b := f.payload
    .next (if bitOf (byteAt b 2) 0 then takeAck s1 f.src (byteAt b 0) (byteAt b 1)
    else takeData s1 f.src (byteAt b 0) (byteAt b 1) (b.drop 3))
  | none => .next s

def resendAll (s : State) (x : Stream) : State :=
  x.unacked.foldl (fun s e => sendBulk s x.peer x.stream e.1 0 e.2) s

/-- The stream is given up, and the failure stands as reported to its requester. -/
def failStream (s : State) (x : Stream) : State :=
  let t := modStreams s fun l => l.filter fun y => !isStream x.peer x.stream y
  { t with fab := { t.fab with bulkFailed := t.fab.bulkFailed ++ [(x.peer, x.stream)] } }

/-- BULK_RESEND_TIMEOUT (R339): after 16 frames without an acknowledgement, a resend; the fourth resend without one abandons
the stream. -/
def execBulkResendTimeout (peer stream : Byte) (s : State) : Host.Outcome State Fault Refusal :=
  match streamOf s peer stream with
  | some x =>
    .next (if x.unacked.isEmpty || decide (x.idle < 16) then s
    else if 4 ≤ x.resends then failStream s x
    else resendAll (setStream s peer stream fun y => { y with resends := y.resends + 1, idle := 0 }) x)
  | none => .next s

end Sys2Proof.Machine
end

