-- ==== Sys2Proof/Machine/CmdFab.lean ====
section
/-! DEFINITION. Fabric, time and CAN FD configuration (tables 0x6_ and 0x7_ of 15; R297, R319, R362), and the learning of
door positions (R199, R200, R208 of 08). -/

namespace Sys2Proof.Machine

/-! ## Fabric (0x6_) -/

def PortState.code : PortState → Byte
  | .bypass => 0x00
  | .locking => 0x01
  | .up => 0x02
  | .standby => 0x03
  | .down => 0x04

def SyncState.code : SyncState → Byte
  | .inSync => 0x00
  | .holdover => 0x01
  | .loss => 0x02

/-- The delay a port works with (R319). -/
def delayBytes (q : PortSt) : List Byte := leBytes 2 (q.delay.getD 150)

def fabStatusBytes (s : State) : List Byte :=
  [roleOf s, stationByte s, (portOf s .p0).st.code, (portOf s .p1).st.code, s.fab.sync.code,
   byteOfBool s.fab.topo.healed, s.fab.topo.p1Tail, s.fab.topo.p0Tail] ++ seg32 s ++
  delayBytes (portOf s .p0) ++ delayBytes (portOf s .p1)

/-- FAB_STATUS (R389). -/
def execFabStatus (via : Via) (s : State) : Host.Outcome State Fault Refusal :=
  runCmd 0x60 via s fun _ => replyOk s via (fabStatusBytes s)

def memberBytes (s : State) (k : Nat) : List Byte :=
  let m := tabGet memberNone s.fab.members k
  [BitVec.ofNat 8 k, m.state, m.reason, m.h, m.mode, 0x00, 0x00, 0x00] ++ padTo 8 m.tag

/-- FAB_MEMBERS (R297, R389). -/
def execFabMembers (via : Via) (s : State) : Host.Outcome State Fault Refusal :=
  runCmd 0x61 via s fun e =>
    let first := (byteAt e.payload 0).toNat
    let count := (byteAt e.payload 1).toNat
    if 63 < first then badParam s via 0
    else if count = 0 ∨ 14 < count ∨ 64 < first + count then badParam s via 1
    else if !isManager s then replyErr s via stNotManager 0
    else replyOk s via ((List.range count).flatMap fun i => memberBytes s (first + i))

/-- One connection as the reporting lane holds it. -/
def connBytes (x : LaneSt) (cfg : LoafCfg) (k : Conn) : List Byte :=
  let r := connRecOf x k.connId
  let i := importOf x cfg k.connId
  let flags := byteOfBits [!k.isExport, !k.isExport && i.timedOut, k.keySlot.isSome, k.canFd]
  let since := if k.isExport then r.since else min i.since 0xFF
  let seq : W16 := if k.isExport then r.seq - 1 else i.ref
  le16 k.connId ++ [flags, BitVec.ofNat 8 since] ++ le16 seq ++ leBytes 2 r.timeouts

def connList (s : State) : List Conn := ((activeCfg s).map fun c => c.seeds).getD []

/-- FAB_CONN (R389): connections in SEEDS order. -/
def execFabConn (via : Via) (s : State) : Host.Outcome State Fault Refusal :=
  runCmd 0x62 via s fun e =>
    let first := (byteAt e.payload 0).toNat
    let count := (byteAt e.payload 1).toNat
    let all := connList s
    if all.length ≤ first then badParam s via 0
    else if count = 0 ∨ 16 < count ∨ all.length < first + count then badParam s via 1
    else match activeCfg s with
      | some cfg => replyOk s via (((all.drop first).take count).flatMap (connBytes (reportingLane s) cfg))
      | none => badParam s via 0

/-! ## Time and CAN FD configuration -/

/-- TIME_GET (R389): `t` is the moment at which the hearth reads its clock. -/
def execTimeGet (via : Via) (t : BitVec 20) (s : State) : Host.Outcome State Fault Refusal :=
  runCmd 0x70 via s fun _ => replyOk s via (le32 s.core.frameNo ++ leBytes 3 t.toNat ++ [s.fab.sync.code])

/-- CAN_CONFIG (R361, R362): stored, to be applied at the next start-up. -/
def execCanConfig (via : Via) (s : State) : Host.Outcome State Fault Refusal :=
  runCmd 0x71 via s fun e =>
    let b := byteAt e.payload
    if 1 < (b 0).toNat then badParam s via 0
    else if 63 < (b 1).toNat then badParam s via 1
    else if 3 < (b 2).toNat then badParam s via 2
    else if 3 < (b 3).toNat then badParam s via 3
    else replyOk { s with nv := { s.nv with canCfg := some (b 0 == 1, b 1, b 2, b 3) } } via []

/-! ## Door positions (R199, R200, R208) -/

def pairCodeA (b : Byte) : Bool := b == 0x00#8 || b == 0x01#8
def pairCodeB (b : Byte) : Bool := b == 0x40#8 || b == 0x41#8

/-- The QUAD entry of a pair in the active loaf. -/
def quadOfLoaf (s : State) (code : Nat) : Option (List Byte) := (activeCfg s).bind fun c => quadEntry c.iomap code

/-- DOORPOS_LEARN (R199): a run still going on is superseded. -/
def execDoorposLearn (via : Via) (s : State) : Host.Outcome State Fault Refusal :=
  runCmd 0x72 via s fun e =>
    let a := byteAt e.payload 0
    let b := byteAt e.payload 1
    let n := (byteAt e.payload 2).toNat
    if !pairCodeA a || (quadOfLoaf s a.toNat).isNone then badParam s via 0
    else if !pairCodeB b || (quadOfLoaf s b.toNat).isNone then badParam s via 1
    else if n < 2 ∨ 16 < n then badParam s via 2
    else
      let run : LearnRun := { via := via, pairA := a.toNat, pairB := b.toNat, cycles := n, caps := ⟨[], []⟩ }
      modMbx (setQ (endLearn s stAborted abortSuperseded) via .running) fun m => { m with learn := some run }

/-- The first cycle, from 1, of which one of the two pairs lacks a capture. -/
def missingCycle (r : LearnRun) : Option Nat :=
  let full := fun (l : List (Option Int × Option Int)) (i : Nat) => match l[i]? with
    | some (some _, some _) => true
    | _ => false
  ((List.range r.cycles).find? fun i => !full r.caps.a i || !full r.caps.b i).map (· + 1)

/-- The captures of a pair: closing c_i and opening o_i of its N cycles. -/
def closings (r : LearnRun) (c : Side) : List Int := ((r.caps.at c).take r.cycles).filterMap (·.2)
def openings (r : LearnRun) (c : Side) : List Int := ((r.caps.at c).take r.cycles).filterMap (·.1)

def sumInt (l : List Int) : Int := l.foldl (· + ·) 0

def leastInt : List Int → Int
  | [] => 0
  | [x] => x
  | x :: r => min x (leastInt r)

def greatestInt : List Int → Int
  | [] => 0
  | [x] => x
  | x :: r => max x (greatestInt r)

def spreadOf (l : List Int) : Int := greatestInt l - leastInt l

/-- R199's rounding of a mean: to nearest, halves towards zero. -/
def roundMean (sum : Int) (n : Nat) : Int :=
  let m := (2 * sum.natAbs + n - 1) / (2 * n)
  if sum < 0 then -(m : Int) else m

/-- An offset as R199 gives it; where it falls outside the format of an offset, a free value of that format. -/
def offsetOr (draw place : Nat) (x : Int) : Int :=
  if -1024 ≤ x ∧ x ≤ 1023 then x
  else (((Config.freeByte draw (2 * place)).toNat + 256 * (Config.freeByte draw (2 * place + 1)).toNat) % 2048 : Nat) - 1024

def learnedOffset (s : State) (place code : Nat) (l : List Int) : Int :=
  let ref : Int := ((quadOfLoaf s code).map fun e => natAt e 3 2).getD 0
  offsetOr s.drawn place (ref - roundMean (sumInt l) l.length)

def homeTol (s : State) (code : Nat) : Int := (((quadOfLoaf s code).map fun e => (byteAt e 6).toNat).getD 0 : Nat)

/-- The pair whose captures spread too far, pair A first. -/
def spreadPair (s : State) (r : LearnRun) : Option Nat :=
  let far := fun (c : Side) (code : Nat) =>
    decide (homeTol s code < spreadOf (closings r c)) || decide (homeTol s code < spreadOf (openings r c))
  if far .a r.pairA then some r.pairA else if far .b r.pairB then some r.pairB else none

def offsetBytes (o : Int × Int) : List Byte := leBytes 2 (BitVec.ofInt 16 o.1).toNat ++ leBytes 2 (BitVec.ofInt 16 o.2).toNat

def spreadByte (l : List Int) : Byte := BitVec.ofNat 8 (min 255 (spreadOf l).toNat)

/-- A run with every capture: refused for its spread, or its offsets stand pending and are answered. -/
def finishLearn (s : State) (r : LearnRun) : State :=
  match spreadPair s r with
  | some code => endLearn s stLearnSpread code
  | none =>
    let a := (learnedOffset s 0 r.pairA (closings r .a), learnedOffset s 1 r.pairA (openings r .a))
    let b := (learnedOffset s 2 r.pairB (closings r .b), learnedOffset s 3 r.pairB (openings r .b))
    let s1 := modMbx { s with drawn := s.drawn + 1 } fun m =>
      { m with learn := none, learned := tabPut (tabPut m.learned r.pairA a) r.pairB b }
    replyOk s1 r.via (offsetBytes a ++ offsetBytes b ++
      [spreadByte (closings r .a), spreadByte (openings r .a), spreadByte (closings r .b), spreadByte (openings r .b)])

/-- LEARNING_RUN_END (R199, R208, R399). -/
def execLearningRunEnd (why : LearnEnd) (s : State) : Host.Outcome State Fault Refusal :=
  match s.mbx.learn with
  | none => .next s
  | some r =>
    .next (if !bothInService s then endLearn s stAborted abortLane else match why with
    | .interrupted => endLearn s stAborted abortMode
    | .timeout => endLearn s stLearnMissing ((missingCycle r).getD r.cycles)
    | .cycles =>
      match missingCycle r with
      | some i => endLearn s stLearnMissing i
      | none => finishLearn s r)

/-- The offsets that both lanes hold confirmed. -/
def confirmedOffsets (s : State) : Tab (Int × Int) := bootOffsets s.nv

/-- R200: both lanes store the offsets, the calibration record is written, and they take effect at the next tick. -/
def confirmOffsets (s : State) (a b : Nat) (x y : Int × Int) : State :=
  let all := tabPut (tabPut (confirmedOffsets s) a x) b y
  let s1 := { s with nv := { s.nv with calib := all, laneOffsets := ⟨some all, some all⟩ } }
  let s2 := modMbx s1 fun m =>
    { m with learned := tabDel (tabDel m.learned a) b, confirm := tabPut (tabPut m.confirm a x) b y }
  measEvent s2 0x03 [BitVec.ofNat 8 a, BitVec.ofNat 8 b] (le32 (crc32c (Config.calibrationBytes all)))

/-- DOORPOS_CONFIRM (R200). -/
def execDoorposConfirm (via : Via) (s : State) : Host.Outcome State Fault Refusal :=
  runCmd 0x73 via s fun e =>
    let a := byteAt e.payload 0
    let b := byteAt e.payload 1
    if !pairCodeA a then badParam s via 0
    else if !pairCodeB b then badParam s via 1
    else match tabFind s.mbx.learned a.toNat, tabFind s.mbx.learned b.toNat with
      | some x, some y => replyOk (confirmOffsets s a.toNat b.toNat x y) via []
      | _, _ => replyErr s via stNotPending 0

/-- DOORPOS_READ (R389): offsets that are not there read 0. -/
def execDoorposRead (via : Via) (s : State) : Host.Outcome State Fault Refusal :=
  runCmd 0x74 via s fun e =>
    let b := byteAt e.payload 0
    let conf := tabFind (confirmedOffsets s) b.toNat
    let pend := tabFind s.mbx.learned b.toNat
    if !pairCodeA b && !pairCodeB b then badParam s via 0
    else replyOk s via (byteOfBits [pend.isSome, conf.isSome] :: (offsetBytes (conf.getD (0, 0)) ++ offsetBytes (pend.getD (0, 0))))

end Sys2Proof.Machine
end

