-- ==== Sys2Proof/Machine/Journal.lean ====
section
/-! DEFINITION. The journal and the epoch statistics (18; table 0x5_ of 15): crumbs written to pages and units (R437-R439,
R445), the choice of the next page (R446, R454, R455), sessions and held pages (R394, R448-R450), pins (R447), door cycles
(R442-R444, R457), and epochs (R453, R456). -/

namespace Sys2Proof.Machine

/-! ## Pages (R437, R438) -/

def modNv (s : State) (f : NvSt → NvSt) : State := { s with nv := f s.nv }
def modJrn (s : State) (f : JrnSt → JrnSt) : State := { s with jrn := f s.jrn }

/-- A page with every byte erased. -/
def erasePage (m : Tab Byte) (p : Nat) : Tab Byte := m.filter fun e => decide (e.1 / pageBytes ≠ p)

/-- The written page with the highest PSEQ above `lo` and below `hi`, or with the lowest: page and PSEQ. -/
def pickPage (better : Nat → Nat → Bool) : Tab Nat → Option (Nat × Nat)
  | [] => none
  | (p, q) :: r =>
    match pickPage better r with
    | some (p', q') => if better q q' then some (p, q) else some (p', q')
    | none => some (p, q)

def oldestPage (n : NvSt) : Option (Nat × Nat) := pickPage (fun a b => decide (a < b)) n.pages
def newestPage (n : NvSt) : Option (Nat × Nat) := pickPage (fun a b => decide (b < a)) n.pages

/-- R448: the page with the next higher PSEQ. -/
def pageAfter (n : NvSt) (pseq : Nat) : Option (Nat × Nat) :=
  pickPage (fun a b => decide (a < b)) (n.pages.filter fun e => decide (pseq < e.2))

/-! ## The next page (R446) -/

def isHeld (s : State) (p : Nat) : Bool := s.jrn.holds.any fun e => e.2 == p

/-- Pinned or bad. -/
def isBarred (n : NvSt) (p : Nat) : Bool := n.pins.contains p || n.badPages.contains p

def ringNext (p : Nat) : Nat := if journalPages ≤ p + 1 then 0 else p + 1

/-- The oldest hold broken, for both sessions that hold the page (R455), with its crumb. -/
def breakOldest (s : State) : State :=
  match s.jrn.holds with
  | [] => s
  | (_, p) :: _ =>
    crumb (modJrn s fun j => { j with holds := j.holds.filter fun e => e.2 != p }) crJournal 0xFF 0x02 (0x00#8 :: leBytes 2 p)

/-- The ring searched from page `p`: pinned and bad pages are passed over, held ones join the skip list while it has fewer
than four entries. -/
def huntPage : Nat → State → Nat → Option (Nat × State)
  | 0, _, _ => none
  | k + 1, s, p =>
    if isBarred s.nv p then huntPage k s (ringNext p)
    else if isHeld s p then
      if s.jrn.skip.length < 4 then huntPage k (modJrn s fun j => { j with skip := nodupInsert j.skip p }) (ringNext p)
      else huntPage k (breakOldest s) p
    else some (p, s)

/-- The lowest-numbered page of the skip list that is no longer held. -/
def skipChoice (s : State) : Option Nat :=
  (s.jrn.skip.filter fun p => !isHeld s p && !isBarred s.nv p).foldl (fun b p => match b with
    | some x => some (min x p)
    | none => some p) none

/-- Where the ring is searched from: after the open page, or after the newest one. -/
def huntStart (n : NvSt) : Nat :=
  match n.openPage, newestPage n with
  | some p, _ => ringNext p
  | none, some (p, _) => ringNext p
  | none, none => 0

def choosePage (s : State) : Option (Nat × State) :=
  match skipChoice s with
  | some p => some (p, modJrn s fun j => { j with skip := j.skip.filter fun x => x != p })
  | none => huntPage (2 * journalPages) s (huntStart s.nv)

/-- The open page closed: its STATE and HCRC written again. -/
def closeOpen (n : NvSt) : NvSt :=
  match n.openPage with
  | some p =>
    let body := listSet (memReadBytes n.journal (pageBytes * p) 28) 17 0x02
    { n with openPage := none, journal := memWriteBytes n.journal (pageBytes * p) (pageHeader body) }
  | none => n

/-- A page taken: erased, its header written with the next PSEQ. -/
def openAt (s : State) (p : Nat) (first : Byte) : State :=
  modNv s fun n => { n with
    journal := memWriteBytes (erasePage n.journal p) (pageBytes * p)
      (pageHeader (headerBody n.nextPseq (bootCount n) s.core.frameNo first 0x01))
    openPage := some p, openUnit := 1, nextPseq := n.nextPseq + 1, pages := tabPut n.pages p n.nextPseq }

/-- The page that follows a full one, or the first page of all; no page where every page is pinned or bad. -/
def nextPage (s : State) (first : Byte) : State :=
  match choosePage s with
  | some (p, s1) => openAt (modNv s1 closeOpen) p first
  | none => modNv s closeOpen

/-! ## Writing (R445) -/

/-- FIRST of a page that begins with `left` units of a crumb carried over. -/
def firstUnit (left : Nat) : Byte := if 127 ≤ left then 0 else BitVec.ofNat 8 (left + 1)

/-- The units of a crumb written one after another; a full page is closed and the next one taken at once. -/
def putUnits : List (List Byte) → State → State
  | [], s => s
  | u :: r, s =>
    match s.nv.openPage with
    | none => s
    | some p =>
      let s1 := modNv s fun n => { n with
        journal := memWriteBytes n.journal (pageBytes * p + 32 * n.openUnit) u, openUnit := n.openUnit + 1 }
      putUnits r (if 127 ≤ s.nv.openUnit then nextPage s1 (firstUnit r.length) else s1)

def unitsOf (c : List Byte) : List (List Byte) := (List.range (c.length / 32)).map fun i => bytesAt c (32 * i) 32

/-- A page is open with a unit left in it. -/
def pageReady (s : State) : State := if s.nv.openPage.isSome && decide (s.nv.openUnit ≤ 127) then s else nextPage s 0x01

/-- The JOURNAL crumb of the count lost, once room has returned. -/
def reportLost (s : State) : State :=
  if s.jrn.lost = 0 ∨ 512 ≤ bufUnits s.jrn.buf then s
  else crumb (modJrn s fun j => { j with lost := 0 }) crJournal 0xFF 0x03 (zeros 3 ++ leBytes 4 s.jrn.lost)

/-- The crumb at the head of the buffer written. -/
def writeHead (s : State) : State :=
  match s.jrn.buf with
  | [] => s
  | c :: _ =>
    let s1 := pageReady s
    if s1.nv.openPage.isNone then s1
    else reportLost (putUnits (unitsOf c) (modJrn s1 fun j => { j with buf := j.buf.drop 1 }))

/-- R430: the shutdown test runs in COMMISSION and FIELD only; without it the shutdown ends without a token. -/
def shutdownTests (n : NvSt) : Bool := n.life == .commission || n.life == .field

/-- R63, R82, R445: in SHUTDOWN the journal closes once every buffered crumb is written, and the self-test begins. -/
def closeAtEnd (s : State) : State :=
  if s.core.mode = .shutdown ∧ s.jrn.buf.isEmpty ∧ s.jrn.ended.a.isEmpty ∧ s.jrn.ended.b.isEmpty then
    { modNv (modJrn s fun j => { j with closed := true }) closeOpen with
      test := { s.test with
        lockouts := if s.test.shutdown = 1 then openWindow s else s.test.lockouts
        shutdown := if s.test.shutdown ≠ 1 then s.test.shutdown else if shutdownTests s.nv then 2 else 4 } }
  else s

/-- The open page lies in the journal. -/
def openPageOk (n : NvSt) : Bool :=
  match n.openPage with
  | some p => decide (p < journalPages)
  | none => true

/-- R92: while the tick runs the journal is written in phase H. -/
def journalPhase (s : State) : Bool := !s.core.tickOn || s.core.phase == .h

/-- CRUMB_WRITE (R92, R445). -/
def execCrumbWrite (s : State) : Host.Outcome State Fault Refusal :=
  if !openPageOk s.nv then .fault .journalAddress
  else .next (if hearthLive s && !s.jrn.closed && journalPhase s then closeAtEnd (writeHead s) else s)

/-! ## Sessions and holds (R394, R448-R450) -/

def sessionOf (s : State) (b : Byte) : Option Session := s.jrn.sessions.at (sideOf b)

def setSession (s : State) (k : Side) (x : Option Session) : State :=
  modJrn s fun j => { j with sessions := j.sessions.set k x }

/-- The session closed, its holds ended. -/
def closeSession (s : State) (k : Side) : State :=
  modJrn (setSession s k none) fun j => { j with holds := j.holds.filter fun e => e.1 != k }

/-- PAGE_HOLD_EXPIRY (R449): the session's oldest hold ends. -/
def execPageHoldExpiry (session : Side) (s : State) : Host.Outcome State Fault Refusal :=
  .next (if hearthLive s then modJrn s fun j => { j with holds := delFirst (fun e => e.1 == session) j.holds } else s)

/-- SESSION_IDLE_CLOSE (R394). -/
def execSessionIdleClose (session : Side) (s : State) : Host.Outcome State Fault Refusal :=
  .next (if hearthLive s then closeSession s session else s)

/-- A page held from the first chunk read from it; a third hold of a session ends its older one (R449). -/
def holdPage (s : State) (k : Side) (p : Nat) : State :=
  modJrn s fun j =>
    if j.holds.contains (k, p) then j
    else
      let mine := (j.holds.filter fun e => e.1 == k).length
      let l := if 2 ≤ mine then delFirst (fun e => e.1 == k) j.holds else j.holds
      { j with holds := l ++ [(k, p)] }

/-- The session that JRN_OPEN takes. -/
def freeSession (s : State) : Option Side :=
  if s.jrn.sessions.a.isNone then some .a else if s.jrn.sessions.b.isNone then some .b else none

/-- The page that JRN_OPEN names, none where it is not written. -/
def startPage (s : State) (start : Byte) (page : Nat) : Option (Nat × Nat) :=
  if start = 0 then oldestPage s.nv
  else if start = 1 then newestPage s.nv
  else (tabFind s.nv.pages page).map fun q => (page, q)

/-- JRN_OPEN (R383, R389, R448). -/
def execJrnOpen (via : Via) (s : State) : Host.Outcome State Fault Refusal :=
  runCmd 0x50 via s fun e =>
    let start := byteAt e.payload 0
    let page := natAt e.payload 1 2
    if 2 < start.toNat then badParam s via 0
    else if journalPages ≤ page then badParam s via 1
    else match startPage s start page, freeSession s with
      | none, _ => badParam s via (if start = 2 then 1 else 0)
      | _, none => replyErr s via stSessionLimit 0
      | some (p, q), some k =>
        replyOk (setSession s k (some { page := p, pseq := q, chunk := 0 })) via (sideByte k :: leBytes 2 p)

/-- A session that has read its page to the end goes on to the next one (R448). -/
def moveOn (n : NvSt) (x : Session) : Session :=
  if x.chunk < 32 then x
  else match pageAfter n x.pseq with
    | some (p, q) => { page := p, pseq := q, chunk := 0 }
    | none => x

/-- The bytes of a page that a read may return: those of written units on the open page. -/
def pageLimit (n : NvSt) (p : Nat) : Nat := if n.openPage = some p then min (32 * n.openUnit) pageBytes else pageBytes

/-- The session starts again from the oldest page (R394, R450). -/
def restartSession (s : State) (k : Side) (x : Session) : State :=
  match oldestPage s.nv with
  | some (p, q) => setSession s k (some { page := p, pseq := q, chunk := 0 })
  | none => setSession s k (some x)

/-- One chunk returned: a chunk that is not full is read again. -/
def readChunk (s : State) (via : Via) (k : Side) (x : Session) : State :=
  let off := 128 * x.chunk
  let n := min 128 (pageLimit s.nv x.page - off)
  let newest := s.nv.openPage == some x.page || decide (32 ≤ x.chunk)
  let flags : Byte := byteOfBits [x.chunk == 31 && n == 128, newest]
  let s1 := holdPage (setSession s k (some { x with chunk := if n = 128 then x.chunk + 1 else x.chunk })) k x.page
  replyOk s1 via (leBytes 2 x.page ++ leBytes 2 off ++ [flags, 0x00, 0x00, 0x00] ++
    memReadBytes s.nv.journal (pageBytes * x.page + off) n)

/-- JRN_READ (R389, R394, R448-R450). -/
def execJrnRead (via : Via) (s : State) : Host.Outcome State Fault Refusal :=
  runCmd 0x51 via s fun e =>
    let b := byteAt e.payload 0
    if 1 < b.toNat then badParam s via 0
    else match sessionOf s b with
      | none => replyErr s via stNoSession 0
      | some x =>
        let y := moveOn s.nv x
        if tabFind s.nv.pages y.page = some y.pseq then readChunk s via (sideOf b) y
        else replyErr (restartSession s (sideOf b) y) via stPageOverwritten y.page

/-- JRN_CLOSE (R389, R449). -/
def execJrnClose (via : Via) (s : State) : Host.Outcome State Fault Refusal :=
  runCmd 0x52 via s fun e =>
    let b := byteAt e.payload 0
    if 1 < b.toNat then badParam s via 0
    else if (sessionOf s b).isNone then replyErr s via stNoSession 0
    else replyOk (closeSession s (sideOf b)) via []

/-! ## Pins and information (R447) -/

def setPins (s : State) (via : Via) (l : List Nat) : State :=
  replyOk (modNv s fun n => { n with pins := l }) via (leBytes 2 l.length)

/-- A closed page, written and not bad. -/
def pinnable (n : NvSt) (p : Nat) : Bool :=
  (tabFind n.pages p).isSome && n.openPage != some p && !n.badPages.contains p

/-- JRN_PIN (R447, R454). -/
def execJrnPin (via : Via) (s : State) : Host.Outcome State Fault Refusal :=
  runCmd 0x53 via s fun e =>
    let p := natAt e.payload 0 2
    let v := byteAt e.payload 2
    let pins := s.nv.pins
    if journalPages ≤ p then badParam s via 0
    else if 1 < v.toNat then badParam s via 2
    else if v = 0 then setPins s via (pins.filter fun x => x != p)
    else if !pinnable s.nv p then badParam s via 0
    else if !pins.contains p && decide (256 ≤ pins.length) then replyErr s via stPinLimit 0
    else setPins s via (nodupInsert pins p)

def heldPages (s : State) : List Nat := s.jrn.holds.foldl (fun l e => nodupInsert l e.2) []

/-- JRN_INFO (R389): without a written page its page numbers are free values. -/
def execJrnInfo (via : Via) (s : State) : Host.Outcome State Fault Refusal :=
  runCmd 0x54 via s fun _ =>
    let (blank, s1) := drawBytes s 4
    let pages := match oldestPage s.nv, newestPage s.nv with
      | some (p, _), some (q, _) => leBytes 2 p ++ leBytes 2 q
      | _, _ => blank
    let sessions := natOfBool s.jrn.sessions.a.isSome + natOfBool s.jrn.sessions.b.isSome
    replyOk s1 via (pages ++ leBytes 2 s.nv.pins.length ++
      [BitVec.ofNat 8 (heldPages s).length, BitVec.ofNat 8 sessions])

/-! ## Epochs (R453, R456) -/

/-- The 69 bytes of STAT_EPOCH. -/
def epochBytes (g : Byte) (e : Epoch) : List Byte :=
  [g, byteOfBits [e.isPartial, e.testHold]] ++ le16 e.frames ++ le32 e.first ++
  le16 e.maxEvalA ++ le16 e.maxEvalB ++ le16 e.maxFablat ++ le32 e.linkerr ++ le32 e.retry ++ le32 e.trans ++
  le16 e.lateA ++ le16 e.lateB ++ le16 e.lateInd ++ le32 e.stale ++ le32 e.sfdrop ++ le32 e.safedisc ++ le32 e.canerr ++
  le32 e.ecc ++ le16 e.overflow ++ le16 e.discarded ++ le16 e.mbxDiscarded ++ le16 e.lateReplies ++ le16 e.mismatch ++
  le16 e.timeouts ++ le16 e.crumbsLost ++ le16 e.analogOver ++ [g]

/-- STAT_EPOCH (R453). -/
def execStatEpoch (via : Via) (s : State) : Host.Outcome State Fault Refusal :=
  runCmd 0x55 via s fun _ => replyOk s via (epochBytes s.stat.egen s.stat.lastEpoch)

/-- EPOCH_END (R453): at a tick of a frame whose number ends in ten zero bits, or marked partial at a jump. -/
def execEpochEnd (isPartial : Bool) (s : State) : Host.Outcome State Fault Refusal :=
  .next (if hearthLive s && s.core.tickOn && (if isPartial then s.stat.jumped else s.core.frameNo.toNat % 1024 == 0) then
    latchEpoch s isPartial else s)

/-! ## Door cycles (R442-R444) -/

/-- A cycle that begins in this frame: a MARK that rises with START stands at 0 ms. -/
def newCycle (s : State) (d : Nat) : CycleRec :=
  { start := s.core.frameNo, samples := [], truncated := false, edges := [], edgesCut := false
    marks := (List.range 4).map fun i => if s.jrn.rose.getD (6 * d + 2 + i) false then some 0 else none }

def edgeBytes (e : Stamp × Bool × Byte) : List Byte :=
  le32 e.1.frame ++ leBytes 3 (e.1.off.toNat + if e.2.1 then 0x800000 else 0) ++ [e.2.2]

def markBytes (m : Option Nat) : List Byte := leBytes 2 (min (m.getD 0xFFFF) 0xFFFF)

/-- The cycle crumb (R443, R444), at least two units long and brought to whole units with 0x00. -/
def cycleCrumb (s : State) (d : Nat) (scale : Byte) (timeout newStart : Bool) (c : CycleRec) : List Byte :=
  let edges := c.edges.take 32
  let room := 4064 - 8 * edges.length
  let samples := c.samples.take room
  let flags := byteOfBits [c.truncated || decide (room < c.samples.length), c.edgesCut, timeout, newStart]
  let body := edges.flatMap edgeBytes ++ samples
  let units := max 2 ((32 + body.length + 31) / 32)
  padTo (32 * units) ([0x20, BitVec.ofNat 8 units, BitVec.ofNat 8 d, flags] ++ le32 c.start ++ leBytes 2 samples.length ++
    [BitVec.ofNat 8 edges.length, scale] ++ c.marks.flatMap markBytes ++ le32 (s.core.frameNo - c.start) ++ zeros 8 ++ body)

def doorSide (d : Fin 2) : Side := if d.val = 0 then .a else .b

def setCycle (s : State) (d : Fin 2) (c : Option CycleRec) : State :=
  modJrn s fun j => { j with cycles := j.cycles.set (doorSide d) c }

def doorScale (s : State) (d : Nat) : Byte :=
  match (activeCfg s).bind fun c => cycleEntry c.iomap d with
  | some e => byteAt e 7
  | none => 0

/-- The running cycle of a door ends: its crumb waits for the end of the frame, so that door 0's comes first (R457). -/
def endCycle (s : State) (d : Fin 2) (timeout newStart : Bool) : State :=
  match s.jrn.cycles.at (doorSide d) with
  | some c =>
    let l := s.jrn.ended.at (doorSide d) ++ [cycleCrumb s d.val (doorScale s d.val) timeout newStart c]
    modJrn (setCycle s d none) fun j => { j with ended := j.ended.set (doorSide d) l }
  | none => s

/-- A bead of door d rose in this frame. -/
def doorRose (s : State) (d : Fin 2) (i : Nat) : Bool := hearthLive s && s.jrn.rose.getD (6 * d.val + i) false

/-- CYCLE_START (R443): a running cycle ends with flag [3] set. -/
def execCycleStart (door : Fin 2) (s : State) : Host.Outcome State Fault Refusal :=
  .next (if doorRose s door 0 then
    let s1 := endCycle s door false true
    setCycle s1 door (some (newCycle s1 door.val)) else s)

/-- CYCLE_END (R443, R457). -/
def execCycleEnd (door : Fin 2) (s : State) : Host.Outcome State Fault Refusal :=
  .next (if doorRose s door 1 then endCycle s door false false else s)

/-- 60 s have passed since a door's cycle began. -/
def cycleOverdue (s : State) (d : Fin 2) : Bool :=
  match s.jrn.cycles.at (doorSide d) with
  | some c => decide (framesOfMs s 60000 ≤ (s.core.frameNo - c.start).toNat)
  | none => false

/-- CYCLE_TIMEOUT (R443): 60 s after the cycle began. -/
def execCycleTimeout (door : Fin 2) (s : State) : Host.Outcome State Fault Refusal :=
  .next (if hearthLive s && cycleOverdue s door then endCycle s door true false else s)

end Sys2Proof.Machine
end

