-- ==== Sys2Proof/Machine/P256.lean ====
section
/-! DEFINITION. ECDSA over P-256 as QUOTE uses it (R407, R409): the curve, a scalar times its base point, the signature of a
hash under a private key and a per-signature number, and what a verifier computes. The curve's numbers and the scheme are those
of FIPS 186, outside the spec (PRESUMED, log 105). Points are (X, Y, Z) with Z = 0 for the point at infinity. -/

namespace Sys2Proof.Machine.P256

/-- The field's prime. -/
def p : Nat := 0xFFFFFFFF00000001000000000000000000000000FFFFFFFFFFFFFFFFFFFFFFFF
/-- The order of the base point. -/
def n : Nat := 0xFFFFFFFF00000000FFFFFFFFFFFFFFFFBCE6FAADA7179E84F3B9CAC2FC632551
def gx : Nat := 0x6B17D1F2E12C4247F8BCE6E563A440F277037D812DEB33A0F4A13945D898C296
def gy : Nat := 0x4FE342E2FE1A7F9B8EE7EB4A7C0F9E162BCE33576B315ECECBB6406837BF51F5

structure Point where
  x : Nat
  y : Nat
  z : Nat
  deriving DecidableEq, Repr

def infinity : Point := { x := 1, y := 1, z := 0 }
def base : Point := { x := gx, y := gy, z := 1 }

/-- The bits of a 256-bit number, the highest first. -/
def bits (k : Nat) : List Bool := (List.range 256).map fun i => k.testBit (255 - i)

/-- A power, and so an inverse, modulo a prime. -/
def power (m a e : Nat) : Nat := (bits e).foldl (fun r b => let q := r * r % m; if b then q * a % m else q) 1
def inverse (m a : Nat) : Nat := power m a (m - 2)

def sub (a b : Nat) : Nat := (a + p - b % p) % p

def double (q : Point) : Point :=
  if q.z = 0 ∨ q.y = 0 then infinity
  else
    let d := q.z * q.z % p
    let g := q.y * q.y % p
    let b := q.x * g % p
    let a := 3 * (sub q.x d * (q.x + d)) % p
    let x := sub (a * a) (8 * b)
    { x := x, y := sub (a * sub (4 * b) x) (8 * (g * g)), z := 2 * q.y * q.z % p }

def add (q r : Point) : Point :=
  if q.z = 0 then r
  else if r.z = 0 then q
  else
    let u1 := q.x * r.z * r.z % p
    let u2 := r.x * q.z * q.z % p
    let s1 := q.y * r.z * r.z * r.z % p
    let s2 := r.y * q.z * q.z * q.z % p
    let h := sub u2 u1
    let e := sub s2 s1
    if h = 0 then (if e = 0 then double q else infinity)
    else
      let h2 := h * h % p
      let v := u1 * h2 % p
      let x := sub (e * e) (h2 * h + 2 * v)
      { x := x, y := sub (e * sub v x) (s1 * (h2 * h % p)), z := h * q.z * r.z % p }

/-- A point `k` times. -/
def times (k : Nat) (q : Point) : Point :=
  (bits k).foldl (fun r b => let d := double r; if b then add d q else d) infinity

/-- The coordinates of a point that is not at infinity. -/
def affine (q : Point) : Nat × Nat :=
  let i := inverse p q.z
  (q.x * i * i % p, q.y * i * i * i % p)

/-- The public key of a private key. -/
def publicKey (d : Nat) : Nat × Nat := affine (times d base)

/-- A big-endian number, and its 32 bytes. -/
def ofBytes (l : List Byte) : Nat := l.foldl (fun a b => 256 * a + b.toNat) 0
def toBytes (k : Nat) : List Byte := (leBytes 32 k).reverse

/-- A number from 1 to n - 1. -/
def scalar (k : Nat) : Nat := 1 + k % (n - 1)

/-- The signature (r, s) of a hash under private key `d` and per-signature number `k`. -/
def sign (d k : Nat) (hash : List Byte) : Nat × Nat :=
  let r := (affine (times k base)).1 % n
  (r, inverse n k * (ofBytes hash + r * d) % n)

/-- A verifier's judgement of a signature under a public key. -/
def verify (key : Nat × Nat) (hash : List Byte) (r s : Nat) : Bool :=
  decide (0 < r) && decide (r < n) && decide (0 < s) && decide (s < n) &&
    let w := inverse n s
    let q := add (times (ofBytes hash * w % n) base) (times (r * w % n) { x := key.1, y := key.2, z := 1 })
    q.z != 0 && (affine q).1 % n == r

end Sys2Proof.Machine.P256
end

