-- ==== Sys2Proof/Machine/CmdMeas.lean ====
section
/-! DEFINITION. Measurement and attestation (16; table 0x4_ of 15), keys, nonces and the lifecycle (R72-R75 of 03, R395 of 15),
and the two rows of production (R73, R426). -/

namespace Sys2Proof.Machine

/-! ## Measurement registers and certificates -/

def mReg (s : State) (i : Nat) : List Byte := s.meas.m.getD i []

/-- MEAS_READ (R389). -/
def execMeasRead (via : Via) (s : State) : Host.Outcome State Fault Refusal :=
  runCmd 0x40 via s fun e =>
    let first := (byteAt e.payload 0).toNat
    let count := (byteAt e.payload 1).toNat
    if 7 < first then badParam s via 0
    else if count = 0 ∨ 7 < count ∨ 8 < first + count then badParam s via 1
    else replyOk s via ((List.range count).flatMap fun i => padTo 32 (mReg s (first + i)))

/-- The private key of a generated pair (R407). -/
def attPrivate (k : Nat) : Nat := P256.scalar (Config.attestationKey k)

/-- Certificate `k` (R408), at most 1024 bytes: as stored, or as production made it, the module's own over its attestation public
key and ID_SERIAL. -/
def certOf (n : NvSt) (k : Nat) : List Byte :=
  let stored := n.certs.getD k []
  (if stored.isEmpty then
    Config.certificate k (P256.publicKey (attPrivate (n.attKey.getD 0))) n.serial else stored).take 1024

/-- CERT_READ (R389, R408). -/
def execCertRead (via : Via) (s : State) : Host.Outcome State Fault Refusal :=
  runCmd 0x42 via s fun e =>
    let k := (byteAt e.payload 0).toNat
    let off := natAt e.payload 1 2
    let cert := certOf s.nv k
    if 2 < k then badParam s via 0
    else if cert.length ≤ off then badParam s via 1
    else replyOk s via (leBytes 2 cert.length ++ leBytes 2 off ++ bytesAt cert off 200)

/-! ## Quote (R409) -/

/-- MD: the hash over all eight registers. -/
def quoteDigest (s : State) : List Byte := sha256 ((List.range 8).flatMap (mReg s))

/-- The bytes that a quote signs. -/
def quoteBody (s : State) (nonce : List Byte) : List Byte :=
  [0x01, BitVec.ofNat 8 nonce.length, s.core.mode.code, s.nv.life.code, s.meas.mstate, 0x00] ++ leBytes 2 s.meas.count ++
  le32 (bootCount s.nv) ++ le32 s.core.frameNo ++
  (match activeCfg s with
   | some c => padTo 8 c.loafId
   | none => zeros 8) ++ padTo 8 s.nv.serial ++ quoteDigest s ++ nonce

/-- The number that ECDSA takes for one signature: a free value of this draw. -/
def signNumber (s : State) : Nat := P256.scalar (P256.ofBytes ((List.range 32).map (Config.freeByte s.drawn)))

/-- SIG: r then s, of ECDSA P-256 over the SHA-256 of the body, by the attestation key (R407, R409). -/
def quoteSig (s : State) (key : Nat) (body : List Byte) : List Byte :=
  let r := P256.sign (attPrivate key) (signNumber s) (sha256 body)
  P256.toBytes r.1 ++ P256.toBytes r.2

/-- QUOTE (R407, R409, R431). -/
def execQuote (via : Via) (s : State) : Host.Outcome State Fault Refusal :=
  runCmd 0x41 via s fun e =>
    match (if s.meas.disabled then none else s.nv.attKey) with
    | none => replyErr s via stNoKey 4
    | some key =>
      let body := quoteBody s e.payload
      replyOk { s with drawn := s.drawn + 1 } via (body ++ quoteSig s key body)

/-! ## Nonces and tags (R395) -/

def setNonce (s : State) (n : Option (List Byte)) : State := modMbx s fun m => { m with nonce := n }

/-- NONCE_GET (R395): 16 bytes from the crypto engine, replacing the nonce before. -/
def execNonceGet (via : Via) (s : State) : Host.Outcome State Fault Refusal :=
  runCmd 0x76 via s fun _ =>
    let (n, s1) := drawBytes s 16
    replyOk (setNonce s1 (some n)) via n

/-- NONCE_EXPIRY (R395). -/
def execNonceExpiry (s : State) : Host.Outcome State Fault Refusal := .next (setNonce s none)

/-- The tag of a command under the lifecycle key. -/
def tagOf (s : State) (key nonce : List Byte) (cmd : Byte) (before : List Byte) : List Byte :=
  hmacSha256 key (nonce ++ padTo 8 s.nv.serial ++ [cmd] ++ before)

/-- An authorised command that uses nonce `n`, judged by its tag: no key, no nonce, or a tag that does not hold. -/
def authorise (s : State) (via : Via) (n : Option (List Byte)) (cmd : Byte) (before tag : List Byte) (body : State → State) :
    State :=
  match s.nv.lifeKey, n with
  | none, _ => replyErr s via stNoKey 3
  | some _, none => replyErr s via stNonce 0
  | some key, some nonce => if tag = tagOf s key nonce cmd before then body s else replyErr s via stAuthFail 0

/-- R395: the first command that uses a nonce spends it, whatever comes of it; a command that carries a tag uses the nonce in force
from its start on (log 58). -/
def spendNonce (cmd : Byte) (uses : QEntry → Bool) (via : Via) (s : State) : State :=
  match startable s via cmd with
  | some e => if uses e then setNonce s none else s
  | none => s

/-! ## KEY_LOAD -/

/-- The slots of a kind. -/
def keySlots (kind : Byte) : Nat := if kind = 1 then 8 else if kind = 2 then 16 else 1

/-- A lifecycle key that replaces another carries a tag. -/
def keyTagged (s : State) (e : QEntry) : Bool := byteAt e.payload 0 == 3#8 && s.nv.lifeKey.isSome

def storeKey (s : State) (kind : Byte) (slot : Nat) (key : List Byte) : State :=
  let s1 := modNv s fun n =>
    if kind = 1 then { n with actKeys := tabPut n.actKeys slot key }
    else if kind = 2 then { n with safeKeys := tabPut n.safeKeys slot key }
    else { n with lifeKey := some key }
  measEvent s1 0x04 [kind, BitVec.ofNat 8 slot] []

/-- KEY_LOAD (R389, R395, R405). -/
def execKeyLoad (via : Via) (s : State) : Host.Outcome State Fault Refusal :=
  let nonce := s.mbx.nonce
  let s := spendNonce 0x75 (keyTagged s) via s
  runCmd 0x75 via s fun e =>
    let p := e.payload
    let kind := byteAt p 0
    let slot := (byteAt p 1).toNat
    let key := bytesAt p 4 (keyLength kind)
    let store := fun (s : State) => replyOk (storeKey s kind slot key) via []
    if !keyKind kind then badParam s via 0
    else if keySlots kind ≤ slot then badParam s via 1
    else if (byteAt p 2).toNat ≠ keyLength kind then badParam s via 2
    else if byteAt p 3 ≠ 0 then badParam s via 3
    else if kind = 3 ∧ s.nv.lifeKey.isSome then authorise s via nonce 0x75 (p.take 36) (p.drop 36) store
    else store s

/-! ## Lifecycle (R73-R75, R395) -/

def lifeOfCode (b : Byte) : Option Lifecycle :=
  match b.toNat with
  | 1 => some .manufacture
  | 2 => some .commission
  | 3 => some .field
  | 4 => some .retired
  | _ => none

/-- R73: the moves that an authorised command may make. -/
def lifeMove (old new : Lifecycle) : Bool :=
  match old, new with
  | .commission, .field => true
  | .field, .commission => true
  | .commission, .retired => true
  | .field, .retired => true
  | _, _ => false

/-- R75: the change takes effect at once, is measured, and entry to RETIRED erases keys. -/
def changeLife (s : State) (new : Lifecycle) : State :=
  let old := s.nv.life
  let s1 := modNv s fun n =>
    if new = .retired then { n with life := new, actKeys := [], lifeKey := none } else { n with life := new }
  measEvent { s1 with host := { s1.host with lifeReg := new.code } } 0x02 [old.code, new.code] []

/-- LIFECYCLE_SET (R73, R74, R395). -/
def execLifecycleSet (via : Via) (s : State) : Host.Outcome State Fault Refusal :=
  let nonce := s.mbx.nonce
  let s := spendNonce 0x77 (fun _ => true) via s
  runCmd 0x77 via s fun e =>
    let p := e.payload
    if byteAt p 1 ≠ 0 ∨ byteAt p 2 ≠ 0 ∨ byteAt p 3 ≠ 0 then
      badParam s via (if byteAt p 1 ≠ 0 then 1 else if byteAt p 2 ≠ 0 then 2 else 3)
    else match lifeOfCode (byteAt p 0) with
      | none => badParam s via 0
      | some new =>
        if s.nv.lifeKey.isNone then replyErr s via stNoKey 3
        else if !lifeMove s.nv.life new then badParam s via 0
        else authorise s via nonce 0x77 (p.take 4) (p.drop 4) fun s => replyOk (changeLife s new) via [new.code]

/-! ## Production (R73, R426) -/

/-- R407: production test leaves the module with its attestation key pair, generated in the crypto engine. -/
def generateKey (s : State) : State :=
  if s.nv.attKey.isSome then s
  else { modNv s fun n => { n with attKey := some (s.drawn + 1) } with drawn := s.drawn + 1 }

/-- PRODUCTION_TEST_END (R73, R407): MANUFACTURE is left for COMMISSION. -/
def execProductionTestEnd (s : State) : Host.Outcome State Fault Refusal :=
  .next (if s.nv.life = .manufacture then changeLife (generateKey s) .commission else s)

/-- R426: the spare rows of each lane SRAM for fuse repair. -/
def fuseSpares : Nat := 32

/-- The rows of one lane that fuse repair burns: those not yet replaced, as long as a spare row is left. -/
def burnRows (old new : List W16) : List W16 := (new.eraseDups.filter fun r => !old.contains r).take (fuseSpares - old.length)

/-- The fuse word of a burnt row: bit 16 names lane B (log 106). -/
def rowFuse (lane : Side) (r : W16) : W32 :=
  match lane with
  | .a => r.setWidth 32
  | .b => r.setWidth 32 ||| 0x10000#32

/-- FUSE_REPAIR (R426): in MANUFACTURE only, through JTAG. -/
def execFuseRepair (rows : Two (List W16)) (spareBlocks : List W32) (s : State) : Host.Outcome State Fault Refusal :=
  let a := burnRows s.nv.fuseRows.a rows.a
  let b := burnRows s.nv.fuseRows.b rows.b
  .next (if s.nv.life = .manufacture then
    whileLive s (modNv s fun n => { n with
      fuses := n.fuses ++ a.map (rowFuse .a) ++ b.map (rowFuse .b), fuseRows := ⟨n.fuseRows.a ++ a, n.fuseRows.b ++ b⟩
      spareBlocks := n.spareBlocks ++ spareBlocks }) else s)

end Sys2Proof.Machine
end

