-- ==== Sys2Proof/Machine/CmdTest.lean ====
section
/-! DEFINITION. The command self-test and the shutdown self-test (17; table 0x3_ of 15; R65, R82, R83 of 03): SELFTEST_RUN,
its completion with what a failed block leads to (R419, R420, R431, R433), SELFTEST_RESULT, and the shutdown run with its
repair record and quick-start token (R83, R418, R428). -/

namespace Sys2Proof.Machine

/-! ## Results (R389, R431) -/

/-- The result of a block in a command or shutdown run, in which a block that fails is run again at once. -/
def finalResult (s : State) (w : LockWindow) (runs : List BlockRun) (b : Nat) : Byte × Byte × W32 :=
  match blockEnd w runs b with
  | .idle => idleResult s b
  | .unsettled => idleResult s b
  | .passed => (BitVec.ofNat 8 b, 0x00, expectedMisr b)
  | .transient => (BitVec.ofNat 8 b, 0x00, expectedMisr b)
  | .permanent => (BitVec.ofNat 8 b, 0x01, (runOf runs b).rerun.misr)

/-- The results of a run in which the blocks of `done` were run; the hearth blocks report "not run" in every command and shutdown
reply (R418). -/
def runResults (s : State) (w : LockWindow) (runs : List BlockRun) (done reported : List Nat) : List (Byte × Byte × W32) :=
  reported.map fun b => if done.contains b then finalResult s w runs b else idleResult s b

def resultBytes (r : Byte × Byte × W32) : List Byte := [r.1, r.2.1] ++ le32 r.2.2 ++ [0x00, 0x00]

def resultsPayload (l : List (Byte × Byte × W32)) : List Byte := BitVec.ofNat 8 l.length :: l.flatMap resultBytes

/-! ## What a failed block leads to (R431) -/

/-- The lanes that own a block. -/
def blockLanes (b : Nat) : List Side :=
  if b = 0x01 ∨ b = 0x02 ∨ b = 0x03 ∨ b = 0x0F ∨ b = 0x11 then [.a]
  else if b = 0x04 ∨ b = 0x05 ∨ b = 0x06 ∨ b = 0x10 ∨ b = 0x12 then [.b]
  else if b = 0x07 then [.a, .b]
  else []

/-- The channels against which a block is counted. -/
def blockChans (b : Nat) : List Nat :=
  if b = 0x0C then [chanPort .p0, chanPort .p1]
  else if b = 0x13 then [chanIndChain, chanActBus]
  else (blockLanes b).map chanLane

/-- The crumb of a failed block. -/
def testCrumb (s : State) (source : Byte) (r : Byte × Byte × W32) : State :=
  crumb s crSelftest 0xFF r.1 ([r.2.1] ++ le32 r.2.2 ++ [source])

def raiseCrcUnits (s : State) (units : BitVec 4) : State :=
  ((List.range 4).filter fun i => units.getLsbD i).foldl (fun s i => setIrq1 s (4 + i)) s

/-- The permanent effect of a block whose rerun failed as well. -/
def permanentEffect (s : State) (r : BlockRun) (b : Nat) : State :=
  if b = 0x0B then { s with meas := { s.meas with disabled := true } }
  else if b = 0x0C ∨ b = 0x13 then (blockChans b).foldl (fun s n => laneReport s (permanent n anSliceRerun)) s
  else if b = 0x0D then { s with can := { s.can with disabled := true } }
  else if b = 0x0E then raiseCrcUnits s r.crcUnits
  else (blockLanes b).foldl (fun s l => retireAtOnce s l anSliceRerun) s

/-- One block of a run: nothing where it passed or was not run, else its crumb and its consequence. -/
def blockOutcome (source : Byte) (w : LockWindow) (runs : List BlockRun) (s : State) (b : Nat) : State :=
  let r := runOf runs b
  let failed := fun (x : RunResult) => testCrumb s source (BitVec.ofNat 8 b, 0x01, x.misr)
  match blockEnd w runs b with
  | .idle => s
  | .passed => s
  | .unsettled => failed r.first
  | .transient => (blockChans b).foldl (fun s n => laneReport s (transient n anSliceFail)) (failed r.first)
  | .permanent => permanentEffect (failed r.rerun) r b

/-- A tested block is re-initialised (17, Model): the check-value units, the CAN FD controller, the fabric with its bypass
closed (R421), and the indicator port with its outputs off. -/
def reinitBlock (s : State) (b : Nat) : State :=
  if b = 0x0C then syncIrq s (leaveFabric s)
  else if b = 0x0D then { s with can := { s.can with errorPassive := false, busOff := false, txq := [], asm := [] } }
  else if b = 0x0E then { s with host := { s.host with crc := Vector.replicate 4 CrcUnit.reset } }
  else if b = 0x13 then { s with ind := { s.ind with oen := false } }
  else s

/-- One block: its outcome, the journal pages that the MRAM block finds bad, and the block re-initialised where it ran. -/
def runBlock (source : Byte) (w : LockWindow) (runs : List BlockRun) (s : State) (b : Nat) : State :=
  if blockEnd w runs b = .idle then s else reinitBlock (scanPages (blockOutcome source w runs s b) runs [b]) b

/-- Blocks run in ascending order until one of them retires a lane (R417, R433), and which were run. -/
def runUntil (source : Byte) (w : LockWindow) (runs : List BlockRun) : List Nat → State → State × List Nat
  | [], s => (s, [])
  | b :: r, s =>
    let t := runBlock source w runs s b
    if bothInService t then
      let u := runUntil source w runs r t
      (u.1, b :: u.2)
    else (t, [b])

/-! ## The command run (R419, R433) -/

def knownBlock (b : Byte) : Bool := b == 0xFF#8 || (decide (1 ≤ b.toNat) && decide (b.toNat ≤ 19))

/-- SELFTEST_RUN (R419): the lanes learn of it in the next phase S; a lane retired in this frame ends the run (R433). -/
def execSelftestRun (via : Via) (s : State) : Host.Outcome State Fault Refusal :=
  runCmd 0x30 via s fun e =>
    let b := byteAt e.payload 0
    if !knownBlock b then badParam s via 0
    else if !bothInService s then replyErr s via stAborted abortLane
    else { setQ s via .running with test := { s.test with asked := some (some via, b) } }

/-- R419 step 4: a lane in service reloads its form; every state element starts from PARAM, the connections' counters and the
results of the test stay. -/
def reloadLane (l : LaneSt) : LaneSt :=
  match l.cfg with
  | some cfg =>
    if l.retired then l
    else { freshLane l cfg with
      conns := l.conns, reps := l.reps, slice := 0, sliceFailed := false, forcedLate := false }
  | none => l

/-- The crust handshake repeated; one that fails retires its lane (R78). -/
def testHandshake (ok : Two Bool) (s : State) (c : Side) : State :=
  if !laneLive s c || !(s.crust.at c).logicPower then s
  else if ok.at c then handshake s c
  else laneReport (modCrust s c fun x => { x with handshake := false }) (permanent (chanLane c) anHandshake)

/-- The verification of the reloaded forms, as in steps 2 and 3 of R150: each lane in service checks the active image, and the loaf
IDs and check words agree. -/
def reloadVerified (env : HoldEndEnv) (s : State) : Bool :=
  let checks := fun (l : Side) => !laneLive s l || match activeImage s.nv with
    | some i => (laneCheck s.nv i l).isNone
    | none => true
  let agree := match s.lane.a.cfg, s.lane.b.cfg with
    | some a, some b => !bothInService s || identityAgrees env.identityUpset a b
    | _, _ => true
  checks .a && checks .b && agree

/-- Forms reloaded and verified, handshakes made, test hold to end at the next tick. A verification that fails is a loaf identity
mismatch (R143, R157; log 51). -/
def endTest (s : State) (env : HoldEndEnv) : State :=
  let s1 := { modLanes s reloadLane with test := { s.test with asked := none, holdNext := false } }
  let s2 := if reloadVerified env s1 then s1 else fatalFault s1 ftLoafIdentity
  testHandshake env.handshakeOk (testHandshake env.handshakeOk s2 .a) .b

/-- What is reported when test hold ends are the results of the test alone (R420). -/
def clearReps (s : State) : State := modLanes { s with core := { s.core with found := [] } } fun l => { l with reps := [] }

/-- The reply of a run waits until the tick at which test hold ends (R419 step 5). -/
def replyAfterHold (s : State) (via : Option Via) (status : Byte) (payload : List Byte) : State :=
  match via with
  | some v => setQ s v (.afterHold status payload)
  | none => s

/-- A run that a mode change or a retired lane ends (R382, R433). -/
def abortTest (s : State) (via : Option Via) (env : HoldEndEnv) (detail : Nat) : State :=
  replyAfterHold (endTest s env) via stAborted (leBytes 4 detail)

/-- The blocks run and their results kept: the run completed, or a lane that a block retired has ended it (R433). -/
def completeTest (s : State) (via : Option Via) (b : Byte) (runs : List BlockRun) (env : HoldEndEnv) : State :=
  let w := s.test.lockouts
  let u := runUntil 0x02 w runs (askedBlocks b) { clearReps s with drawn := s.drawn + 1 }
  let results := runResults s w runs u.2 (reportedBlocks b)
  let s1 := { u.1 with test := { u.1.test with source := 2, results := results } }
  if bothInService s1 then
    replyAfterHold (endTest (softRepair s1 runs (askedBlocks b)) env) via stOk (resultsPayload results)
  else abortTest s1 via env abortLane

/-- COMMAND_SELFTEST_COMPLETE (R399, R419, R433). -/
def execCommandSelftestComplete (runs : List BlockRun) (env : HoldEndEnv) (s : State) : Host.Outcome State Fault Refusal :=
  match s.test.asked with
  | some (via, b) =>
    .next (if !s.test.hold then s
    else if !bothInService s then abortTest (clearReps s) via env abortLane
    else if s.core.mode ≠ .maintain then abortTest (clearReps s) via env abortMode
    else completeTest s via b runs env)
  | none => .next s

/-- SELFTEST_RESULT (R389). -/
def execSelftestResult (via : Via) (s : State) : Host.Outcome State Fault Refusal :=
  runCmd 0x31 via s fun _ => replyOk s via (s.test.source :: resultsPayload s.test.results)

/-! ## The shutdown run (R65, R82, R83, R418, R428) -/

/-- The token of an uninterrupted run in which every block passed. -/
def newToken (s : State) (results : List (Byte × Byte × W32)) : Token :=
  { bootCount := bootCount s.nv, loafId := activeLoafId s.nv, life := s.nv.life.code
    results := results.map fun r => (r.1, r.2.1 == 0x00#8), crcOk := true }

/-- R83, R65: the token is due. -/
def tokenDue (s : State) (results : List (Byte × Byte × W32)) : Bool :=
  results.all (fun r => r.2.1 == 0x00#8) && bothInService s && !s.test.fromSafeHold

/-- The run's results, soft repair, the repair record, then the token. -/
def finishShutdown (s : State) (runs : List BlockRun) : State :=
  let w := s.test.lockouts
  let s1 := softRepair (setCommand.foldl (runBlock 0x03 w runs) { s with drawn := s.drawn + 1 }) runs setCommand
  let due := tokenDue s1 (setCommand.map (finalResult s w runs))
  { s1 with
    nv := { s1.nv with
      repair := some { rows := s1.test.softMap, crcOk := true }
      token := if due then some (newToken s1 (setCommand.map (finalResult s w runs))) else s1.nv.token }
    test := { s1.test with
      source := 3, results := runResults s w runs setCommand setFull, shutdown := if due then 3 else 4 } }

/-- SHUTDOWN_SELFTEST_COMPLETE (R83). -/
def execShutdownSelftestComplete (runs : List BlockRun) (s : State) : Host.Outcome State Fault Refusal :=
  .next (if s.core.mode = .shutdown ∧ s.test.shutdown = 2 then finishShutdown s runs else s)

end Sys2Proof.Machine
end

