-- ==== Sys2Proof/Machine/PhaseH.lean ====
section
/-! DEFINITION. Phase H: the in-service slices (R100, R258, R259, R422-R424, R432), the indicator port (10), and the clocks and
crossings (R13, R479-R481, R488 of 20). -/

namespace Sys2Proof.Machine

/-! ## Slices (R422-R424) -/

/-- The lane was late in this frame (R98, R432). -/
def wasLate (s : State) : Side → Bool
  | .a => s.stat.live.lateA
  | .b => s.stat.live.lateB

/-- A lane that evaluates in this frame runs its slice, unless it was late. -/
def runsSlice (s : State) (l : Side) : Bool :=
  laneRuns s l && (s.lane.at l).cfg.isSome && !s.test.hold && !wasLate s l

def nextSlice (x : LaneSt) : LaneSt := { x with slice := (x.slice + 1) % 1024, sliceFailed := false }

/-- A failed slice: the first failure is transient, that of the rerun permanent (R259). -/
def sliceFails (s : State) (l : Side) : State :=
  let r := if (s.lane.at l).sliceFailed then permanent (chanLane l) anSliceRerun else transient (chanLane l) anSliceFail
  laneFault (modLane s l fun x => { x with sliceFailed := true }) r

/-- The lane is treated as late in the next frame (R423, R424). -/
def lateNext (s : State) (l : Side) : State := modLane s l fun x => { x with forcedLate := true }

/-- The outcome of one lane's slice. -/
def sliceResult (s : State) (l : Side) (r : SliceResult) : State :=
  if !runsSlice s l then s
  else match r with
    | .pass => modLane s l nextSlice
    | .fail => sliceFails s l
    | .restoreMismatch => lateNext (sliceFails s l) l
    | .eccDouble =>
      if (s.lane.at l).slice < 512 then lateNext (laneFault s (transient (chanLane l) anEccDouble)) l else sliceFails s l
    | .incomplete => s

/-- SLICE_OVERRUN (R100): the region is restored and the slice runs again. -/
def execSliceOverrun (lane : Side) (s : State) : Host.Outcome State Fault Refusal :=
  .next (if s.core.tickOn && runsSlice s lane then laneFault s (transient (chanLane lane) anSliceOverrun) else s)

/-! ## The indicator port (R239-R247) -/

def indLanes (e : List Byte) : Nat := (byteAt e 1).toNat
def indLen (e : List Byte) : Nat := (byteAt e 2).toNat
def indBlank (e : List Byte) (k : Nat) : Bool := bitOf (byteAt e 5) k

/-- The half period of a blinking indicator in frames (R242). -/
def blinkHalf (tf : Byte) (freq : Nat) : Nat := (50000000 / freq + tfUnits tf - 1) / tfUnits tf

/-- A bit of the logical pattern for frame `n` (R242). -/
def patternBit (tf : Byte) (n : Nat) (mode : Byte) (v : Bool) : Bool :=
  let blink := fun (f : Nat) => v && decide (n / blinkHalf tf f % 2 = 0)
  match mode.toNat with
  | 1 => !v
  | 2 => blink 1
  | 3 => blink 2
  | 4 => blink 4
  | _ => v

/-- The 256 bits of the logical pattern, by LOGICAL index; an index without an INDMAP entry is 0. -/
def patternOf (cfg : LoafCfg) (v : IndVector) : List Bool :=
  let maps := (indMaps cfg.iomap).zip v.bits
  (List.range 256).map fun l =>
    match maps.find? fun e => natAt e.1 1 2 == l with
    | some e => patternBit cfg.tfCode v.tag.toNat (byteAt e.1 5) e.2
    | none => false

/-- PATTERN_COMPOSE (R242): the back buffer is written and marked READY with the vector's tag. -/
def execPatternCompose (s : State) : Host.Outcome State Fault Refusal :=
  match activeCfg s, s.ind.vector with
  | some cfg, some v =>
    .next (if hearthLive s then { s with ind := { s.ind with back := some (v.tag, patternOf cfg v) } } else s)
  | _, _ => .next s

/-- What one lane of the chain is loaded with: bit `b` from the pattern through the remap table, BLANK where no INDMAP entry
has it, or BLANK throughout (R240, R243, R244). -/
def laneBits (cfg : LoafCfg) (chain : List Byte) (pattern : Option (List Bool)) (k : Nat) : List Bool :=
  let maps := indMaps cfg.iomap
  (List.range (indLen chain)).map fun b =>
    match pattern, maps.find? fun e => (byteAt e 3).toNat == k && (byteAt e 4).toNat == b with
    | some p, some e => p.getD (natAt e 1 2) false
    | _, _ => indBlank chain k

def loadChain (s : State) (cfg : LoafCfg) (chain : List Byte) (pattern : Option (List Bool)) : State :=
  { s with ind := { s.ind with latched := (List.range (indLanes chain)).map (laneBits cfg chain pattern) } }

/-- IC_OEN at the end of a strobe (R245, R247): low where the chain is in service, on probation from the 17th strobe on. -/
def strobeEnd (s : State) : State :=
  let served := match (chanOf (reportingLane s) chanIndChain).prob with
    | some p => decide (16 ≤ p.slotPasses)
    | none => true
  { s with ind := { s.ind with icStb := false, oen := !s.ind.oenOff && !retiredNow s chanIndChain && served } }

/-- R247: a strobe that ended by itself counts for the probation of the chain. -/
def countStrobe (s : State) : State :=
  modChans s chanIndChain fun r => { r with prob := r.prob.map fun p => { p with slotPasses := p.slotPasses + 1 } }

/-- R244: the shift leaves bit 0 of each configured lane on its IC_D (log 70), the lanes beyond LANES low and IC_CLK low; IC_STB
rises, and falls again unless it is stuck high. -/
def strobe (stuck : Bool) (s : State) : State :=
  let t := { s with ind := { s.ind with icD := s.ind.latched.map (fun l => l.headD false), icClk := false, icStb := true } }
  if stuck then t else countStrobe (strobeEnd t)

/-- The fetch, shift and strobe of one frame (R243-R245). -/
def indFrame (stuck : Bool) (s : State) (cfg : LoafCfg) (chain : List Byte) : State :=
  match s.ind.back with
  | some (tag, pattern) =>
    if tag = s.core.frameNo - 1 then
      strobe stuck (loadChain { s with ind := { s.ind with
        front := pattern, back := none, seq := tag.setWidth 8 } } cfg chain (some pattern))
    else strobe stuck (late s)
  | none => strobe stuck (late s)
where
  late (s : State) : State :=
    let s1 := loadChain s cfg chain none
    let s2 := modLive { s1 with ind := { s1.ind with late := true, lateCnt := satInc s1.ind.lateCnt } } fun c =>
      { c with lateInd := true }
    setIrq0 s2 irqInd

/-- The port may shift: it runs, no strobe stands, and no trip of this phase H makes it skip (R246). -/
def portShifts (s : State) : Bool := s.ind.run && !s.ind.icStb && !s.ind.skip

def indicatorH (stuck : Bool) (s : State) : State :=
  let s := { s with ind := { s.ind with skip := false } }
  match activeCfg s with
  | some cfg =>
    match indChainEntry cfg.iomap with
    | some chain => if portShifts s then indFrame stuck s cfg chain else s
    | none => s
  | none => s

/-- STROBE_WATCHDOG (R246): IC_STB has stayed high for more than 50 us and is driven low, which ends the strobe. -/
def execStrobeWatchdog (s : State) : Host.Outcome State Fault Refusal :=
  .next (if s.ind.icStb then
    foundReport (setIrq0 (strobeEnd { s with ind := { s.ind with stbwd := true, trips := satInc s.ind.trips, skip := true } }) irqInd)
      (transient chanIndChain anStbwd)
  else s)

/-! ## PHASE_H -/

/-- PHASE_H (R91, R92): the lanes' slices and the indicator port, from the end of phase C to the start of G. -/
def execPhaseH (env : PhaseHEnv) (s : State) : Host.Outcome State Fault Refusal :=
  if !(s.core.tickOn && s.core.phase == .h) then .next s
  else
    let s0 := countEcc (toPhase s .g (startG s.core.tfCode)) env.corrected
    .next (indicatorH env.strobeStuck (sliceResult (sliceResult s0 .a env.slice.a) .b env.slice.b))

/-! ## Clocks and crossings (20) -/

/-- CLOCK_GATE_CLOSE (R479): the partner's cycles counted during the gate, judged at the end of phase E. -/
def execClockGateClose (lane : Side) (count : Nat) (s : State) : Host.Outcome State Fault Refusal :=
  .next (if s.core.tickOn && laneLive s lane then modLane s lane fun x => { x with gate := some count } else s)

/-- R480: the lane to which a watched clock's monitor reports: WDA to lane A, WDB to lane B. -/
def watchers : WatchedClock → List Side
  | .lanea | .laneaIo | .wda => [.b]
  | .laneb | .lanebIo | .wdb => [.a]
  | .xo | .timebase => [.a, .b]

/-- The lane whose clock this is. -/
def laneOfClock : WatchedClock → Option Side
  | .lanea | .laneaIo => some .a
  | .laneb | .lanebIo => some .b
  | _ => none

/-- A lane stands from here on: no row brings its clock back (R485, R491; log 34). -/
def stopLane (clk : WatchedClock) (s : State) : State :=
  match laneOfClock clk with
  | some l => modLane s l fun x => { x with stopped := true }
  | none => s

/-- CLOCK_STOP (R480, R481, R485): the report enters a watching lane at its next phase S, and a lane whose own clock has stopped
stands. -/
def execClockStop (clk : WatchedClock) (s : State) : Host.Outcome State Fault Refusal :=
  .next (if s.core.inReset then s
  else
    let t := stopLane clk s
    if (watchers clk).any (laneRuns s) then { t with core := { t.core with clockStop := true } } else t)

/-- A frame in the fabric FIFO of a port is cut short with EOF abort on its way out (R280, R488). -/
def cutForwarded (q : PortSt) : PortSt :=
  { q with
    cut := []
    tx := match q.tx with
      | some r => if r.frame.hop ≠ 0 && isCutThrough r.frame.cls then none else some r
      | none => none }

/-- The entries of a port's receive FIFO, on their way to the other port and to the module itself, go (R488). -/
def dropReceived (s : State) (p : PortId) : State :=
  pump (modPort { s with fab := { s.fab with inbox := s.fab.inbox.filter fun e => e.1 != p } } p.other cutForwarded) p.other

/-- A snapshot is on its way through the barrier FIFO: latched at the tick and not yet taken in phase S. -/
def snapInFlight (s : State) : Bool := s.core.tickOn && s.core.phase == .s

/-- FIFO_RESYNC (R487, R488): what is in flight is lost and the FIFO takes data again. An output frame lost is CRUSTLINK and, at the
crust, silence; a snapshot lost is found in phase S. -/
def execFifoResync (f : FifoId) (s : State) : Host.Outcome State Fault Refusal :=
  match f with
  | .fabric p => .next (dropReceived s p)
  | .barrier c =>
    let t := modCrust s c fun x => { x with staged := none, resync := false, snapLost := x.snapLost || snapInFlight s }
    .next (if (s.crust.at c).staged.isSome && laneLive s c then laneFault t (transient (chanLane c) anCrustlink) else t)

end Sys2Proof.Machine
end

