-- ==== Sys2Proof/Machine/Dispatch.lean ====
section
/-! DEFINITION. One arm per command: each calls the meaning of its row. -/

namespace Sys2Proof.Machine

open Sys2Proof

def exec (i : Instr) (s : State) : Host.Outcome State Fault Refusal :=
  match i with
  | .vdd33BrownOut removed => Sys2Proof.Machine.execVdd33BrownOut removed s
  | .rstnLow widthNs => Sys2Proof.Machine.execRstnLow widthNs s
  | .internalReset => Sys2Proof.Machine.execInternalReset s
  | .resetRelease env => Sys2Proof.Machine.execResetRelease env s
  | .crustLogicPowerLoss c => Sys2Proof.Machine.execCrustLogicPowerLoss c s
  | .lPlusUndervoltage c => Sys2Proof.Machine.execLPlusUndervoltage c s
  | .lPlusUndervoltageCleared c => Sys2Proof.Machine.execLPlusUndervoltageCleared c s
  | .lPlusLockout c => Sys2Proof.Machine.execLPlusLockout c s
  | .lPlusLockoutCleared c handshakeOk => Sys2Proof.Machine.execLPlusLockoutCleared c handshakeOk s
  | .overvoltageLockout c => Sys2Proof.Machine.execOvervoltageLockout c s
  | .overvoltageCleared c handshakeOk => Sys2Proof.Machine.execOvervoltageCleared c handshakeOk s
  | .tick env => Sys2Proof.Machine.execTick env s
  | .phaseS env => Sys2Proof.Machine.execPhaseS env s
  | .windowXOpen => Sys2Proof.Machine.execWindowXOpen s
  | .windowXEnd => Sys2Proof.Machine.execWindowXEnd s
  | .connTimeout conn => Sys2Proof.Machine.execConnTimeout conn s
  | .phaseE env => Sys2Proof.Machine.execPhaseE env s
  | .phaseC env => Sys2Proof.Machine.execPhaseC env s
  | .phaseH env => Sys2Proof.Machine.execPhaseH env s
  | .sliceOverrun lane => Sys2Proof.Machine.execSliceOverrun lane s
  | .provingPeriodEnd => Sys2Proof.Machine.execProvingPeriodEnd s
  | .shutdownSelftestComplete runs => Sys2Proof.Machine.execShutdownSelftestComplete runs s
  | .clockGateClose lane count => Sys2Proof.Machine.execClockGateClose lane count s
  | .clockStop clk => Sys2Proof.Machine.execClockStop clk s
  | .fifoResync f => Sys2Proof.Machine.execFifoResync f s
  | .receiverLock p => Sys2Proof.Machine.execReceiverLock p s
  | .lockLoss p => Sys2Proof.Machine.execLockLoss p s
  | .relockTimeout p => Sys2Proof.Machine.execRelockTimeout p s
  | .fabricFrameReceive p idle groups earlier t => Sys2Proof.Machine.execFabricFrameReceive p idle groups earlier t s
  | .hopnakReceive p cls seq t => Sys2Proof.Machine.execHopnakReceive p cls seq t s
  | .joinGap env => Sys2Proof.Machine.execJoinGap env s
  | .joinGapEnd => Sys2Proof.Machine.execJoinGapEnd s
  | .call => Sys2Proof.Machine.execCall s
  | .report => Sys2Proof.Machine.execReport s
  | .admitMsg => Sys2Proof.Machine.execAdmitMsg s
  | .refuse => Sys2Proof.Machine.execRefuse s
  | .breakMsg => Sys2Proof.Machine.execBreakMsg s
  | .topo => Sys2Proof.Machine.execTopo s
  | .linkready => Sys2Proof.Machine.execLinkready s
  | .tickReceive arrivalNs residenceNs => Sys2Proof.Machine.execTickReceive arrivalNs residenceNs s
  | .tickMissing => Sys2Proof.Machine.execTickMissing s
  | .syncLoss => Sys2Proof.Machine.execSyncLoss s
  | .syncProvingEnd => Sys2Proof.Machine.execSyncProvingEnd s
  | .managerListenExpiry => Sys2Proof.Machine.execManagerListenExpiry s
  | .safeCopyReceive => Sys2Proof.Machine.execSafeCopyReceive s
  | .bulkReceive => Sys2Proof.Machine.execBulkReceive s
  | .bulkResendTimeout peer stream => Sys2Proof.Machine.execBulkResendTimeout peer stream s
  | .remoteRequestReceive => Sys2Proof.Machine.execRemoteRequestReceive s
  | .remoteReplyReceive => Sys2Proof.Machine.execRemoteReplyReceive s
  | .remoteDeadline path idx => Sys2Proof.Machine.execRemoteDeadline path idx s
  | .canSafeReceive f => Sys2Proof.Machine.execCanSafeReceive f s
  | .canTunnelSegment e => Sys2Proof.Machine.execCanTunnelSegment e s
  | .canTunnelTimeout idx => Sys2Proof.Machine.execCanTunnelTimeout idx s
  | .canTransmitEnd ok => Sys2Proof.Machine.execCanTransmitEnd ok s
  | .canErrorPassive => Sys2Proof.Machine.execCanErrorPassive s
  | .canBusOff => Sys2Proof.Machine.execCanBusOff s
  | .canBusOffRecovery => Sys2Proof.Machine.execCanBusOffRecovery s
  | .rawInputChange ch level t => Sys2Proof.Machine.execRawInputChange ch level t s
  | .debounceExpiry ch t => Sys2Proof.Machine.execDebounceExpiry ch t s
  | .testPulse src => Sys2Proof.Machine.execTestPulse src s
  | .pulseTestSample src sample maskEnd readbackMv => Sys2Proof.Machine.execPulseTestSample src sample maskEnd readbackMv s
  | .retryPulse src => Sys2Proof.Machine.execRetryPulse src s
  | .thresholdCheck c pass0 pass1 => Sys2Proof.Machine.execThresholdCheck c pass0 pass1 s
  | .srcOvercurrent src => Sys2Proof.Machine.execSrcOvercurrent src s
  | .ossdPulseTimeout ch t => Sys2Proof.Machine.execOssdPulseTimeout ch t s
  | .counterEdge ch level edge t => Sys2Proof.Machine.execCounterEdge ch level edge t s
  | .frequencyTimeout ch => Sys2Proof.Machine.execFrequencyTimeout ch s
  | .analogConversion ch mv reference => Sys2Proof.Machine.execAnalogConversion ch mv reference s
  | .stall ch => Sys2Proof.Machine.execStall ch s
  | .legReadback c conducts => Sys2Proof.Machine.execLegReadback c conducts s
  | .highSideProbe pair landMv legMa => Sys2Proof.Machine.execHighSideProbe pair landMv legMa s
  | .lowSideProbe pair landMv groupMa => Sys2Proof.Machine.execLowSideProbe pair landMv groupMa s
  | .darkPulse leg seenOpen conductsAgain => Sys2Proof.Machine.execDarkPulse leg seenOpen conductsAgain s
  | .landSample hi lo => Sys2Proof.Machine.execLandSample hi lo s
  | .blankingEnd leg limitActive => Sys2Proof.Machine.execBlankingEnd leg limitActive s
  | .overcurrent leg => Sys2Proof.Machine.execOvercurrent leg s
  | .thermal leg => Sys2Proof.Machine.execThermal leg s
  | .thermalReclose leg => Sys2Proof.Machine.execThermalReclose leg s
  | .pullInEnd pair => Sys2Proof.Machine.execPullInEnd pair s
  | .pullInLevelSample pair ma => Sys2Proof.Machine.execPullInLevelSample pair ma s
  | .stuckdrive c pair => Sys2Proof.Machine.execStuckdrive c pair s
  | .firingHistoryBin => Sys2Proof.Machine.execFiringHistoryBin s
  | .silenceTimeout c => Sys2Proof.Machine.execSilenceTimeout c s
  | .currentSenseCheck c zeroMa refMa => Sys2Proof.Machine.execCurrentSenseCheck c zeroMa refMa s
  | .patternCompose => Sys2Proof.Machine.execPatternCompose s
  | .strobeWatchdog => Sys2Proof.Machine.execStrobeWatchdog s
  | .probationEnd ch => Sys2Proof.Machine.execProbationEnd ch s
  | .hostWatchdogExpiry => Sys2Proof.Machine.execHostWatchdogExpiry s
  | .hearthHeartbeatLoss => Sys2Proof.Machine.execHearthHeartbeatLoss s
  | .hearthRestart => Sys2Proof.Machine.execHearthRestart s
  | .spiWrite sdi oddBits => Sys2Proof.Machine.execSpiWrite sdi oddBits s
  | .spiRead sdi oddBits => Sys2Proof.Machine.execSpiRead sdi oddBits s
  | .registerWrite addr v => Sys2Proof.Machine.execRegisterWrite addr v s
  | .modeReqWrite v => Sys2Proof.Machine.execModeReqWrite v s
  | .slotWrite addr v => Sys2Proof.Machine.execSlotWrite addr v s
  | .mbxPost mask => Sys2Proof.Machine.execMbxPost mask s
  | .mbxAck mask => Sys2Proof.Machine.execMbxAck mask s
  | .irqStatClear hiByte mask hwSet => Sys2Proof.Machine.execIrqStatClear hiByte mask hwSet s
  | .hostwdWrite v => Sys2Proof.Machine.execHostwdWrite v s
  | .spiCfgWrite v => Sys2Proof.Machine.execSpiCfgWrite v s
  | .crcInit unit => Sys2Proof.Machine.execCrcInit unit s
  | .crcGo unit => Sys2Proof.Machine.execCrcGo unit s
  | .crcnDataWrite unit v => Sys2Proof.Machine.execCrcnDataWrite unit v s
  | .crcnRunWrite unit v sameCycle => Sys2Proof.Machine.execCrcnRunWrite unit v sameCycle s
  | .oenOffWrite v => Sys2Proof.Machine.execOenOffWrite v s
  | .indStatClear mask hwSet => Sys2Proof.Machine.execIndStatClear mask hwSet s
  | .slotTake => Sys2Proof.Machine.execSlotTake s
  | .commandReply via => Sys2Proof.Machine.execCommandReply via s
  | .echo via => Sys2Proof.Machine.execEcho via s
  | .identity via => Sys2Proof.Machine.execIdentity via s
  | .modeSet via => Sys2Proof.Machine.execModeSet via s
  | .maintHold via => Sys2Proof.Machine.execMaintHold via s
  | .hostbitSet via => Sys2Proof.Machine.execHostbitSet via s
  | .hostbitGet via => Sys2Proof.Machine.execHostbitGet via s
  | .loafWrite w => Sys2Proof.Machine.execLoafWrite w s
  | .loafCheck via => Sys2Proof.Machine.execLoafCheck via s
  | .loafActivate via => Sys2Proof.Machine.execLoafActivate via s
  | .loafInfo via => Sys2Proof.Machine.execLoafInfo via s
  | .loafErase via => Sys2Proof.Machine.execLoafErase via s
  | .chanStatus via => Sys2Proof.Machine.execChanStatus via s
  | .chanReadmit via => Sys2Proof.Machine.execChanReadmit via s
  | .chanIsolate via => Sys2Proof.Machine.execChanIsolate via s
  | .chanRestore via => Sys2Proof.Machine.execChanRestore via s
  | .chanForce via => Sys2Proof.Machine.execChanForce via s
  | .indStatus via => Sys2Proof.Machine.execIndStatus via s
  | .selftestRun via => Sys2Proof.Machine.execSelftestRun via s
  | .commandSelftestComplete runs env => Sys2Proof.Machine.execCommandSelftestComplete runs env s
  | .selftestResult via => Sys2Proof.Machine.execSelftestResult via s
  | .shutdown via => Sys2Proof.Machine.execShutdown via s
  | .shutdownStatus via => Sys2Proof.Machine.execShutdownStatus via s
  | .measRead via => Sys2Proof.Machine.execMeasRead via s
  | .quote via => Sys2Proof.Machine.execQuote via s
  | .certRead via => Sys2Proof.Machine.execCertRead via s
  | .jrnOpen via => Sys2Proof.Machine.execJrnOpen via s
  | .jrnRead via => Sys2Proof.Machine.execJrnRead via s
  | .jrnClose via => Sys2Proof.Machine.execJrnClose via s
  | .jrnPin via => Sys2Proof.Machine.execJrnPin via s
  | .jrnInfo via => Sys2Proof.Machine.execJrnInfo via s
  | .statEpoch via => Sys2Proof.Machine.execStatEpoch via s
  | .fabStatus via => Sys2Proof.Machine.execFabStatus via s
  | .fabMembers via => Sys2Proof.Machine.execFabMembers via s
  | .fabConn via => Sys2Proof.Machine.execFabConn via s
  | .timeGet via t => Sys2Proof.Machine.execTimeGet via t s
  | .canConfig via => Sys2Proof.Machine.execCanConfig via s
  | .doorposLearn via => Sys2Proof.Machine.execDoorposLearn via s
  | .learningRunEnd why => Sys2Proof.Machine.execLearningRunEnd why s
  | .doorposConfirm via => Sys2Proof.Machine.execDoorposConfirm via s
  | .doorposRead via => Sys2Proof.Machine.execDoorposRead via s
  | .keyLoad via => Sys2Proof.Machine.execKeyLoad via s
  | .nonceGet via => Sys2Proof.Machine.execNonceGet via s
  | .nonceExpiry => Sys2Proof.Machine.execNonceExpiry s
  | .lifecycleSet via => Sys2Proof.Machine.execLifecycleSet via s
  | .actStatus via => Sys2Proof.Machine.execActStatus via s
  | .actScan via => Sys2Proof.Machine.execActScan via s
  | .busScan replies => Sys2Proof.Machine.execBusScan replies s
  | .chipTransactionFail retryFails => Sys2Proof.Machine.execChipTransactionFail retryFails s
  | .wearAdvance idx reply => Sys2Proof.Machine.execWearAdvance idx reply s
  | .busRecovery releasedAt => Sys2Proof.Machine.execBusRecovery releasedAt s
  | .crumbWrite => Sys2Proof.Machine.execCrumbWrite s
  | .pageHoldExpiry session => Sys2Proof.Machine.execPageHoldExpiry session s
  | .sessionIdleClose session => Sys2Proof.Machine.execSessionIdleClose session s
  | .epochEnd isPartial => Sys2Proof.Machine.execEpochEnd isPartial s
  | .cycleStart door => Sys2Proof.Machine.execCycleStart door s
  | .cycleEnd door => Sys2Proof.Machine.execCycleEnd door s
  | .cycleTimeout door => Sys2Proof.Machine.execCycleTimeout door s
  | .crustLogicPowerReturn c => Sys2Proof.Machine.execCrustLogicPowerReturn c s
  | .hearthHeartbeatReturn => Sys2Proof.Machine.execHearthHeartbeatReturn s
  | .productionTestEnd => Sys2Proof.Machine.execProductionTestEnd s
  | .fuseRepair rows spareBlocks => Sys2Proof.Machine.execFuseRepair rows spareBlocks s
  | .fabricFrameTransmitEnd p t => Sys2Proof.Machine.execFabricFrameTransmitEnd p t s

end Sys2Proof.Machine
end

