-- ==== Sys2Proof/Safety.lean ====
section
/-! DEFINITION. What a safe state is, in the terms that the statements use: a crust that may not drive holds every leg off
(R41, R49), the memories are in canonical form, the journal's writer stays within the 12,288 pages (R437), a reserved
field reads 0 (R352), and the mode due next is one that R64 allows. -/

namespace Sys2Proof.Machine

/-- Every leg of a crust, and KA or KB, is commanded off. -/
def legsOff (x : CrustSt) : Bool := x.legs.all fun e => !e.2.cmd

/-- The crust may drive its outputs: logic power, and the field supply neither below lockout nor in overvoltage lockout. -/
def crustPowered (x : CrustSt) : Bool := x.logicPower && !x.lockout && !x.overvolt

/-- A crust that may not drive holds every leg off. -/
def quiet (x : CrustSt) : Bool := crustPowered x || legsOff x

/-- The writer's own pages lie in the journal: the open page, and those it has passed over. -/
def writerOk (openPage : Option Nat) (skip : List Nat) : Bool :=
  (match openPage with
   | some p => decide (p < journalPages)
   | none => true) && skip.all fun p => decide (p < journalPages)

/-- The mode transitions of R64's table, but for those into BOOT by a reset. -/
def modeEdge (old new : Mode) : Bool :=
  match old with
  | .boot => new == .configure || new == .operate || new == .degraded || new == .safeHold
  | .configure => new == .boot || new == .degraded || new == .safeHold || new == .shutdown
  | .operate => new == .configure || new == .maintain || new == .degraded || new == .safeHold || new == .shutdown
  | .maintain => new == .boot || new == .configure || new == .degraded || new == .safeHold || new == .shutdown
  | .degraded => new == .safeHold || new == .shutdown
  | .safeHold => new == .shutdown
  | .shutdown => false

/-- The mode due at the next tick lies one transition of R64 away; a core in reset, or between steps 3 and 4 of start-up, is in
BOOT with none due, and its tick stands still. -/
def modeOk (held tickOn : Bool) (mode : Mode) (next : Option (Mode × ModeWhy)) : Bool :=
  (!held || (!tickOn && mode == .boot && next.isNone)) &&
  match next with
  | some (m, _) => modeEdge mode m
  | none => true

/-- What every command keeps. -/
def State.inv (s : State) : Bool :=
  quiet s.crust.a && quiet s.crust.b && Memory.wf s.nv.journal && Memory.wf s.mbx.mem &&
  writerOk s.nv.openPage s.jrn.skip && (s.host.hostwd &&& 0xE0#8) == 0 &&
  modeOk (s.core.inReset || s.core.startUp.isSome) s.core.tickOn s.core.mode s.core.modeNext

end Sys2Proof.Machine
end

