-- ==== Sys2Proof/Certificates/Slice0/Obligations.lean ====
section
/-! DEFINITION. The statements for the provers. Each is about the commands named in it: under conditions on the state and the
operands alone the command answers a next state, and that state is described; what a clause does not name is as before. -/

namespace Sys2Proof.Claims

open Sys2Proof.Machine

/-- The command takes `s` to `t`. -/
abbrev Runs (c : Instr) (s t : State) : Prop := exec c s = .next t

/-- `s` with crust `c` replaced. -/
def onCrust (s : State) (c : Side) (y : CrustSt) : State := { s with crust := s.crust.set c y }

/-- `s` at another offset from its tick. -/
def atOff (s : State) (t : BitVec 20) : State := { s with core := { s.core with off := t } }

/-- No test source of a crust is driven on its schedule. -/
def sourcesOff (x : CrustSt) : Bool := x.srcs.all fun e => !e.2.active

/-- A field supply event stands on a crust: an undervoltage report, a lockout or an overvoltage lockout (R263). -/
def supplyEventStands (x : CrustSt) : Bool := x.undervolt || x.lockout || x.overvolt

/-- What a crust keeps as its event mark when a supply condition begins: one event, whatever its parts (R263). -/
def eventMark (s : State) (x : CrustSt) : Bool :=
  x.supplyEvent || (!supplyEventStands x && x.logicPower && !s.core.inReset)

/-- `t` is `u` but for the actuator bus, which goes on or off with crust A's supplies as `s` becomes `u`: where it is off no
scan is due and none is waited for, where it comes on a scan is due, and else it is as it was (R463, R473). -/
def BusFollows (s t u : State) : Prop :=
  t = { u with act := { u.act with scanDue := t.act.scanDue, scanVia := t.act.scanVia }
               mbx := { u.mbx with queue := t.mbx.queue } } ∧
  (busActive u u.core.mode = false → t.act.scanDue = false ∧ t.act.scanVia = []) ∧
  (busActive u u.core.mode = true → t.act.scanDue = (u.act.scanDue || !busActive s s.core.mode)) ∧
  (u.act.scanVia = [] → t.mbx.queue = u.mbx.queue)

/-- `t` is `u`, and where `bus` the actuator bus goes with it: a lockout that clears brings the bus back, an overvoltage lockout
has no part in it (R463). -/
def Cleared (bus : Bool) (s t u : State) : Prop := if bus then BusFollows s t u else t = u

/-- A crust that may take part in its frame: the tick runs, and it has power and its handshake. -/
def atWork (s : State) (c : Side) : Prop :=
  s.core.tickOn = true ∧ (s.crust.at c).handshake = true ∧ (s.crust.at c).logicPower = true

/-- The registers of the core at their reset values, with both ports of the fabric in BYPASS. -/
def coreAtReset (t : State) : Prop :=
  t.core.inReset = true ∧ t.core.mode = .boot ∧ t.core.frameNo = 0 ∧ t.core.tickOn = false ∧
  t.meas.m = List.replicate 8 (List.replicate 32 0) ∧ t.host = HostSt.reset ∧ t.mbx = MbxSt.reset ∧ t.fab = FabSt.reset ∧
  t.can = CanSt.reset ∧ t.ind = IndSt.reset

/-- Every leg, KA and KB are open and no source is driven. -/
def allOpen (t : State) : Prop :=
  legsOff t.crust.a = true ∧ legsOff t.crust.b = true ∧ sourcesOff t.crust.a = true ∧ sourcesOff t.crust.b = true

/-- What only a few commands touch: the journal's bytes and its open page, the slots' bytes, HOSTWD, the lifecycle and the
waiting commands. -/
def SameStore (s t : State) : Prop :=
  t.nv.journal = s.nv.journal ∧ t.nv.openPage = s.nv.openPage ∧ t.mbx.mem = s.mbx.mem ∧ t.host.hostwd = s.host.hostwd ∧
  t.nv.life = s.nv.life ∧ t.pending = s.pending

/-- The clock of the block and its mode: FRAME_NO, the tick, MODE_CUR, the reset and the latched frame statistics. -/
def SameClock (s t : State) : Prop :=
  t.core.frameNo = s.core.frameNo ∧ t.core.tickOn = s.core.tickOn ∧ t.core.mode = s.core.mode ∧
  t.core.inReset = s.core.inReset ∧ t.stat.frame = s.stat.frame ∧ t.stat.gen = s.stat.gen ∧ t.stat.latched = s.stat.latched

/-- `s` with what CHAN_ISOLATE, CHAN_RESTORE and CHAN_FORCE have put into effect on the lanes by the end of phase S (R393). -/
def afterOps (s : State) : State := if hearthLive s then s.mbx.chanOps.foldl applyChanOp s else s

/-- The values of one crust's channels as a valid snapshot shows them: the lane's key, the value with its Q and T, the channels whose
records bear on it and the inputs whose sources do (R193, R197, R201). -/
def shownVals (m : List (List Byte)) (c : Side) (z : Snap) : List (Nat × (Int × Bool × Bool) × List Nat × List Nat) :=
  (((List.range 4).filter fun n => modeOfInput m (chanIn c n) == 4#8 || modeOfInput m (chanIn c n) == 5#8).map fun n =>
    let i := tabGet SnapIn.none z.ins n
    (chanIn c n, (i.value, i.q, i.t), [chanIn c n], [n])) ++
  (((List.range 2).filter fun p => (quadEntry m (sideBase c + p)).isSome).map fun p =>
    let q := tabGet SnapVal.none z.quads p
    (0x100 + (sideBase c + p), (q.value, q.q, q.t), [chanIn c (2 * p), chanIn c (2 * p + 1)], [2 * p, 2 * p + 1])) ++
  ((List.range 4).filter fun k => (analogEntry m c k).isSome).map fun k =>
    let a := tabGet SnapVal.none z.ana k
    (chanAna c k, (a.value, a.q, a.t), [chanAna c k], [])

/-- A lane's record of a channel. -/
abbrev chanRec (s : State) (l : Side) (n : Nat) : ChanRec := chanOf (s.lane.at l) n

/-- A lane fault found once the outputs of the frame are staged: it disturbs the proving period, whose OPERATE it takes back with what was
staged for it, and in MAINTAIN every pair goes off at the next tick (R36, R37); a crust else keeps all but its staged set. -/
def FaultFound (s t : State) : Prop :=
  t.core.disturbed = true ∧ (∀ c, t.crust.at c = { s.crust.at c with staged := (t.crust.at c).staged }) ∧
  (s.core.mode = .boot → s.core.modeNext = some (.operate, .request) → t.core.modeNext = none) ∧
  (s.core.phase = .h ∨ s.core.phase = .g → ∀ l cfg p, (s.lane.at l).cfg = some cfg → p ∈ drivenPairs cfg.params →
    (s.core.mode = .maintain → p < 16 → (pairRecOf (t.lane.at l) p).staged = false) ∧
    (s.core.mode = .boot → s.core.modeNext = some (.operate, .request) →
      (pairRecOf (t.lane.at l) p).staged = false ∧ (t.lane.at l).contrib = 0x08#8))

/-! ### The blocks of a form, by their state before (`b`) and after (`n`) phase E, their inputs (`x`) and outputs (`y`) -/

/-- R164: the discrepancy of the channels `p` and `q`, from code, timer and agreement at 0 (`c`, `tm`, `low`) to code and timer. -/
def Discrepancy (disc : Nat) (p q c : Byte) (tm : Timer) (low : Bool) (c' : Byte) (tm' : Timer) : Prop :=
  tm' = timerRun tm (beadV p != beadV q) disc ∧
  (c = 2#8 → c' = if isSound0 p && isSound0 q then 0#8 else 2#8) ∧
  ∀ w, w = (if c = 1#8 ∨ c = 3#8 then c == 3#8 else !low) → c ≠ 2#8 →
    (beadV p = beadV q → c' = if (c = 1#8 ∨ c = 3#8) ∧ beadV p = w then 2#8 else 0#8) ∧
    (beadV p ≠ beadV q → c' = if tm'.done then 2#8 else if w then 3#8 else 1#8)

/-- R161: the restart latch after the frame. -/
def LatchNow (hold : Bool) (age : Nat) (l rstBefore rst unlatched l' : Byte) : Prop :=
  (hold = true ∨ isTT age unlatched = false → l' = sound0) ∧
  (hold = false → isTT age unlatched = true → l' = if isSound0 rstBefore && isTT age rst then sound1 else l)

/-- TON, TOF, TP, RSLATCH, EDGE, RELEASE and COUNT. -/
def TimingRules (r : ParamRec) (b n : BlkSt) (xs : List (Option Byte)) (x : Nat → Byte) (y : Nat → Byte → Prop) (pos : Val) : Prop :=
  ∀ age, age = agelimOf r →
  (r.ty = tyTON → n.tmr = timerRun b.tmr (isTT age (x 0)) (parN r 0) ∧
    y 0 (if parN r 0 = 0 then x 0 else setV (x 0) (isTT age (x 0) && n.tmr.done))) ∧
  (r.ty = tyTOF →
    (isTT age (x 0) = true → n.tmr = Timer.stopped ∧ n.own = true ∧ y 0 (x 0)) ∧
    (isSound0 (x 0) = true → b.own = true ∨ b.tmr.running = true → ∀ tm, tm = timerRun b.tmr true (parN r 0) →
      n.tmr = { tm with running := !tm.done } ∧ n.own = !tm.done ∧ y 0 (setV (x 0) !tm.done)) ∧
    (isTT age (x 0) = false → isSound0 (x 0) = false ∨ (b.own = false ∧ b.tmr.running = false) →
      n.tmr = Timer.stopped ∧ n.own = false ∧ y 0 (setV (x 0) false))) ∧
  (r.ty = tyTP → n.edge0 = x 0 ∧ ∀ tm go, tm = timerRun b.tmr true (parN r 0) →
    go = (b.tmr.running && isSound (x 0) && !tm.done) →
    (go = true → n.tmr = tm ∧ y 0 (setV (x 0) true)) ∧
    (go = false → isSound0 b.edge0 = true → isTT age (x 0) = true →
      n.tmr = { elapsed := 0, running := true, done := false } ∧ y 0 (setV (x 0) true)) ∧
    (go = false → isSound0 b.edge0 = false ∨ isTT age (x 0) = false → n.tmr.running = false ∧ y 0 (setV (x 0) false))) ∧
  (r.ty = tyRSLATCH → n.latch = andBeads [notBead (x 1), orBeads [x 0, b.latch]] ∧ y 0 n.latch) ∧
  (r.ty = tyEDGE → n.edge0 = x 0 ∧
    y 0 (mkBead ((natBit (parN r 0) 0 && !beadV b.edge0 && beadV (x 0)) || (natBit (parN r 0) 1 && beadV b.edge0 && !beadV (x 0)))
      { mergeEvid [b.edge0, x 0] with age := beadAge (x 0) })) ∧
  (r.ty = tyRELEASE → ∀ z, z = andBeads (xs.filterMap id) → n.tmr = timerRun b.tmr (isTT age z) (parN r 0) ∧
    y 0 (setV z (isTT age z && n.tmr.done))) ∧
  (r.ty = tyCOUNT → n.edge0 = x 0 ∧ n.edge1 = x 1 ∧ pos.value = n.cnt.toInt ∧
    y 0 (mkBead (decide (parI r 0 ≤ n.cnt.toInt)) (mergeEvid (xs.filterMap id))) ∧
    ((∃ z ∈ xs.filterMap id, isSound z = false) → n.cnt = b.cnt) ∧
    ((∀ z ∈ xs.filterMap id, isSound z = true) → isTT age (x 2) = true → n.cnt = wordOfInt (parI r 1)) ∧
    ((∀ z ∈ xs.filterMap id, isSound z = true) → isTT age (x 2) = false →
      n.cnt = wordOfInt (clampInt (-0x7FFFFFFF) 0x7FFFFFFF (b.cnt.toInt +
        (if inConnected xs 0 && validEdge age b.edge0 (x 0) then 1 else 0) -
        (if inConnected xs 1 && validEdge age b.edge1 (x 1) then 1 else 0)))))

/-- DUALCH, ESTOP, OSSD, MANREL and GUARD, with MODESEL. -/
def InputRules (hold : Bool) (r : ParamRec) (b n : BlkSt) (x : Nat → Byte) (y : Nat → Byte → Prop) : Prop :=
  ∀ age, age = agelimOf r →
  (∀ (anti lock manual bad : Bool) (disc : Nat) (q raw unl res : Byte),
    (r.ty = tyDUALCH ∧ anti = !parB r 0 ∧ disc = parN r 1 ∧ manual = parB r 2 ∧ lock = false) ∨
      (r.ty = tyGUARD ∧ anti = !parB r 0 ∧ disc = parN r 1 ∧ manual = parB r 2 ∧ lock = parB r 3) ∨
      ((r.ty = tyESTOP ∨ r.ty = tyMANREL) ∧ anti = false ∧ disc = parN r 0 ∧ manual = true ∧ lock = false) ∨
      (r.ty = tyOSSD ∧ anti = false ∧ disc = parN r 0 ∧ manual = parB r 1 ∧ lock = false) →
    q = (if anti then notBead (x 1) else x 1) → bad = (n.code == 2#8 || (lock && n.code2 == 2#8)) →
    raw = andBeads (if lock then [x 0, q, x 3, x 4] else [x 0, q]) → unl = (if bad then clearD raw else raw) →
    res = (if manual then andBeads [unl, n.latch] else unl) →
    Discrepancy disc (x 0) q b.code b.tmr b.own n.code n.tmr ∧ n.own = (beadV (x 0) == beadV q && !beadV (x 0)) ∧
    (lock = true → Discrepancy disc (x 3) (x 4) b.code2 b.tmr2 b.own2 n.code2 n.tmr2) ∧ n.edge0 = x 2 ∧
    (manual = true → LatchNow hold age b.latch b.edge0 (x 2) unl n.latch) ∧ (manual = false → n.latch = b.latch) ∧
    y 0 (if bad then clearD res else res) ∧ (r.ty = tyMANREL → y 1 (notBead (if bad then clearD res else res)))) ∧
  (r.ty = tyMODESEL → ∀ k one, k = parN r 0 →
    one = (fun i => isSound (x (2 * i)) && beadV (x (2 * i)) && isSound (x (2 * i + 1)) && beadV (x (2 * i + 1))) →
    ((∃ i, i < k ∧ one i = true ∧ ∀ j, j < k → j ≠ i → isSound0 (x (2 * j)) = true ∧ isSound0 (x (2 * j + 1)) = true) →
      n.code = 0 ∧ n.tmr = Timer.stopped ∧
      ∀ i, i < k → y i (mkBead (one i) (mergeEvid [x (2 * i), x (2 * i + 1)]))) ∧
    ((¬ ∃ i, i < k ∧ one i = true ∧ ∀ j, j < k → j ≠ i → isSound0 (x (2 * j)) = true ∧ isSound0 (x (2 * j + 1)) = true) →
      n.tmr = timerRun b.tmr true (parN r 1) ∧ n.code = (if b.code = 2#8 ∨ n.tmr.done = true then 2#8 else 1#8) ∧
      ∀ i, i < k → ∀ z, z = andBeads [x (2 * i), x (2 * i + 1)] → y i (if n.code = 2#8 then clearD z else z)))

/-- CLOSEDLOCKED, OBSTACLE, ZEROSPEED, DOORPOS and CMP. -/
def DoorRules (offsets : Tab (Int × Int)) (r : ParamRec) (b n : BlkSt) (xs : List (Option Byte)) (x : Nat → Byte)
    (vs : List (ValSrc × Val)) (y : Nat → Byte → Prop) (pos : Val) : Prop :=
  ∀ age, age = agelimOf r →
  (r.ty = tyCLOSEDLOCKED → ∀ cond z, cond = (isTT age (x 1) && isSound0 (x 0)) →
    z = andBeads ([x 0, x 1] ++ (xs.drop 2).filterMap id) →
    (b.code = 2#8 → isSound0 (x 0) = false ∨ isSound0 (x 1) = false → n.code = 2#8) ∧
    (b.code ≠ 2#8 ∨ (isSound0 (x 0) = true ∧ isSound0 (x 1) = true) → n.tmr = timerRun b.tmr cond (parN r 0) ∧
      n.code = if cond then (if n.tmr.done then 2#8 else 1#8) else 0#8) ∧
    y 0 (if n.code = 2#8 then clearD z else z)) ∧
  (r.ty = tyOBSTACLE → ∀ (z : Byte) (reset event locks : Bool) (cnt : Nat), z = andBeads ((xs.take 4).filterMap id) →
    reset = (b.code == 2#8 && validEdge age b.edge2 (x 6)) → cnt = (if isTT age (x 5) || reset then 0 else b.cnt.toNat) →
    event = (isTT age (x 4) && isSound0 z && (beadV b.edge0 || !isTT age b.edge1)) →
    locks = (event && decide (parN r 1 < min (cnt + 1) 0xFFFF)) →
    n.edge0 = z ∧ n.edge1 = x 4 ∧ n.edge2 = x 6 ∧ n.cnt.toNat = (if event then min (cnt + 1) 0xFFFF else cnt) % 2 ^ 32 ∧
    (n.code = 2#8 ↔ (b.code = 2#8 ∧ reset = false) ∨ locks = true) ∧ y 1 (soundBead (event && !locks)) ∧
    y 2 (soundBead (n.code == 2#8)) ∧
    (beadV z = false → n.tmr.running = true ∧ n.tmr.elapsed = 0) ∧
    (beadV z = true → b.tmr.running = true → n.tmr.elapsed = min (b.tmr.elapsed + 1) (parN r 0) ∧
      n.tmr.running = decide (b.tmr.elapsed + 1 < parN r 0)) ∧
    (beadV z = true → b.tmr.running = false → n.tmr.running = false) ∧
    (n.code ≠ 2#8 → n.code = if beadV z = false ∨ n.tmr.running = true then 1#8 else 0#8) ∧
    y 0 (if n.code = 2#8 then sound0 else if n.code = 1#8 then setV z false else z)) ∧
  (r.ty = tyZEROSPEED → ∀ u v, vs = [u, v] → ∀ hi lo differ, hi = max u.2.value v.2.value → lo = min u.2.value v.2.value →
    differ = (decide ((parN r 0 : Int) ≤ hi) && decide ((parN r 1 : Int) * hi < (hi - lo) * 100)) →
    n.tmr = timerRun b.tmr differ (parN r 2) ∧ n.tmr2 = timerRun b.tmr2 (decide (hi < (parN r 0 : Int))) (parN r 3) ∧
    (b.code = 2#8 → lo < (parN r 0 : Int) ∨ differ = true → n.code = 2#8) ∧
    (b.code ≠ 2#8 ∨ ((parN r 0 : Int) ≤ lo ∧ differ = false) →
      n.code = if differ then (if n.tmr.done then 2#8 else 1#8) else 0#8) ∧
    y 0 (mkBead (decide (hi < (parN r 0 : Int)) && n.tmr2.done) (valEvid (n.code != 2#8) [u.2, v.2]))) ∧
  (r.ty = tyDOORPOS → ∀ p q u v, vs = [(.quad p, u), (.quad q, v)] → ∀ (at_ : Nat → Val → Int) (known : Bool) (differ : Bool) (e : Evid),
    at_ = (fun k w => match tabFind offsets k with
      | some o => w.value + (if w.closing then o.1 else o.2)
      | none => w.value) → known = ((tabFind offsets p).isSome && (tabFind offsets q).isSome) →
    differ = decide ((parN r 2 : Int) < (at_ p u - at_ q v).natAbs) →
    e = { valEvid (n.code != 2#8) [u, v] with t := u.t && v.t && known } →
    n.tmr = timerRun b.tmr differ (parN r 3) ∧
    n.code = (if differ then (if b.code = 2#8 ∨ n.tmr.done = true then 2#8 else 1#8) else 0#8) ∧
    y 0 (mkBead (decide (at_ p u ≤ (parN r 0 : Int)) && decide (at_ q v ≤ (parN r 0 : Int))) e) ∧
    y 1 (mkBead (decide ((parN r 1 : Int) ≤ at_ p u) && decide ((parN r 1 : Int) ≤ at_ q v)) e) ∧
    y 2 (mkBead (b.own2 && (decide (parN r 4 < (u.value - b.cnt.toInt).natAbs) || decide (parN r 4 < (v.value - b.cnt2.toInt).natAbs))) e) ∧
    n.cnt = wordOfInt u.value ∧ n.cnt2 = wordOfInt v.value ∧ n.own2 = true ∧
    pos.value = min (at_ p u) (at_ q v) ∧ pos.q = e.q ∧ pos.t = e.t) ∧
  (r.ty = tyCMP → ∀ u v, vs.head? = some u → v = vs.getD 1 u → ∀ (w : Int) (differ : Bool), w = min u.2.value v.2.value →
    differ = (decide (2 ≤ vs.length) && decide ((parN r 3 : Int) < (u.2.value - v.2.value).natAbs)) →
    n.tmr = timerRun b.tmr differ (parN r 4) ∧
    n.code = (if differ then (if b.code = 2#8 ∨ n.tmr.done = true then 2#8 else 1#8) else 0#8) ∧
    n.own = (if parI r 0 + parN r 2 ≤ w ∧ w ≤ parI r 1 - parN r 2 then true else if w < parI r 0 ∨ parI r 1 < w then false else b.own) ∧
    y 0 (mkBead n.own (valEvid (n.code != 2#8) (vs.map (·.2)))))

/-- QPAIR, LOCKDRV and RAILCUT, by the staging record of their pair. -/
def OutputRules (hold : Bool) (pr : PairRec) (r : ParamRec) (b n : BlkSt) (x : Nat → Byte) (y : Nat → Byte → Prop) : Prop :=
  ∀ (age edmt : Nat) (edm : Bool) (fb rst : Byte), age = agelimOf r →
    (r.ty = tyQPAIR ∧ edm = parB r 4 ∧ edmt = parN r 5 ∧ fb = x 1 ∧ rst = x 2) ∨
      (r.ty = tyLOCKDRV ∧ edm = false ∧ edmt = 0 ∧ fb = host0 ∧ rst = x 1) ∨
      (r.ty = tyRAILCUT ∧ edm = true ∧ edmt = parN r 0 ∧ fb = x 1 ∧ rst = x 2) →
    ∀ (base : Byte) (leaves follows : Bool), base = (if pr.committed then 1#8 else 0#8) →
    leaves = (b.code == 3#8 && validEdge age b.edge0 rst && isTT age fb) →
    follows = (if pr.committed then isSound0 fb else isTT age fb) →
    n.edge0 = rst ∧ y 0 (soundBead pr.staged) ∧ y 1 (soundBead (n.code == 3#8)) ∧
    (b.code = 3#8 → leaves = false → n.code = 3#8) ∧ (leaves = true → n.code = base) ∧
    (b.code ≠ 3#8 → edm = false ∨ (pr.due = false ∧ b.code ≠ 2#8) ∨ follows = true → n.code = base ∧ n.tmr = Timer.stopped) ∧
    (b.code ≠ 3#8 → edm = true → pr.due = true ∨ b.code = 2#8 → follows = false →
      n.code = (if edmt ≤ pr.sinceCommit then 3#8 else 2#8) ∧ n.tmr.elapsed = min pr.sinceCommit edmt) ∧
    (restartOf r = true → LatchNow hold age b.latch b.edge0 rst (x 0) n.latch) ∧
    (restartOf r = false → pr.needReset = true → LatchNow false age b.latch b.edge0 rst (x 0) n.latch) ∧
    (restartOf r = false → pr.needReset = false → n.latch = b.latch)

/-! ### The fabric -/

/-- The first frame of this kind that waits in the module's inbox. -/
def Waits (s : State) (q : Frame → Bool) (p : PortId) (f : Frame) : Prop :=
  s.fab.inbox.find? (fun e => q e.2) = some (p, f)

/-- `s` with a frame taken from its inbox. -/
def taken (s : State) (p : PortId) (f : Frame) : State :=
  { s with fab := { s.fab with inbox := s.fab.inbox.erase (p, f) } }

/-- The record of a station from its REPORT: admitted (1) or refused (2), with the reason (R296, R298). -/
def reported (state why : Byte) (f : Frame) (p0Branch : Bool) (call : Nat) : Member :=
  { state := state, reason := why, h := byteAt f.payload 1, mode := byteAt f.payload 5, tag := bytesAt f.payload 8 8
    p0Branch := p0Branch, call := call }

/-- Where port `p` is UP, a frame of this module's own with this class, destination and payload waits there in `t` or is being sent,
with some SEQ. -/
def Queued (s t : State) (p : PortId) (c : BitVec 4) (dst : Byte) (payload : List Byte) : Prop :=
  (portOf s p).st = .up → ∃ n, ∃ f : Frame,
    f = { cls := c, retry := false, hop := 0, src := (ownStation s).getD 0xFE#8, dst := dst, seq := n, payload := payload } ∧
    (f ∈ (portOf t p).own ∨ (portOf t p).tx.map (fun r => r.frame) = some f)

/-- A worker's port `p` has gone DOWN: it tells the BREAK out of its other port, or waits for that port's relock, and tells nothing
where that port has gone DOWN before it in the frame (R304, R313). -/
def BreakTold (s t : State) (p : PortId) : Prop :=
  (∀ f ∈ (portOf t p).own, isDisc 0x05 f = false) ∧
  ((portOf s p.other).relocking = true → t.fab.breakDue = some p) ∧
  ((portOf s p.other).relocking = false → s.fab.breakDue = some p.other → t.fab.breakDue = none) ∧
  ((portOf s p.other).relocking = false → s.fab.breakDue ≠ some p.other → t.fab.breakDue = s.fab.breakDue ∧
    Queued s t p.other clsDisc 0x00 [0x05, BitVec.ofNat 8 p.num, (ownStation s).getD 0xFE#8])

/-- The record of a frame whose sending begins in this frame (R265). -/
def begun (s : State) (g : Frame) : TxRec :=
  { frame := g, retried := false, cancelled := false, aborted := false, first := s.core.frameNo, eof := { frame := 0, off := 0 } }

/-- A TICK as a member that adds `residence` ns passes it on (R317). -/
def tickCopy (q : PortSt) (f : Frame) (residence : Nat) : Frame :=
  { f with retry := false, hop := f.hop + 1
           payload := bytesAt f.payload 0 9 ++ leBytes 3 (min (natAt f.payload 9 3 + q.delay.getD 150 + residence) 0xFFFFFF) }

/-- Only the fabric has changed, and with it the marks of queue entries whose request goes out (R387). -/
def OnlyFabric (s t : State) : Prop := t = { s with fab := t.fab, mbx := { s.mbx with queue := t.mbx.queue } }

/-- Only the fabric, the journal's buffer and the statistics have changed, and the marks of queue entries. -/
def OnlyFabricAndJournal (s t : State) : Prop :=
  t = { s with fab := t.fab, mbx := { s.mbx with queue := t.mbx.queue }, jrn := t.jrn, stat := t.stat } ∧ SameStore s t ∧
  SameClock s t

/-! ### The mailbox -/

/-- The mailbox command that a row executes, with the queue entry it works on. -/
def cmdOf : Instr → Option (Via × Byte)
  | .echo via => some (via, 0x00)
  | .identity via => some (via, 0x01)
  | .modeSet via => some (via, 0x02)
  | .maintHold via => some (via, 0x03)
  | .hostbitSet via => some (via, 0x04)
  | .hostbitGet via => some (via, 0x05)
  | .loafWrite w => some (w.via, 0x10)
  | .loafCheck via => some (via, 0x11)
  | .loafActivate via => some (via, 0x12)
  | .loafInfo via => some (via, 0x13)
  | .loafErase via => some (via, 0x14)
  | .chanStatus via => some (via, 0x20)
  | .chanReadmit via => some (via, 0x21)
  | .chanIsolate via => some (via, 0x22)
  | .chanRestore via => some (via, 0x23)
  | .chanForce via => some (via, 0x24)
  | .indStatus via => some (via, 0x26)
  | .selftestRun via => some (via, 0x30)
  | .selftestResult via => some (via, 0x31)
  | .shutdown via => some (via, 0x32)
  | .shutdownStatus via => some (via, 0x33)
  | .measRead via => some (via, 0x40)
  | .quote via => some (via, 0x41)
  | .certRead via => some (via, 0x42)
  | .jrnOpen via => some (via, 0x50)
  | .jrnRead via => some (via, 0x51)
  | .jrnClose via => some (via, 0x52)
  | .jrnPin via => some (via, 0x53)
  | .jrnInfo via => some (via, 0x54)
  | .statEpoch via => some (via, 0x55)
  | .fabStatus via => some (via, 0x60)
  | .fabMembers via => some (via, 0x61)
  | .fabConn via => some (via, 0x62)
  | .timeGet via _ => some (via, 0x70)
  | .canConfig via => some (via, 0x71)
  | .doorposLearn via => some (via, 0x72)
  | .doorposConfirm via => some (via, 0x73)
  | .doorposRead via => some (via, 0x74)
  | .keyLoad via => some (via, 0x75)
  | .nonceGet via => some (via, 0x76)
  | .lifecycleSet via => some (via, 0x77)
  | .actStatus via => some (via, 0x78)
  | .actScan via => some (via, 0x79)
  | _ => none

/-- The payload length that a KEY_LOAD of an assigned kind requires: the key of its kind, and the tag with which a lifecycle key
replaces another (R389, R395). -/
def keyLoadNeeds (s : State) (cmd : Byte) (p : List Byte) : Option Nat :=
  if cmd ≠ 0x75#8 then none
  else if byteAt p 0 = 1 then some 36
  else if byteAt p 0 = 2 then some 20
  else if byteAt p 0 = 3 then some (if s.nv.lifeKey.isSome then 68 else 36)
  else none

/-- `s` with no nonce in force (R395). -/
def unkeyed (s : State) : State := { s with mbx := { s.mbx with nonce := none } }

/-- What the command of `via` owes to the next phase S (R391, R393). -/
def owedTo (m : MbxSt) (via : Via) : List Owed := (m.owed.filter fun o => o.1 == via).map (·.2)

/-- The mailbox with what is owed put in for the next phase S: masked host bits over those already due, channel operations in
order (R391, R393). -/
def paid (m : MbxSt) : List Owed → MbxSt
  | [] => m
  | .chan n op :: r => paid { m with chanOps := m.chanOps ++ [(n, op)] } r
  | .bits v k :: r => match m.hostBitsNext with
    | some (b, d) => paid { m with hostBitsNext := some ((b &&& ~~~k) ||| (v &&& k), d ||| k) } r
    | none => paid { m with hostBitsNext := some ((m.hostBits &&& ~~~k) ||| (v &&& k), m.hostSet ||| k) } r

/-- The entry of `via` is the next command to start: its code is `cmd`, it waits, every entry before it has started, and no
heavy command stands in its way (R380, R381). -/
def nextToStart (s : State) (via : Via) (cmd : Byte) (e : QEntry) : Prop :=
  hearthLive s = true ∧ entryOf s via = some e ∧ e.cmd = cmd ∧ e.st = .waiting ∧
  (∀ x ∈ ahead via s.mbx.queue, x.st ≠ .waiting ∨ (isHeavy x.cmd = true ∧ heavyRunning s = true)) ∧
  (isHeavy cmd = true → heavyRunning s = false)

/-- The command of `via` starts with this payload: it is next, and lifecycle, mode, length and header are right for it. -/
def Starts (s : State) (via : Via) (cmd : Byte) (p : List Byte) : Prop :=
  ∃ e, nextToStart s via cmd e ∧ e.payload = p ∧ e.badField = none ∧ lifeGate s.nv.life cmd = true ∧
    modeGate s.core.mode cmd p = true ∧ (∀ n, keyLoadNeeds s cmd p = some n → p.length = n) ∧ ∃ r, cmdRow cmd = some r ∧ r.lo ≤ p.length ∧ p.length ≤ r.hi

/-- `t` is `s` but for the state of the queue entry of `via`, which is now `st`. -/
def EntryNow (s t : State) (via : Via) (st : QState) : Prop :=
  t = { s with mbx := { s.mbx with queue := t.mbx.queue } } ∧
  entryOf t via = (entryOf s via).map (fun e => { e with st := st }) ∧
  (∀ v, v ≠ via → entryOf t v = entryOf s v) ∧ t.mbx.queue.length = s.mbx.queue.length

/-- The command of `via` has ended with OK and this payload, and `t` is otherwise `s`. -/
def Answers (s t : State) (via : Via) (p : List Byte) : Prop := EntryNow s t via (.replied 0x00#8 p)

/-- The command of `via` has ended with another status and its DETAIL (R375), and `t` is otherwise `s`. -/
def Denies (s t : State) (via : Via) (st : Byte) (detail : Nat) : Prop := EntryNow s t via (.replied st (leBytes 4 detail))

end Sys2Proof.Claims

open Sys2Proof Sys2Proof.Machine Sys2Proof.Claims

/-! ## The queue of commands -/

/-- A step executes the command at the front of the queue on the state with the queue's rest; on an empty queue the block
idles, which is the model's choice (log 1). -/
def Obligations.StepExecutesTheFrontCommand : Prop :=
  (∀ (c : Instr) (rest : List Instr) (s : State), s.pending = c :: rest →
    step s = exec c { s with pending := rest }) ∧
  (∀ s : State, s.pending = [] → step s = .next s)

/-- Every command of the table has an effect and leaves the waiting commands as they are: none is refused, and only CRUMB_WRITE
can stop with a fault, on an open page that the journal does not have; from a state with the invariant no step stops. -/
def Obligations.OnlyCrumbWriteCanStop : Prop :=
  (∀ (c : Instr) (s : State),
    (∃ t, Runs c s t ∧ t.pending = s.pending) ∨
    (c = .crumbWrite ∧ exec c s = .fault .journalAddress ∧ ∃ p, s.nv.openPage = some p ∧ 12288 ≤ p)) ∧
  (∀ s : State, s.inv = true → ∃ t, step s = .next t)

/-- What every step keeps: a crust without logic power, below lockout or in overvoltage lockout holds every leg, KA and KB
off; the journal's and the slots' bytes stay in canonical form; the writer stays within the journal's pages; HOSTWD[7:5] reads
0. -/
def Obligations.StepKeepsInvariant : Prop :=
  ∀ s t : State, s.inv = true → step s = .next t → t.inv = true

/-- The state after reset has the invariant. -/
def Obligations.ResetHasInvariant : Prop :=
  State.reset.inv = true

/-! ## Supplies and resets -/

/-- A core reset from any cause opens every leg, closes the bypass and puts the registers at their reset values; each crust waits
for a new handshake and keeps its inputs, counts, readings and supply conditions; what stands in MRAM, the retirement of the lanes
and the waiting commands stay, and the block of the epoch that it cuts short is kept but for a loss of power. A core that is in reset already takes
no second one. RSTN: a pulse below 1 us is ignored, one of 10 us or more resets the core, and between them the core is left as it
is or reset in full (the free value drawn is the model's own). That a crust keeps what it holds while it waits is the model's choice
(log 6). -/
def Obligations.CoreResetOpensEverything : Prop :=
  (∀ s : State, s.core.inReset = true →
    Runs .internalReset s s ∧ (∀ w, 10000 ≤ w → Runs (.rstnLow w) s s) ∧
    Runs (.vdd33BrownOut false) s { s with core := { s.core with vddGood := false } }) ∧
  (∀ (c : Instr) (s : State) (k : ResetCause), s.core.inReset = false →
    ((c = .vdd33BrownOut true ∧ k = .powerOn) ∨ (c = .vdd33BrownOut false ∧ k = .brownOut) ∨
      (∃ w, 10000 ≤ w ∧ c = .rstnLow w ∧ k = .rstn) ∨ (c = .internalReset ∧ k = .internalCause)) →
    ∃ t, Runs c s t ∧ t.core.cause = k ∧ coreAtReset t ∧ allOpen t ∧ t.nv = s.nv ∧ t.pending = s.pending ∧
      (c ≠ .vdd33BrownOut true → t.stat.lastEpoch = { s.stat.epoch with isPartial := true } ∧
        t.stat.egen = s.stat.egen + 1) ∧
      (∀ x, (t.crust.at x).handshake = false ∧ (t.crust.at x).resync = true ∧ (t.crust.at x).staged = none ∧
        (t.crust.at x).logicPower = ((s.crust.at x).logicPower && decide (c ≠ .vdd33BrownOut true)) ∧
        (t.crust.at x).undervolt = (s.crust.at x).undervolt ∧ (t.crust.at x).lockout = (s.crust.at x).lockout ∧
        (t.crust.at x).overvolt = (s.crust.at x).overvolt ∧ (t.crust.at x).ins = (s.crust.at x).ins ∧
        (t.crust.at x).quads = (s.crust.at x).quads ∧ (t.crust.at x).ana = (s.crust.at x).ana) ∧
      ∀ l, t.lane.at l = { LaneSt.reset with
        retired := (s.lane.at l).retired, powerCycled := (s.lane.at l).powerCycled || decide (c = .vdd33BrownOut true) }) ∧
  ∀ (w : Nat) (s : State), s.core.inReset = false →
    (w < 1000 → Runs (.rstnLow w) s s) ∧
    (1000 ≤ w → w < 10000 → ∃ t, Runs (.rstnLow w) s t ∧
      (t = { s with drawn := s.drawn + 1 } ∨ (coreAtReset t ∧ allOpen t)))

/-- RESET_RELEASE: the start-up to the end of its third step. The boot counter advances by 1 and never wraps, the token is erased
and the results of the boot run stand. A block that fails, a quick boot without its repair record, or a measurement or load that
fails ends in SAFE_HOLD with MSTATE 0x03 and the tick as it was, and so does RETIRED, the hearth having started where M0's image was released; otherwise
the registers of step 3 are extended and the hearth starts, and steps 4 and 5 come with the first TICK: the
tick runs, both crusts shake hands with every leg off, MSTATE is 0x02, and the module goes on to its proving period or to joining
its segment, or to CONFIGURE where the host has asked for it or where no loaf passes the lanes' verification. A core that is not in reset is left as
it is. That steps 1 to 3 are this one command and steps 4 and 5 the first tick's, and that a lockout may stand for a part of step 2,
is the model's choice (log 5); the crusts go on from what they hold (log 6). -/
def Obligations.ResetReleaseStartsUp : Prop :=
  (∀ (env : BootEnv) (s : State), s.core.inReset = false → Runs (.resetRelease env) s s) ∧
  (∀ (env : BootEnv) (s : State) (quick : Bool), s.core.inReset = true → quick = tokenValid (advanceBoot s.nv) →
    ∃ t, Runs (.resetRelease env) s t ∧ t.core.inReset = false ∧ t.core.vddGood = true ∧ t.nv.token = none ∧
      bootCount t.nv = (if bootCount s.nv = 0xFFFFFFFF#32 then 0xFFFFFFFF#32 else bootCount s.nv + 1) ∧
      t.nv.life = s.nv.life ∧ t.pending = s.pending ∧ t.test.source = 1 ∧ t.core.tickOn = s.core.tickOn ∧
      t.test.results = (bootSet quick).map (blockResult s (bootWindow s) env.runs) ∧
      ((∃ b ∈ bootSet quick, blockFails (bootWindow s) env.runs b = true) ∨ (quick = true ∧ repairMap s.nv = none) →
        t.core.mode = .safeHold ∧ t.core.startUp = none ∧ t.meas.mstate = 0x03#8 ∧ t.lane = s.lane ∧
          t.host.hearth = s.host.hearth) ∧
      ((∀ b ∈ bootSet quick, blockFails (bootWindow s) env.runs b = false) → (quick = true → (repairMap s.nv).isSome = true) →
        (∀ k, env.step3Fail = some k → t.core.mode = .safeHold ∧ t.core.startUp = none ∧ t.meas.mstate = 0x03#8 ∧
          (2 ≤ k.val → t.host.hearth = true)) ∧
        (env.step3Fail = none → t.host.hearth = true ∧
          (s.nv.life = .retired → t.core.mode = .safeHold ∧ t.core.startUp = none ∧ t.meas.mstate = 0x03#8) ∧
          (s.nv.life ≠ .retired → t.core.mode = s.core.mode ∧ t.core.startUp = some env ∧ t.meas.mstate = s.meas.mstate ∧
            (s.meas.disabled = false → s.meas.m.length = 8 → ∀ e ∈ step3Values s.nv,
              t.meas.m.getD e.1 [] = sha256 (s.meas.m.getD e.1 [] ++ e.2)))))) ∧
  ∀ (env : BootEnv) (tick : TickEnv) (s : State), s.core.inReset = false → s.core.startUp = some env → s.core.phase = .g →
    s.core.mode = .boot → s.core.modeNext = none → s.core.fatal = [] → s.mbx.switch = none →
    (∀ c, (s.lane.at c).retired = false ∧ (s.lane.at c).cfg = none ∧ env.handshakeFails.at c < 3 ∧
      (s.crust.at c).logicPower = true) →
    ∃ t, Runs (.tick tick) s t ∧ t.core.startUp = none ∧ t.core.tickOn = true ∧ t.meas.mstate = 0x02#8 ∧
      (∀ c, (t.crust.at c).handshake = true ∧ (t.crust.at c).resync = false ∧ legsOff (t.crust.at c) = true) ∧
      ((∀ i, activeImage s.nv = some i → (lanesVerify s.nv env.identityUpset i).isSome = true) →
        activeCfg t = none ∧ t.core.mode = .configure) ∧
      (∀ i, activeImage s.nv = some i → lanesVerify s.nv env.identityUpset i = none →
        (∀ l, (t.lane.at l).cfg = some (loafCfg i l)) ∧
        (configureAsked s env = true → t.core.mode = .configure) ∧
        (configureAsked s env = false → t.core.mode = .boot ∧
          t.core.bootStep = (if (loafCfg i .a).role = 0 then .proving else .join) ∧
          (∀ l, legsOff (t.crust.at l) = true))) ∧
      (configureAsked s env = true → t.host.modeReq = 0 ∧ t.host.reqResult = 1)

/-- What the supplies of a crust do to it: loss and return of logic power (R41, R228), undervoltage, lockout and overvoltage of L+
and their clearing (R49, R60, R263). A lockout or an overvoltage lockout clears: the handshake is renewed and every leg stays
off; while the core is in reset the crust waits for the handshake after its release; a handshake that fails is a permanent
fault of the lane; where the other of the two still stands, only the cleared one goes. Beside the crust only the actuator bus, the
replies to its waiting scans and the lockouts that a test run has seen change. That an undervoltage report alone opens no leg is
the model's choice where both crusts report it (log 65); that conditions which overlap are one event, that a lockout keeps the handshake until it clears, and
that the undervoltage report stays while a lockout stands, are too (log 9). -/
def Obligations.CrustSuppliesActOnTheirCrust : Prop :=
  (∀ (c : Side) (s : State),
    (∃ t y, Runs (.crustLogicPowerLoss c) s t ∧ BusFollows s t (onCrust s c y) ∧ y.logicPower = false ∧ y.handshake = false ∧
      legsOff y = true ∧ sourcesOff y = true ∧ y.staged = none ∧ y.ins = (s.crust.at c).ins ∧
      y.ana = (s.crust.at c).ana) ∧
    ((s.crust.at c).logicPower = false → s.core.vddGood = true →
      ∃ t y, Runs (.crustLogicPowerReturn c) s t ∧ BusFollows s t (onCrust s c y) ∧ y.logicPower = true ∧ y.handshake = false ∧
        y.resync = true ∧ legsOff y = true ∧ sourcesOff y = true ∧ y.drives = [] ∧ y.ana = [] ∧ y.quads = [] ∧
        ∀ n, (inOf y n).raw = (inOf (s.crust.at c) n).raw ∧ (inOf y n).count = 0 ∧ (inOf y n).stamps = []) ∧
    ((s.crust.at c).logicPower = true ∨ s.core.vddGood = false → Runs (.crustLogicPowerReturn c) s s) ∧
    (∃ y, Runs (.lPlusUndervoltage c) s (onCrust s c y) ∧ y = { s.crust.at c with
        undervolt := true, uvSince := true, supplyEvent := eventMark s (s.crust.at c), ins := y.ins, srcs := y.srcs } ∧
      ∀ n, (inOf y n).deb = (inOf (s.crust.at c) n).deb ∧ (inOf y n).raw = (inOf (s.crust.at c) n).raw) ∧
    ((s.crust.at c).lockout = false →
      Runs (.lPlusUndervoltageCleared c) s (onCrust s c { s.crust.at c with undervolt := false })) ∧
    ((s.crust.at c).lockout = true → Runs (.lPlusUndervoltageCleared c) s s) ∧
    (∃ t y, Runs (.lPlusLockout c) s t ∧ BusFollows s t (onCrust (noteLockout s c true) c y) ∧ y.lockout = true ∧ legsOff y = true ∧
      sourcesOff y = true ∧ y.supplyEvent = eventMark s (s.crust.at c) ∧ y.undervolt = (s.crust.at c).undervolt ∧
      y.handshake = (s.crust.at c).handshake ∧ y.ana = (s.crust.at c).ana ∧
      ∀ n, (inOf y n).deb = (inOf (s.crust.at c) n).deb ∧ (inOf y n).raw = (inOf (s.crust.at c) n).raw) ∧
    (∃ y, Runs (.overvoltageLockout c) s (onCrust s c y) ∧ y.overvolt = true ∧ legsOff y = true ∧
      y.srcs = (s.crust.at c).srcs ∧ y.supplyEvent = eventMark s (s.crust.at c) ∧
      y.handshake = (s.crust.at c).handshake ∧ y.ins = (s.crust.at c).ins)) ∧
  (∀ (c : Side) (s u : State) (cmd : Bool → Instr) (x0 : CrustSt) (bus stands : Bool),
    (cmd = .lPlusLockoutCleared c ∧ (s.crust.at c).lockout = true ∧ stands = (s.crust.at c).overvolt ∧
        x0 = { s.crust.at c with lockout := false } ∧ bus = true ∧ u = noteLockout s c false) ∨
      (cmd = .overvoltageCleared c ∧ (s.crust.at c).overvolt = true ∧ stands = (s.crust.at c).lockout ∧
        x0 = { s.crust.at c with overvolt := false } ∧ bus = false ∧ u = s) →
    (s.core.inReset = true ∨ stands = true ∨ (s.crust.at c).logicPower = false ∨ (s.crust.at c).handshake = false →
      ∀ ok, ∃ t, Runs (cmd ok) s t ∧ Cleared bus s t (onCrust u c x0)) ∧
    (s.core.inReset = false → stands = false → (s.crust.at c).logicPower = true → (s.crust.at c).handshake = true →
      (∃ t y, Runs (cmd true) s t ∧ Cleared bus s t (onCrust u c y) ∧ y.handshake = true ∧ y.silent = false ∧
        legsOff y = true ∧ y.lockout = false ∧ y.overvolt = false ∧ y.undervolt = (s.crust.at c).undervolt) ∧
      ∃ t, Runs (cmd false) s t ∧
        Cleared bus s t { onCrust u c { x0 with handshake := false } with lane := s.lane.map fun x => { x with
          reps := x.reps ++ [{ chan := chanLane c, code := 0x49#8, permanent := true }] } })) ∧
  (∀ (c : Side) (ok : Bool) (s : State),
    ((s.crust.at c).lockout = false → Runs (.lPlusLockoutCleared c ok) s s) ∧
    ((s.crust.at c).overvolt = false → Runs (.overvoltageCleared c ok) s s))

/-! ## The frame -/

/-- TICK at the end of phase G: FRAME_NO advances by 1, the counts of the frame that ends are latched, the mode that is due takes
force, and each crust commits the set staged for it, or holds its legs where none was staged. Anywhere else a tick changes nothing,
but for the first one, with which steps 4 and 5 of the start-up come (log 5). -/
def Obligations.TickBeginsTheNextFrame : Prop :=
  (∀ (env : TickEnv) (s : State), s.core.startUp = none ∨ s.core.inReset = true →
    s.core.tickOn = false ∨ s.core.phase ≠ .g → Runs (.tick env) s s) ∧
  ∀ (env : TickEnv) (s : State), s.core.startUp = none → s.core.tickOn = true → s.core.phase = .g →
    ∃ t, Runs (.tick env) s t ∧ SameStore s t ∧ t.core.frameNo = s.core.frameNo + 1 ∧ t.core.off = 0 ∧ t.core.phase = .s ∧
      t.core.tickOn = true ∧ t.core.modeNext = none ∧
      t.core.mode = (match nextMode s with
        | some e => e.1
        | none => s.core.mode) ∧
      t.stat.frame = s.core.frameNo ∧ t.stat.gen = s.stat.gen + 1 ∧ t.stat.latched = s.stat.live ∧
      (s.mbx.switch = none → ∀ c, (s.lane.at c).retired = false → (s.crust.at c).logicPower = true →
        ((s.crust.at c).staged = none → ∀ n, (legOf (t.crust.at c) n).cmd = (legOf (s.crust.at c) n).cmd) ∧
        (∀ set, (s.crust.at c).staged = some set → (t.crust.at c).staged = none ∧ ∀ n, n < 17 →
          (legOf (t.crust.at c) n).cmd =
            (if (s.crust.at c).handshake && !(s.crust.at c).lockout && !(s.crust.at c).overvolt && !(s.crust.at c).silent
             then tabGet false set n && !(legOf (s.crust.at c) n).holdNext
             else (legOf (s.crust.at c) n).cmd)))

/-- What else a tick does: each crust's snapshot shows its debounced levels, its counts, frequencies, positions and readings; MODE_REQ is sampled where the hearth runs and the mode takes requests, in BOOT a request for SHUTDOWN
alone; a loaf on which the lanes have agreed takes force in both of them, its slot becomes ACTIVE and the one before VALID, the crusts
shake hands anew with every leg off, isolations end and its command is answered with the loaf's ID; and SAFEN is high exactly where
the mode is OPERATE or MAINTAIN, both lanes serve, no crust is locked out and each lane has a safety pair that is neither retired nor held.
That the switch drops a waiting vector is the model's choice (log 111). -/
def Obligations.TickSamplesAndSwitches : Prop :=
  ∀ (env : TickEnv) (s : State), s.core.startUp = none → s.core.tickOn = true → s.core.phase = .g →
    ∃ t, Runs (.tick env) s t ∧
      t.host.sampled = (if hearthLive s = true ∧ s.host.modeReq ≠ 0 ∧ (t.core.mode ≠ .boot ∨ s.host.modeReq = 0x07#8)
        then some s.host.modeReq else none) ∧
      t.host.rewritten = false ∧ t.host.modeReq = s.host.modeReq ∧
      (∀ c x m now, x = s.crust.at c → m = crustMap s c → now = { frame := s.core.frameNo + 1, off := 0 : Stamp } →
        x.logicPower = true → (∀ n, (inOf x n).pend = none) →
        (∀ n, n < 24 → ∀ e z, inputEntry m (chanIn c n) = some e → z = tabGet SnapIn.none (t.crust.at c).snap.ins n →
          z.level = (isLevelMode (inputMode e) && (inOf x n).deb) ∧ z.stamps = (inOf x n).stamps ∧
          z.overflow = (inOf x n).overflow ∧
          z.value = (if inputMode e = 4#8 then (inOf x n).count.toInt
            else if inputMode e = 5#8 then (frequencyAt s (inOf x n) now : Int) else 0)) ∧
        (∀ p, p < 2 → (quadEntry m (sideBase c + p)).isSome = true → (inputEntry m (chanIn c (2 * p))).isSome = true →
          (inputEntry m (chanIn c (2 * p + 1))).isSome = true → ∀ z, z = tabGet SnapVal.none (t.crust.at c).snap.quads p →
          z.value = (quadOf x p).count.toInt ∧ z.closing = (quadOf x p).closing) ∧
        (∀ k, k < 4 → (analogEntry m c k).isSome = true → ∀ z, z = tabGet SnapVal.none (t.crust.at c).snap.ana k →
          z.value = ((anaOf x k).mv : Int) ∧ z.fresh = (anaOf x k).fresh ∧ z.seq = (anaOf x k).seq ∧
          z.t = decide (x.sinceReference ≤ 15) ∧
          z.q = (!analogBeyond m c k (anaOf x k).mv && !(anaOf x k).stalled && !(anaOf x k).bad))) ∧
      (∀ w, s.mbx.switch = some w → w.agreed = true →
        t.mbx.switch = none ∧ (∀ l, (t.lane.at l).cfg = some (match l with
          | .a => w.cfgA
          | .b => w.cfgB)) ∧
        activeSlot t.nv = some w.slot ∧ (t.nv.slots.at w.slot).state = .active ∧
        (∀ k, activeSlot s.nv = some k → k ≠ w.slot → (t.nv.slots.at k).state = .valid) ∧
        (∀ k, (t.nv.slots.at k).image = (s.nv.slots.at k).image) ∧
        (∀ c, laneLive s c = true → (s.crust.at c).logicPower = true →
          (t.crust.at c).handshake = true ∧ legsOff (t.crust.at c) = true) ∧
        (∀ l n, (chanRec t l n).iso = none) ∧ t.mbx.chanOps = [] ∧ t.mbx.delivered = none ∧ t.ind.vector = none ∧
        ∀ via, w.via = some via → via ∉ s.act.scanVia → ∀ e, entryOf t via = some e →
          e.st = .replied 0x00#8 (padTo 8 w.cfgA.loafId)) ∧
      (t.core.safen = true ↔ ((t.core.mode = .operate ∨ t.core.mode = .maintain) ∧ bothInService t = true ∧
        (∀ c, (t.crust.at c).lockout = false ∧ (t.crust.at c).overvolt = false) ∧
        ∀ l, pairShortHeld (t.lane.at l) = false ∧ ∃ cfg, (t.lane.at l).cfg = some cfg ∧
          ∃ p ∈ drivenPairs cfg.params, p < 16 ∧ pairRetired cfg.params (t.lane.at l) p = false ∧
            heldByShort (pairRecOf (t.lane.at l) p) = false))

/-- PHASE_S: the hearth's host bits, MAINT_HOLD mask and channel commands reach the lanes, CHAN_ISOLATE, CHAN_RESTORE and CHAN_FORCE
taking effect; an activation goes on where the lanes have exchanged agreeing loaf IDs and check words, and ends with LOAF_IDENTITY where they
differ; and each lane that runs forms its input beads and the values of counters, frequencies, quadrature pairs and analog inputs:
as a valid snapshot shows them, replaced at a parity error, aged without one, and then as retirement, isolation or a force has them. What
BLANK and a pull-in have left at the tick has ended by then. It runs once in a frame, from the tick to the end of phase S. That a bead
without a snapshot ages from the one applied before, that a force shows over an input without a level, and that blanking and pull-ins
end here at the latest are the model's choices (logs 78, 79, 125). -/
def Obligations.PhaseSFormsInputBeads : Prop :=
  (∀ (env : PhaseSEnv) (s : State), s.core.tickOn = false ∨ s.core.phase ≠ .s → Runs (.phaseS env) s s) ∧
  ∀ (env : PhaseSEnv) (s : State), s.core.tickOn = true → s.core.phase = .s →
    ∃ t, Runs (.phaseS env) s t ∧ SameStore s t ∧ SameClock s t ∧ t.core.phase = .x ∧
      t.core.off = BitVec.ofNat 20 (endS s.core.tfCode) ∧
      (∀ c, t.crust.at c = { s.crust.at c with
          supplyEvent := (t.crust.at c).supplyEvent, lostOut := (t.crust.at c).lostOut, legs := (t.crust.at c).legs
          drives := (t.crust.at c).drives } ∧
        (∀ n, (legOf (t.crust.at c) n).cmd = (legOf (s.crust.at c) n).cmd) ∧
        (∀ n, n < 17 → crustWorks s c = true → (legOf (s.crust.at c) n).blanking = true → (legOf (s.crust.at c) n).blankLeft = 0 →
          (legOf (t.crust.at c) n).blanking = false ∧
          ((legOf (s.crust.at c) n).thermal = true → (legOf (t.crust.at c) n).tripped = true)) ∧
        ((∀ n, n < 17 → (legOf (s.crust.at c) n).blanking = false ∨ (legOf (s.crust.at c) n).blankLeft ≠ 0) →
          (t.crust.at c).legs = (s.crust.at c).legs)) ∧
      t.crust.b.drives = s.crust.b.drives ∧
      (∀ p, p < 16 → (driveOf t.crust.a p).stage =
        (if crustWorks s .a = true ∧ (driveOf s.crust.a p).stage = 1 ∧ (driveOf s.crust.a p).ticksLeft = 0 then 2
          else (driveOf s.crust.a p).stage)) ∧
      (hearthLive s = true → t.mbx.chanOps = [] ∧ t.mbx.hostBitsNext = none ∧
        (t.mbx.hostBits, t.mbx.hostSet) = s.mbx.hostBitsNext.getD (s.mbx.hostBits, s.mbx.hostSet) ∧
        t.mbx.delivered = some (hostWord s t.mbx.hostBits t.mbx.hostSet) ∧
        t.mbx.holdMask = tabGet 0 s.mbx.holds s.core.frameNo.toNat ∧
        (∀ n op, s.mbx.chanOps = [(n, op)] → ∀ l,
          (chanRec t l n).iso = (match op with
            | .isolate v => some v
            | .restore => none
            | .force _ => (chanRec s l n).iso) ∧
          (chanRec t l n).force = (match op with
            | .isolate _ => (chanRec s l n).force
            | .restore => (chanRec s l n).force
            | .force v => v) ∧
          ∀ k, k ≠ n → (chanRec t l k).iso = (chanRec s l k).iso ∧ (chanRec t l k).force = (chanRec s l k).force)) ∧
      (∀ w, s.mbx.switch = some w →
        (env.crossOk = false → t.mbx.switch = some w) ∧
        (env.crossOk = true → identityAgrees env.identityUpset w.cfgA w.cfgB = true →
          t.mbx.switch = some { w with agreed := true }) ∧
        (env.crossOk = true → identityAgrees env.identityUpset w.cfgA w.cfgB = false → t.mbx.switch = none ∧
          ∀ via, w.via = some via → ∀ e, entryOf t via = some e → e.st = .replied 0x2A#8 (leBytes 4 0))) ∧
      (s.test.hold = true → t.lane = (afterOps s).lane) ∧
      (s.test.hold = false → ∀ l c cfg x fresh, laneRuns s l = true → (s.lane.at l).cfg = some cfg → x = (afterOps s).lane.at l →
        fresh = (snapValid env s c && laneLive s c && (l == c || (env.crossOk && !(s.lane.at c).stopped))) →
        (∀ n, n < 24 → tabGet paritySub (t.lane.at l).inBeads (chanIn c n) =
          appliedBead ((s.lane.at c).retired || chanOut (chanOf x (chanIn c n))) (chanOf x (chanIn c n)).iso (chanOf x (chanIn c n)).force
            (if isLevelMode (modeOfInput cfg.iomap (chanIn c n)) = false then 0x08#8
             else if fresh = true ∧ ∃ h ∈ env.parity, h.chan.crust = c ∧ h.chan.num.val = n ∧ (h.cross = false ∨ l ≠ c) then 0xB0#8
             else if fresh then snapBead x cfg.iomap c (s.crust.at c).snap n
             else aged (tabGet paritySub (s.lane.at l).inBeads (chanIn c n)))) ∧
        ∀ e ∈ shownVals cfg.iomap c (s.crust.at c).snap, ∀ v old,
          v = tabGet Val.none (t.lane.at l).vals e.1 → old = tabGet Val.none (s.lane.at l).vals e.1 →
          (fresh = true → v.value = e.2.1.1 ∧ v.t = e.2.1.2.2 ∧ v.age = 0 ∧
            v.q = (e.2.1.2.1 && e.2.2.1.all (fun k => !chanOut (chanOf x k) && (chanOf x k).iso.isNone) &&
              e.2.2.2.all fun n => !sourceOut x cfg.iomap c n)) ∧
          (fresh = false → v.value = old.value ∧ v.t = old.t ∧ v.age = min (old.age + 1) 3 ∧ (v.q = true → old.q = true)) ∧
          v.f = ((s.lane.at c).retired || e.2.2.1.any fun k => chanOut (chanOf x k)))

/-- WINDOW_X: it opens once after phase S; each lane's SEQ of an export it may release advances by 1 and that of one it may not
stays, with no older copy of it left to be sent (the model's choice, log 104), and a lane that was late may send again. At its end no proof
message of the module's own or passing through waits to be sent, and each lane of a manager gives its verdict: the chain is rejected where the
topology does not cover every member once, or a branch has not exactly one message of this frame, segment and branch with the COUNT and CRC
expected; it is accepted where the messages of all branches are sound, and well-formed but false where one is not. That a tail of 0xFF at
P0 is no branch is the model's choice (logs 42, 71). The lanes of a module that is no manager are left as they are. CONN_TIMEOUT at
the end of the window: an import without a delivery for TIMEOUT frames shows the timeout bead in both lanes, its reference and ECHO
are gone, and the timeout is counted; one that is not overdue stays as it is. -/
def Obligations.WindowXOpensAndEnds : Prop :=
  (∀ s : State,
    (s.core.tickOn = false ∨ s.core.phase ≠ .x ∨ s.core.xOpen = true → Runs .windowXOpen s s) ∧
    (s.core.tickOn = false ∨ s.core.phase ≠ .x ∨ s.core.xOpen = false → Runs .windowXEnd s s)) ∧
  (∀ s : State, s.core.tickOn = true → s.core.phase = .x →
    (s.core.xOpen = false → ∃ t, Runs .windowXOpen s t ∧ SameStore s t ∧ SameClock s t ∧ t.core.phase = .x ∧
      t.core.xOpen = true ∧ t.core.off = BitVec.ofNat 20 (endS s.core.tfCode) ∧ t.crust = s.crust ∧
      (∀ l, (t.lane.at l).noSafe = false ∧ (t.lane.at l).retired = (s.lane.at l).retired ∧
        (t.lane.at l).chans = (s.lane.at l).chans ∧ (t.lane.at l).blk = (s.lane.at l).blk) ∧
      (∀ cfg, activeCfg s = some cfg → ((exports cfg).map fun k => k.connId).Nodup → ∀ k ∈ exports cfg, ∀ l,
        (connRecOf (t.lane.at l) k.connId).seq =
          (connRecOf (s.lane.at l) k.connId).seq + (if releases s l k then 1 else 0) ∧
        (connRecOf (t.lane.at l) k.connId).since =
          (if releases s l k then 0 else min ((connRecOf (s.lane.at l) k.connId).since + 1) 0xFF)) ∧
      (∀ cfg, activeCfg s = some cfg → ((exports cfg).map fun k => k.connId).Nodup → ∀ k ∈ exports cfg, ∀ l,
        releases s l k = false →
          (k.canFd = false → ∀ p, ∀ f ∈ (portOf t p).own, sameCopy k l f = false) ∧
          (k.canFd = true → ∀ x ∈ t.can.txq, x.safe = some (k.connId, l) → x.won = true)) ∧
      (isManager s = false ∨ tailOf s = none → ∀ l, (t.lane.at l).proofs = (s.lane.at l).proofs)) ∧
    (s.core.xOpen = true → ∃ t, Runs .windowXEnd s t ∧ SameStore s t ∧ SameClock s t ∧ t.core.phase = .e ∧
      t.core.off = BitVec.ofNat 20 (endX s.core.tfCode) ∧ t.crust = s.crust ∧
      (∀ p f, f ∈ (portOf t p).own ∨ f ∈ (portOf t p).cut → isProof f.cls = false) ∧
      (isManager s = false → t.lane = s.lane) ∧
      ∀ l, t.lane.at l = { s.lane.at l with verdict := (t.lane.at l).verdict } ∧
        ∀ plan sigs bs, planOf s = some plan → isManager s = true → laneLive s l = true →
          sigs = plan.members.map (fun e => e.sig) → bs = branches s.fab.topo sigs →
          (coverage s.fab.topo sigs.length = false → (t.lane.at l).verdict = .rejected) ∧
          (∀ b ∈ bs, (∀ m, branchMsgs (s.lane.at l) b.1 ≠ [m]) → (t.lane.at l).verdict = .rejected) ∧
          (∀ b ∈ bs, ∀ m, branchMsgs (s.lane.at l) b.1 = [m] →
            m.frame ≠ s.core.frameNo ∨ m.seg ≠ plan.seg ∨ m.origin ≠ b.2.1 ∨ m.count.toNat ≠ min b.2.2.length 255 ∨
              m.crc ≠ chainCrc l b.2.2 → (t.lane.at l).verdict = .rejected) ∧
          (coverage s.fab.topo sigs.length = true →
            (∀ b ∈ bs, ∃ m, branchMsgs (s.lane.at l) b.1 = [m] ∧ msgFits s plan.seg l b m = true) →
            ((∀ b ∈ bs, ∀ m ∈ branchMsgs (s.lane.at l) b.1, m.value = sound1) → (t.lane.at l).verdict = .accepted) ∧
            ((∃ b ∈ bs, ∃ m ∈ branchMsgs (s.lane.at l) b.1, m.value ≠ sound1) →
              (t.lane.at l).verdict = .wellFormedFalse)))) ∧
  (∀ (conn : W16) (s : State),
    (s.core.tickOn = false ∨ s.core.phase ≠ .e → Runs (.connTimeout conn) s s) ∧
    ∀ (cfg : LoafCfg) (k : Conn), activeCfg s = some cfg → (imports cfg).find? (fun k => k.connId == conn) = some k →
      (timeoutDue s cfg k = false → Runs (.connTimeout conn) s s) ∧
      ((importOf (reportingLane s) cfg conn).timedOut = false →
        k.timeout ≤ (importOf (reportingLane s) cfg conn).since + 1 → deliverable s conn = none →
        s.core.tickOn = true → s.core.phase = .e →
        ∃ t, Runs (.connTimeout conn) s t ∧ SameStore s t ∧ SameClock s t ∧ t.crust = s.crust ∧
          t.stat.epoch.timeouts = satInc s.stat.epoch.timeouts ∧
          (∀ l, (connRecOf (t.lane.at l) conn).echo = none ∧
            (connRecOf (t.lane.at l) conn).timeouts = min ((connRecOf (s.lane.at l) conn).timeouts + 1) 0xFFFF) ∧
          (∀ p f, f ∈ (portOf t p).own → ¬ (f.cls = clsSafe ∧ u16At f.payload 0 = conn)) ∧
          ∀ l i, i ∈ importInsts cfg conn →
            (tabGet BlkSt.init (t.lane.at l).blk i).imp.timedOut = true ∧
            (tabGet BlkSt.init (t.lane.at l).blk i).imp.refValid = false ∧
            (tabGet BlkSt.init (t.lane.at l).blk i).imp.beads = List.replicate k.beads 0x38#8))

/-- PHASE_E: the evaluation times are counted; in a lane whose clock runs a form of one gate gives its output bead the gate's value and
a form of one logic rod the rod's, over inputs checked for parity (the blocks: BlocksKeepTheirState); and the tally update is applied to every channel in service with the
reports of its lane, while the reports of a retired channel wait (the model's choice, log 94). In test hold nothing is evaluated or tallied. It
runs once in a frame, from the end of window X to the end of phase E. -/
def Obligations.PhaseEEvaluatesAndTallies : Prop :=
  (∀ (env : PhaseEEnv) (s : State), s.core.tickOn = false ∨ s.core.phase ≠ .e → Runs (.phaseE env) s s) ∧
  ∀ (env : PhaseEEnv) (s : State), s.core.tickOn = true → s.core.phase = .e →
    ∃ t, Runs (.phaseE env) s t ∧ SameStore s t ∧ SameClock s t ∧ t.core.phase = .c ∧
      t.core.off = BitVec.ofNat 20 (endE s.core.tfCode) ∧ t.crust = s.crust ∧
      (s.test.hold = true → t.stat.live = s.stat.live ∧ ∀ l, (t.lane.at l).chans = (s.lane.at l).chans) ∧
      (s.test.hold = false →
        t.stat.live.evalA = env.evalTime.a ∧ t.stat.live.evalB = env.evalTime.b ∧
        (∀ l cfg e ins out v, laneRuns s l = true → (s.lane.at l).cfg = some cfg → env.parity.at l = [] →
          cfg.form.inputs = [] → cfg.form.elems = [e] → v = ins.map (fun i => parityChecked (beadOf (s.lane.at l) i)) →
          (∀ op, e = .gate op ins out → beadOf (t.lane.at l) out = gateBead op v) ∧
          ∀ table, e = .rod table ins out → beadOf (t.lane.at l) out = rodBead table v) ∧
        ((∀ cfg, activeCfg s = some cfg → cfg.seeds = []) →
          (∀ l, env.parity.at l = [] ∧ env.stateParity.at l = [] ∧ env.eccDouble.at l = false ∧ (s.lane.at l).hostBad = []) →
          ∀ l cfg n, laneLive s l = true → (s.lane.at l).cfg = some cfg → n ∈ allChans →
            tallied s.lane.a.retired s.lane.b.retired n = true →
            (t.lane.at l).reps = ((s.lane.at l).reps.filter fun r => (chanRec s l (countedChan cfg.params r.chan)).retired) ∧
            chanRec t l n = (tallyChan (tallyTD cfg.iomap n) n
              (((s.lane.at l).reps.map fun r => { r with chan := countedChan cfg.params r.chan }).filter fun r => r.chan == n)
              (chanRec s l n)).1))

/-- The function blocks in PHASE_E: what each block of a lane's form makes of its state (LaneSt.blk), and the beads and values it
gives, for a form of that one block read without a parity error: the timers TON, TOF and TP, RSLATCH, EDGE, RELEASE and COUNT; the two-channel inputs
DUALCH, ESTOP, OSSD, GUARD and MANREL with their discrepancy and restart latch, and MODESEL; CLOSEDLOCKED, OBSTACLE, ZEROSPEED, DOORPOS
and CMP; the outputs QPAIR, LOCKDRV and RAILCUT with their feedback; HOSTBIT, DIAG and PROOFHEAD; PROOF and EXPORT keep no state. In the first frame
after test hold the latch of the maintenance permit's block stands at 0x8F. In every form an IMPORT takes the copy that both lanes accepted, or ages, and shows its beads. The corners
of DOORPOS, OBSTACLE and the feedback timing are the model's choices (logs 66, 67, 68), and so is the end of OBSTACLE's count (log 116) and COUNT frozen over
RESET (log 115). -/
def Obligations.BlocksKeepTheirState : Prop :=
  (∀ (env : PhaseEEnv) (s : State) (l : Side) (cfg : LoafCfg) (r : ParamRec) (inst : Nat) (ins : List (Option Nat)) (os : List Nat)
      (srcs : List ValSrc),
    s.core.tickOn = true → s.core.phase = .e → s.test.hold = false → laneRuns s l = true → (s.lane.at l).cfg = some cfg →
    cfg.form.inputs = [] → cfg.form.elems = [.block inst ins (os.map some) srcs] → cfg.params[inst]? = some r → os.Nodup →
    env.parity.at l = [] → env.stateParity.at l = [] → (∀ c, activeCfg s = some c → c.seeds = []) →
    ∃ t, Runs (.phaseE env) s t ∧
      ∀ (old b n : BlkSt) (hold : Bool) (xs : List (Option Byte)) (x : Nat → Byte) (vs : List (ValSrc × Val)) (y : Nat → Byte → Prop)
        (pos : Val),
        old = tabGet BlkSt.init (s.lane.at l).blk inst →
        (parityOk old.latch && parityOk old.edge0 && parityOk old.edge1 && parityOk old.edge2 && parityOk old.edge3) = true →
        b = (if s.test.justEnded = true ∧ ∃ i ∈ os, cfg.form.permit = some i then { old with latch := sound1 } else old) →
        n = tabGet BlkSt.init (t.lane.at l).blk inst → hold = (s.core.mode == .boot || (s.lane.at l).enteredOperate) →
        xs = ins.map (fun o => o.map fun i => parityChecked (beadOf (s.lane.at l) i)) → x = (fun k => (xs.getD k none).getD host0) →
        vs = srcs.map (fun w => (w, match w with
          | .pos i => tabGet Val.none (s.lane.at l).blockVals i
          | .cv i => tabGet Val.none (s.lane.at l).blockVals i
          | w => tabGet Val.none (s.lane.at l).vals (valKey w))) →
        y = (fun k v => k < os.length → beadOf (t.lane.at l) (os.getD k 0) = v) →
        pos = tabGet Val.none (t.lane.at l).blockVals inst →
        TimingRules r b n xs x y pos ∧ InputRules hold r b n x y ∧ DoorRules (s.lane.at l).offsets r b n xs x vs y pos ∧
        (∀ p, pairOf r = some p → OutputRules hold (pairRecOf (s.lane.at l) p) r b n x y) ∧
        (r.ty = tyHOSTBIT → y 0 (match s.mbx.delivered with
          | some w => if (s.lane.at l).hostBad.contains (parN r 0) then paritySub else if w.getLsbD (parN r 0) then host1 else host0
          | none => b.latch)) ∧
        (r.ty = tyDIAG → ∀ k, k < 8 → y k (soundBead ((diagCodes s (s.lane.at l)).contains (parN r k)))) ∧
        (r.ty = tyPROOFHEAD → y 0 (segBead s) ∧ n.code = if segBead s = sound1 then 1#8 else 0#8) ∧
        (r.ty = tyPROOF ∨ r.ty = tyEXPORT → n = b) ∧ (r.ty = tyIMPORT → ∀ k v, b.imp.beads[k]? = some v → y k v)) ∧
  ∀ (env : PhaseEEnv) (s : State), s.core.tickOn = true → s.core.phase = .e →
    ∃ t, Runs (.phaseE env) s t ∧ ∀ cfg, activeCfg s = some cfg → ((imports cfg).map fun k => k.connId).Nodup →
      ∀ k ∈ imports cfg, ∀ i ∈ importInsts cfg k.connId, ∀ l (old : ImportSt), old = (tabGet BlkSt.init (s.lane.at l).blk i).imp →
        (tabGet BlkSt.init (t.lane.at l).blk i).imp =
          (match (if s.test.hold then none else deliverable s k.connId) with
            | some a => { ref := a.seq, since := 0, refValid := true, timedOut := false
                          beads := a.beads.map fun b => if parityOk b then setAge b 0 else paritySub }
            | none => { old with since := min (old.since + 1) 0xFF
                                 beads := if old.timedOut then List.replicate k.beads 0x38#8 else old.beads.map aged })

/-- PHASE_C: each live lane's output set is staged at its crust where it arrives; a crust without power, a barrier FIFO that waits for its
RESYNC or a lane whose clock has stopped gets none; in a late frame every safety pair is staged off and the late lane sends nothing; where
both lanes deliver and agree, each pair and RAILCUT is staged as its lane decides; where they differ on one pair alone, that pair goes
off, and where they differ otherwise every pair and RAILCUT goes off, the contribution is 0x08 and no SAFE copy leaves in the next frame.
In every mode but OPERATE and MAINTAIN, with neither of them due, phase C stages every safety pair and RAILCUT off. It runs once
in a frame, from the end of phase E to the end of phase C. That the digest of a pair on which the lanes differ is compared as staged off is the
model's choice (log 17). -/
def Obligations.PhaseCStagesTheOutputs : Prop :=
  (∀ (env : PhaseCEnv) (s : State), s.core.tickOn = false ∨ s.core.phase ≠ .c → Runs (.phaseC env) s s) ∧
  (∀ (env : PhaseCEnv) (s : State), s.core.tickOn = true → s.core.phase = .c → s.test.hold = false →
    ∃ t, Runs (.phaseC env) s t ∧ SameStore s t ∧ SameClock s t ∧ t.core.phase = .h ∧
      t.core.off = BitVec.ofNat 20 (endC s.core.tfCode) ∧
      (∀ c, t.crust.at c = { s.crust.at c with staged := (t.crust.at c).staged, sinceFrame := (t.crust.at c).sinceFrame }) ∧
      (∀ c, (t.lane.at c).retired = true → (t.crust.at c).staged = none) ∧
      (∀ c, (t.lane.at c).retired = false → frameLost env s c = false → (t.crust.at c).staged.isSome = true) ∧
      (∀ c, (t.lane.at c).retired = false → (env.delivered.at c = false ∨ (s.crust.at c).logicPower = false ∨
          (s.crust.at c).resync = true ∨ (s.lane.at c).stopped = true) →
        (t.crust.at c).staged = (s.crust.at c).staged) ∧
      (anyLate env s = true → t.stat.live.lateA = isLate env s .a ∧ t.stat.live.lateB = isLate env s .b ∧
        ∀ l, laneLive t l = true →
          (∀ p, p < 16 → (pairRecOf (t.lane.at l) p).staged = false) ∧
          (isLate env s l = true → (t.lane.at l).noSafe = true ∧ (t.lane.at l).contrib = 0x08#8)) ∧
      (anyLate env s = false → s.core.outcomes = [] → s.host.sampled = none → permitLost s = false →
        identityBroken env s = false → bothInService s = true → s.test.learned = false →
        (s.core.mode ≠ .boot ∧ s.core.mode ≠ .maintain ∨ ∀ c, frameLost env s c = false) →
        ∀ v decided, v = compareOuts env s (laneOut s false s.lane.a) (laneOut s false s.lane.b) →
        decided = (fun (l : Side) (p : Nat) =>
          (((laneOut s false (s.lane.at l)).ds.find? fun d => d.view.pair == p).map fun d => d.on).getD false) →
        (v = .agree → ∀ l p, p < 17 → (pairRecOf (t.lane.at l) p).staged = decided l p) ∧
        (∀ q, v = .onePair q → s.core.mode ≠ .boot → s.core.mode ≠ .maintain → ∀ l p, p < 17 →
          (pairRecOf (t.lane.at l) p).staged = (p != q && decided l p)) ∧
        (v = .all → ∀ l, (t.lane.at l).contrib = 0x08#8 ∧ (t.lane.at l).noSafe = true ∧
          ∀ p, p < 17 → (pairRecOf (t.lane.at l) p).staged = false))) ∧
  (∀ (env : PhaseCEnv) (s : State), s.core.tickOn = true → s.core.phase = .c → s.test.hold = false →
    s.core.mode ≠ .operate → s.core.mode ≠ .maintain →
    (∀ w, s.core.modeNext ≠ some (.operate, w)) → (∀ w, s.core.modeNext ≠ some (.maintain, w)) →
    ∃ t, Runs (.phaseC env) s t ∧ ∀ l p, laneLive t l = true → p < 17 → (pairRecOf (t.lane.at l) p).staged = false)

/-- A mode request is decided in phase C: the mode it leads to is due at the next tick and REQ_RESULT tells acceptance or
refusal, MODE_REQ going back to 0 unless it was written again; in test hold it is refused; a fault that takes the module
leaves it in MODE_REQ. PROVING_PERIOD_END: where the proving period is served without a disturbance, OPERATE is due at the next
tick; otherwise nothing happens. -/
def Obligations.PhaseCDecidesTheMode : Prop :=
  (∀ (env : PhaseCEnv) (s : State) (v : Byte), s.core.tickOn = true → s.core.phase = .c →
    s.host.sampled = some v → s.host.rewritten = false →
    s.core.outcomes = [] → identityBroken env s = false →
    ∃ t, Runs (.phaseC env) s t ∧
      (faultComing s = true → t.host.modeReq = s.host.modeReq ∧ t.host.sampled = none) ∧
      (faultComing s = false → s.test.hold = true → t.core.modeNext = s.core.modeNext ∧ t.host.modeReq = 0 ∧
        t.host.reqResult = 2 ∧ t.host.sampled = none) ∧
      (faultComing s = false → s.test.hold = false → anyLate env s = false → permitLost s = false →
        t.host.modeReq = 0 ∧ t.host.sampled = none ∧
        (match requestTarget s v with
          | some m => t.core.modeNext = some (m, .request) ∧ t.host.reqResult = 1
          | none => (s.core.mode ≠ .boot → t.core.modeNext = s.core.modeNext) ∧ t.host.reqResult = 2))) ∧
  ∀ s : State,
    (provingMet s = true → s.core.phase = .c →
      Runs .provingPeriodEnd s { s with
        core := { s.core with modeNext := some (.operate, .request) }
        fab := { s.fab with proofReady := s.fab.proofReady ||
          (!((portOf s .p0).st == .bypass && (portOf s .p1).st == .bypass) && decide (16 ≤ s.fab.proofFrames)) } } ∧
      s.core.mode = .boot ∧ 16 ≤ s.core.proving ∧ s.core.disturbed = false ∧ bothInService s = true ∧
      (s.nv.life = .commission ∨ s.nv.life = .field)) ∧
    (provingMet s = false ∨ s.core.phase ≠ .c → Runs .provingPeriodEnd s s)

/-- PHASE_H: a passed slice moves on by one of 1024, a failed one is counted against its lane, the second time as permanent; an
uncorrectable error in a slice of the memories below 512 leaves it to run again with the lane late in the next frame (the model's choice, log 33), and so
does one that does not restore what it overwrote, which counts as failed; a slice that is not complete runs again. A lane that was late, that is stopped or that holds
for a test runs none. One that does not fit is counted by SLICE_OVERRUN and runs again. A fault so found takes OPERATE back at the end of the proving
period and stages every pair off in MAINTAIN. The phase runs once in a frame, from the end of phase C to the start of G. -/
def Obligations.PhaseHRunsSlices : Prop :=
  (∀ (env : PhaseHEnv) (s : State), s.core.tickOn = false ∨ s.core.phase ≠ .h → Runs (.phaseH env) s s) ∧
  (∀ (env : PhaseHEnv) (s : State), s.core.tickOn = true → s.core.phase = .h →
    ∃ t, Runs (.phaseH env) s t ∧ SameStore s t ∧ SameClock s t ∧ t.core.phase = .g ∧
      t.core.off = BitVec.ofNat 20 (startG s.core.tfCode) ∧
      ((∀ l, runsSlice s l = true → env.slice.at l = .pass ∨ env.slice.at l = .incomplete) →
        t.crust = s.crust ∧ t.core.disturbed = s.core.disturbed) ∧
      ((∃ l, runsSlice s l = true ∧ env.slice.at l ≠ .pass ∧ env.slice.at l ≠ .incomplete) → FaultFound s t) ∧
      ∀ l before after rep failed, before = s.lane.at l → after = t.lane.at l →
        failed = { chan := chanLane l, code := if before.sliceFailed then 0x41#8 else 0x40#8, permanent := before.sliceFailed } →
        rep = { chan := chanLane l, code := 0x45#8, permanent := false } →
        (runsSlice s l = false ∨ env.slice.at l = .incomplete →
          after.slice = before.slice ∧ after.sliceFailed = before.sliceFailed ∧ after.forcedLate = before.forcedLate) ∧
        (runsSlice s l = true →
          (env.slice.at l = .pass → after.slice = (before.slice + 1) % 1024 ∧ after.sliceFailed = false) ∧
          (env.slice.at l = .fail → after.slice = before.slice ∧ after.sliceFailed = true ∧ failed ∈ after.reps ∧
            after.forcedLate = before.forcedLate) ∧
          (env.slice.at l = .restoreMismatch → after.slice = before.slice ∧ after.sliceFailed = true ∧ failed ∈ after.reps ∧
            after.forcedLate = true) ∧
          (env.slice.at l = .eccDouble → before.slice < 512 → after.slice = before.slice ∧
            after.sliceFailed = before.sliceFailed ∧ rep ∈ after.reps ∧ after.forcedLate = true) ∧
          (env.slice.at l = .eccDouble → 512 ≤ before.slice → after.slice = before.slice ∧ after.sliceFailed = true ∧
            failed ∈ after.reps))) ∧
  ∀ (l : Side) (s : State),
    (s.core.tickOn = true → runsSlice s l = true → ∃ t, Runs (.sliceOverrun l) s t ∧ FaultFound s t ∧ SameStore s t ∧
      t.core.phase = s.core.phase ∧ ∀ k, (t.lane.at k).reps = (s.lane.at k).reps ++
        [{ chan := chanLane l, code := 0x42#8, permanent := false }] ∧ (t.lane.at k).slice = (s.lane.at k).slice ∧
        (t.lane.at k).sliceFailed = (s.lane.at k).sliceFailed) ∧
    (s.core.tickOn = false ∨ runsSlice s l = false → Runs (.sliceOverrun l) s s)

/-! ## Clocks and crossings -/

/-- CLOCK_GATE_CLOSE keeps the partner's cycle count for the check of phase E. CLOCK_STOP marks the report that enters a watching lane that
runs at its next phase S as a fatal fault, and a lane whose own clock has stopped stands. FIFO_RESYNC: the output set and, in
phase S, the snapshot waiting in a barrier FIFO are lost, the set counted as CRUSTLINK, and the FIFO takes data again; of a fabric FIFO the frames received
and not yet taken, and those passing on, are lost. That no row brings a lane's clock back is the model's choice (log 34). -/
def Obligations.ClocksAndCrossings : Prop :=
  ∀ s : State,
    (∀ l n, s.core.tickOn = true → laneLive s l = true →
      Runs (.clockGateClose l n) s { s with lane := s.lane.set l { s.lane.at l with gate := some n } }) ∧
    (∀ l n, s.core.tickOn = false ∨ laneLive s l = false → Runs (.clockGateClose l n) s s) ∧
    (∀ k, s.core.inReset = true → Runs (.clockStop k) s s) ∧
    (∀ (k : WatchedClock) (seen : List Side) (own : Option Side), s.core.inReset = false →
      seen = (match k with
        | .lanea | .laneaIo | .wda => [.b]
        | .laneb | .lanebIo | .wdb => [.a]
        | .xo | .timebase => [.a, .b]) →
      own = (match k with
        | .lanea | .laneaIo => some .a
        | .laneb | .lanebIo => some .b
        | _ => none) →
      ∃ t, Runs (.clockStop k) s t ∧ t = { s with core := { s.core with clockStop := t.core.clockStop }, lane := t.lane } ∧
        t.core.clockStop = (s.core.clockStop || seen.any (laneRuns s)) ∧
        ∀ l, t.lane.at l = { s.lane.at l with stopped := (s.lane.at l).stopped || own == some l }) ∧
    (∀ env, s.core.tickOn = true → s.core.phase = .s → s.core.clockStop = true →
      ∃ t, Runs (.phaseS env) s t ∧ 0x51#8 ∈ t.core.fatal ∧ t.core.clockStop = false) ∧
    (∀ c y, y = { s.crust.at c with
        staged := none, resync := false, snapLost := (s.crust.at c).snapLost || (s.core.tickOn && s.core.phase == .s) } →
      ((s.crust.at c).staged.isSome = true → laneLive s c = true →
        ∃ t, Runs (.fifoResync (.barrier c)) s t ∧ FaultFound (onCrust s c y) t ∧ t.crust.at c = y ∧ SameStore s t ∧
          ∀ l, (t.lane.at l).reps = (s.lane.at l).reps ++ [{ chan := chanLane c, code := 0x46#8, permanent := false }]) ∧
      ((s.crust.at c).staged = none ∨ laneLive s c = false → Runs (.fifoResync (.barrier c)) s (onCrust s c y))) ∧
    ∀ p, ∃ t, Runs (.fifoResync (.fabric p)) s t ∧ OnlyFabricAndJournal s t ∧ (portOf t p.other).cut = [] ∧
      portOf t p = portOf s p ∧ t.fab.inbox = s.fab.inbox.filter (fun e => e.1 != p)

/-! ## The fabric's links -/

/-- FABRIC_FRAME_RECEIVE at a port in UP: a frame for this station reaches its inbox; one for another station goes out of the other port with HOP one
more, cut through where the transmitter is free, or waits there, or is dropped and counted; one with a bad link CRC, a SYMBOL event or a
cut end is counted and asked for again, one of an unknown class is discarded and counted, an aborted one leaves no trace, and an
invalid group outside a frame is a SYMBOL event of its own, with nothing to ask for (the model's choice, log 80; the start of a copy is log 81, its
cleared RETRY log 82, the counts of what is dropped log 121). HOPNAK_RECEIVE: a kept frame asked for again, within its frame and its span, leaves the kept frames and
waits at its port with RETRY set, or starts at once where the transmitter is free and nothing more urgent waits, and is counted as it starts.
FABRIC_FRAME_TRANSMIT_END: the frame sent is kept for a retry, but for a TICK, one ended by EOF abort and one cancelled, which
is counted; the transmitter starts the first of the most urgent frames that may start. -/
def Obligations.FabricFrameIsJudged : Prop :=
  (∀ (p : PortId) (idle gs : List CodeGroup) (earlier : Bool) (o : BitVec 20) (s : State) (x : Taken),
    x = takeGroups (gs.drop 1) →
    (s.core.inReset = true → Runs (.fabricFrameReceive p idle gs earlier o) s s) ∧
    (s.core.inReset = false → (portOf s p).st = .up →
      (gs = [] → idle.contains .symbol = true →
        ∃ t, Runs (.fabricFrameReceive p idle gs earlier o) s t ∧ t.stat.live.linkerr = satInc s.stat.live.linkerr ∧ t.fab = s.fab ∧
          t.core.found = s.core.found ++ [{ chan := chanPort p, code := 0x30#8, permanent := false }] ∧
          t.lane = s.lane ∧ t.crust = s.crust ∧ SameStore s t ∧ SameClock s t) ∧
      (gs.head? = some .k277 → idle.contains .symbol = false →
        (x.ending = .abort → Runs (.fabricFrameReceive p idle gs earlier o) s (atOff s o)) ∧
        (x.ending ≠ .abort → x.symbol = true ∨ x.ending ≠ .good ∨ linkCrcOk x.bytes = false →
          ∃ t, Runs (.fabricFrameReceive p idle gs earlier o) s t ∧ t.stat.live.linkerr = satInc s.stat.live.linkerr ∧
            (portOf t p).naks = (portOf s p).naks ++ [((byteAt x.bytes 0).setWidth 4, byteAt x.bytes 5)] ∧
            t.core.found = s.core.found ++
              [{ chan := chanPort p, code := if x.symbol then 0x30#8 else 0x31#8, permanent := false }] ∧
            t.lane = s.lane ∧ t.crust = s.crust ∧ t.fab.inbox = s.fab.inbox ∧ SameStore s t ∧ SameClock s t) ∧
        (x.symbol = false → x.ending = .good → linkCrcOk x.bytes = true →
          (frameKnown x.bytes = false → Runs (.fabricFrameReceive p idle gs earlier o) s (countDiscarded (atOff s o))) ∧
          (frameKnown x.bytes = true → isWorker s = true → s.fab.station = some (parseFrame x.bytes).dst →
            (parseFrame x.bytes).src ≠ (parseFrame x.bytes).dst → isProof (parseFrame x.bytes).cls = false →
            Runs (.fabricFrameReceive p idle gs earlier o) s { atOff s o with
              fab := { s.fab with inbox := s.fab.inbox ++ [(p, parseFrame x.bytes)] } }))))) ∧
  (∀ (p : PortId) (idle r : List CodeGroup) (earlier : Bool) (o : BitVec 20) (s : State) (x : Taken) (f g : Frame) (q : PortSt),
    x = takeGroups r → f = parseFrame x.bytes → g = { f with retry := false, hop := f.hop + 1 } → q = portOf s p.other →
    s.core.inReset = false → (portOf s p).st = .up → idle.contains .symbol = false → x.symbol = false → x.ending = .good →
    linkCrcOk x.bytes = true → frameKnown x.bytes = true → isWorker s = true → relays s p f = true → isProof f.cls = false →
    f.cls ≠ clsTick → f.dst ≠ 0xFF#8 → q.st = .up →
    (isCutThrough f.cls = true → q.tx = none → s.fab.gap = false → spanHolds s.core.tfCode (cutStart (atOff s o) g) g = true →
      Runs (.fabricFrameReceive p idle (.k277 :: r) earlier o) s
        (modPort (atOff s o) p.other fun q => { q with tx := some (begun s g) })) ∧
    (isCutThrough f.cls = true → q.tx ≠ none → q.cut.length < 4 → Runs (.fabricFrameReceive p idle (.k277 :: r) earlier o) s
      (modPort (atOff s o) p.other fun q => { q with cut := q.cut ++ [g] })) ∧
    (isCutThrough f.cls = true → q.tx ≠ none → 4 ≤ q.cut.length → Runs (.fabricFrameReceive p idle (.k277 :: r) earlier o) s
      { atOff s o with fab := { s.fab with cutDrops := satInc s.fab.cutDrops } }) ∧
    (isCutThrough f.cls = false → 16 ≤ q.sf.length → ∃ t, Runs (.fabricFrameReceive p idle (.k277 :: r) earlier o) s t ∧
      t.stat.live.sfdrop = satInc s.stat.live.sfdrop ∧ t.fab = s.fab ∧ t.crust = s.crust ∧ t.lane = s.lane ∧ SameStore s t ∧
      SameClock s t) ∧
    (isCutThrough f.cls = false → q.tx ≠ none → q.sf.length < 16 → Runs (.fabricFrameReceive p idle (.k277 :: r) earlier o) s
      (modPort (atOff s o) p.other fun q => { q with sf := q.sf ++ [g] }))) ∧
  (∀ (p : PortId) (c : BitVec 4) (n : Byte) (o : BitVec 20) (s : State) (r again : TxRec) (q : PortSt), q = portOf s p →
    q.kept.find? (fun r => r.frame.cls == c && r.frame.seq == n) = some r →
    again = { r with retried := true, frame := { r.frame with retry := true } } →
    (retryAllowed s (stampAt s o) r = true → r.retried = false ∧
      ∃ t, Runs (.hopnakReceive p c n o) s t ∧ t.core.off = o ∧ (portOf t p).kept = q.kept.erase r ∧
        portOf t p.other = portOf s p.other ∧ t.crust = s.crust ∧ t.lane = s.lane ∧ SameStore s t ∧ SameClock s t ∧
        (again ∈ (portOf t p).retries ∨ (portOf t p).tx = some again) ∧
        (q.tx.isSome = true ∨ q.st ≠ .up ∨ s.fab.gap = true → (portOf t p).tx = q.tx ∧ (portOf t p).retries = q.retries ++ [again] ∧
          t.stat.live.retry = s.stat.live.retry) ∧
        (q.tx = none → q.st = .up → s.fab.gap = false → q.retries = [] → mayStart (atOff s o) r.frame = true →
          (∀ f, f ∈ q.cut ∨ f ∈ q.own ∨ f ∈ q.sf → classPrio r.frame.cls ≤ classPrio f.cls) →
          (portOf t p).tx = some again ∧ (portOf t p).retries = [] ∧ t.stat.live.retry = satInc s.stat.live.retry)) ∧
    (retryAllowed s (stampAt s o) r = false → Runs (.hopnakReceive p c n o) s s)) ∧
  (∀ (p : PortId) (c : BitVec 4) (n : Byte) (o : BitVec 20) (s : State),
    (portOf s p).kept.find? (fun r => r.frame.cls == c && r.frame.seq == n) = none → Runs (.hopnakReceive p c n o) s s) ∧
  ∀ (p : PortId) (o : BitVec 20) (s : State) (q : PortSt), q = portOf s p →
    (q.tx = none → Runs (.fabricFrameTransmitEnd p o) s s) ∧
    ∀ r : TxRec, q.tx = some r →
      ∃ t, Runs (.fabricFrameTransmitEnd p o) s t ∧ t.core.off = o ∧ portOf t p.other = portOf s p.other ∧
        t.crust = s.crust ∧ t.lane = s.lane ∧ SameStore s t ∧ SameClock s t ∧
        (portOf t p).kept = q.kept.filter (keptFresh s (stampAt s o)) ++
          (if r.frame.cls = 1#4 ∨ r.cancelled = true ∨ r.aborted = true then [] else [{ r with eof := stampAt s o }]) ∧
        t.stat.epoch = s.stat.epoch ∧
        t.fab.abortLate = (if r.cancelled then satInc s.fab.abortLate else s.fab.abortLate) ∧
        (portOf t p).tx = (if q.st = .up ∧ s.fab.gap = false
          then (bestOf (atOff s o) (waiting q)).map fun e => if e.1 ∈ q.retries then e.1 else { e.1 with first := s.core.frameNo }
          else none)

/-- The states of a port's link: a receiver that locks takes DOWN to STANDBY, which a worker reports with LINKREADY and the manager notes for its
own port, and LOCKING to UP, and ends a relock, after which a BREAK that waited for it goes out; a loss takes STANDBY to DOWN and starts a relock in
UP; a relock that is not over in time takes the port DOWN and reports LOCK_LOSS, once until the port is UP again, unless lock was lost in a join gap
or in sync loss; a worker tells the BREAK out of its other port. JOIN_GAP opens in a frame whose number is a multiple of 256 and a module that may
join leaves its bypass in it, each port UP where it has locked and DOWN where it has not; a worker that joins with its outputs off waits
for its admission (the model's choice, log 95), and the delay of each link measured is taken (log 87). JOIN_GAP_END closes it, a topology due in it
taking force and raising the standby ports; a manager may join once it has listened for 512 frames. Joining and relocking follow log 36, breaks log 38. -/
def Obligations.PortFollowsItsLink : Prop :=
  (∀ (p : PortId) (s : State),
    ((portOf s p).st = .down → ∃ t, Runs (.receiverLock p) s t ∧ OnlyFabricAndJournal s t ∧ (portOf t p).st = .standby ∧
      t.fab.ready = (if isManager s then s.fab.ready ++ [(0, BitVec.ofNat 8 p.num)] else s.fab.ready) ∧
      t.fab.cabled = (if isManager s = true ∧ s.fab.cabled = none then some p else s.fab.cabled) ∧
      (isManager s = false → ∀ u, u = s.fab.upstream.getD .p0 → u ≠ p →
        Queued s t u clsDisc 0x00 [0x07, BitVec.ofNat 8 p.num, (s.fab.station).getD 0xFE#8])) ∧
    ((portOf s p).st = .locking → Runs (.receiverLock p) s
      (modPort s p fun q => { q with st := .up, lossReported := false })) ∧
    ((portOf s p).st = .up → (portOf s p).relocking = true → ∃ t, Runs (.receiverLock p) s t ∧ OnlyFabricAndJournal s t ∧
      (portOf t p).st = .up ∧ (portOf t p).relocking = false ∧
      (s.fab.breakDue ≠ some p.other →
        t.fab = { s.fab with ports := s.fab.ports.set p.side { portOf s p with relocking := false, lossQuiet := false } }) ∧
      (s.fab.breakDue = some p.other → t.fab.breakDue = none ∧
        Queued s t p clsDisc 0x00 [0x05, BitVec.ofNat 8 p.other.num, (ownStation s).getD 0xFE#8])) ∧
    ((portOf s p).st = .up → (portOf s p).relocking = false → Runs (.receiverLock p) s s) ∧
    ((portOf s p).st = .bypass → Runs (.receiverLock p) s s ∧ Runs (.lockLoss p) s s) ∧
    ((portOf s p).st = .up → (portOf s p).relocking = false → Runs (.lockLoss p) s (modPort s p fun q =>
      { q with relocking := true, lossQuiet := s.fab.gap || s.fab.sync == .loss })) ∧
    ((portOf s p).st = .up → (portOf s p).relocking = true → Runs (.lockLoss p) s s) ∧
    ((portOf s p).st = .standby → Runs (.receiverLock p) s s ∧
      ∃ t, Runs (.lockLoss p) s t ∧ OnlyFabricAndJournal s t ∧ (portOf t p).st = .down ∧
        (isManager s = false → BreakTold s t p)) ∧
    ((portOf s p).st = .up → (portOf s p).relocking = true →
      ∃ t, Runs (.relockTimeout p) s t ∧ (portOf t p).st = .down ∧ (portOf t p).relocking = false ∧
        (portOf t p).lossReported = true ∧ t.crust = s.crust ∧ t.lane = s.lane ∧ SameStore s t ∧ SameClock s t ∧
        t.core.found = s.core.found ++
          (if (portOf s p).lossQuiet || (portOf s p).lossReported then []
           else [{ chan := chanPort p, code := 0x33#8, permanent := false }]) ∧
        (isManager s = false → BreakTold s t p)) ∧
    (¬ ((portOf s p).st = .up ∧ (portOf s p).relocking = true) → Runs (.relockTimeout p) s s)) ∧
  (∀ s : State,
    (∀ env, s.core.tickOn = true → s.core.frameNo.toNat % 256 = 0 → s.fab.gap = false → mayJoin s = true →
      ∃ t, Runs (.joinGap env) s t ∧ t.fab.gap = true ∧ t.fab.rejoin = false ∧ t.fab.proofReady = false ∧
        t.fab.station = none ∧
        (portOf t .p0).st = (if env.locked.a then .up else .down) ∧
        (portOf t .p1).st = (if env.locked.b then .up else .down) ∧
        t.core.bootStep = (if s.core.bootStep = .join then .proving else s.core.bootStep) ∧
        t.fab.awaitAdmit = (s.fab.awaitAdmit || (isWorker s && outputsOff s.core.mode)) ∧
        t = { s with core := t.core, fab := t.fab, host := { s.host with irqStat0 := t.host.irqStat0 },
                     mbx := { s.mbx with queue := t.mbx.queue }, jrn := t.jrn, stat := t.stat } ∧ SameClock s t) ∧
    (∀ env, s.core.tickOn = true → s.core.frameNo.toNat % 256 = 0 → s.fab.gap = false → mayJoin s = false →
      bypassClosed s = true → ∃ t, Runs (.joinGap env) s t ∧ t = atOff { s with fab := { s.fab with gap := true } } t.core.off) ∧
    (∀ env, s.core.tickOn = true → s.core.frameNo.toNat % 256 = 0 → s.fab.gap = false → bypassClosed s = false →
      ∃ t, Runs (.joinGap env) s t ∧ t.fab.gap = true ∧
        (∀ p, (portOf t p).st = (if env.locked.at p.side && (portOf s p).st == .locking then .up else (portOf s p).st) ∧
          (portOf t p).relocking = ((portOf s p).relocking && !env.locked.at p.side) ∧
          ∀ rt, rt = (if isManager s = true ∨ (s.fab.upstream = some p ∧ s.fab.tickHop ≠ 0) then env.half1.at p.side
              else env.half2.at p.side) →
            (rt = none → (portOf t p).delay = (portOf s p).delay) ∧
            ∀ x, rt = some x → (portOf t p).delay = if linkDelay x ≤ 200 then some (linkDelay x) else (portOf s p).delay) ∧
        ((∀ p, ¬ ((portOf s p).st = .up ∧ (portOf s p).relocking = true ∧ env.locked.at p.side = true)) →
          t = atOff { s with fab := { s.fab with gap := true, ports := t.fab.ports } } t.core.off) ∧
        t = { s with core := { s.core with off := t.core.off }, fab := t.fab, mbx := { s.mbx with queue := t.mbx.queue },
                     jrn := t.jrn, stat := t.stat } ∧ SameClock s t) ∧
    (∀ env, s.core.tickOn = false ∨ s.core.frameNo.toNat % 256 ≠ 0 ∨ s.fab.gap = true → Runs (.joinGap env) s s) ∧
    (s.fab.gap = false → Runs .joinGapEnd s s) ∧
    (s.fab.gap = true → ∃ t, Runs .joinGapEnd s t ∧ t.fab.gap = false ∧ t.fab.topoGap = none ∧
      t.fab.topo = s.fab.topoGap.getD s.fab.topo ∧
      (∀ p, (portOf t p).st = (if s.fab.topoGap.isSome && (portOf s p).st == .standby then .up else (portOf s p).st)) ∧
      (s.fab.topoGap.isSome = true → t.fab.upstream = none ∧ t.fab.ready = [] ∧ t.fab.ends = ⟨none, none⟩) ∧
      t = { s with core := { s.core with off := t.core.off }, fab := t.fab, mbx := { s.mbx with queue := t.mbx.queue },
                   stat := t.stat } ∧ SameClock s t) ∧
    (isManager s = true → bypassClosed s = true → s.fab.duplicate = false →
      (512 ≤ s.fab.listened → Runs .managerListenExpiry s { s with fab := { s.fab with listenOver := true } }) ∧
      (s.fab.listened < 512 → Runs .managerListenExpiry s s)))

/-- Discovery: a manager's CALL advances its number, discards the reports still waiting and is broadcast, and the topology with it (the model's
choice, log 83); a worker takes its hop from the CALL and answers it with its REPORT; a REPORT that reaches the manager waits, but for one to
an earlier CALL, which is discarded (its operand tells: the model's choice, log 88); it is admitted at the station of its plan entry, the branch reaching to it
(log 120), or refused with the reason, the refusal of a station that another worker holds being kept by hop (log 37); ADMIT and
REFUSE go out by the port of the REPORT; ADMIT gives the worker its station and REFUSE takes it away at the next tick. -/
def Obligations.DiscoveryAdmitsStations : Prop :=
  ∀ s : State,
    (∀ cfg, activeCfg s = some cfg → isManager s = true → bypassClosed s = false → s.core.inReset = false →
      ∃ t, Runs .call s t ∧ OnlyFabricAndJournal s t ∧ t.fab.callNo = s.fab.callNo + 1 ∧
        t.fab.inbox = (s.fab.inbox.filter fun e => !isDisc 0x02 e.2) ∧
        ∀ p ∈ branchPorts s, Queued s t p clsDisc 0xFF ([0x01, cfg.tfCode] ++ le32 cfg.bind.seg ++ [BitVec.ofNat 8 (planN s)]) ∧
          (s.fab.topoGap = none → Queued s t p clsDisc 0xFF (topoPayload (s.fab.topoTick.getD s.fab.topo) false))) ∧
    (isManager s = true → bypassClosed s = true ∨ s.core.inReset = true → Runs .call s s) ∧
    (∀ cfg p f, activeCfg s = some cfg → isManager s = false → Waits s (isDisc 0x01) p f →
      ∃ t, Runs .call s t ∧ OnlyFabricAndJournal s t ∧ t.fab.hop = f.hop + 1 ∧ t.fab.callN = byteAt f.payload 6 ∧
        t.fab.inbox = s.fab.inbox.erase (p, f) ∧
        Queued s t p clsDisc 0x00 ([0x02, f.hop + 1, BitVec.ofNat 8 p.num, cfg.tfCode, cfg.role, s.core.mode.code,
          if s.fab.station.isSome then 1 else 0, 0] ++ padTo 8 cfg.bind.tag ++ le32 cfg.bind.seg ++ [cfg.bind.pos, 0] ++
          le16 cfg.bind.sig ++ padTo 8 cfg.loafId)) ∧
    (∀ cfg plan p f k p0 u, activeCfg s = some cfg → planOf s = some plan → isManager s = true → Waits s (isDisc 0x02) p f →
      p0 = (p != p1Port s) → u = s.fab.topoTick.getD s.fab.topo → judgeReport (taken s p f) cfg plan (parseReport f) p0 = .inl k →
      ∃ t, Runs .report s t ∧ OnlyFabricAndJournal s t ∧ t.fab.inbox = s.fab.inbox.erase (p, f) ∧
        tabGet memberNone t.fab.members k = reported 1 0 f p0 s.fab.callNo ∧
        (∀ j, j ≠ k → tabGet memberNone t.fab.members j = tabGet memberNone s.fab.members j) ∧
        (p0 = false → u.p1Tail.toNat < k % 256 → t.fab.topoTick = some { u with p1Tail := BitVec.ofNat 8 k }) ∧
        (p0 = false → k % 256 ≤ u.p1Tail.toNat → t.fab.topoTick = s.fab.topoTick) ∧
        Queued s t p clsDisc 0xFE ([0x03, byteAt f.payload 1, BitVec.ofNat 8 k, 0] ++ bytesAt f.payload 8 8)) ∧
    (∀ cfg plan p f k why p0 held, activeCfg s = some cfg → planOf s = some plan → isManager s = true →
      Waits s (isDisc 0x02) p f → p0 = (p != p1Port s) → held = heldByOther (taken s p f) k (parseReport f) p0 →
      judgeReport (taken s p f) cfg plan (parseReport f) p0 = .inr (k, why) →
      ∃ t, Runs .report s t ∧ OnlyFabricAndJournal s t ∧ t.fab.inbox = s.fab.inbox.erase (p, f) ∧
        (∀ j, j ≠ k → tabGet memberNone t.fab.members j = tabGet memberNone s.fab.members j) ∧
        (k ≠ 0xFF → k ≠ 0 → held = false → tabGet memberNone t.fab.members k = reported 2 why f p0 s.fab.callNo) ∧
        (k = 0xFF ∨ k = 0 ∨ held = true → t.fab.members = s.fab.members ∧
          tabGet memberNone t.fab.refusedHops (byteAt f.payload 1).toNat = reported 2 why f p0 s.fab.callNo) ∧
        Queued s t p clsDisc 0xFE ([0x04, byteAt f.payload 1, why, 0] ++ bytesAt f.payload 8 8)) ∧
    (∀ (p : PortId) (idle r : List CodeGroup) (earlier : Bool) (o : BitVec 20) (x : Taken) (f : Frame), isManager s = true →
      s.core.inReset = false → (portOf s p).st = .up → idle.contains .symbol = false → x = takeGroups r → x.symbol = false →
      x.ending = .good → linkCrcOk x.bytes = true → frameKnown x.bytes = true → f = parseFrame x.bytes → isDisc 0x02 f = true →
      (f.dst = 0 ∨ f.dst = 0xFF#8 ∨ f.dst = 0xFE#8) → f.src ≠ 0 →
      Runs (.fabricFrameReceive p idle (.k277 :: r) earlier o) s (if earlier then atOff s o else { atOff s o with
        fab := { s.fab with inbox := s.fab.inbox ++ [(p, f)] } })) ∧
    (∀ p f, isWorker s = true → Waits s (fun f => isDisc 0x03 f && forUs s f) p f →
      Runs .admitMsg s { s with fab := { s.fab with
        inbox := s.fab.inbox.erase (p, f), station := some (byteAt f.payload 2), refused := false } }) ∧
    (∀ p f, isWorker s = true → Waits s (fun f => isDisc 0x04 f && forUs s f) p f →
      Runs .refuse s { s with fab := { s.fab with inbox := s.fab.inbox.erase (p, f), refused := true } }) ∧
    ∀ env, s.fab.refused = true → s.core.startUp = none → s.core.tickOn = true → s.core.phase = .g →
      ∃ t, Runs (.tick env) s t ∧ t.fab.station = none

/-- Breaks and their repair: a manager that hears of a BREAK before phase G puts the healed or shortened topology in force
at the next tick and broadcasts it, that of a worker not yet admitted at the last admitted station before it, and only where an admitted worker
lies beyond (the model's choice, log 84); it notes the end that told the break and waits anew for both ends; a worker takes a TOPO at the next tick,
cancelling one due in a join gap, or at the end of the next join gap, and a manager broadcasts its own, unless one is due in a join gap; when both ends
have reported LINKREADY the planned topology is broadcast and due at the end of the join gap (logs 38, 85). -/
def Obligations.TopologyFollowsBreaks : Prop :=
  ∀ (s : State) (p : PortId) (f : Frame),
    (isManager s = true → Waits s (isDisc 0x05) p f → s.core.off.toNat < startG s.core.tfCode →
      (byteAt f.payload 2 = 0xFE#8 →
        ((∀ e ∈ branchMembers s p, e.2.h.toNat ≤ f.hop.toNat) → Runs .breakMsg s (taken s p f)) ∧
        ((∃ e ∈ branchMembers s p, f.hop.toNat < e.2.h.toNat) → ∃ t, Runs .breakMsg s t ∧ OnlyFabricAndJournal s t ∧
          t.fab.topo = s.fab.topo ∧ t.fab.topoGap = none ∧ t.fab.ready = [] ∧
          ∀ u, u = topoAfterBreak s (p == p1Port s) (lastWithin s p f.hop.toNat) → t.fab.topoTick = some u ∧
            ∀ q, Queued s t q clsDisc 0xFF (topoPayload u false))) ∧
      (byteAt f.payload 2 ≠ 0xFE#8 → ∃ t, Runs .breakMsg s t ∧ OnlyFabricAndJournal s t ∧
        t.fab.topo = s.fab.topo ∧ (∀ u, u = topoAfterBreak s (p == p1Port s) (byteAt f.payload 2) → t.fab.topoTick = some u ∧
          ∀ q, Queued s t q clsDisc 0xFF (topoPayload u false)) ∧
        t.fab.ends = (if (s.fab.topoTick.getD s.fab.topo).healed then s.fab.ends else ⟨none, none⟩).set
          (if p = p1Port s then .a else .b) (some (byteAt f.payload 2, byteAt f.payload 1)) ∧
        t.fab.topoGap = none ∧ t.fab.ready = [] ∧ t.fab.inbox = s.fab.inbox.erase (p, f))) ∧
    (startG s.core.tfCode ≤ s.core.off.toNat → Runs .breakMsg s s) ∧
    (isWorker s = true → Waits s (isDisc 0x06) p f →
      Runs .topo s (if bitOf (byteAt f.payload 4) 0 then
          { taken s p f with fab := { (taken s p f).fab with topoGap := some (parseTopo f.payload) } }
        else { taken s p f with fab := { (taken s p f).fab with
          topoTick := some (parseTopo f.payload), topoGap := none } })) ∧
    (isManager s = true → bypassClosed s = true ∨ s.core.inReset = true ∨ s.fab.topoGap.isSome = true → Runs .topo s s) ∧
    (isManager s = true → bypassClosed s = false → s.core.inReset = false → s.fab.topoGap = none →
      ∃ t, Runs .topo s t ∧ OnlyFabricAndJournal s t ∧ t.fab.topo = s.fab.topo ∧ t.fab.topoTick = s.fab.topoTick ∧
        t.fab.topoGap = none ∧
        ∀ q ∈ branchPorts s, Queued s t q clsDisc 0xFF (topoPayload (s.fab.topoTick.getD s.fab.topo) false)) ∧
    (isManager s = true → Waits s (isDisc 0x07) p f →
      ∃ t, Runs .linkready s t ∧ OnlyFabricAndJournal s t ∧ t.fab.inbox = s.fab.inbox.erase (p, f) ∧
        t.fab.ready = s.fab.ready ++ [(byteAt f.payload 2, byteAt f.payload 1)] ∧
        (∀ now, now = allReady { s with fab := { s.fab with ready := t.fab.ready } } →
          (now = false → t.fab.topoGap = s.fab.topoGap) ∧
          (now = true → t.fab.topoGap = some (plannedTopo s) ∧
            ∀ q, Queued s t q clsDisc 0xFF (topoPayload (plannedTopo s) true))))

/-- The tick of a member: the error of a TICK is its arrival less CORR and the delay of its link; the first valid TICK after a loss
sets FRAME_NO and is followed against the nearer tick, a later one within 5 us of its expected time keeps it in sync whatever its FRAME (the model's
choice, log 102; the expected time is log 39), and each is passed on with CORR grown by the delay of the link and its residence; a module that listens takes its frame number from a
valid one, and a manager that hears one of another closes its bypass for good (log 86 tells them apart). A missing TICK is counted and begins holdover, 16 of
them are the loss of sync, from which instant the contribution is false and no SAFE copy of its own leaves, and the proving of a new sync ends after 16 frames. -/
def Obligations.MemberFollowsTheTick : Prop :=
  ∀ (s : State),
    (∀ cfg p f (a : Int) (r : Nat) (e : Int), activeCfg s = some cfg → isManager s = false → Waits s (fun f => f.cls == clsTick) p f →
      e = a - (natAt f.payload 9 3 + (portOf s p).delay.getD 150 : Nat) → bypassClosed s = false →
      (tickValid cfg f.payload = true → (s.fab.sync = .loss ∨ (e - s.core.slewNs).natAbs ≤ 5000) →
        ∃ t, Runs (.tickReceive a r) s t ∧ t.fab.sync = .inSync ∧ t.fab.missed = 0 ∧ t.fab.gotTick = true ∧
          t.fab.upstream = some p ∧ t.fab.tickHop = f.hop ∧ t.core.slewNs = (if s.fab.sync = .loss then nearerTick s.core.tfCode e else e) ∧
          t.core.frameNo = (if s.fab.sync = .loss then u32At f.payload 0 else s.core.frameNo) ∧
          t.stat.jumped = (s.stat.jumped || (s.fab.sync == .loss && s.core.frameNo != u32At f.payload 0)) ∧ SameStore s t ∧
          t.crust = s.crust ∧ t.lane = s.lane ∧ t.core.mode = s.core.mode) ∧
      (tickValid cfg f.payload = false ∨ (s.fab.sync ≠ .loss ∧ 5000 < (e - s.core.slewNs).natAbs) →
        ∃ t, Runs (.tickReceive a r) s t ∧ OnlyFabricAndJournal s t ∧ t.fab.inbox = s.fab.inbox.erase (p, f) ∧
          t.fab.gotTick = s.fab.gotTick ∧ t.fab.sync = s.fab.sync ∧ t.fab.missed = s.fab.missed) ∧
      (f.payload.length = 12 → relays s p f = true → (portOf s p.other).st = .up → ∀ g, g = tickCopy (portOf s p) f r →
        ∃ t, Runs (.tickReceive a r) s t ∧
          ((portOf s p.other).tx = none → s.fab.gap = false → spanHolds s.core.tfCode (cutStart s g) g = true →
            (portOf t p.other).tx = some (begun s g)) ∧
          ((portOf s p.other).tx ≠ none → (portOf s p.other).cut.length < 4 →
            (portOf t p.other).cut = (portOf s p.other).cut ++ [g]))) ∧
    (∀ cfg p f a r, activeCfg s = some cfg → isManager s = false → Waits s (fun f => f.cls == clsTick) p f →
      bypassClosed s = true →
      (tickValid cfg f.payload = false → Runs (.tickReceive a r) s (taken s p f)) ∧
      (tickValid cfg f.payload = true → ∃ t, Runs (.tickReceive a r) s t ∧ t.core.frameNo = u32At f.payload 0 ∧
        t.fab.heard = (if s.fab.heardFrame = some (u32At f.payload 0 - 1) then min (s.fab.heard + 1) 16 else 1) ∧
        t.fab.heardFrame = some (u32At f.payload 0) ∧ t.fab.gotTick = true ∧
        t.fab.tickHop = f.hop ∧ t.fab.upstream = some p ∧
        t = { s with core := { s.core with frameNo := t.core.frameNo, slewNs := t.core.slewNs }, fab := t.fab
                     stat := { s.stat with jumped := s.stat.jumped || s.core.frameNo != u32At f.payload 0 } })) ∧
    (∀ cfg p f a r, activeCfg s = some cfg → isManager s = true → Waits s (fun f => f.cls == clsTick) p f →
      (s.fab.duplicate = true → Runs (.tickReceive a r) s (taken s p f)) ∧
      (s.fab.duplicate = false → ∃ t, Runs (.tickReceive a r) s t ∧ t.fab.duplicate = true ∧ bypassClosed t = true ∧
        OnlyFabricAndJournal s t)) ∧
    (isWorker s = true → s.core.tickOn = true → s.fab.gotTick = false → noTickFrame s = false →
      (bypassClosed s = false → s.fab.sync ≠ .loss → ∃ t, Runs .tickMissing s t ∧
        t.fab = { s.fab with missed := s.fab.missed + 1, gotTick := true, sync := .holdover } ∧
        t = { s with fab := t.fab, host := { s.host with irqStat0 := t.host.irqStat0 } } ∧
        t.host.irqStat0 = (if syncBit s then s.host.irqStat0 ||| 0x80#8 else s.host.irqStat0)) ∧
      (bypassClosed s = false → s.fab.sync = .loss →
        Runs .tickMissing s { s with fab := { s.fab with gotTick := true } }) ∧
      (bypassClosed s = true →
        Runs .tickMissing s { s with fab := { s.fab with heard := 0, heardFrame := none, gotTick := true } })) ∧
    (isWorker s = true → s.fab.sync ≠ .loss →
      (16 ≤ s.fab.missed → ∃ t, Runs .syncLoss s t ∧ t.fab = { s.fab with
          sync := .loss, proofReady := false, proofFrames := 0, settled := false, ports := t.fab.ports } ∧
        (∀ p, ∀ f ∈ (portOf t p).own, ownSafe f = false) ∧ (∀ p, (portOf t p).cut = (portOf s p).cut) ∧
        t = { s with fab := t.fab, lane := s.lane.map fun l => { l with contrib := 0x08#8 },
                     host := { s.host with irqStat0 := t.host.irqStat0 } } ∧
        t.host.irqStat0 = (if syncBit s then s.host.irqStat0 ||| 0x80#8 else s.host.irqStat0)) ∧
      (s.fab.missed < 16 → Runs .syncLoss s s)) ∧
    (bypassClosed s = false → s.fab.sync = .inSync → s.fab.settled = true →
      (16 ≤ s.fab.proofFrames → ∃ t, Runs .syncProvingEnd s t ∧
        t = { s with fab := { s.fab with proofReady := true }, lane := t.lane } ∧
        ∀ l n, n ≠ chanPort .p0 → n ≠ chanPort .p1 → chanRec t l n = chanRec s l n) ∧
      (s.fab.proofFrames < 16 → Runs .syncProvingEnd s s))

/-! ## SAFE copies, BULK, remote commands and CAN FD -/

/-- SAFE_COPY_RECEIVE: a copy that passes every check of its lane is kept for delivery; one that fails them is discarded and
counted, a wrong safety code against its port; each counts as taken for its lane in this frame, so that a second one is discarded (log 72). In test hold, in sync loss and for a lane out of service none is taken; one that names no lane or no
delivery and its frame becomes the ECHO of the paired export; any other one is counted. -/
def Obligations.SafeCopyIsChecked : Prop :=
  (∀ (s : State) (cfg : LoafCfg) (p : PortId) (f : Frame), activeCfg s = some cfg → Waits s (fun f => f.cls == clsSafe) p f →
    (s.test.hold = true ∨ (isWorker s = true ∧ s.fab.sync = .loss) → Runs .safeCopyReceive s (taken s p f)) ∧
    (s.test.hold = false → (isWorker s = true → s.fab.sync ≠ .loss) →
      (namedLane (byteAt f.payload 2) = none → Runs .safeCopyReceive s (countSafedisc (taken s p f))) ∧
      ∀ l, namedLane (byteAt f.payload 2) = some l →
        (laneLive s l = false → Runs .safeCopyReceive s (taken s p f)) ∧
        (laneLive s l = true →
          (((imports cfg).find? fun k => k.connId == u16At f.payload 0 && !k.canFd && k.peer == f.src) = none →
            Runs .safeCopyReceive s (countSafedisc (taken s p f))) ∧
          ∀ k, ((imports cfg).find? fun k => k.connId == u16At f.payload 0 && !k.canFd && k.peer == f.src) = some k →
          ∀ m x, m = parseSafe f.payload (codeLen k) →
            x = { s.lane.at l with seenCopies := (s.lane.at l).seenCopies ++ [m.conn] } →
            (checkCopy s cfg k l f.payload.length (14 + m.nb + codeLen k) m = .accepted →
              Runs .safeCopyReceive s { taken s p f with lane := s.lane.set l { x with accepted := x.accepted ++
                [{ conn := m.conn, seq := m.seq, frame := m.frame, beads := m.beads, port := p.num }] } }) ∧
            (checkCopy s cfg k l f.payload.length (14 + m.nb + codeLen k) m = .discarded →
              Runs .safeCopyReceive s (countSafedisc { taken s p f with lane := s.lane.set l x })) ∧
            (checkCopy s cfg k l f.payload.length (14 + m.nb + codeLen k) m = .badCode →
              Runs .safeCopyReceive s { taken s p f with
                lane := s.lane.set l x
                core := { s.core with found := s.core.found ++ [{ chan := chanPort p, code := 0x32#8, permanent := false }] } }) ∧
            (m.conn ∈ (s.lane.at l).seenCopies →
              Runs .safeCopyReceive s (countSafedisc { taken s p f with lane := s.lane.set l x }))))) ∧
  (∀ (s : State) (f : CanFrame), canUp s.can = false ∨ f.ext = true ∨ f.fdf = false ∨ 0x400 ≤ f.ident.toNat ∨
    s.test.hold = true → Runs (.canSafeReceive f) s s) ∧
  (∀ (s : State) (cfg : LoafCfg) (f : CanFrame), activeCfg s = some cfg → canUp s.can = true →
    f.ext = false → f.fdf = true → f.ident.toNat < 0x400 → s.test.hold = false →
    (u16At f.data 0 ≠ f.ident.setWidth 16 → Runs (.canSafeReceive f) s (countSafedisc s)) ∧
    (u16At f.data 0 = f.ident.setWidth 16 →
      (namedLane (byteAt f.data 2) = none → Runs (.canSafeReceive f) s (countSafedisc s)) ∧
      ∀ l, namedLane (byteAt f.data 2) = some l → laneLive s l = true →
        (((imports cfg).find? fun k => k.connId == u16At f.data 0 && k.canFd) = none →
          Runs (.canSafeReceive f) s (countSafedisc s)) ∧
        ∀ k, ((imports cfg).find? fun k => k.connId == u16At f.data 0 && k.canFd) = some k →
        ∀ m x y, m = parseSafe f.data (codeLen k) →
          x = { s.lane.at l with seenCopies := (s.lane.at l).seenCopies ++ [m.conn] } →
          y = modConn x k.connId (fun c => { c with echo := some m.frame }) →
          (checkCopy s cfg k l f.data.length (dlcLen (14 + m.nb + codeLen k)) m = .accepted →
            Runs (.canSafeReceive f) s { s with lane := s.lane.set l { y with accepted := y.accepted ++
              [{ conn := m.conn, seq := m.seq, frame := m.frame, beads := m.beads, port := 0 }] } } ∧
            (connRecOf y k.connId).echo = some m.frame) ∧
          (checkCopy s cfg k l f.data.length (dlcLen (14 + m.nb + codeLen k)) m ≠ .accepted →
            (m.nb = k.beads → f.data.length = dlcLen (14 + m.nb + codeLen k) → safeCode s k l m.body = some m.code →
              Runs (.canSafeReceive f) s (countSafedisc { s with lane := s.lane.set l y })) ∧
            (m.nb ≠ k.beads ∨ f.data.length ≠ dlcLen (14 + m.nb + codeLen k) ∨ safeCode s k l m.body ≠ some m.code →
              Runs (.canSafeReceive f) s (countSafedisc { s with lane := s.lane.set l x })))))

/-- BULK: a data frame that is the next in order is kept and acknowledged; any other one is not kept and the last one in order is
acknowledged again. An acknowledgement ends the frames up to it, and where nothing waits for the peer nothing else follows. A
stream without an acknowledgement for 16 frames is resent, up to four times, and then given up and reported as failed. -/
def Obligations.BulkKeepsItsOrder : Prop :=
  (∀ (s : State) (p : PortId) (f : Frame) (stream wseq : Byte), stream = byteAt f.payload 0 → wseq = byteAt f.payload 1 →
    Waits s (fun f => f.cls == clsBulk) p f →
    (bitOf (byteAt f.payload 2) 0 = false →
      ∀ last want, last = tabFind s.fab.bulkIn (bulkKey f.src stream) → want = (match last with
          | some w => w + 1
          | none => 0#8) →
        (wseq = want → ∃ t, Runs .bulkReceive s t ∧ OnlyFabricAndJournal s t ∧ t.fab.inbox = s.fab.inbox.erase (p, f) ∧
          t.fab.bulkData = s.fab.bulkData ++ [f.payload.drop 3] ∧
          tabFind t.fab.bulkIn (bulkKey f.src stream) = some want ∧
          t = sendBulk { taken s p f with fab := { (taken s p f).fab with
            bulkIn := tabPut s.fab.bulkIn (bulkKey f.src stream) wseq
            bulkData := s.fab.bulkData ++ [f.payload.drop 3] } } f.src stream wseq 1 []) ∧
        (wseq ≠ want → ∀ w, last = some w → Runs .bulkReceive s (sendBulk (taken s p f) f.src stream w 1 [])) ∧
        (wseq ≠ want → last = none → Runs .bulkReceive s (taken s p f))) ∧
    (bitOf (byteAt f.payload 2) 0 = true →
      (∃ t, Runs .bulkReceive s t ∧ OnlyFabricAndJournal s t ∧ t.fab.bulkData = s.fab.bulkData ∧ t.fab.bulkIn = s.fab.bulkIn) ∧
      ((∀ y ∈ s.fab.streams, y.peer = f.src → y.waiting = []) →
        Runs .bulkReceive s { taken s p f with fab := { (taken s p f).fab with
          streams := s.fab.streams.map fun x => if isStream f.src stream x ∧ (afterAck wseq x.unacked).length ≠ x.unacked.length
            then { x with unacked := afterAck wseq x.unacked, resends := 0, idle := 0 } else x } }))) ∧
  (∀ (s : State) (peer stream : Byte),
    (∀ x, streamOf s peer stream = some x → x.unacked ≠ [] → 16 ≤ x.idle →
      (x.resends < 4 → ∃ t, Runs (.bulkResendTimeout peer stream) s t ∧ OnlyFabricAndJournal s t ∧
        streamOf t peer stream = some { x with resends := x.resends + 1, idle := 0 } ∧
        t = resendAll (setStream s peer stream fun y => { y with resends := y.resends + 1, idle := 0 }) x) ∧
      (4 ≤ x.resends → Runs (.bulkResendTimeout peer stream) s { s with fab := { s.fab with
        streams := s.fab.streams.filter fun y => !isStream peer stream y
        bulkFailed := s.fab.bulkFailed ++ [(peer, stream)] } })) ∧
    (∀ x, streamOf s peer stream = some x → x.unacked = [] ∨ x.idle < 16 → Runs (.bulkResendTimeout peer stream) s s) ∧
    (streamOf s peer stream = none → Runs (.bulkResendTimeout peer stream) s s))

/-- Remote commands at their two ends: segments are joined in order under their sender, path and IDX, and one out of order discards
the image and is counted; a complete request joins the target's queue, refused there where it names another station, and is
answered NAK_RETRY where the queue is full or its entry stands; a reply from its station with its CMD and TAG reaches the entry that awaits it, and any
other one is counted as late; an entry whose deadline passes, counted from the frame in which its SEG 0 was sent, ends with REMOTE_TIMEOUT. What
tells a reply from a late one, and the deadline of a request whose SEG 0 was lost with its port, are the model's choices (log 110; log 46 for the entries). -/
def Obligations.RemoteCommandsEnd : Prop :=
  ∀ (s : State) (p : PortId) (f : Frame), hearthLive s = true →
    ∀ (seg : Nat) (path : Bool) (idx : BitVec 2), seg = (byteAt f.payload 0).toNat % 4 → path = (segPath f.payload).1 →
    idx = (segPath f.payload).2 →
    (∀ (c : Instr) (key : Nat),
      (c = .remoteRequestReceive ∧ isWorker s = true ∧ Waits s (fun f => f.cls == clsMbx && !bitOf (byteAt f.payload 0) 3) p f ∧
        key = segKey f.payload) ∨
      (c = .remoteReplyReceive ∧ isManager s = true ∧ Waits s (fun f => f.cls == clsMbx && bitOf (byteAt f.payload 0) 3) p f ∧
        key = 16 * f.src.toNat + 8 + segKey f.payload) →
      (seg = 0 → bitOf (byteAt f.payload 0) 2 = false → tabFind s.fab.asm key = none →
        Runs c s { taken s p f with fab := { (taken s p f).fab with
          asm := tabPut s.fab.asm key { nextSeg := 1, bytes := f.payload.drop 1 } } }) ∧
      (∀ a, tabFind s.fab.asm key = some a → seg ≠ 0 →
        (a.nextSeg = seg → seg ≤ 2 → bitOf (byteAt f.payload 0) 2 = false →
          Runs c s { taken s p f with fab := { (taken s p f).fab with
            asm := tabPut s.fab.asm key { nextSeg := seg + 1, bytes := a.bytes ++ f.payload.drop 1 } } }) ∧
        (a.nextSeg ≠ seg → Runs c s (countMbxDiscarded { taken s p f with fab := { (taken s p f).fab with
          asm := tabDel s.fab.asm key } }))) ∧
      (seg ≠ 0 → tabFind s.fab.asm key = none → Runs c s (countMbxDiscarded (taken s p f)))) ∧
    (isWorker s = true → Waits s (fun f => f.cls == clsMbx && !bitOf (byteAt f.payload 0) 3) p f →
      seg = 0 → bitOf (byteAt f.payload 0) 2 = true →
      (queueFull s = false → entryOf s (.fabric path idx) = none →
        ∃ t e, Runs .remoteRequestReceive s t ∧ t.mbx.queue = s.mbx.queue ++ [e] ∧
          t = { s with fab := t.fab, mbx := { s.mbx with queue := t.mbx.queue }, stat := t.stat } ∧
          ∀ b, b = padTo 256 (f.payload.drop 1) →
            (byteAt b 5 = 0xFF#8 ∨ ownStation s = some (byteAt b 5) →
              e = entryFrom s (.fabric path idx) b (firstChecks b false)) ∧
            (byteAt b 5 ≠ 0xFF#8 → ownStation s ≠ some (byteAt b 5) →
              e = entryFrom s (.fabric path idx) b
                (if firstChecks b true = .waiting then refusedSt 0x0E#8 0 else firstChecks b true))) ∧
      (queueFull s = true ∨ (entryOf s (.fabric path idx)).isSome = true → tabFind s.fab.asm (segKey f.payload) = none →
        ∃ t, Runs .remoteRequestReceive s t ∧ t.mbx.queue.length = s.mbx.queue.length ∧
          t = sendImage { taken s p f with fab := { (taken s p f).fab with asm := tabDel s.fab.asm (segKey f.payload) } } 0x00
            (replyImage (byteAt f.payload 1) (byteAt f.payload 2) (byteAt f.payload 6) 0x0B#8 (leBytes 4 4)) true path idx)) ∧
    (isManager s = true → Waits s (fun f => f.cls == clsMbx && bitOf (byteAt f.payload 0) 3) p f →
      seg = 0 → bitOf (byteAt f.payload 0) 2 = true →
      (∀ e, sentEntry s path idx = some e → e.target = f.src ∧ byteAt f.payload 1 = e.cmd ∧ byteAt f.payload 2 = e.tag →
        ∃ t, Runs .remoteReplyReceive s t ∧ (entryOf t e.via).map (·.st) = some (.relayed (f.payload.drop 1)) ∧
          (∀ v, v ≠ e.via → entryOf t v = entryOf s v) ∧
          t = { s with fab := t.fab, mbx := { s.mbx with queue := t.mbx.queue }, stat := t.stat }) ∧
      (sentEntry s path idx = none ∨ (∃ e, sentEntry s path idx = some e ∧
          (e.target ≠ f.src ∨ byteAt f.payload 1 ≠ e.cmd ∨ byteAt f.payload 2 ≠ e.tag)) →
        ∃ t, Runs .remoteReplyReceive s t ∧ t.mbx = s.mbx ∧ t = { s with fab := t.fab, stat := t.stat } ∧
          t.stat.epoch.lateReplies = satInc s.stat.epoch.lateReplies)) ∧
    (∀ path idx e n, sentEntry s path idx = some e →
      e.st = .sent path idx (some n) ∨ (e.st = .sent path idx none ∧ n = e.taken) →
      (seg0Waits s path idx = false → boundFrames s e.cmd + 64 ≤ (s.core.frameNo - n).toNat →
        ∃ t, Runs (.remoteDeadline path idx) s t ∧ Denies s t e.via 0x0D#8 0) ∧
      (seg0Waits s path idx = true ∨ ¬ boundFrames s e.cmd + 64 ≤ (s.core.frameNo - n).toNat →
        Runs (.remoteDeadline path idx) s s)) ∧
    (∀ path idx, sentEntry s path idx = none → Runs (.remoteDeadline path idx) s s)

/-- The CAN FD tunnel: segments are kept in order, the last one makes a request that joins the queue, after the slots posted before it, and, where
HOSTWD[4] is set, kicks the host watchdog, or is answered BUSY; one out of order discards the request and is counted, and so does its
timeout, with the frames of it that had not begun. The CAN FD controller sends the frame that has won arbitration, or the lowest identifier; one sent without error leaves
the queue, one that failed stays and is counted; each entry to error passive and bus off are reported by the flag and a crumb, bus off sending
its frame back to the queue; the recovery clears both. The end of a frame offers the next one, and whether that wins the bus at once is a free value (log 103; log 44). -/
def Obligations.CanPortFollowsItsBus : Prop :=
  (∀ (s : State) (f : CanFrame) (busyNow : Bool), canUp s.can = false ∨ hearthLive s = false ∨ f.ext = true ∨ f.fdf = false ∨
    f.ident ≠ 0x400#29 + s.can.node.setWidth 29 → Runs (.canTunnelSegment ⟨f, busyNow⟩) s s) ∧
  (∀ (s : State) (f : CanFrame) (idx : BitVec 2) (busyNow : Bool) (seg : Nat) (last : Bool), canUp s.can = true →
    hearthLive s = true → f.ext = false → f.fdf = true →
    f.ident = 0x400#29 + s.can.node.setWidth 29 → idx = ((byteAt f.data 0) >>> 4).setWidth 2 →
    seg = (byteAt f.data 0).toNat % 8 → last = bitOf (byteAt f.data 0) 3 →
    (tabFind s.can.asm idx.toNat = none → seg = 0 → last = false →
      Runs (.canTunnelSegment ⟨f, busyNow⟩) s { s with can := { s.can with
        asm := tabPut s.can.asm idx.toNat { nextSeg := 1, bytes := f.data.drop 1 } } }) ∧
    (∀ a, tabFind s.can.asm idx.toNat = some a → a.nextSeg = seg → seg ≠ 0 → seg ≤ 4 → last = false →
      Runs (.canTunnelSegment ⟨f, busyNow⟩) s { s with can := { s.can with
        asm := tabPut s.can.asm idx.toNat { nextSeg := seg + 1, bytes := a.bytes ++ f.data.drop 1 } } }) ∧
    (∀ before b, (tabFind s.can.asm idx.toNat = none ∧ seg = 0 ∧ before = []) ∨
        (∃ a, tabFind s.can.asm idx.toNat = some a ∧ a.nextSeg = seg ∧ seg ≠ 0 ∧ seg ≤ 4 ∧ before = a.bytes) →
      b = before ++ f.data.drop 1 → last = true →
      ∀ u0 u, u0 = { s with can := { s.can with asm := tabDel s.can.asm idx.toNat } } → u = takeSlots 8 u0 →
      ((∀ k, k < 8 → slotState s k ≠ .posted) → u = u0) ∧
      (busyNow = false → queueFull u = false → entryOf u (.can idx) = none →
        byteAt (padTo 256 b) 5 = 0xFF#8 ∨ ownStation s = some (byteAt (padTo 256 b) 5) →
        Runs (.canTunnelSegment ⟨f, busyNow⟩) s { u with
          mbx := { u.mbx with queue := u.mbx.queue ++
            [entryFrom u (.can idx) (padTo 256 b) (firstChecks (padTo 256 b) false)] }
          host := if bitOf u.host.hostwd 4 then { u.host with wdCount := 0, wdExpired := false } else u.host }) ∧
      (busyNow = true ∨ queueFull u = true ∨ (entryOf u (.can idx)).isSome = true →
        ∃ t, Runs (.canTunnelSegment ⟨f, busyNow⟩) s t ∧ t.mbx = u.mbx ∧
          t.host = { u.host with irqStat1 := u.host.irqStat1 ||| 0x04#8 } ∧
          t = { sendTunnel u idx (replyImage (byteAt b 0) (byteAt b 1) (byteAt b 5) 0x01#8 (leBytes 4 0)) with host := t.host })) ∧
    (∀ gone, gone = (s.can.txq.filter fun x =>
        x.safe.isNone && ((byteAt x.data 0) >>> 4).setWidth 2 == idx && !x.won).length →
      ∀ c, (c = .canTunnelTimeout idx ∧ (tabFind s.can.asm idx.toNat).isSome = true) ∨
          (c = .canTunnelSegment ⟨f, busyNow⟩ ∧ seg ≠ 0 ∧ ∀ a, tabFind s.can.asm idx.toNat = some a → a.nextSeg ≠ seg ∨ 4 < seg) →
        ∃ t, Runs c s t ∧ tabFind t.can.asm idx.toNat = none ∧ t = { s with can := t.can, stat := t.stat } ∧
          (gone = 0 → t.stat.live.canerr = satInc s.stat.live.canerr) ∧
          t.stat.live.canerr = satInc (satAdd s.stat.live.canerr gone) ∧ SameClock s t) ∧
    (tabFind s.can.asm idx.toNat = none → Runs (.canTunnelTimeout idx) s s)) ∧
  (∀ s : State,
    (∀ x, s.can.txq = [x] → x.aborted = false → canUp s.can = true →
      Runs (.canTransmitEnd true) s { s with can := { s.can with txq := [] } } ∧
      ∃ t w, Runs (.canTransmitEnd false) s t ∧ t.can.txq = [{ x with won := w }] ∧
        t.stat.live.canerr = satInc s.stat.live.canerr) ∧
    (∀ x gone again, canUp s.can = true → (s.can.txq.find? fun t => t.won) = some x ∨
        ((s.can.txq.find? fun t => t.won) = none ∧ lowestCan s.can.txq = some x) →
      gone = { s with can := { s.can with txq := delFirst (fun y => y == x) s.can.txq } } →
      again = { s with can := { s.can with
        txq := modFirst (fun y => y == x) (fun y => { y with won := false }) s.can.txq } } →
      (x.aborted = false → Runs (.canTransmitEnd true) s (canStart gone) ∧
        Runs (.canTransmitEnd false) s (canStart (countCanerr again))) ∧
      (x.aborted = true → Runs (.canTransmitEnd true) s (canStart (countCanerr gone)) ∧
        Runs (.canTransmitEnd false) s (canStart (countCanerr (countCanerr gone))))) ∧
    (canUp s.can = false ∨ s.can.txq = [] → ∀ ok, Runs (.canTransmitEnd ok) s s) ∧
    (canUp s.can = true →
      ∃ t, Runs .canErrorPassive s t ∧ t.can = { s.can with errorPassive := true } ∧
        t.host = { s.host with irqStat1 := s.host.irqStat1 ||| 0x04#8 } ∧
        t = { s with can := t.can, host := t.host, jrn := t.jrn, stat := t.stat } ∧ SameStore s t ∧ SameClock s t) ∧
    (canUp s.can = false → Runs .canErrorPassive s s) ∧
    (canUp s.can = true → ∃ t, Runs .canBusOff s t ∧ t.can.busOff = true ∧ (∀ x ∈ t.can.txq, x.won = false) ∧
      t.can = { s.can with busOff := true, txq := t.can.txq } ∧
      t.stat.live.canerr = satAdd s.stat.live.canerr (s.can.txq.filter fun x => x.won && x.aborted).length ∧
      t.host = { s.host with irqStat1 := s.host.irqStat1 ||| 0x04#8 } ∧
      t = { s with can := t.can, host := t.host, jrn := t.jrn, stat := t.stat } ∧ SameStore s t ∧ SameClock s t) ∧
    (canUp s.can = false → Runs .canBusOff s s) ∧
    (s.can.busOff = true → ∃ t, Runs .canBusOffRecovery s t ∧ t = { s with can := t.can, drawn := t.drawn } ∧
      t.can = { s.can with busOff := false, errorPassive := false, txq := t.can.txq } ∧
      t.can.txq.map (fun x => { x with won := false }) = s.can.txq.map (fun x => { x with won := false })) ∧
    (s.can.busOff = false → Runs .canBusOffRecovery s s))

/-! ## Field inputs -/

/-- RAW_INPUT_CHANGE, DEBOUNCE_EXPIRY and OSSD_PULSE_TIMEOUT: a level held for its DEBOUNCE by then has been taken over, its
timestamp queued where configured or counted as an overflow; a raw change starts the debounce anew, or ends it where the level comes back, and takes
effect at once on an input without DEBOUNCE, and a rise that the end of a pulse leaves as it was goes on from where it began; the first raw edge of a reference input captures its
pair's count; a level that has held to within 10 us of DEBOUNCE is taken over at its expiry; an OSSD input without a pulse for its
period is late. Timestamps are rounded down to 100 ns (log 89). What does not apply changes nothing. -/
def Obligations.InputLevelsAreDebounced : Prop :=
  ∀ (ch : InChan) (o : BitVec 20) (s u v : State) (x z : CrustSt) (i j k : InSt) (now : Stamp), now = stampAt s o →
    j = inOf (s.crust.at ch.crust) ch.num.val →
    v = settleInput now ch.crust s ch.num.val → z = v.crust.at ch.crust → k = inOf z ch.num.val →
    u = settleInput now ch.crust (atOff s o) ch.num.val → x = u.crust.at ch.crust → i = inOf x ch.num.val →
    (j.pend = none ∨ inputEntry (crustMap s ch.crust) (chanIn ch.crust ch.num.val) = none → u = atOff s o ∧ v = s) ∧
    (∀ p e, j.pend = some p → inputEntry (crustMap s ch.crust) (chanIn ch.crust ch.num.val) = some e →
      (isLevelMode (inputMode e) = false ∨ j.raw = j.deb ∨ unitsBetween s p now < (inputDebounce e : Int) →
        u = atOff s o ∧ v = s) ∧
      (isLevelMode (inputMode e) = true → j.raw ≠ j.deb → (inputDebounce e : Int) ≤ unitsBetween s p now →
        u = { v with core := { v.core with off := o } } ∧
        v = { s with crust := s.crust.set ch.crust z, mbx := { s.mbx with learn := v.mbx.learn } } ∧
        k.deb = j.raw ∧ k.raw = j.raw ∧ k.pend = none ∧
        (inputStamped e = true → j.stamps.length < 16 →
          k.stamps = j.stamps ++ [{ at_ := stampGrid (j.pendStamp.getD p), level := j.raw }]))) ∧
    (∀ level, i.raw = level ∨ x.logicPower = false → Runs (.rawInputChange ch level o) s u) ∧
    (∀ level, i.raw ≠ level → x.logicPower = true →
      (∀ e, inputEntry (crustMap u ch.crust) (chanIn ch.crust ch.num.val) = some e → isLevelMode (inputMode e) = false) →
      ∃ y, Runs (.rawInputChange ch level o) s (onCrust u ch.crust y) ∧
        y = { x with ins := y.ins, quads := y.quads } ∧ (∀ n, n ≠ ch.num.val → inOf y n = inOf x n) ∧
        inOf y ch.num.val = { i with raw := level, fellAt := if level then i.fellAt else some now }) ∧
    (∀ level e, i.raw ≠ level → x.logicPower = true →
      inputEntry (crustMap u ch.crust) (chanIn ch.crust ch.num.val) = some e → isLevelMode (inputMode e) = true →
      (inputDebounce e ≠ 0 →
        ∃ y, Runs (.rawInputChange ch level o) s (onCrust u ch.crust y) ∧
          y = { x with ins := y.ins, quads := y.quads } ∧ (∀ n, n ≠ ch.num.val → inOf y n = inOf x n) ∧
          (∀ p, p ∉ refPairs (crustMap u ch.crust) ch.crust ch.num.val → quadOf y p = quadOf x p) ∧
          (beginsChange u e i level now = false → y.quads = x.quads) ∧
          (beginsChange u e i level now = true → ∀ p ∈ refPairs (crustMap u ch.crust) ch.crust ch.num.val,
            quadOf y p = { quadOf x p with
              refCount := if (quadOf x p).count = (quadOf x p).turn then some (quadOf x p).count else none, refAt := some now }) ∧
          ∀ own start, own = ownOssdPulse u e i level now →
            start = (match resumedRise u e i level now with
              | some p => p
              | none => if own then stampAfter u now 5000 else changeTimedFrom u e i level now) →
            inOf y ch.num.val = { i with
              raw := level
              fellAt := if level then i.fellAt else some now
              pend := if level = i.deb then none else some start
              pendStamp := if level = i.deb then none else some (stampOf u e i level start now)
              riseHeld := riseKept u e i level now
              ossdMark := if own then some now else i.ossdMark
              ossdLate := if own then false else i.ossdLate
              ossdSeen := i.ossdSeen || (own && i.deb) }) ∧
      (inputDebounce e = 0 → refPairs (crustMap u ch.crust) ch.crust ch.num.val = [] →
        ∃ y, Runs (.rawInputChange ch level o) s (onCrust u ch.crust y) ∧ y = { x with ins := y.ins } ∧
          (∀ n, n ≠ ch.num.val → inOf y n = inOf x n) ∧ (inOf y ch.num.val).raw = level ∧
          (inOf y ch.num.val).deb = level ∧ (inOf y ch.num.val).pend = none)) ∧
    (∀ p e, k.pend = some p → inputEntry (crustMap v ch.crust) (chanIn ch.crust ch.num.val) = some e →
      (isLevelMode (inputMode e) = true → k.raw ≠ k.deb → heldLongEnough v e p now = true →
        (∃ t, Runs (.debounceExpiry ch o) s t ∧
          t = { v with core := { v.core with off := o }, crust := v.crust.set ch.crust (t.crust.at ch.crust),
                       mbx := { v.mbx with learn := t.mbx.learn } } ∧
          (inOf (t.crust.at ch.crust) ch.num.val).deb = k.raw ∧ (inOf (t.crust.at ch.crust) ch.num.val).pend = none ∧
          (inputStamped e = true → k.stamps.length < 16 →
            (inOf (t.crust.at ch.crust) ch.num.val).stamps =
              k.stamps ++ [{ at_ := stampGrid (k.pendStamp.getD p), level := k.raw }]) ∧
          (inputStamped e = true → 16 ≤ k.stamps.length →
            (inOf (t.crust.at ch.crust) ch.num.val).stamps = k.stamps ∧
            (inOf (t.crust.at ch.crust) ch.num.val).overflow = k.overflow + 1)) ∧
        (refPairs (crustMap v ch.crust) ch.crust ch.num.val = [] → inputStamped e = false →
          Runs (.debounceExpiry ch o) s (atOff (onCrust v ch.crust (modIn z ch.num.val fun i => { i with
            deb := i.raw, pend := none, pendStamp := none, riseHeld := none
            ossdMark := if i.raw then some now else i.ossdMark, ossdLate := if i.raw then false else i.ossdLate })) o))) ∧
      (isLevelMode (inputMode e) = false ∨ k.raw = k.deb ∨ heldLongEnough v e p now = false →
        Runs (.debounceExpiry ch o) s v)) ∧
    (k.pend = none → Runs (.debounceExpiry ch o) s v) ∧
    (∀ mk e, j.ossdMark = some mk → inputEntry (crustMap s ch.crust) (chanIn ch.crust ch.num.val) = some e →
      (inputMode e = 3#8 → inputOssdp e ≠ 0 → j.deb = true →
        (inputOssdp e * 100000 : Int) ≤ unitsBetween s mk now →
        Runs (.ossdPulseTimeout ch o) s
          (atOff (onCrust s ch.crust (modIn (s.crust.at ch.crust) ch.num.val fun i => { i with ossdLate := true })) o)) ∧
      (inputMode e ≠ 3#8 ∨ inputOssdp e = 0 ∨ j.deb = false ∨ unitsBetween s mk now < (inputOssdp e * 100000 : Int) →
        Runs (.ossdPulseTimeout ch o) s s))

/-- TEST_PULSE and RETRY_PULSE: in its slot, or in the frame after a failure where an input awaits the retry, a source that works
pulses once a frame from 0.1 Tf, its own Tested inputs masked; otherwise the two do nothing. PULSE_TEST_SAMPLE: an input of the
source that went to 0 from a debounced 1 passes whatever the readback, which sets T in the regular slot; one that did not reports
MISSED_PULSE and awaits a retry, and a second failure clears T; an input of another source that went to 0 with it reports
FOREIGN_PULSE; a pulse not confirmed is SRC_READBACK against the source; no test is judged while the supply is bad.
SRC_OVERCURRENT is reported outside a pulse alone. A source in probation, which is held off, keeps its schedule and its test, the
input that a foreign pulse reaches is judged on its own crust alone, and a test of one source leaves the retries due from others: the model's choice
(logs 24, 107, 119). -/
def Obligations.PulseTestsSetT : Prop :=
  (∀ (src : SrcId) (s : State) (x : CrustSt) (m : List (List Byte)) (now : Stamp), x = s.crust.at src.crust →
    m = crustMap s src.crust →
    now = { frame := s.core.frameNo, off := BitVec.ofNat 20 (tfUnits s.core.tfCode / 10) } →
    (sourceRuns s src = true → (srcOf x src.num.val).pulsed = false →
      ∀ c, (c = .testPulse src ∧ slotOf s = sourceSlot src) ∨
          (c = .retryPulse src ∧ ∃ n ∈ testedInputs m src.crust, retryDue s src.num (inOf x n) = true) →
        ∃ y, Runs c s (atOff (onCrust s src.crust y) now.off) ∧
          y = { x with ins := y.ins, srcs := y.srcs } ∧
          srcOf y src.num.val = { srcOf x src.num.val with pulseAt := some now, pulsed := true } ∧
          (∀ k, k ≠ src.num.val → srcOf y k = srcOf x k) ∧
          (∀ n ∈ testedInputs m src.crust, inOf y n = { inOf x n with
            rawAtPulse := (inOf x n).raw
            riseHeld := if sourceOfInput m src.crust n = src.num.val then none else (inOf x n).riseHeld
            maskUntil := if sourceOfInput m src.crust n = src.num.val
              then some (stampAfter s now (sourcePw m src.crust src.num.val + 5000)) else (inOf x n).maskUntil
            maskFrom := if sourceOfInput m src.crust n = src.num.val then some now else (inOf x n).maskFrom }) ∧
          (∀ n, n ∉ testedInputs m src.crust → inOf y n = inOf x n)) ∧
    (sourceRuns s src = false ∨ (srcOf x src.num.val).pulsed = true ∨ slotOf s ≠ sourceSlot src →
      Runs (.testPulse src) s s) ∧
    (sourceRuns s src = false ∨ (srcOf x src.num.val).pulsed = true ∨
      (∀ n ∈ testedInputs m src.crust, retryDue s src.num (inOf x n) = false) → Runs (.retryPulse src) s s)) ∧
  (∀ (src : SrcId) (sample maskEnd : BitVec 24) (mv : Nat) (s : State) (x : CrustSt) (m : List (List Byte)),
    x = s.crust.at src.crust → m = crustMap s src.crust →
    (∀ p regular, (srcOf x src.num.val).pulseAt = some p → regular = (slotOf s == sourceSlot src) →
      ∃ y, Runs (.pulseTestSample src sample maskEnd mv) s
          (atOff (onCrust s src.crust y) (BitVec.ofNat 20 (p.off.toNat + sourcePw m src.crust src.num.val - 1000))) ∧
        y = { x with ins := y.ins, srcs := y.srcs } ∧ (∀ k, k ≠ src.num.val → srcOf y k = srcOf x k) ∧
        (∀ n, n ∉ testedInputs m src.crust → inOf y n = inOf x n) ∧
        (supplyBad x = true → srcOf y src.num.val = { srcOf x src.num.val with pulseAt := none } ∧
          ∀ n ∈ testedInputs m src.crust, inOf y n = (inOf x n).dropRetry src.num) ∧
        (supplyBad x = false → srcOf y src.num.val =
          (if mv < 5500 then { srcOf x src.num.val with
              pulseAt := none, readbackOk := (srcOf x src.num.val).readbackOk || regular }
            else { srcOf x src.num.val with
              pulseAt := none, anomaly := firstAnomaly (srcOf x src.num.val).anomaly 0x12#8 })) ∧
        (supplyBad x = false → ∀ n ∈ testedInputs m src.crust, ∀ i retrying kept, i = inOf x n →
          retrying = retryDue s src.num i → kept = i.retry.filter (fun e => e.1 != src.num) →
          (regular = false → retrying = false → inOf y n = i) ∧
          (regular = true ∨ retrying = true → sourceOfInput m src.crust n = src.num.val →
            ((sample.getLsbD n = false ∧ i.deb = true) ∨ (sample.getLsbD n = false ∧ mv < 5500) →
              (inOf y n).anomaly = i.anomaly ∧ (inOf y n).retry = kept ∧
              (regular = true → (inOf y n).pulseT = true ∧ (inOf y n).sincePulse = 0) ∧
              (regular = false → (inOf y n).pulseT = i.pulseT ∧
                (inOf y n).sincePulse = (if i.pulseT then 0 else i.sincePulse))) ∧
            (sample.getLsbD n = true → mv < 5500 →
              (inOf y n).anomaly = firstAnomaly i.anomaly 0x03#8 ∧
              (retrying = true → (inOf y n).pulseT = false ∧ (inOf y n).retry = kept) ∧
              (retrying = false → (inOf y n).pulseT = i.pulseT ∧
                (inOf y n).retry = kept ++ [(src.num, s.core.frameNo)])) ∧
            (¬ (sample.getLsbD n = false ∧ i.deb = true) → 5500 ≤ mv → inOf y n = i)) ∧
          (regular = true ∨ retrying = true → sourceOfInput m src.crust n ≠ src.num.val →
            ((srcOf x (sourceOfInput m src.crust n)).pulsed = true →
              (inOf y n).pulseT = i.pulseT ∧ (inOf y n).anomaly = i.anomaly) ∧
            ((srcOf x (sourceOfInput m src.crust n)).pulsed = false →
              (i.rawAtPulse = true → sample.getLsbD n = false → maskEnd.getLsbD n = true →
                (inOf y n).anomaly = firstAnomaly i.anomaly 0x04#8 ∧
                (retrying = true → (inOf y n).pulseT = false ∧ (inOf y n).retry = kept) ∧
                (retrying = false → (inOf y n).pulseT = i.pulseT ∧
                  (inOf y n).retry = kept ++ [(src.num, s.core.frameNo)])) ∧
              (i.rawAtPulse = false ∨ sample.getLsbD n = true ∨ maskEnd.getLsbD n = false →
                (inOf y n).pulseT = i.pulseT ∧ (inOf y n).anomaly = i.anomaly ∧
                (inOf y n).retry = (if retrying then kept else i.retry)))))) ∧
    ((srcOf x src.num.val).pulseAt = none → Runs (.pulseTestSample src sample maskEnd mv) s s) ∧
    (sourceRuns s src = true → (srcOf x src.num.val).active = true → (srcOf x src.num.val).pulseAt = none →
      Runs (.srcOvercurrent src) s (onCrust s src.crust (modSrc x src.num.val fun z =>
        { z with anomaly := firstAnomaly z.anomaly 0x10#8 }))) ∧
    ((srcOf x src.num.val).pulseAt.isSome = true ∨ sourceRuns s src = false ∨ (srcOf x src.num.val).active = false → Runs (.srcOvercurrent src) s s))

/-- THRESHOLD_CHECK: in slots 0 to 11 the two inputs of the slot are checked: a pass starts the count of frames since the last
one again, a failure reports THRESHOLD; an input not in use is left as it is. ANALOG_CONVERSION and STALL: a completed conversion
becomes the reading, the next sequence number and fresh, is marked bad beyond the range and counted; in slots 12 to 15 the
reference check starts its frame count again or reports REFERENCE at every analog input of the crust; a converter without a result
for 3 ms is STALL (log 26). -/
def Obligations.ReferencesAreChecked : Prop :=
  (∀ (c : Side) (p0 p1 : Bool) (s : State) (x : CrustSt), x = s.crust.at c →
    (s.core.tickOn = true → x.handshake = true → x.logicPower = true → slotOf s < 12 →
      ∃ y, Runs (.thresholdCheck c p0 p1) s (atOff (onCrust s c y) (BitVec.ofNat 20 (tfUnits s.core.tfCode / 20))) ∧
        y = { x with ins := y.ins } ∧ (∀ n, n ≠ 2 * slotOf s → n ≠ 2 * slotOf s + 1 → inOf y n = inOf x n) ∧
        ∀ n p, (n = 2 * slotOf s ∧ p = p0) ∨ (n = 2 * slotOf s + 1 ∧ p = p1) →
          inOf y n = (if modeOfInput (crustMap s c) (chanIn c n) = 0#8 then inOf x n
            else if p then { inOf x n with sinceThreshold := 0 }
            else { inOf x n with anomaly := firstAnomaly (inOf x n).anomaly 0x02#8 })) ∧
    (s.core.tickOn = false ∨ x.handshake = false ∨ x.logicPower = false ∨ 12 ≤ slotOf s →
      Runs (.thresholdCheck c p0 p1) s s)) ∧
  (∀ (ch : AnaId) (mv : Nat) (r : Option Bool) (s : State) (x : CrustSt) (beyond : Bool), x = s.crust.at ch.crust →
    beyond = analogBeyond (crustMap s ch.crust) ch.crust ch.num.val mv →
    (x.logicPower = true → s.core.inReset = false →
      ∃ t y, Runs (.analogConversion ch mv r) s t ∧ t = { onCrust s ch.crust y with jrn := t.jrn, stat := t.stat } ∧
        y = { x with ana := y.ana, sinceReference := y.sinceReference } ∧
        (∀ k, k < 4 → ∀ a, a = (if k = ch.num.val then { anaOf x k with
              mv := mv, seq := (anaOf x k).seq + 1, fresh := true, stalled := false, bad := (anaOf x k).bad || beyond }
            else anaOf x k) →
          anaOf y k = (if 12 ≤ slotOf s ∧ r = some false then { a with anomaly := if a.anomaly = 0 then 0x18#8 else a.anomaly }
            else a)) ∧
        y.sinceReference = (if 12 ≤ slotOf s ∧ r = some true then 0 else x.sinceReference) ∧
        t.stat = (if (analogEntry (crustMap s ch.crust) ch.crust ch.num.val).isSome && beyond
          then (countAnalogOver s 1).stat else s.stat) ∧
        t.jrn = (if hearthLive s then { s.jrn with
            cycles := ⟨cycleSample s ch.crust ch.num.val mv 0 s.jrn.cycles.a, cycleSample s ch.crust ch.num.val mv 1 s.jrn.cycles.b⟩ }
          else s.jrn)) ∧
    (x.logicPower = false ∨ s.core.inReset = true → Runs (.analogConversion ch mv r) s s) ∧
    (x.logicPower = true → s.core.inReset = false → (analogEntry (crustMap s ch.crust) ch.crust ch.num.val).isSome = true →
      Runs (.stall ch) s (onCrust s ch.crust (modAna x ch.num.val fun a =>
        { a with stalled := true, bad := true, anomaly := if a.anomaly = 0 then 0x19#8 else a.anomaly }))) ∧
    (x.logicPower = false ∨ s.core.inReset = true ∨ analogEntry (crustMap s ch.crust) ch.crust ch.num.val = none → Runs (.stall ch) s s))

/-- COUNTER_EDGE: an edge that holds for FILTER is taken; a rising edge counts by 1 up to 2^31 - 1, or gives the interval of a
Frequency input, unless it follows the last edge within 4 us, which freezes the count and reports OVERRATE; a quadrature edge moves
the position by 1 in the direction the other phase gives, unless either phase is over its rate; a change of both phases within the
filter time is ILLEGAL and leaves the count, and an edge within one filter time of the reference edge that homed the pair leaves
the count where the homing put it (log 126). The reverse flag of a pair is its first input's (log 118);
FILTER decides of both phases (log 25). FREQUENCY_TIMEOUT: 4 s without an edge end the report of a frequency. -/
def Obligations.CountersFollowTheirEdges : Prop :=
  ∀ (ch : InChan) (level : Bool) (held : Nat) (other : Option Nat) (o : BitVec 20) (s : State) (x : CrustSt) (i : InSt)
    (m : List (List Byte)) (now : Stamp) (soon : Bool), x = s.crust.at ch.crust → i = inOf x ch.num.val →
    m = crustMap s ch.crust → now = stampAt s o → soon = edgeTooSoon s i now →
    (inputEntry m (chanIn ch.crust ch.num.val) = none ∨ i.raw = level → Runs (.counterEdge ch level ⟨held, other⟩ o) s s) ∧
    (∀ e, inputEntry m (chanIn ch.crust ch.num.val) = some e →
      (held < inputFilter e ∨ (inputMode e ≠ 4#8 ∧ inputMode e ≠ 5#8 ∧ inputMode e ≠ 6#8) →
        Runs (.counterEdge ch level ⟨held, other⟩ o) s s) ∧
      (i.raw ≠ level → inputFilter e ≤ held →
        (inputMode e = 4#8 → Runs (.counterEdge ch level ⟨held, other⟩ o) s
          (atOff (onCrust s ch.crust (modIn x ch.num.val fun _ => { i with
            raw := level, deb := level, lastAny := some now
            overrate := i.overrate || soon
            anomaly := if soon then firstAnomaly i.anomaly 0x06#8 else i.anomaly
            count := if level && !i.overrate && !soon && decide (i.count.toNat < 0x7FFFFFFF) then i.count + 1 else i.count }))
            o)) ∧
        (inputMode e = 5#8 → ∃ j, Runs (.counterEdge ch level ⟨held, other⟩ o) s
            (atOff (onCrust s ch.crust (modIn x ch.num.val fun _ => j)) o) ∧ j.raw = level ∧ j.deb = level ∧
          j.count = i.count ∧ j.anomaly = (if soon then firstAnomaly i.anomaly 0x06#8 else i.anomaly) ∧
          (level = true → j.silent = false ∧ j.lastEdge = some now ∧
            j.period = (match i.lastEdge with
              | some p => (unitsBetween s p now).toNat
              | none => 0)) ∧
          (level = false → j.silent = i.silent ∧ j.lastEdge = i.lastEdge ∧ j.period = i.period)) ∧
        (∀ q fe n p ph, inputMode e = 6#8 → n = ch.num.val → p = n / 2 → ph = (if n % 2 = 0 then n + 1 else n - 1) →
          quadEntry m (sideBase ch.crust + p) = some q → inputEntry m (chanIn ch.crust (2 * p)) = some fe →
          (∀ d, other = some d → d ≤ inputFilter e →
            ∃ y, Runs (.counterEdge ch level ⟨held, other⟩ o) s (atOff (onCrust s ch.crust y) o) ∧
              y = { x with ins := y.ins, quads := y.quads } ∧
              quadOf y p = { quadOf x p with sinceIllegal := 0 } ∧ (∀ k, k ≠ p → quadOf y k = quadOf x k) ∧
              (inOf y n).raw = level ∧ (inOf y ph).raw = !(inOf x ph).raw ∧
              (∀ k late, (k = n ∨ k = ph) → late = edgeTooSoon s (inOf x k) now →
                (inOf y k).overrate = ((inOf x k).overrate || late) ∧
                ∀ a, a = (if late then firstAnomaly (inOf x k).anomaly 0x06#8 else (inOf x k).anomaly) →
                  (inOf y k).anomaly = (if k = 2 * p then firstAnomaly a 0x05#8 else a)) ∧
              (∀ k, k ≠ n → k ≠ ph → inOf y k = inOf x k)) ∧
          ((∀ d, other = some d → inputFilter e < d) →
            ∃ t y, Runs (.counterEdge ch level ⟨held, other⟩ o) s t ∧ y = t.crust.at ch.crust ∧
              t = { atOff (onCrust s ch.crust y) o with mbx := { s.mbx with learn := t.mbx.learn } } ∧
              ((∀ r, (quadOf x p).lastRef ≠ some (r, false)) ∨ s.mbx.learn = none → t.mbx.learn = s.mbx.learn) ∧
              y = { x with ins := y.ins, quads := y.quads } ∧ (∀ k, k ≠ p → quadOf y k = quadOf x k) ∧
              (∀ k, k ≠ n → inOf y k = inOf x k) ∧
              inOf y n = { i with raw := level, deb := level, lastAny := some now, overrate := i.overrate || soon
                                  anomaly := if soon then firstAnomaly i.anomaly 0x06#8 else i.anomaly } ∧
              (i.overrate = true ∨ soon = true ∨ (inOf x ph).overrate = true → y.quads = x.quads) ∧
              (i.overrate = false → soon = false → (inOf x ph).overrate = false →
                (∀ r, (quadOf x p).lastRef = some (r, true) → (unitsBetween s r now).natAbs ≤ inputFilter e →
                  (quadOf y p).count = (quadOf x p).count) ∧
                ((∀ r, (quadOf x p).lastRef = some (r, true) → inputFilter e < (unitsBetween s r now).natAbs) →
                  (quadOf y p).count = (if (if n % 2 = 0 then level != (inOf x ph).raw else (inOf x ph).raw == level) !=
                    inputReverse fe then (quadOf x p).count + 1 else (quadOf x p).count - 1)) ∧
                (quadOf y p).homed = (quadOf x p).homed ∧ (quadOf y p).sinceIllegal = (quadOf x p).sinceIllegal))))) ∧
    (∀ p, i.lastEdge = some p →
      (modeOfInput m (chanIn ch.crust ch.num.val) = 5#8 → 400000000 ≤ unitsBetween s p (stampAt s s.core.off) →
        Runs (.frequencyTimeout ch) s (onCrust s ch.crust (modIn x ch.num.val fun i =>
          { i with silent := true, lastEdge := none, period := 0 }))) ∧
      (modeOfInput m (chanIn ch.crust ch.num.val) ≠ 5#8 ∨ unitsBetween s p (stampAt s s.core.off) < 400000000 →
        Runs (.frequencyTimeout ch) s s)) ∧
    (i.lastEdge = none → Runs (.frequencyTimeout ch) s s)

/-! ## Field outputs -/

/-- LEG_READBACK at 40 us: where every judged leg conducts as commanded nothing is reported; the one leg that does not reports
STUCK_OFF or STUCK_ON, at the leg that holds its group's tally; no leg is switched. HIGH_SIDE_PROBE and LOW_SIDE_PROBE of a pair
whose probe is due: a current of 10 mA or more, or a current sense out of order, is PROBE_SHORT and the crust holds the group open
at the next commit; a land that does not follow is LOAD_OPEN while both lanes serve; otherwise the probe has passed (log 28). A probe that
is not due changes nothing; none is due in CONFIGURE, SAFE_HOLD and SHUTDOWN, nor on a crust without its field supply. -/
def Obligations.ReadbackAndProbesFindShorts : Prop :=
  (∀ (c : Side) (w : BitVec 17) (s : State) (x : CrustSt), x = s.crust.at c →
    (crustWorks s c = true →
      (∃ y, Runs (.legReadback c w) s (atOff (onCrust s c y) 4000) ∧ y = { x with legs := y.legs } ∧
        ∀ n, (legOf y n).cmd = (legOf x n).cmd) ∧
      ((∀ n, n < 17 → legUnjudged (legOf x n) = true ∨ w.getLsbD n = (legOf x n).cmd) →
        Runs (.legReadback c w) s (atOff s 4000)) ∧
      (∀ n, n < 17 → legUnjudged (legOf x n) = false → w.getLsbD n ≠ (legOf x n).cmd →
        (∀ k, k < 17 → k ≠ n → legUnjudged (legOf x k) = true ∨ w.getLsbD k = (legOf x k).cmd) →
        Runs (.legReadback c w) s (atOff (onCrust s c (modLeg x (tallyLeg (paramsOf s c) c n) fun l =>
          { l with anomaly := firstAnomaly l.anomaly (if (legOf x n).cmd then 0x26#8 else 0x20#8) })) 4000))) ∧
    (crustWorks s c = false → Runs (.legReadback c w) s s)) ∧
  (∀ (c : Side) (pair : Fin 17) (mv ma : Nat) (s : State) (x : CrustSt) (cmd : Instr) (ok : Bool),
    x = s.crust.at c →
    ((c = .a ∧ cmd = .highSideProbe pair mv ma ∧ ok = decide (14000 ≤ mv)) ∨
      (c = .b ∧ cmd = .lowSideProbe pair mv ma ∧ ok = decide (mv ≤ 2000))) →
    (pairBlock (paramsOf s c) pair.val = none → Runs cmd s s) ∧
    (s.core.mode = .configure ∨ s.core.mode = .safeHold ∨ s.core.mode = .shutdown ∨ x.lockout = true ∨ x.overvolt = true →
      Runs cmd s s) ∧
    ∀ i r, pairBlock (paramsOf s c) pair.val = some (i, r) →
    (probeDue s c pair (paramsOf s c) r = false → Runs cmd s s) ∧
    (probeDue s c pair (paramsOf s c) r = true →
      ∀ head, head = tallyLeg (paramsOf s c) c ((groupLegs r c).headD 0) →
      ∃ y, Runs cmd s (atOff (onCrust s c y) (BitVec.ofNat 20 (match c with
          | .a => highWindow s.core.tfCode
          | .b => lowWindow s.core.tfCode))) ∧
        y = { x with legs := y.legs, probePass := y.probePass } ∧
        (∀ n, (legOf y n).cmd = (legOf x n).cmd) ∧
        (10 ≤ ma ∨ (∃ n ∈ groupLegs r c, (legOf x n).senseBad = true) →
          y.probePass = x.probePass ∧ (∀ n ∈ groupLegs r c, (legOf y n).holdNext = true) ∧
          (legOf y head).anomaly = firstAnomaly (legOf x head).anomaly 0x25#8) ∧
        (ma < 10 → (∀ n ∈ groupLegs r c, (legOf x n).senseBad = false) →
          (laneLive s c.other = true → ok = false → y.probePass = x.probePass ∧
            y.legs = (modLeg x head fun l => { l with anomaly := firstAnomaly l.anomaly 0x27#8 }).legs) ∧
          (laneLive s c.other = false ∨ ok = true → pair.val ∈ y.probePass ∧ y.legs = x.legs))))

/-- DARK_PULSE on a leg whose pulse is due: not seen open is STUCK_ON, not conducting again is STUCK_OFF, and otherwise nothing
is reported; the commanded state stays. LAND_SAMPLE keeps, for each working crust, the pairs seen energised or drawing a
current while commanded off, and those that carry a current. The current that counts as drawn is the model's choice (log 27). -/
def Obligations.DarkPulsesAndLandSamples : Prop :=
  ∀ s : State,
    (∀ leg open_ again, darkBlock s leg = none → Runs (.darkPulse leg open_ again) s s) ∧
    (∀ leg open_ again r, darkBlock s leg = some r →
      ((crustWorks s leg.crust && darkPulseDue s leg r) = true →
        Runs (.darkPulse leg open_ again) s (atOff (if open_ && again then s else
          onCrust s leg.crust (modLeg (s.crust.at leg.crust) (tallyLeg (paramsOf s leg.crust) leg.crust leg.num.val) fun l =>
            { l with anomaly := firstAnomaly l.anomaly (if open_ then 0x26#8 else 0x20#8) }))
          (BitVec.ofNat 20 (match leg.crust with
            | .a => highWindow s.core.tfCode
            | .b => lowWindow s.core.tfCode)))) ∧
      ((crustWorks s leg.crust && darkPulseDue s leg r) = false → Runs (.darkPulse leg open_ again) s s)) ∧
    (∀ hi lo, s.core.tickOn = true →
      ∃ t, Runs (.landSample hi lo) s t ∧
        t = { s with core := { s.core with off := BitVec.ofNat 20 (tfUnits s.core.tfCode * 9 / 10) }, crust := t.crust } ∧
        ∀ c r hot, (c = .a ∧ r = hi ∧ hot = fun mv => decide (14000 ≤ mv)) ∨
            (c = .b ∧ r = lo ∧ hot = fun mv => decide (mv ≤ 2000)) →
          (crustWorks s c = false → t.crust.at c = s.crust.at c) ∧
          (crustWorks s c = true → t.crust.at c = { s.crust.at c with
            landHot := pairsHot (s.crust.at c) (paramsOf s c) c fun n => hot (r.mv.toList.getD n 0)
            drawn := pairsHot (s.crust.at c) (paramsOf s c) c fun n => decide (10 ≤ r.ma.toList.getD n 0)
            carries := pairsWith (paramsOf s c) c fun n => decide (10 ≤ r.ma.toList.getD n 0) })) ∧
    (∀ hi lo, s.core.tickOn = false → Runs (.landSample hi lo) s s)

/-- Trips of a leg: OVERCURRENT outside blanking, or a limit or the thermal cut still active when BLANK has run out at
BLANKING_END, opens its whole group and reports OVERCURRENT; THERMAL cuts it open, outside blanking with a report, and
THERMAL_RECLOSE ends the cut alone (log 29). -/
def Obligations.TripsOpenTheGroup : Prop :=
  ∀ (leg : LegId) (s : State) (x : CrustSt) (l : LegSt), x = s.crust.at leg.crust → l = legOf x leg.num.val →
    (∀ cmd, (cmd = .overcurrent leg ∧ l.cmd = true ∧ l.blanking = false ∧ l.tripped = false ∧ l.thermal = false) ∨
        (∃ limit, cmd = .blankingEnd leg limit ∧ l.blanking = true ∧ l.blankLeft = 0 ∧ (limit = true ∨ l.thermal = true)) →
      crustWorks s leg.crust = true →
      ∃ y, Runs cmd s (onCrust s leg.crust y) ∧ y = { x with legs := y.legs } ∧
        (∀ n ∈ legsWith (paramsOf s leg.crust) leg.crust leg.num.val,
          (legOf y n).tripped = true ∧ (legOf y n).blanking = false) ∧
        (∀ n, (legOf y n).cmd = (legOf x n).cmd ∧ (legOf y n).thermal = (legOf x n).thermal) ∧
        (legOf y (tallyLeg (paramsOf s leg.crust) leg.crust leg.num.val)).anomaly =
          firstAnomaly (legOf x (tallyLeg (paramsOf s leg.crust) leg.crust leg.num.val)).anomaly 0x23#8 ∧
        (∀ n, n ∉ legsWith (paramsOf s leg.crust) leg.crust leg.num.val → n ≠ leg.num.val →
          n ≠ tallyLeg (paramsOf s leg.crust) leg.crust leg.num.val → legOf y n = legOf x n)) ∧
    (crustWorks s leg.crust = false ∨ l.cmd = false ∨ l.blanking = true ∨ l.tripped = true ∨ l.thermal = true →
      Runs (.overcurrent leg) s s) ∧
    (crustWorks s leg.crust = true → l.blanking = true → l.blankLeft = 0 → l.thermal = false →
      Runs (.blankingEnd leg false) s
        (onCrust s leg.crust (modLeg x leg.num.val fun l => { l with blanking := false }))) ∧
    (∀ limit, crustWorks s leg.crust = false ∨ l.blanking = false ∨ l.blankLeft ≠ 0 → Runs (.blankingEnd leg limit) s s) ∧
    (x.logicPower = true → l.thermal = false → l.blanking = true →
      Runs (.thermal leg) s (onCrust s leg.crust (modLeg x leg.num.val fun l => { l with thermal := true }))) ∧
    (x.logicPower = true → l.thermal = false → l.blanking = false →
      ∃ y, Runs (.thermal leg) s (onCrust s leg.crust y) ∧ y = { x with legs := y.legs } ∧
        (legOf y leg.num.val).thermal = true ∧ (legOf y leg.num.val).tripped = l.cmd ∧
        (∀ n, (legOf y n).cmd = (legOf x n).cmd) ∧
        (legOf y (tallyLeg (paramsOf s leg.crust) leg.crust leg.num.val)).anomaly =
          firstAnomaly (legOf x (tallyLeg (paramsOf s leg.crust) leg.crust leg.num.val)).anomaly 0x24#8) ∧
    (x.logicPower = false ∨ l.thermal = true → Runs (.thermal leg) s s) ∧
    Runs (.thermalReclose leg) s (onCrust s leg.crust (modLeg x leg.num.val fun l => { l with thermal := false }))

/-- The lock drive: a pull-in served ends in hold; a sampled level below 10 mA disarms crust B's watchdog; STUCKDRIVE opens the
crust's group of the pair and reports it; the history of a pair moves on by one bin of 60 (log 29). What is not due changes nothing. -/
def Obligations.LockDriveProfile : Prop :=
  ∀ (pair : Fin 16) (s : State),
    (crustWorks s .a = true → (driveOf s.crust.a pair.val).stage = 1 → (driveOf s.crust.a pair.val).ticksLeft = 0 →
      Runs (.pullInEnd pair) s (onCrust s .a (modDrive s.crust.a pair.val fun d => { d with stage := 2 }))) ∧
    (crustWorks s .a = false ∨ (driveOf s.crust.a pair.val).stage ≠ 1 ∨ (driveOf s.crust.a pair.val).ticksLeft ≠ 0 →
      Runs (.pullInEnd pair) s s) ∧
    (∀ ma, (crustWorks s .b = true → (driveOf s.crust.b pair.val).stage = 1 → (driveOf s.crust.b pair.val).level = none →
        Runs (.pullInLevelSample pair ma) s (onCrust s .b (modDrive s.crust.b pair.val fun d =>
          { d with level := some ma, disarmed := decide (ma < 10) }))) ∧
      (crustWorks s .b = false ∨ (driveOf s.crust.b pair.val).stage ≠ 1 ∨ (driveOf s.crust.b pair.val).level ≠ none →
        Runs (.pullInLevelSample pair ma) s s)) ∧
    (∀ c i r, pairBlock (paramsOf s c) pair.val = some (i, r) →
      (crustWorks s c = true → r.ty = tyLOCKDRV → watchdogArmed c (driveOf (s.crust.at c) pair.val) = true →
        ∃ y, Runs (.stuckdrive c pair) s (onCrust s c y) ∧
          y = { s.crust.at c with legs := y.legs, drives := y.drives, stuck := y.stuck } ∧
          (∀ p, p ∈ y.stuck ↔ p = pair.val ∨ p ∈ (s.crust.at c).stuck) ∧
          (driveOf y pair.val).stage = 0 ∧ (∀ k, k ≠ pair.val → driveOf y k = driveOf (s.crust.at c) k) ∧
          (∀ n ∈ groupLegs r c, (legOf y n).tripped = true) ∧
          (legOf y (tallyLeg (paramsOf s c) c ((groupLegs r c).headD 0))).anomaly =
            firstAnomaly (legOf (s.crust.at c) (tallyLeg (paramsOf s c) c ((groupLegs r c).headD 0))).anomaly 0x22#8) ∧
      (crustWorks s c = false ∨ r.ty ≠ tyLOCKDRV ∨ watchdogArmed c (driveOf (s.crust.at c) pair.val) = false →
        Runs (.stuckdrive c pair) s s)) ∧
    (∀ c, pairBlock (paramsOf s c) pair.val = none → Runs (.stuckdrive c pair) s s) ∧
    (s.crust.a.logicPower = true →
      ∃ y, Runs .firingHistoryBin s (onCrust s .a y) ∧ y = { s.crust.a with drives := y.drives } ∧
        (tabRising none s.crust.a.drives = true →
          (driveOf y pair.val).stage = (driveOf s.crust.a pair.val).stage ∧
          (∀ b, b = (0 :: (driveOf s.crust.a pair.val).bins).take 60 →
            (driveOf y pair.val).bins = if b.all (· == 0) then [] else b) ∧
          history (driveOf y pair.val) ≤ history (driveOf s.crust.a pair.val))) ∧
    (s.crust.a.logicPower = false → Runs .firingHistoryBin s s)

/-- SILENCE_TIMEOUT: a crust that has gone without frames for SILENCE applies SAFE to its standard legs and opens every other leg
and ends its lock drives; below lockout it closes none; before that it does nothing. SILENCE
is counted in ticks, from the frame that has come in this one where there is one (logs 30, 90). CURRENT_SENSE_CHECK: in slots 12 to 15 the
legs of the slot are good where they read below 2 mA at 0 and 45 to 55 mA at 50 mA, the bounds themselves
being good (log 31). -/
def Obligations.SilenceAndCurrentSense : Prop :=
  ∀ (c : Side) (s : State) (x : CrustSt) (age : Nat), x = s.crust.at c →
    age = (if x.staged.isSome then 0 else x.sinceFrame) →
    (x.handshake = true → x.logicPower = true → x.silent = false →
      9 * silenceFrames (crustMap s c) c ≤ 10 * (age + 1) →
      ∃ y, Runs (.silenceTimeout c) s (onCrust s c y) ∧
        y = { x with silent := true, staged := none, legs := y.legs, drives := y.drives } ∧
        (∀ k, (driveOf y k).stage = 0) ∧
        (∀ n, n < 17 → (legOf y n).cmd = (match standardLeg (crustMap s c) c n with
          | some e => if byteAt e 3 = 0x01#8 ∧ x.lockout = false ∧ x.overvolt = false then true
              else if byteAt e 3 = 0x02#8 then (legOf x n).cmd else false
          | none => false))) ∧
    (x.handshake = false ∨ x.logicPower = false ∨ x.silent = true ∨
      10 * (age + 1) < 9 * silenceFrames (crustMap s c) c → Runs (.silenceTimeout c) s s) ∧
    (∀ z r, crustWorks s c = true → 12 ≤ slotOf s →
      ∃ y, Runs (.currentSenseCheck c z r) s (onCrust s c y) ∧ y = { x with legs := y.legs } ∧
        (∀ k, k < 4 → legOf y (4 * (slotOf s - 12) + k) = { legOf x (4 * (slotOf s - 12) + k) with senseBad :=
          !(decide (z.toList.getD k 0 < 2) && decide (45 ≤ r.toList.getD k 0) && decide (r.toList.getD k 0 ≤ 55)) }) ∧
        (slotOf s = 12 → (legOf y 16).senseBad =
          !(decide (z.toList.getD 4 0 < 2) && decide (45 ≤ r.toList.getD 4 0) && decide (r.toList.getD 4 0 ≤ 55))) ∧
        (∀ n, n ∉ senseLegs (slotOf s) → legOf y n = legOf x n)) ∧
    (∀ z r, crustWorks s c = false ∨ slotOf s < 12 → Runs (.currentSenseCheck c z r) s s)

/-! ## Indicators, probation, the hearth's life -/

/-- PATTERN_COMPOSE writes the back buffer with the vector's tag; STROBE_WATCHDOG ends a strobe that stands, counts a trip, raises
IND, reports STBWD and makes the port skip the next shift; OEN_OFF raises IC_OEN at once, or at the end of a strobe that stands; a
bit of IND_STAT written with 1 clears unless hardware sets it in the same cycle (log 61);
a write while the SPI lands are Z does nothing. PROBATION_END: a channel whose probation has met
its conditions is in service again in both lanes, and the pairs of a leg wait for a reset; any other channel keeps its record. -/
def Obligations.IndicatorPort : Prop :=
  (∀ s : State,
    (∀ cfg v, activeCfg s = some cfg → s.ind.vector = some v → hearthLive s = true →
      Runs .patternCompose s { s with ind := { s.ind with back := some (v.tag, patternOf cfg v) } }) ∧
    (activeCfg s = none ∨ s.ind.vector = none ∨ hearthLive s = false → Runs .patternCompose s s) ∧
    (s.ind.icStb = true → ∀ served, served = (match (chanOf (reportingLane s) chanIndChain).prob with
        | some p => decide (16 ≤ p.slotPasses)
        | none => true) →
      Runs .strobeWatchdog s { s with
        ind := { s.ind with stbwd := true, trips := satInc s.ind.trips, skip := true, icStb := false
                            oen := !s.ind.oenOff && !retiredNow s chanIndChain && served }
        host := { s.host with irqStat0 := s.host.irqStat0 ||| 0x20#8 }
        core := { s.core with found := s.core.found ++ [{ chan := chanIndChain, code := 0x3C#8, permanent := false }] } }) ∧
    (s.ind.icStb = false → Runs .strobeWatchdog s s) ∧
    (portLive s = false → ∀ c, (∃ v, c = Instr.oenOffWrite v) ∨ (∃ m h, c = Instr.indStatClear m h) → Runs c s s) ∧
    (∀ v, portLive s = true → Runs (.oenOffWrite v) s { s with ind := { s.ind with
      oenOff := v.getLsbD 0, oen := s.ind.oen && (s.ind.icStb || !v.getLsbD 0) } }) ∧
    (∀ m h, portLive s = true → ∃ t, Runs (.indStatClear m h) s t ∧ t.ind = { s.ind with
        late := (s.ind.late && !m.getLsbD 1) || h.getLsbD 1, stbwd := (s.ind.stbwd && !m.getLsbD 2) || h.getLsbD 2 } ∧
      t.host = (if h.getLsbD 1 || h.getLsbD 2 then { s.host with irqStat0 := s.host.irqStat0 ||| 0x20#8 } else s.host) ∧
      t = { s with ind := t.ind, host := t.host })) ∧
  (∀ (ch : Byte) (s : State),
    (∀ p, (chanOf (reportingLane s) ch.toNat).prob = some p →
      (s.core.tickOn = true → probationMet s ch.toNat p = true →
        ∃ t, Runs (.probationEnd ch) s t ∧ t = { s with lane := t.lane, jrn := t.jrn, stat := t.stat } ∧ SameStore s t ∧
          SameClock s t ∧
          (∀ l, chanRec t l ch.toNat = { chanRec s l ch.toNat with prob := none } ∧
            ∀ n, n ≠ ch.toNat → chanRec t l n = chanRec s l n) ∧
          ((∀ c k, chanKind ch.toNat ≠ some (.leg c k)) → ∀ l,
            t.lane.at l = modChan (s.lane.at l) ch.toNat fun r => { r with prob := none }) ∧
          (∀ c k cfg, chanKind ch.toNat = some (.leg c k) → activeCfg s = some cfg → ∀ l g pair cfg', (s.lane.at l).cfg = some cfg' →
            g ∈ legsWith cfg.params c k → pair ∈ pairsOfLeg cfg.params c g → (pairBlock cfg'.params pair).isSome = true →
            (pairRecOf (t.lane.at l) pair).needReset = true)) ∧
      (s.core.tickOn = false ∨ probationMet s ch.toNat p = false → Runs (.probationEnd ch) s s)) ∧
    ((chanOf (reportingLane s) ch.toNat).prob = none → Runs (.probationEnd ch) s s))

/-- The host watchdog and the hearth: an expiry raises HOSTWD and puts every host bit to its DEFAULT and clears the MAINT_HOLD
masks; a lost heartbeat makes the slots unavailable and loses every command with what waits for its reply, and closes the bypass in
SAFE_HOLD; at its return every slot is FREE; a restarted hearth invalidates a slot that was being written and keeps the other slots.
An activation that the lanes have agreed on and a self-test that has reached them go on without a reply (logs 47, 48). What does not
apply changes nothing. -/
def Obligations.HearthAndHostWatchdog : Prop :=
  ∀ (s : State) (lostSwitch : Option PendingSwitch) (lostTest : TestSt),
    lostSwitch = (match s.mbx.switch with
      | some w => if w.agreed then some { w with via := none } else none
      | none => none) →
    lostTest = { s.test with asked :=
      if s.test.learned || s.test.holdNext || s.test.hold then (s.test.asked.map fun a => (none, a.2)) else none } →
    (∀ n, wdTimeout s.host.hostwd = some n →
      (s.core.tickOn = true → n ≤ s.host.wdCount → s.host.wdExpired = false →
        ∃ t, Runs .hostWatchdogExpiry s t ∧ SameStore s t ∧ SameClock s t ∧
          t.host = { s.host with wdExpired := true, irqStat0 := s.host.irqStat0 ||| 0x40#8 } ∧
          t.mbx = { s.mbx with hostBitsNext := some (s.mbx.hostBits, 0), defaultsApply := true, holds := [] } ∧
          t = { s with host := t.host, mbx := t.mbx, jrn := t.jrn, stat := t.stat }) ∧
      (s.core.tickOn = false ∨ s.host.wdExpired = true ∨ s.host.wdCount < n → Runs .hostWatchdogExpiry s s)) ∧
    (wdTimeout s.host.hostwd = none → Runs .hostWatchdogExpiry s s) ∧
    (∀ u, u = { s with
        host := { s.host with hearth := false }, test := lostTest, act := { s.act with scanVia := [] }
        mbx := { s.mbx with queue := [], learn := none, switch := lostSwitch, owed := [] } } →
      (s.host.hearth = true → s.core.mode ≠ .safeHold → Runs .hearthHeartbeatLoss s u) ∧
      (s.host.hearth = true → s.core.mode = .safeHold → ∃ t, Runs .hearthHeartbeatLoss s t ∧
        t = { u with fab := t.fab, host := t.host } ∧ bypassClosed t = true ∧
        t.host = { u.host with irqStat0 := t.host.irqStat0 } ∧
        t.host.irqStat0 = if isWorker s = true ∧ syncBit s = true then s.host.irqStat0 ||| 0x80#8 else s.host.irqStat0)) ∧
    (s.host.hearth = false → Runs .hearthHeartbeatLoss s s) ∧
    (hearthStarted s = true → s.host.hearth = false → Runs .hearthHeartbeatReturn s { s with
      host := { s.host with hearth := true }, test := lostTest, act := { s.act with scanVia := [] }
      mbx := { s.mbx with
        slots := Vector.replicate 8 .free, queue := [], learn := none, switch := lostSwitch, owed := [] } }) ∧
    (hearthStarted s = false ∨ s.host.hearth = true → Runs .hearthHeartbeatReturn s s) ∧
    (hearthStarted s = true → ∃ t, Runs .hearthRestart s t ∧
      t = { s with
        nv := { s.nv with slots := t.nv.slots }, test := lostTest
        host := { s.host with hearth := true, fwMajor := 2, fwMinor := 4, lifeReg := s.nv.life.code }
        mbx := { s.mbx with
          slots := Vector.replicate 8 .free, queue := [], nonce := none, learn := none, switch := lostSwitch, owed := [] }
        jrn := { s.jrn with sessions := ⟨none, none⟩, holds := [], cycles := ⟨none, none⟩, seen := none, rose := [] }
        act := t.act } ∧
      t.act.recoverDue = true ∧ t.act.scanDue = false ∧ t.act.scanVia = [] ∧
      ∀ k, ((s.nv.slots.at k).state = .writing → (t.nv.slots.at k).state = .invalid) ∧
        ((s.nv.slots.at k).state ≠ .writing → t.nv.slots.at k = s.nv.slots.at k)) ∧
    (hearthStarted s = false → Runs .hearthRestart s s)

/-! ## The host port -/

/-- SPI_WRITE commits all its bytes or none: without a fault each byte takes effect in order; a wrong length, an odd bit count,
a location that may not be written or a wrong CRC discards the transaction, shows in the next SPISTAT and raises its flag. A
transaction while the SPI lands are Z or of the other direction is not this one's. SPI_READ changes the host port alone and begins
with SPISTAT, which shows the last transaction's faults, IRQN (asserted while an enabled flag stands) and the heartbeat. SPI_READ of
one location below the slots without CRC: SPISTAT, MODE_CUR, FRAME_NO's low byte, a turnaround byte and the value; the lowest byte
of a multi-byte register latches the whole of it, and a higher byte reads what was latched. STATUS reads as its fields say: the
heartbeat, REQ_RESULT, SAFEN, the lanes retired, SYNC and LATE. The bytes of SDO stand for the waveform (log 45). -/
def Obligations.SpiWriteCommitsWholeOrNotAtAll : Prop :=
  (∀ (sdi : List Byte) (odd : Bool) (s : State), portLive s = true → bitOf (byteAt sdi 0) 7 = false →
    (writeFaults s sdi odd = (false, false) →
      ∃ sdo, sdo.length = sdi.length ∧ Runs (.spiWrite sdi odd) s ((spiData sdi).foldl (fun s e => commitByte s e.1 e.2)
        { s with host := { s.host with prevCrc := false, prevAccess := false, sdo := sdo } })) ∧
    (∀ access crc, writeFaults s sdi odd = (access, crc) → (access || crc) = true →
      ∃ sdo, sdo.length = sdi.length ∧ Runs (.spiWrite sdi odd) s { s with host := { s.host with
        prevCrc := crc, prevAccess := access, sdo := sdo
        irqStat1 := s.host.irqStat1 ||| (if access then 0x02#8 else 0) ||| (if crc then 0x01#8 else 0) } })) ∧
  (∀ (sdi : List Byte) (odd : Bool) (s : State),
    (portLive s = false ∨ bitOf (byteAt sdi 0) 7 = true → Runs (.spiWrite sdi odd) s s) ∧
    (portLive s = false ∨ bitOf (byteAt sdi 0) 7 = false → Runs (.spiRead sdi odd) s s) ∧
    (portLive s = true → bitOf (byteAt sdi 0) 7 = true →
      ∃ t, Runs (.spiRead sdi odd) s t ∧ t = { s with host := t.host } ∧ t.host.sdo.head? = some (spistat s))) ∧
  (∀ (b0 b1 x y : Byte) (s : State), portLive s = true → s.host.crcEn = false → bitOf b0 7 = true →
    ∀ a, a = b0.toNat % 16 * 256 + b1.toNat → a < 0x800 →
    (multiOf a = none → Runs (.spiRead [b0, b1, 0, x, y] false) s { s with host := { s.host with
      prevCrc := false, prevAccess := false
      sdo := [spistat s, s.core.mode.code, s.core.frameNo.setWidth 8, 0x00, liveByte s a] } }) ∧
    (∀ n, multiOf a = some (a, n) → Runs (.spiRead [b0, b1, 0, x, y] false) s { s with host := { s.host with
      prevCrc := false, prevAccess := false
      readShadow := tabSet [] s.host.readShadow a ((List.range n).map fun i => liveByte s (a + i))
      sdo := [spistat s, s.core.mode.code, s.core.frameNo.setWidth 8, 0x00,
        byteAt ((List.range n).map fun i => liveByte s (a + i)) 0] } }) ∧
    (∀ base n, multiOf a = some (base, n) → a ≠ base → Runs (.spiRead [b0, b1, 0, x, y] false) s { s with host := { s.host with
      prevCrc := false, prevAccess := false
      sdo := [spistat s, s.core.mode.code, s.core.frameNo.setWidth 8, 0x00,
        byteAt (tabGet [] s.host.readShadow base) (a - base)] } }) ∧
    (∀ st v, st = spistat s → v = liveByte s 0x10 →
      st.getLsbD 0 = s.host.prevCrc ∧ st.getLsbD 1 = s.host.prevAccess ∧ st.getLsbD 3 = s.host.hearth ∧ st &&& 0xF0#8 = 0xA0#8 ∧
      (st.getLsbD 2 = true ↔ ∃ i, i < 8 ∧ ((s.host.irqStat0.getLsbD i && s.host.irqEn0.getLsbD i) = true ∨
        (s.host.irqStat1.getLsbD i && s.host.irqEn1.getLsbD i) = true)) ∧
      v.getLsbD 0 = s.host.hearth ∧ v.getLsbD 1 = s.host.reqResult.getLsbD 0 ∧ v.getLsbD 2 = s.host.reqResult.getLsbD 1 ∧
      v.getLsbD 3 = s.core.safen ∧ v.getLsbD 4 = s.lane.a.retired ∧ v.getLsbD 5 = s.lane.b.retired ∧
      (v.getLsbD 6 = true ↔ s.core.tickOn = true ∧ (isWorker s = true → bypassClosed s = false ∧ s.fab.sync = .inSync)) ∧
      v.getLsbD 7 = (s.core.lateLast.a || s.core.lateLast.b)))

/-- SLOT_WRITE: a byte written into a slot that the host may write is read back there and nowhere else, and a FREE slot becomes
FILLING; a slot that is POSTED or TAKEN, or without the hearth, is left as it is and the access error shows. MBX_POST and MBX_ACK act
on each slot whose bit is 1: POST takes FILLING to POSTED, ACK takes DONE or FILLING to FREE, and a bit for a slot in another state
leaves it and raises IRQ_STAT1.SPIERR. While the SPI lands are Z none of them does anything. -/
def Obligations.SlotsTakeBytesAndDoorbells : Prop :=
  (∀ (s : State) (c : Instr), portLive s = false →
    (∃ addr v, c = .slotWrite addr v) ∨ (∃ m, c = .mbxPost m ∨ c = .mbxAck m) → Runs c s s) ∧
  (∀ (addr : BitVec 11) (v : Byte) (s : State), portLive s = true →
    (slotWritable s (addr.toNat / 256) = true →
      ∃ t, Runs (.slotWrite addr v) s t ∧ t = { s with mbx := { s.mbx with mem := t.mbx.mem, slots := t.mbx.slots } } ∧
        (∀ a, memRead t.mbx.mem a = if a = addr.toNat then v else memRead s.mbx.mem a) ∧
        ∀ k, slotState t k = if k = addr.toNat / 256 ∧ slotState s k = .free then .filling else slotState s k) ∧
    (slotWritable s (addr.toNat / 256) = false →
      Runs (.slotWrite addr v) s { s with host := { s.host with
        prevAccess := true, irqStat1 := s.host.irqStat1 ||| 0x02#8 } })) ∧
  (∀ (m : Byte) (s : State) (c : Instr), portLive s = true → s.host.hearth = false → c = .mbxPost m ∨ c = .mbxAck m →
    Runs c s (if m = 0 then s else { s with host := { s.host with irqStat1 := s.host.irqStat1 ||| 0x02#8 } })) ∧
  (∀ (m : Byte) (s : State), portLive s = true → s.host.hearth = true →
    (∃ t, Runs (.mbxPost m) s t ∧ t = { s with
        mbx := { s.mbx with slots := t.mbx.slots }, host := { s.host with irqStat1 := t.host.irqStat1 } } ∧
      (∀ k, k < 8 → slotState t k = if m.getLsbD k && slotState s k == .filling then .posted else slotState s k) ∧
      t.host.irqStat1 = (if ∃ k, k < 8 ∧ m.getLsbD k = true ∧ slotState s k ≠ .filling
        then s.host.irqStat1 ||| 0x02#8 else s.host.irqStat1)) ∧
    (∃ t, Runs (.mbxAck m) s t ∧ t = { s with
        mbx := { s.mbx with slots := t.mbx.slots }, host := { s.host with irqStat1 := t.host.irqStat1 } } ∧
      (∀ k, k < 8 → slotState t k =
        if m.getLsbD k && (slotState s k == .done || slotState s k == .filling) then .free else slotState s k) ∧
      t.host.irqStat1 = (if ∃ k, k < 8 ∧ m.getLsbD k = true ∧ slotState s k ≠ .done ∧ slotState s k ≠ .filling
        then s.host.irqStat1 ||| 0x02#8 else s.host.irqStat1)))

/-- The window's registers: MODE_REQ takes a requestable code or 0x00 with REQ_RESULT back at 0 and refuses any other code;
IRQ_STAT clears by ones; HOSTWD takes bits 4 to 0 and kicks; SPI_CFG takes CRC_EN; REGISTER_WRITE at their addresses, at the
doorbells, at the indicator port, at CRCn_DATA and in a slot is the same, and at IRQ_EN takes the byte; a location that may not be
written is left, and so is everything while the SPI lands are Z. That any other code is refused at the write is the model's choice
(log 11), and so are the bits that hardware sets in the cycle of a clear (log 61). -/
def Obligations.WindowRegistersTakeWrites : Prop :=
  (∀ (v : Byte) (s : State) (c : Instr), portLive s = false →
    c = .modeReqWrite v ∨ (∃ hi h, c = .irqStatClear hi v h) ∨ c = .hostwdWrite v ∨ c = .spiCfgWrite v ∨
      (∃ a, c = .registerWrite a v) → Runs c s s) ∧
  ∀ (v : Byte) (s : State), portLive s = true →
    (requestable v = true ∨ v = 0 → ∃ t, Runs (.modeReqWrite v) s t ∧ t.host = { s.host with
        modeReq := v, reqResult := 0, rewritten := s.host.sampled.isSome } ∧
      t = { s with host := t.host, mbx := { s.mbx with queue := t.mbx.queue } } ∧
      ∀ i : Nat, (t.mbx.queue[i]?).map (·.st) = (s.mbx.queue[i]?).map fun e =>
        if e.st = .awaitingMode false then .replied 0x0F#8 (leBytes 4 3) else e.st) ∧
    (requestable v = false → v ≠ 0 → Runs (.modeReqWrite v) s { s with host := { s.host with
      reqResult := 2, irqStat0 := s.host.irqStat0 ||| 0x02#8 } }) ∧
    (∀ h, Runs (.irqStatClear false v h) s { s with host := { s.host with
      irqStat0 := (s.host.irqStat0 &&& ~~~v) ||| h } }) ∧
    (∀ h, Runs (.irqStatClear true v h) s { s with host := { s.host with
      irqStat1 := (s.host.irqStat1 &&& ~~~v) ||| (h &&& 0xF7#8) } }) ∧
    Runs (.hostwdWrite v) s { s with host := { s.host with
      hostwd := v &&& 0x1F#8, wdCount := 0, wdExpired := false } } ∧
    Runs (.spiCfgWrite v) s { s with host := { s.host with crcEn := v.getLsbD 0 } } ∧
    exec (.registerWrite 0x012#12 v) s = exec (.modeReqWrite v) s ∧
    exec (.registerWrite 0x018#12 v) s = exec (.irqStatClear false v 0) s ∧
    Runs (.registerWrite 0x01A#12 v) s { s with host := { s.host with irqEn0 := v } } ∧
    Runs (.registerWrite 0x01B#12 v) s { s with host := { s.host with irqEn1 := v } } ∧
    exec (.registerWrite 0x01C#12 v) s = exec (.hostwdWrite v) s ∧
    exec (.registerWrite 0x019#12 v) s = exec (.irqStatClear true v 0) s ∧
    exec (.registerWrite 0x01D#12 v) s = exec (.spiCfgWrite v) s ∧
    exec (.registerWrite 0x021#12 v) s = exec (.mbxPost v) s ∧
    exec (.registerWrite 0x023#12 v) s = exec (.mbxAck v) s ∧
    exec (.registerWrite 0x030#12 v) s = exec (.indStatClear v 0) s ∧
    exec (.registerWrite 0x031#12 v) s = exec (.oenOffWrite v) s ∧
    (∀ n : Fin 4, exec (.registerWrite (BitVec.ofNat 12 (0x044 + 16 * n.val)) v) s = exec (.crcnDataWrite n v) s) ∧
    (∀ o : BitVec 11, slotWritable s (o.toNat / 256) = true →
      exec (.registerWrite (0x800#12 + o.setWidth 12) v) s = exec (.slotWrite o v) s) ∧
    ∀ a, writable s a.toNat = false → Runs (.registerWrite a v) s s

/-- The host check-value units: INIT loads the initial value of POLY; a data byte advances the running value by one step of the
chosen polynomial; a written running value keeps the bits of its width, a data byte of the same cycle being folded into it; GO writes
MATCH and raises CRCn on a mismatch (log 60). -/
def Obligations.CheckValueUnits : Prop :=
  (∀ (n : Fin 4) (s : State) (c : Instr), portLive s = false →
    c = .crcInit n ∨ c = .crcGo n ∨ (∃ v, c = .crcnDataWrite n v) ∨ (∃ w b, c = .crcnRunWrite n w b) → Runs c s s) ∧
  ∀ (n : Fin 4) (s : State) (u : CrcUnit), portLive s = true → u = s.host.crc.get n →
    Runs (.crcInit n) s { s with host := { s.host with crc := s.host.crc.set n { u with
      run := if u.poly = 0 then 0xFF#32 else if u.poly = 1 then 0xFFFF#32 else 0xFFFFFFFF#32 } } } ∧
    (∀ v, ∃ r, Runs (.crcnDataWrite n v) s { s with host := { s.host with crc := s.host.crc.set n { u with run := r } } } ∧
      (u.poly = 0 → r = (crc8Byte (u.run.setWidth 8) v).setWidth 32) ∧
      (u.poly = 1 → r = (crc16Byte (u.run.setWidth 16) v).setWidth 32) ∧
      (u.poly = 2 → r = crc32Byte u.run v) ∧ (u.poly = 3 → r = crc32cByte u.run v)) ∧
    (∀ w, Runs (.crcnRunWrite n w none) s { s with host := { s.host with crc := s.host.crc.set n { u with
      run := w &&& (if u.poly = 0 then 0xFF#32 else if u.poly = 1 then 0xFFFF#32 else 0xFFFFFFFF#32) } } }) ∧
    (∀ w b m, m = (if u.poly = 0 then 0xFF#32 else if u.poly = 1 then 0xFFFF#32 else 0xFFFFFFFF#32) →
      exec (.crcnRunWrite n w (some b)) s =
        exec (.crcnDataWrite n b) { s with host := { s.host with crc := s.host.crc.set n { u with run := w &&& m } } }) ∧
    (∃ t, Runs (.crcGo n) s t ∧
      t.host.crc = s.host.crc.set n { u with hit := comparedValue u == u.expect } ∧
      t.host.irqStat1 = (if comparedValue u = u.expect then s.host.irqStat1 else s.host.irqStat1 ||| (0x10#8 <<< n.val)) ∧
      t = { s with host := { s.host with crc := t.host.crc, irqStat1 := t.host.irqStat1 } })

/-! ## The mailbox -/

/-- Every mailbox command that is next to start passes the gates in order: lifecycle, mode, length, header; the first that fails
ends it with its status and DETAIL and changes nothing else, but that a command which carries a tag has used the nonce (log 58). The
length of a KEY_LOAD is the one its kind requires. A command that is not next to start does nothing; when a command is next is
log 46's reading of the queue. -/
def Obligations.CommandGatesRefuseInOrder : Prop :=
  ∀ (c : Instr) (via : Via) (cmd : Byte) (s : State), cmdOf c = some (via, cmd) →
    ((∀ e, ¬ nextToStart s via cmd e) → Runs c s s) ∧
    ∀ e u, nextToStart s via cmd e →
      u = (if cmd = 0x77#8 ∨ (cmd = 0x75#8 ∧ byteAt e.payload 0 = 3 ∧ s.nv.lifeKey.isSome = true) then unkeyed s else s) →
      (lifeGate s.nv.life cmd = false → ∃ t, Runs c s t ∧
        Denies u t via (if isLoafCmd cmd then stLoafLifecycle else 0x07#8) s.nv.life.code.toNat) ∧
      (lifeGate s.nv.life cmd = true → modeGate s.core.mode cmd e.payload = false → ∃ t, Runs c s t ∧
        Denies u t via (if isLoafCmd cmd then stLoafMode else 0x06#8) s.core.mode.code.toNat) ∧
      (lifeGate s.nv.life cmd = true → modeGate s.core.mode cmd e.payload = true → ∀ r, cmdRow cmd = some r →
        (keyLoadNeeds s cmd e.payload = none → e.payload.length < r.lo ∨ r.hi < e.payload.length →
          ∃ t, Runs c s t ∧ Denies u t via 0x03#8 r.lo) ∧
        (∀ n, keyLoadNeeds s cmd e.payload = some n → e.payload.length ≠ n →
          ∃ t, Runs c s t ∧ Denies u t via 0x03#8 n) ∧
        ((∀ n, keyLoadNeeds s cmd e.payload = some n → e.payload.length = n) → r.lo ≤ e.payload.length →
          e.payload.length ≤ r.hi → ∀ o, e.badField = some o → ∃ t, Runs c s t ∧ Denies u t via 0x05#8 o))

/-- SLOT_TAKE takes the lowest POSTED slot: a request for this module joins the hearth queue to wait, or already ended by the
checks of its length, CRC and code; one for another station ends with NOT_MANAGER where this module is none, with
REMOTE_UNREACHABLE where the station is not reached, with NAK_RETRY where no IDX is free, and is sent on otherwise. COMMAND_REPLY
writes the reply of a command that has ended: into its slot, which becomes DONE with the flag raised, or into the tunnel it came
by; the entry leaves the queue, and what its command owes takes effect in the next phase S: its host bits as the
masks say, its channel operation after those before it. Without the hearth, or with nothing to take or to answer, both do nothing.
That several requests are taken slot by slot (log 46), that a port of the module's own which is not UP is a break for REMOTE_UNREACHABLE
(log 110) and the queue's order are the model's. -/
def Obligations.RequestsAreTakenAndReplied : Prop :=
  (∀ s : State, hearthLive s = false ∨ queueFull s = true ∨ (∀ k : Fin 8, slotState s k.val ≠ .posted) → Runs .slotTake s s) ∧
  (∀ (s : State) (k : Fin 8), hearthLive s = true → queueFull s = false → slotState s k.val = .posted →
    (∀ j : Fin 8, j.val < k.val → slotState s j.val ≠ .posted) →
    ∀ b put, b = slotImage s k.val →
      put = (fun st : QState => { s with mbx := { s.mbx with
        slots := s.mbx.slots.setIfInBounds k.val .taken
        queue := s.mbx.queue ++ [entryFrom s (.slot k) b st] } }) →
      ((byteAt b 5 = 0xFF#8 ∨ ownStation s = some (byteAt b 5)) → Runs .slotTake s (put (firstChecks b false))) ∧
      (byteAt b 5 ≠ 0xFF#8 → ownStation s ≠ some (byteAt b 5) →
        (firstChecks b true ≠ .waiting → Runs .slotTake s (put (firstChecks b true))) ∧
        (firstChecks b true = .waiting →
          (isManager s = false → Runs .slotTake s (put (.replied 0x0E#8 (leBytes 4 0)))) ∧
          (isManager s = true → reachable s (byteAt b 5) = false →
            Runs .slotTake s (put (.replied 0x0C#8 (leBytes 4 (byteAt b 5).toNat)))) ∧
          (isManager s = true → reachable s (byteAt b 5) = true →
            (freeIdx s false = none → Runs .slotTake s (put (.replied 0x0B#8 (leBytes 4 4)))) ∧
            (∀ i, freeIdx s false = some i → Runs .slotTake s
              (sendImage (put (.sent false i none)) (byteAt b 5) (b.take (imageSize b)) false false i)))))) ∧
  (∀ (s : State) (via : Via) (e : QEntry) (st : Byte) (p : List Byte), hearthLive s = true → entryOf s via = some e →
    e.st = .replied st p → p.length ≤ 244 →
    ∃ t, Runs (.commandReply via) s t ∧ SameClock s t ∧ t.crust = s.crust ∧ t.lane = s.lane ∧ t.nv = s.nv ∧
      t.mbx.queue.length + 1 = s.mbx.queue.length ∧ t.mbx.owed = s.mbx.owed.filter (fun o => o.1 != via) ∧
      ∀ k : Fin 8, via = .slot k →
        slotState t k.val = .done ∧ t.host = { s.host with irqStat0 := s.host.irqStat0 ||| 0x01#8 } ∧
        memReadBytes t.mbx.mem (256 * k.val) (12 + p.length) = replyImage e.cmd e.tag e.target st p ∧
        (∀ a, a < 256 * k.val ∨ 256 * k.val + 12 + p.length ≤ a → memRead t.mbx.mem a = memRead s.mbx.mem a) ∧
        (∀ j, j ≠ k.val → slotState t j = slotState s j)) ∧
  (∀ (s : State) (via : Via) (e : QEntry) (b : List Byte) (u : State), hearthLive s = true → entryOf s via = some e →
    (e.st = .relayed b ∨ ∃ st p, e.st = .replied st p ∧ b = replyImage e.cmd e.tag e.target st p) →
    u = { s with mbx := { paid s.mbx (owedTo s.mbx via) with
      queue := delFirst (fun x => x.via == via) s.mbx.queue, owed := s.mbx.owed.filter fun o => o.1 != via } } →
    (∀ k : Fin 8, via = .slot k → Runs (.commandReply via) s { u with
      mbx := { u.mbx with
        mem := memWriteBytes s.mbx.mem (256 * k.val) (b.take 256), slots := s.mbx.slots.setIfInBounds k.val .done }
      host := { s.host with irqStat0 := s.host.irqStat0 ||| 0x01#8 } }) ∧
    (∀ idx, via = .can idx → Runs (.commandReply via) s (sendTunnel u idx b)) ∧
    (∀ path idx, via = .fabric path idx → Runs (.commandReply via) s (sendImage u 0x00 b true path idx))) ∧
  (∀ (s : State) (via : Via), hearthLive s = false ∨ entryOf s via = none ∨
      (∃ e, entryOf s via = some e ∧ (e.st = .waiting ∨ e.st = .running ∨ e.st = .awaitingStage ∨ e.st = .awaitingMode false)) →
    Runs (.commandReply via) s s)

/-- The commands that only report: ECHO, IDENTITY, HOSTBIT_GET, LOAF_INFO, IND_STATUS, SELFTEST_RESULT, SHUTDOWN_STATUS and
TIME_GET answer OK with what they report and change nothing else. -/
def Obligations.ReportingCommandsAnswer : Prop :=
  ∀ (via : Via) (s : State) (p : List Byte),
    (Starts s via 0x00#8 p → ∃ t, Runs (.echo via) s t ∧ Answers s t via p) ∧
    (Starts s via 0x01#8 p → ∃ t, Runs (.identity via) s t ∧ Answers s t via
      ([0x4B, 0x53, 0x30, 0x00, 0x03, 0x02, 0x04, 0x04] ++ padTo 8 s.nv.serial ++
        (match activeCfg s with
          | some c => padTo 8 c.loafId
          | none => zeros 8) ++
        [match activeSlot s.nv with
          | some .a => 0x00
          | some .b => 0x01
          | none => 0xFF, s.nv.life.code, s.core.mode.code, roleOf s, (ownStation s).getD 0xFE#8, 0x00] ++
        le32 (bootCount s.nv))) ∧
    (Starts s via 0x05#8 p → ∃ t, Runs (.hostbitGet via) s t ∧
      Answers s t via (le64 (bitsInForce s) ++ [if defaultsStand s then 0x01#8 else 0x00#8])) ∧
    (∀ b, Starts s via 0x13#8 [b] →
      (1 < b.toNat → ∃ t, Runs (.loafInfo via) s t ∧ Denies s t via 0x05#8 8) ∧
      (b.toNat ≤ 1 → ∃ t, Runs (.loafInfo via) s t ∧ Answers s t via (loafInfoBytes (s.nv.slots.at (sideOf b))))) ∧
    (Starts s via 0x26#8 p → ∃ t, Runs (.indStatus via) s t ∧ Answers s t via
      ([indStat s, 0x00] ++ le16 s.ind.lateCnt ++ le16 s.ind.trips ++ [0x00, 0x00] ++ packBits 32 s.ind.front)) ∧
    (Starts s via 0x33#8 p → ∃ t, Runs (.shutdownStatus via) s t ∧ Answers s t via [s.test.shutdown]) ∧
    (Starts s via 0x31#8 p → ∃ t, Runs (.selftestResult via) s t ∧
      Answers s t via (s.test.source :: resultsPayload s.test.results)) ∧
    ∀ o, Starts s via 0x70#8 p → ∃ t, Runs (.timeGet via o) s t ∧
      Answers s t via (le32 s.core.frameNo ++ leBytes 3 o.toNat ++ [s.fab.sync.code])

/-- MODE_SET and SHUTDOWN write MODE_REQ and wait for its evaluation; a code that the host may not request is refused at once
with BAD_PARAM or the answer 2 and MODE_CUR from the next tick (log 11); MAINT_HOLD keeps its mask for one of the next four frames and
tells LATE or TOO_EARLY for any other; HOSTBIT_SET owes the masked bits to the phase S after its reply and answers the bits in force
(log 47). -/
def Obligations.ModeCommandsAct : Prop :=
  ∀ (via : Via) (s : State) (p : List Byte),
    (∀ c v, (c = .modeSet via ∧ Starts s via 0x02#8 [v]) ∨ (c = .shutdown via ∧ Starts s via 0x32#8 p ∧ v = 0x07#8) →
      requestable v = true →
      ∃ t, Runs c s t ∧ t.host = { s.host with modeReq := v, reqResult := 0, rewritten := s.host.sampled.isSome } ∧
        (entryOf t via).map (·.st) = some (.awaitingMode false) ∧
        (∀ w, w ≠ via → (entryOf t w).map (·.st) = (entryOf s w).map fun e =>
          if e.st = .awaitingMode false then .replied 0x0F#8 (leBytes 4 3) else e.st) ∧
        t = { s with host := t.host, mbx := { s.mbx with queue := t.mbx.queue } }) ∧
    (∀ v, Starts s via 0x02#8 [v] → v = 0 ∨ 7 < v.toNat → ∃ t, Runs (.modeSet via) s t ∧ Denies s t via 0x05#8 8) ∧
    (∀ v, Starts s via 0x02#8 [v] → v ≠ 0 → v.toNat ≤ 7 → requestable v = false →
      ∃ t, Runs (.modeSet via) s t ∧ (entryOf t via).map (·.st) = some (.replied 0x00#8 [0x02#8, match nextMode s with
          | some (m, _) => m.code
          | none => s.core.mode.code]) ∧
        t = { s with host := { s.host with reqResult := 2, irqStat0 := s.host.irqStat0 ||| 0x02#8 },
                     mbx := { s.mbx with queue := t.mbx.queue } }) ∧
    (Starts s via 0x03#8 p → ∀ e n, entryOf s via = some e → n = (u32At p 0 - e.taken).toNat →
      ((n = 0 ∨ 0x80000000 ≤ n) → ∃ t, Runs (.maintHold via) s t ∧ Denies s t via 0x10#8 s.core.frameNo.toNat) ∧
      (4 < n → n < 0x80000000 → ∃ t, Runs (.maintHold via) s t ∧ Denies s t via 0x11#8 s.core.frameNo.toNat) ∧
      (1 ≤ n → n ≤ 4 → ∃ t, Runs (.maintHold via) s t ∧ tabGet 0 t.mbx.holds (u32At p 0).toNat = u16At p 4 ∧
        t.mbx.holdMask = (if u32At p 0 = s.core.frameNo then u16At p 4 else s.mbx.holdMask) ∧
        (entryOf t via).map (·.st) = some (.replied 0x00#8 []) ∧
        t = { s with mbx := { s.mbx with holds := t.mbx.holds, holdMask := t.mbx.holdMask, queue := t.mbx.queue } })) ∧
    (Starts s via 0x04#8 p → ∃ t, Runs (.hostbitSet via) s t ∧ Answers { s with mbx := { s.mbx with
      owed := s.mbx.owed ++ [(via, .bits (u64At p 0) (u64At p 8))] } } t via (le64 (bitsInForce s)))

/-- The loaf slots: LOAF_WRITE appends to the slot it writes or starts it anew, LOAF_CHECK makes it VALID or INVALID with the
first failing status, LOAF_ERASE empties it, LOAF_ACTIVATE of a slot that passes every check makes both lanes switch
once they agree; a slot number above 1, a write out of place and a slot in the wrong state are refused; the ACTIVE slot is never
written, checked or erased. A LOAF_WRITE that fails after its checks leaves the slot WRITING with the bytes before it; its status and
payload are free (log 99). A START to a slot whose activation waits is taken (log 76), and which crumbs are written is log 50's. -/
def Obligations.LoafCommandsAct : Prop :=
  (∀ (via : Via) (s : State) (p : List Byte) (f : Bool), 1 < (byteAt p 0).toNat →
    ∀ c cmd, (c, cmd) ∈ [(Instr.loafWrite ⟨via, f⟩, 0x10#8), (.loafCheck via, 0x11#8), (.loafActivate via, 0x12#8),
        (.loafErase via, 0x14#8)] →
      Starts s via cmd p → ∃ t, Runs c s t ∧ Denies s t via 0x05#8 8) ∧
  ∀ (via : Via) (s : State) (p : List Byte) (k : Side) (x : LoafSlot), x = s.nv.slots.at k →
    (byteAt p 0).toNat ≤ 1 → k = sideOf (byteAt p 0) →
    (Starts s via 0x10#8 p → byteAt p 1 &&& 0xFE#8 = 0 → natAt p 6 2 = 0 → x.state ≠ .active →
      (∀ old, (byteAt p 1 = 1 ∧ natAt p 2 4 = 0 ∧ old = []) ∨
          (byteAt p 1 = 0 ∧ x.state = .writing ∧ natAt p 2 4 = x.image.length ∧ old = x.image) →
        natAt p 2 4 + (p.length - 8) ≤ 0x200000 →
        (∃ t, Runs (.loafWrite ⟨via, false⟩) s t ∧ Answers { s with nv := { s.nv with
          slots := s.nv.slots.set k { state := .writing, image := old ++ p.drop 8 } } } t via
            (leBytes 4 (old ++ p.drop 8).length)) ∧
        ∃ t st q, q.length = 4 ∧ Runs (.loafWrite ⟨via, true⟩) s t ∧ EntryNow { s with
          drawn := s.drawn + 1
          nv := { s.nv with slots := s.nv.slots.set k { state := .writing, image := old } } } t via (.replied st q)) ∧
      ((byteAt p 1 = 1 ∧ natAt p 2 4 ≠ 0) ∨
          (byteAt p 1 = 0 ∧ (x.state ≠ .writing ∨ natAt p 2 4 ≠ x.image.length)) →
        ∀ f, ∃ t, Runs (.loafWrite ⟨via, f⟩) s t ∧ Denies s t via 0x05#8 10)) ∧
    (x.state = .active →
      (Starts s via 0x10#8 p → byteAt p 1 &&& 0xFE#8 = 0 → natAt p 6 2 = 0 →
        ∀ f, ∃ t, Runs (.loafWrite ⟨via, f⟩) s t ∧ Denies s t via stLoafSlot 4) ∧
      (Starts s via 0x11#8 p → ∃ t, Runs (.loafCheck via) s t ∧ Denies s t via stLoafSlot 4) ∧
      (Starts s via 0x12#8 p → ∃ t, Runs (.loafActivate via) s t ∧ Denies s t via stLoafSlot 4) ∧
      (Starts s via 0x14#8 p → ∃ t, Runs (.loafErase via) s t ∧ Denies s t via stLoafSlot 4)) ∧
    (Starts s via 0x11#8 p → x.state = .empty → ∃ t, Runs (.loafCheck via) s t ∧ Denies s t via stLoafSlot 0) ∧
    (Starts s via 0x12#8 p → x.state ≠ .valid → ∃ t, Runs (.loafActivate via) s t ∧
      Denies s t via stLoafSlot (slotCode x.state).toNat) ∧
    (Starts s via 0x11#8 p → x.state ≠ .active → x.state ≠ .empty →
      ∃ t, Runs (.loafCheck via) s t ∧ t = { s with
          nv := { s.nv with slots := s.nv.slots.set k { x with state := if (checkImage x.image).isNone then .valid else .invalid } }
          mbx := { s.mbx with queue := t.mbx.queue }, jrn := t.jrn, stat := t.stat } ∧ SameStore s t ∧ SameClock s t ∧
        (entryOf t via).map (·.st) = some (match checkImage x.image with
          | none => .replied 0x00#8 [0x02#8]
          | some (st, d) => .replied st (leBytes 4 d))) ∧
    (Starts s via 0x14#8 p → x.state ≠ .active → ∃ t, Runs (.loafErase via) s t ∧
      Answers { s with nv := { s.nv with slots := s.nv.slots.set k LoafSlot.empty } } t via [0x00#8]) ∧
    (Starts s via 0x12#8 p → x.state = .valid →
      ∃ t, Runs (.loafActivate via) s t ∧ t.nv = s.nv ∧ match activationCheck s.nv x.image with
        | none => t = { s with mbx := { s.mbx with queue := t.mbx.queue, switch := t.mbx.switch } } ∧
            (entryOf t via).map (·.st) = some .running ∧
            t.mbx.switch = some { via := some via, slot := k, agreed := false, cfgA := loafCfg x.image .a, cfgB := loafCfg x.image .b }
        | some (st, d) => t = { s with mbx := { s.mbx with queue := t.mbx.queue }, jrn := t.jrn, stat := t.stat } ∧
            (entryOf t via).map (·.st) = some (.replied st (leBytes 4 d)))

/-- The channel commands: CHAN_STATUS answers four bytes for each channel of a valid range; CHAN_READMIT of a retired channel
begins its probation at the next tick with its tally at 0; CHAN_ISOLATE, CHAN_RESTORE and CHAN_FORCE reach the lanes at the
phase S after their reply, CHAN_FORCE waiting for phase C, which refuses it where MAINTAIN is left; a number that is no input and a
value out of range are refused (log 49). -/
def Obligations.ChannelCommandsAct : Prop :=
  ∀ (via : Via) (s : State) (b v : Byte),
    (∀ n list, Starts s via 0x20#8 [b, n] → (chanKind b.toNat).isSome = true →
      list = (allChans.filter fun k => decide (b.toNat ≤ k)).take n.toNat → list.length = n.toNat → 1 ≤ n.toNat →
      n.toNat ≤ 48 → ∃ t, Runs (.chanStatus via) s t ∧ Answers s t via (list.flatMap (chanRecord s))) ∧
    (∀ n, Starts s via 0x20#8 [b, n] → (chanKind b.toNat).isNone = true →
      ∃ t, Runs (.chanStatus via) s t ∧ Denies s t via 0x05#8 8) ∧
    (Starts s via 0x21#8 [b] → (chanKind b.toNat).isSome = true → isLaneChan b.toNat = none →
      (sideRetired s b.toNat = true → ∃ t, Runs (.chanReadmit via) s t ∧ Denies s t via 0x13#8 0) ∧
      (sideRetired s b.toNat = false → (chanOf (reportingLane s) (ownChan s b.toNat)).retired = false →
        ∃ t, Runs (.chanReadmit via) s t ∧ Denies s t via 0x12#8 0) ∧
      (sideRetired s b.toNat = false → (chanOf (reportingLane s) (ownChan s b.toNat)).retired = true →
        ownChan s b.toNat ∉ s.mbx.readmits → resetPathOk s b.toNat = true →
        ∃ t, Runs (.chanReadmit via) s t ∧ ownChan s b.toNat ∈ t.mbx.readmits ∧
          (entryOf t via).map (·.st) = some (.replied 0x00#8 []) ∧
          (∀ l, chanRec t l (ownChan s b.toNat) = { chanRec s l (ownChan s b.toNat) with tally := 0, clean := 0 }) ∧
          t = { s with lane := t.lane, mbx := { s.mbx with queue := t.mbx.queue, readmits := t.mbx.readmits },
                       jrn := t.jrn, stat := t.stat } ∧ SameStore s t ∧ SameClock s t)) ∧
    (Starts s via 0x22#8 [b, v] → isInputChan b.toNat = true → v.toNat ≤ 1 →
      ∃ t, Runs (.chanIsolate via) s t ∧
        Answers { s with mbx := { s.mbx with owed := s.mbx.owed ++ [(via, .chan b.toNat (.isolate (v == 1#8)))] } } t via []) ∧
    (Starts s via 0x23#8 [b] → (chanKind b.toNat).isSome = true →
      (isolatedSoon s b.toNat = true → ∃ t, Runs (.chanRestore via) s t ∧
        Answers { s with mbx := { s.mbx with owed := s.mbx.owed ++ [(via, .chan b.toNat .restore)] } } t via []) ∧
      (isolatedSoon s b.toNat = false → ∃ t, Runs (.chanRestore via) s t ∧ Denies s t via 0x05#8 8)) ∧
    (Starts s via 0x22#8 [b, v] →
      (isInputChan b.toNat = false → ∃ t, Runs (.chanIsolate via) s t ∧ Denies s t via 0x05#8 8) ∧
      (isInputChan b.toNat = true → 1 < v.toNat → ∃ t, Runs (.chanIsolate via) s t ∧ Denies s t via 0x05#8 9)) ∧
    (Starts s via 0x24#8 [b, v] →
      (isInputChan b.toNat = false → ∃ t, Runs (.chanForce via) s t ∧ Denies s t via 0x05#8 8) ∧
      (isInputChan b.toNat = true → 2 < v.toNat → ∃ t, Runs (.chanForce via) s t ∧ Denies s t via 0x05#8 9) ∧
      (isInputChan b.toNat = true → v.toNat ≤ 2 →
        (s.core.tickOn = true → s.core.phase ≠ .h → s.core.phase ≠ .g →
          ∃ t, Runs (.chanForce via) s t ∧ EntryNow s t via .awaitingStage) ∧
        (s.core.tickOn = false ∨ s.core.phase = .h ∨ s.core.phase = .g →
          (leavingMaintain s = true → ∃ t, Runs (.chanForce via) s t ∧ Denies s t via 0x06#8 s.core.mode.code.toNat) ∧
          (leavingMaintain s = false →
            ∃ t, Runs (.chanForce via) s t ∧ Answers { s with mbx := { s.mbx with owed := s.mbx.owed ++
              [(via, .chan b.toNat (.force (if v.toNat = 0 then none else some (v.toNat == 2))))] } } t via []))))

/-! ## The modes and the lifecycle -/

/-- From a state with the invariant a step changes the mode only by a transition of the table of modes, or into BOOT by a
reset. -/
def Obligations.ModeChangesOnlyByTheTable : Prop :=
  ∀ s t : State, s.inv = true → step s = .next t →
    t.core.mode = s.core.mode ∨ modeEdge s.core.mode t.core.mode = true ∨ (t.core.inReset = true ∧ t.core.mode = .boot)

/-- The lifecycle moves only from MANUFACTURE to COMMISSION at the end of production test, and between COMMISSION and FIELD or
to RETIRED by an authorised LIFECYCLE_SET; RETIRED is terminal; a module is delivered in COMMISSION. -/
def Obligations.LifecycleMovesOnlyAsAllowed : Prop :=
  State.reset.nv.life = .commission ∧
  ∀ (c : Instr) (s t : State), Runs c s t → t.nv.life ≠ s.nv.life →
    (c = .productionTestEnd ∧ s.nv.life = .manufacture ∧ t.nv.life = .commission) ∨
    ((∃ via p key n, c = .lifecycleSet via ∧ Starts s via 0x77#8 p ∧ s.nv.lifeKey = some key ∧ s.mbx.nonce = some n ∧
        p.drop 4 = hmacSha256 key (n ++ padTo 8 s.nv.serial ++ [0x77#8] ++ p.take 4)) ∧
      ((s.nv.life = .commission ∧ t.nv.life = .field) ∨ (s.nv.life = .field ∧ t.nv.life = .commission) ∨
        ((s.nv.life = .commission ∨ s.nv.life = .field) ∧ t.nv.life = .retired)))

/-- A retired lane comes back only at a RESET_RELEASE after VDD33 was removed, with a full self-test in which no block failed;
no other command, RSTN and internal reset among them, brings it back. -/
def Obligations.LaneReturnsOnlyAfterPowerRemoval : Prop :=
  (∀ (c : Instr) (l : Side) (s t : State), Runs c s t → (s.lane.at l).retired = true → (t.lane.at l).retired = false →
    ∃ env, c = .resetRelease env ∧ s.core.inReset = true ∧ (s.lane.at l).powerCycled = true ∧
      tokenValid (advanceBoot s.nv) = false ∧ ∀ b ∈ setFull, blockFails (bootWindow s) env.runs b = false) ∧
  (∀ (c : Instr) (l : Side) (s t : State), Runs c s t → (s.lane.at l).powerCycled = false → (t.lane.at l).powerCycled = true →
    c = .vdd33BrownOut true)

/-- The tally of a channel: a retired one is not tallied; a permanent anomaly retires it; a transient one adds 1 up to 15,
clears the clean frames and retires it at T; without an anomaly the clean frames advance and the D-th takes 1 away. -/
def Obligations.TallyArithmetic : Prop :=
  ∀ (t d n : Nat) (rs : List Rep) (r q : ChanRec) (ev : List TallyEv), tallyChan (t, d) n rs r = (q, ev) →
    q.tally ≤ r.tally + 1 ∧ (r.retired = true → q = r) ∧
    (r.retired = false → (∃ x ∈ rs, x.permanent = true) → q.retired = true ∧ q.tally = r.tally) ∧
    (r.retired = false → rs ≠ [] → (∀ x ∈ rs, x.permanent = false) →
      q.tally = min (r.tally + 1) 15 ∧ q.clean = 0 ∧ (t ≤ q.tally → q.retired = true) ∧
      (q.retired = true → t ≤ q.tally ∨ r.prob.isSome = true)) ∧
    (r.retired = false → rs = [] → r.clean ≤ 1024 → ev = [] ∧ q.retired = false ∧
      (r.clean + 1 = d → 0 < r.tally → q.tally = r.tally - 1 ∧ q.clean = 0) ∧
      (r.clean + 1 ≠ d ∨ r.tally = 0 → q.tally = r.tally ∧ q.clean = r.clean + 1))

/-- SELFTEST_RUN is taken by the lanes and its answer at its completion waits for the end of test hold: with the results where the
module is still in MAINTAIN with both lanes, else ABORTED; the run ends at a block that retires a lane, and no block after it is run.
A block that does not exist is BAD_PARAM. SHUTDOWN_SELFTEST_COMPLETE: the run's results stand as those of a shutdown run, the repair
record is rewritten, and the quick-start token is written only where every block passed and both lanes serve, outside a shutdown
from SAFE_HOLD. A block that passes its rerun counts as a pass, and a run that a lost hearth asked for answers nobody (logs 48, 51, 52). -/
def Obligations.SelftestsRun : Prop :=
  (∀ (via : Via) (b : Byte) (s : State),
    (Starts s via 0x30#8 [b] →
      (knownBlock b = false → ∃ t, Runs (.selftestRun via) s t ∧ Denies s t via 0x05#8 8) ∧
      (knownBlock b = true → bothInService s = false → ∃ t, Runs (.selftestRun via) s t ∧ Denies s t via 0x0F#8 2) ∧
      (knownBlock b = true → bothInService s = true → ∃ t, Runs (.selftestRun via) s t ∧
        EntryNow { s with test := { s.test with asked := some (some via, b) } } t via .running)) ∧
    ∀ runs env,
      (s.test.asked = none ∨ s.test.hold = false → Runs (.commandSelftestComplete runs env) s s) ∧
      (∀ o, s.test.asked = some (o, b) → s.test.hold = true → ∃ t, Runs (.commandSelftestComplete runs env) s t ∧
        t.test.asked = none ∧ t.test.holdNext = false ∧ t.core.mode = s.core.mode ∧ t.nv.life = s.nv.life ∧
        (o = none → t.mbx.queue = s.mbx.queue) ∧
        (bothInService s = false → o = some via → ∀ e, entryOf t via = some e → e.st = .afterHold 0x0F#8 (leBytes 4 2)) ∧
        (bothInService s = true → s.core.mode ≠ .maintain → o = some via →
          ∀ e, entryOf t via = some e → e.st = .afterHold 0x0F#8 (leBytes 4 1)) ∧
        (bothInService s = true → s.core.mode = .maintain → t.test.source = 2 ∧
          (bothInService t = true ↔ ∀ x ∈ askedBlocks b, blockLanes x ≠ [] → blockEnd s.test.lockouts runs x ≠ .permanent) ∧
          (∃ ran rest, askedBlocks b = ran ++ rest ∧ (bothInService t = true → rest = []) ∧
            (∀ x ∈ ran.dropLast, blockLanes x ≠ [] → blockEnd s.test.lockouts runs x ≠ .permanent) ∧
            t.test.results = (reportedBlocks b).map fun x =>
              if x ∈ ran then finalResult s s.test.lockouts runs x else idleResult s x) ∧
          (bothInService t = true → o = some via →
            ∀ e, entryOf t via = some e → e.st = .afterHold 0x00#8 (resultsPayload t.test.results)) ∧
          (bothInService t = false → o = some via →
            ∀ e, entryOf t via = some e → e.st = .afterHold 0x0F#8 (leBytes 4 2))))) ∧
  (∀ (runs : List BlockRun) (s : State) (w : LockWindow), w = s.test.lockouts →
    (s.core.mode = .shutdown → s.test.shutdown = 2 →
      ∃ t, Runs (.shutdownSelftestComplete runs) s t ∧ SameClock s t ∧ t.core.mode = .shutdown ∧ t.test.source = 3 ∧
        t.nv.repair = some { rows := t.test.softMap, crcOk := true } ∧ t.pending = s.pending ∧
        t.test.results = (setFull.map fun x => if x = 0x08 ∨ x = 0x09 then idleResult s x else finalResult s w runs x) ∧
        t.nv.life = s.nv.life ∧
        (t.test.shutdown = 3 → t.nv.token.isSome = true ∧ s.test.fromSafeHold = false ∧
          ∀ b ∈ setCommand, (finalResult s w runs b).2.1 = 0x00#8) ∧
        ((∀ b ∈ setCommand, (finalResult s w runs b).2.1 = 0x00#8) → bothInService t = true → s.test.fromSafeHold = false →
          t.test.shutdown = 3) ∧
        (t.test.shutdown = 4 → t.nv.token = s.nv.token) ∧ (t.test.shutdown = 3 ∨ t.test.shutdown = 4)) ∧
    (¬ (s.core.mode = .shutdown ∧ s.test.shutdown = 2) → Runs (.shutdownSelftestComplete runs) s s))

/-- MEAS_READ answers registers of the eight, CERT_READ 200 bytes of a certificate, and QUOTE the body over the registers and
the nonce with an ECDSA signature of its hash by the attestation key, or NO_KEY without a key or a working crypto engine; a register
or an offset out of range is BAD_PARAM. The curve and scheme are taken from outside the spec and the number of each signature is
free (log 105); the certificates' bytes are free (log 124). -/
def Obligations.MeasurementsAreAnswered : Prop :=
  ∀ (via : Via) (s : State) (p : List Byte),
    (∀ f n, Starts s via 0x40#8 [f, n] →
      (7 < f.toNat → ∃ t, Runs (.measRead via) s t ∧ Denies s t via 0x05#8 8) ∧
      (f.toNat ≤ 7 → n = 0 ∨ 7 < n.toNat ∨ 8 < f.toNat + n.toNat →
        ∃ t, Runs (.measRead via) s t ∧ Denies s t via 0x05#8 9) ∧
      (n ≠ 0 → n.toNat ≤ 7 → f.toNat + n.toNat ≤ 8 → ∃ t, Runs (.measRead via) s t ∧
        Answers s t via ((List.range n.toNat).flatMap fun i => padTo 32 (s.meas.m.getD (f.toNat + i) [])))) ∧
    (∀ k lo hi cert off, Starts s via 0x42#8 [k, lo, hi] → cert = certOf s.nv k.toNat →
      off = lo.toNat + 256 * hi.toNat →
      (2 < k.toNat → ∃ t, Runs (.certRead via) s t ∧ Denies s t via 0x05#8 8) ∧
      (k.toNat ≤ 2 → cert.length ≤ off → ∃ t, Runs (.certRead via) s t ∧ Denies s t via 0x05#8 9) ∧
      cert.length ≤ 1024 ∧
      (k.toNat ≤ 2 → off < cert.length → ∃ t, Runs (.certRead via) s t ∧
        Answers s t via (leBytes 2 cert.length ++ leBytes 2 off ++ (cert.drop off).take 200))) ∧
    (Starts s via 0x41#8 p →
      (s.nv.attKey = none ∨ s.meas.disabled = true → ∃ t, Runs (.quote via) s t ∧ Denies s t via 0x09#8 4) ∧
      (∀ key, s.nv.attKey = some key → s.meas.disabled = false → ∃ t body number sig, Runs (.quote via) s t ∧
        body = [0x01, BitVec.ofNat 8 p.length, s.core.mode.code, s.nv.life.code, s.meas.mstate, 0x00] ++
          leBytes 2 s.meas.count ++ le32 (bootCount s.nv) ++ le32 s.core.frameNo ++
          (match activeCfg s with
            | some c => padTo 8 c.loafId
            | none => zeros 8) ++ padTo 8 s.nv.serial ++
          sha256 ((List.range 8).flatMap fun i => s.meas.m.getD i []) ++ p ∧
        0 < number ∧ number < P256.n ∧ sig = P256.sign (attPrivate key) number (sha256 body) ∧
        Answers { s with drawn := s.drawn + 1 } t via (body ++ P256.toBytes sig.1 ++ P256.toBytes sig.2)))

/-- NONCE_GET keeps the 16 bytes it answers until they are used or expire. LIFECYCLE_SET and a KEY_LOAD that replaces the lifecycle
key use the nonce up whatever their outcome (log 58); with the right tag LIFECYCLE_SET makes its move and erases the keys at RETIRED.
KEY_LOAD keeps a key of its kind. Production leaves MANUFACTURE once, with an attestation key pair; in it alone fuses are repaired
through JTAG, each lane SRAM with its 32 spare rows; the fuse word of a row is the model's (log 106). -/
def Obligations.KeysAndLifecycleAct : Prop :=
  ∀ (via : Via) (s : State) (p : List Byte),
    (Starts s via 0x76#8 p → ∃ t n, n.length = 16 ∧ Runs (.nonceGet via) s t ∧
      Answers { s with drawn := s.drawn + 1, mbx := { s.mbx with nonce := some n } } t via n) ∧
    Runs .nonceExpiry s { s with mbx := { s.mbx with nonce := none } } ∧
    (Starts s via 0x77#8 p →
      (byteAt p 1 ≠ 0 → ∃ t, Runs (.lifecycleSet via) s t ∧ Denies (unkeyed s) t via 0x05#8 9) ∧
      (byteAt p 1 = 0 → byteAt p 2 ≠ 0 → ∃ t, Runs (.lifecycleSet via) s t ∧ Denies (unkeyed s) t via 0x05#8 10) ∧
      (byteAt p 1 = 0 → byteAt p 2 = 0 → byteAt p 3 ≠ 0 →
        ∃ t, Runs (.lifecycleSet via) s t ∧ Denies (unkeyed s) t via 0x05#8 11) ∧
      (bytesAt p 1 3 = [0, 0, 0] → lifeOfCode (byteAt p 0) = none →
        ∃ t, Runs (.lifecycleSet via) s t ∧ Denies (unkeyed s) t via 0x05#8 8)) ∧
    (Starts s via 0x77#8 p → bytesAt p 1 3 = [0, 0, 0] → ∀ new, lifeOfCode (byteAt p 0) = some new →
      (s.nv.lifeKey = none → ∃ t, Runs (.lifecycleSet via) s t ∧ Denies (unkeyed s) t via 0x09#8 3) ∧
      ∀ key, s.nv.lifeKey = some key →
      (lifeMove s.nv.life new = false → ∃ t, Runs (.lifecycleSet via) s t ∧ Denies (unkeyed s) t via 0x05#8 8) ∧
      (lifeMove s.nv.life new = true →
        (s.mbx.nonce = none → ∃ t, Runs (.lifecycleSet via) s t ∧ Denies s t via 0x0A#8 0) ∧
        (∀ n, s.mbx.nonce = some n →
          (p.drop 4 ≠ hmacSha256 key (n ++ padTo 8 s.nv.serial ++ [0x77#8] ++ p.take 4) →
            ∃ t, Runs (.lifecycleSet via) s t ∧ Denies (unkeyed s) t via 0x08#8 0) ∧
          (p.drop 4 = hmacSha256 key (n ++ padTo 8 s.nv.serial ++ [0x77#8] ++ p.take 4) →
            ∃ t, Runs (.lifecycleSet via) s t ∧ t.nv.life = new ∧ t.host.lifeReg = new.code ∧ t.mbx.nonce = none ∧
              (entryOf t via).map (·.st) = some (.replied 0x00#8 [new.code]) ∧
              (new = .retired → t.nv.actKeys = [] ∧ t.nv.lifeKey = none) ∧ t.nv.attKey = s.nv.attKey ∧
              t = { s with nv := t.nv, mbx := t.mbx, host := { s.host with lifeReg := t.host.lifeReg }, meas := t.meas,
                           jrn := t.jrn, stat := t.stat })))) ∧
    (Starts s via 0x75#8 p → p.length = 36 → byteAt p 0 = 1 → (byteAt p 1).toNat < 8 → byteAt p 2 = 32 → byteAt p 3 = 0 →
      ∃ t, Runs (.keyLoad via) s t ∧ t.nv = { s.nv with actKeys := t.nv.actKeys } ∧
        (entryOf t via).map (·.st) = some (.replied 0x00#8 []) ∧
        ∀ k, tabFind t.nv.actKeys k = if k = (byteAt p 1).toNat then some (p.drop 4) else tabFind s.nv.actKeys k) ∧
    (Starts s via 0x75#8 p → ∀ n, n = (if byteAt p 0 = 2 then 16 else 32) →
      (byteAt p 0 = 0 ∨ 3 < (byteAt p 0).toNat → ∃ t, Runs (.keyLoad via) s t ∧ Denies s t via 0x05#8 8) ∧
      (byteAt p 0 = 1 ∨ byteAt p 0 = 2 ∨ (byteAt p 0 = 3 ∧ s.nv.lifeKey = none) →
        (∀ slots, slots = (if byteAt p 0 = 1 then 8 else if byteAt p 0 = 2 then 16 else 1) →
          (slots ≤ (byteAt p 1).toNat → ∃ t, Runs (.keyLoad via) s t ∧ Denies s t via 0x05#8 9) ∧
          ((byteAt p 1).toNat < slots → (byteAt p 2).toNat ≠ n → ∃ t, Runs (.keyLoad via) s t ∧ Denies s t via 0x05#8 10) ∧
          ((byteAt p 1).toNat < slots → (byteAt p 2).toNat = n → byteAt p 3 ≠ 0 →
            ∃ t, Runs (.keyLoad via) s t ∧ Denies s t via 0x05#8 11)) ∧
        (p.length = 4 + n → (byteAt p 2).toNat = n → byteAt p 3 = 0 →
          (byteAt p 1).toNat < (if byteAt p 0 = 1 then 8 else if byteAt p 0 = 2 then 16 else 1) →
          ∃ t, Runs (.keyLoad via) s t ∧ (entryOf t via).map (·.st) = some (.replied 0x00#8 []) ∧
            t.nv = (if byteAt p 0 = 1 then { s.nv with actKeys := tabPut s.nv.actKeys (byteAt p 1).toNat (bytesAt p 4 n) }
              else if byteAt p 0 = 2 then { s.nv with safeKeys := tabPut s.nv.safeKeys (byteAt p 1).toNat (bytesAt p 4 n) }
              else { s.nv with lifeKey := some (bytesAt p 4 n) }) ∧
            t = { s with nv := t.nv, mbx := { s.mbx with queue := t.mbx.queue }, meas := t.meas, jrn := t.jrn, stat := t.stat })) ∧
      (byteAt p 0 = 3 → s.nv.lifeKey.isSome = true → s.mbx.nonce = none → byteAt p 1 = 0 → byteAt p 2 = 32 → byteAt p 3 = 0 →
        ∃ t, Runs (.keyLoad via) s t ∧ Denies s t via 0x0A#8 0) ∧
      (∀ key m, byteAt p 0 = 3 → s.nv.lifeKey = some key → s.mbx.nonce = some m → p.length = 68 → byteAt p 1 = 0 →
        byteAt p 2 = 32 → byteAt p 3 = 0 →
        (p.drop 36 ≠ hmacSha256 key (m ++ padTo 8 s.nv.serial ++ [0x75#8] ++ p.take 36) →
          ∃ t, Runs (.keyLoad via) s t ∧ Denies (unkeyed s) t via 0x08#8 0) ∧
        (p.drop 36 = hmacSha256 key (m ++ padTo 8 s.nv.serial ++ [0x75#8] ++ p.take 36) →
          ∃ t, Runs (.keyLoad via) s t ∧ t.nv = { s.nv with lifeKey := some (bytesAt p 4 32) } ∧ t.mbx.nonce = none ∧
            (entryOf t via).map (·.st) = some (.replied 0x00#8 [])))) ∧
    (s.nv.life = .manufacture → ∃ t, Runs .productionTestEnd s t ∧ t.nv.attKey.isSome = true ∧
      (∀ k, s.nv.attKey = some k → t.nv.attKey = some k ∧ t.drawn = s.drawn) ∧ t.host = { s.host with lifeReg := 0x02#8 } ∧
      t = { s with nv := { s.nv with life := .commission, attKey := t.nv.attKey }, drawn := t.drawn, host := t.host,
                   meas := t.meas, jrn := t.jrn, stat := t.stat }) ∧
    (s.nv.life ≠ .manufacture → Runs .productionTestEnd s s) ∧
    ∀ rows blocks,
      (s.nv.life ≠ .manufacture ∨ portLive s = false → Runs (.fuseRepair rows blocks) s s) ∧
      (s.nv.life = .manufacture → portLive s = true →
        ∃ new : Two (List W16), Runs (.fuseRepair rows blocks) s { s with nv := { s.nv with
            fuses := s.nv.fuses ++ new.a.map (fun r => r.setWidth 32) ++ new.b.map (fun r => r.setWidth 32 ||| 0x10000#32)
            fuseRows := ⟨s.nv.fuseRows.a ++ new.a, s.nv.fuseRows.b ++ new.b⟩
            spareBlocks := s.nv.spareBlocks ++ blocks } } ∧
          ∀ c, (∀ r ∈ new.at c, r ∈ rows.at c ∧ r ∉ s.nv.fuseRows.at c) ∧
            ((s.nv.fuseRows.at c).length ≤ 32 → (s.nv.fuseRows.at c).length + (new.at c).length ≤ 32) ∧
            ((s.nv.fuseRows.at c).length + (rows.at c).length ≤ 32 →
              ∀ r ∈ rows.at c, r ∈ s.nv.fuseRows.at c ++ new.at c))

/-- The journal's sessions: JRN_OPEN takes a free one at the page asked for, JRN_READ answers the next 128 bytes and holds the
page, or tells that it was overwritten and begins again at the oldest, and JRN_CLOSE ends it with its holds. Pins and information: JRN_PIN pins a closed page, up to 256 of them, and frees it; JRN_INFO answers the oldest and the
newest page and the counts, and STAT_EPOCH the last epoch's block between two equal generations. What the spec leaves open of sessions is log 54's. -/
def Obligations.SessionsReadTheJournal : Prop :=
  (∀ (via : Via) (s : State),
    (∀ w lo hi n, Starts s via 0x50#8 [w, lo, hi] → n = lo.toNat + 256 * hi.toNat →
      (2 < w.toNat → ∃ t, Runs (.jrnOpen via) s t ∧ Denies s t via 0x05#8 8) ∧
      (w.toNat ≤ 2 → 12288 ≤ n → ∃ t, Runs (.jrnOpen via) s t ∧ Denies s t via 0x05#8 9) ∧
      (w.toNat ≤ 2 → n < 12288 → startPage s w n = none → ∃ t, Runs (.jrnOpen via) s t ∧
        Denies s t via 0x05#8 (if w = 2 then 9 else 8)) ∧
      (w.toNat ≤ 2 → n < 12288 → ∀ p q, startPage s w n = some (p, q) →
        (s.jrn.sessions.a.isSome = true → s.jrn.sessions.b.isSome = true →
          ∃ t, Runs (.jrnOpen via) s t ∧ Denies s t via 0x18#8 0) ∧
        (∀ k, s.jrn.sessions.at k = none → (k = .b → s.jrn.sessions.a.isSome = true) →
          ∃ t, Runs (.jrnOpen via) s t ∧ Answers { s with jrn := { s.jrn with
            sessions := s.jrn.sessions.set k (some { page := p, pseq := q, chunk := 0 }) } } t via
              (sideByte k :: leBytes 2 p)))) ∧
    (∀ b c cmd, 1 < b.toNat → (c = .jrnRead via ∧ cmd = 0x51#8) ∨ (c = .jrnClose via ∧ cmd = 0x52#8) →
      Starts s via cmd [b] → ∃ t, Runs c s t ∧ Denies s t via 0x05#8 8) ∧
    ∀ b k, b.toNat ≤ 1 → k = sideOf b →
      (Starts s via 0x51#8 [b] →
        (s.jrn.sessions.at k = none → ∃ t, Runs (.jrnRead via) s t ∧ Denies s t via 0x19#8 0) ∧
        (∀ x, s.jrn.sessions.at k = some x → x.chunk < 32 → tabFind s.nv.pages x.page = some x.pseq →
          s.nv.openPage ≠ some x.page →
          ∃ t, Runs (.jrnRead via) s t ∧ t.jrn.sessions = s.jrn.sessions.set k (some { x with chunk := x.chunk + 1 }) ∧
            (k, x.page) ∈ t.jrn.holds ∧
            t = { s with jrn := { s.jrn with sessions := t.jrn.sessions, holds := t.jrn.holds }
                         mbx := { s.mbx with queue := t.mbx.queue } } ∧
            (entryOf t via).map (·.st) = some (.replied 0x00#8 (leBytes 2 x.page ++ leBytes 2 (128 * x.chunk) ++
              [if x.chunk = 31 then 0x01#8 else 0x00#8, 0x00, 0x00, 0x00] ++
              memReadBytes s.nv.journal (4096 * x.page + 128 * x.chunk) 128))) ∧
        (∀ x y n, s.jrn.sessions.at k = some x → y = moveOn s.nv x → tabFind s.nv.pages y.page = some y.pseq →
          n = min 128 ((if s.nv.openPage = some y.page then min (32 * s.nv.openUnit) 4096 else 4096) - 128 * y.chunk) →
          ∃ t, Runs (.jrnRead via) s t ∧ t.jrn.sessions = s.jrn.sessions.set k
              (some { y with chunk := if n = 128 then y.chunk + 1 else y.chunk }) ∧
            (k, y.page) ∈ t.jrn.holds ∧
            t = { s with jrn := { s.jrn with sessions := t.jrn.sessions, holds := t.jrn.holds }
                         mbx := { s.mbx with queue := t.mbx.queue } } ∧
            (entryOf t via).map (·.st) = some (.replied 0x00#8 (leBytes 2 y.page ++ leBytes 2 (128 * y.chunk) ++
              [byteOfBits [y.chunk == 31 && n == 128, s.nv.openPage == some y.page || decide (32 ≤ y.chunk)],
                0x00, 0x00, 0x00] ++ memReadBytes s.nv.journal (4096 * y.page + 128 * y.chunk) n))) ∧
        (∀ x y, s.jrn.sessions.at k = some x → x.chunk < 32 → tabFind s.nv.pages x.page ≠ some x.pseq →
          y = ((oldestPage s.nv).map fun e => { page := e.1, pseq := e.2, chunk := 0 : Session }).getD x →
          ∃ t, Runs (.jrnRead via) s t ∧
            Denies { s with jrn := { s.jrn with sessions := s.jrn.sessions.set k (some y) } } t via 0x1A#8 x.page)) ∧
      (Starts s via 0x52#8 [b] →
        (s.jrn.sessions.at k = none → ∃ t, Runs (.jrnClose via) s t ∧ Denies s t via 0x19#8 0) ∧
        ((s.jrn.sessions.at k).isSome = true → ∃ t, Runs (.jrnClose via) s t ∧ Answers { s with jrn := { s.jrn with
          sessions := s.jrn.sessions.set k none, holds := s.jrn.holds.filter fun e => e.1 != k } } t via []))) ∧
  (∀ (via : Via) (s : State) (q : List Byte),
    (∀ lo hi v p, Starts s via 0x53#8 [lo, hi, v] → p = lo.toNat + 256 * hi.toNat →
      (12288 ≤ p → ∃ t, Runs (.jrnPin via) s t ∧ Denies s t via 0x05#8 8) ∧
      (p < 12288 → v = 0 → ∃ t, Runs (.jrnPin via) s t ∧
        Answers { s with nv := { s.nv with pins := s.nv.pins.filter fun x => x != p } } t via
          (leBytes 2 (s.nv.pins.filter fun x => x != p).length)) ∧
      (p < 12288 → 1 < v.toNat → ∃ t, Runs (.jrnPin via) s t ∧ Denies s t via 0x05#8 10) ∧
      (p < 12288 → v = 1 → pinnable s.nv p = true → p ∈ s.nv.pins → ∃ t, Runs (.jrnPin via) s t ∧
        Answers s t via (leBytes 2 s.nv.pins.length)) ∧
      (p < 12288 → v = 1 → pinnable s.nv p = false → ∃ t, Runs (.jrnPin via) s t ∧ Denies s t via 0x05#8 8) ∧
      (p < 12288 → v = 1 → pinnable s.nv p = true → p ∉ s.nv.pins →
        (256 ≤ s.nv.pins.length → ∃ t, Runs (.jrnPin via) s t ∧ Denies s t via 0x1B#8 0) ∧
        (s.nv.pins.length < 256 → ∃ t, Runs (.jrnPin via) s t ∧
          Answers { s with nv := { s.nv with pins := s.nv.pins ++ [p] } } t via (leBytes 2 (s.nv.pins.length + 1))))) ∧
    (Starts s via 0x54#8 q → ∃ t pages, pages.length = 4 ∧ Runs (.jrnInfo via) s t ∧
      Answers { s with drawn := s.drawn + 1 } t via (pages ++ leBytes 2 s.nv.pins.length ++
        [BitVec.ofNat 8 (heldPages s).length,
          BitVec.ofNat 8 (natOfBool s.jrn.sessions.a.isSome + natOfBool s.jrn.sessions.b.isSome)]) ∧
      ∀ x y, oldestPage s.nv = some x → newestPage s.nv = some y → pages = leBytes 2 x.1 ++ leBytes 2 y.1) ∧
    (Starts s via 0x55#8 q → ∃ t b, Runs (.statEpoch via) s t ∧ Answers s t via ([s.stat.egen] ++ b ++ [s.stat.egen]) ∧
      b = ((epochBytes s.stat.egen s.stat.lastEpoch).drop 1).take 67 ∧ b.length = 67))

/-- The journal's writer, in phase H while the tick runs: CRUMB_WRITE puts a crumb of one unit into the open page at the next
unit and changes no other byte, or opens a page for it; in SHUTDOWN, with nothing left to write, it closes the journal and lets the
self-test begin, which runs in COMMISSION and FIELD alone; out of phase H, without the hearth or with the journal closed it does
nothing. That a page which becomes full is followed at once, and where the first page lies, is the model's (log 53). -/
def Obligations.CrumbsAreWritten : Prop :=
  ∀ (s : State), (∀ p, s.nv.openPage = some p → p < 12288) →
    (hearthLive s = false ∨ s.jrn.closed = true ∨ (s.core.tickOn = true ∧ s.core.phase ≠ .h) → Runs .crumbWrite s s) ∧
    (hearthLive s = true → s.jrn.closed = false → (s.core.tickOn = true → s.core.phase = .h) →
      (s.jrn.buf = [] → s.core.mode ≠ .shutdown → Runs .crumbWrite s s) ∧
      (s.jrn.buf = [] → s.core.mode = .shutdown → s.jrn.ended = ⟨[], []⟩ →
        ∃ t, Runs .crumbWrite s t ∧ t.jrn = { s.jrn with closed := true } ∧ t.nv.openPage = none ∧
          t.test = { s.test with
            shutdown := if s.test.shutdown ≠ 1 then s.test.shutdown
              else if s.nv.life = .commission ∨ s.nv.life = .field then 2 else 4
            lockouts := if s.test.shutdown ≠ 1 then s.test.lockouts
              else { seen := ⟨s.crust.a.lockout, s.crust.b.lockout⟩, free := ⟨!s.crust.a.lockout, !s.crust.b.lockout⟩ } } ∧
          t = { s with jrn := t.jrn, nv := { s.nv with journal := t.nv.journal, openPage := none }, test := t.test } ∧
          ∀ p, s.nv.openPage = some p → memRead t.nv.journal (4096 * p + 17) = 0x02#8 ∧
            ∀ a, a < 4096 * p ∨ 4096 * p + 32 ≤ a → memRead t.nv.journal a = memRead s.nv.journal a) ∧
      (∀ c rest, s.core.mode ≠ .shutdown → s.jrn.buf = c :: rest → c.length = 32 → s.jrn.lost = 0 →
        (∀ p, s.nv.openPage = some p → s.nv.openUnit < 127 →
          ∃ t, Runs .crumbWrite s t ∧ t = { s with
              nv := { s.nv with journal := t.nv.journal, openUnit := s.nv.openUnit + 1 }, jrn := { s.jrn with buf := rest } } ∧
            memReadBytes t.nv.journal (4096 * p + 32 * s.nv.openUnit) 32 = c ∧
            ∀ a, a < 4096 * p + 32 * s.nv.openUnit ∨ 4096 * p + 32 * s.nv.openUnit + 32 ≤ a →
              memRead t.nv.journal a = memRead s.nv.journal a) ∧
        (∀ p s1, s.nv.openPage = none → choosePage s = some (p, s1) →
          ∃ t, Runs .crumbWrite s t ∧ t.nv.openPage = some p ∧ t.nv.openUnit = 2 ∧ t.nv.nextPseq = s.nv.nextPseq + 1 ∧
            memReadBytes t.nv.journal (4096 * p + 32) 32 = c ∧
            t = { s with nv := t.nv, jrn := t.jrn, stat := t.stat } ∧
            ∀ a, a < 4096 * p ∨ 4096 * p + 4096 ≤ a → memRead t.nv.journal a = memRead s.nv.journal a)))

/-- The hearth's own times: a page hold that expires is the session's oldest, a silent session closes with its holds, and an
epoch ends at a tick whose FRAME_NO is a multiple of 1,024, or once it has jumped (log 56). Door cycles: CYCLE_START begins a record
at its frame, the running one ending; CYCLE_END ends it, and CYCLE_TIMEOUT after 60 s (log 55); a record that ends becomes one crumb of at least two units, with its door,
its flags and its first frame, and waits for the end of the frame. Without the hearth, or with nothing to begin or to end, each does
nothing. -/
def Obligations.JournalTimesAndCyclesEnd : Prop :=
  (∀ (k : Side) (s : State) (cut : Bool), hearthLive s = false →
    ∀ c, c = .pageHoldExpiry k ∨ c = .sessionIdleClose k ∨ c = .epochEnd cut ∨
      (∃ d, c = .cycleStart d ∨ c = .cycleEnd d ∨ c = .cycleTimeout d) → Runs c s s) ∧
  (∀ (k : Side) (s : State), hearthLive s = true →
    (∃ t, Runs (.pageHoldExpiry k) s t ∧ t = { s with jrn := { s.jrn with holds := t.jrn.holds } } ∧
      (t.jrn.holds.filter fun e => e.1 == k) = (s.jrn.holds.filter fun e => e.1 == k).tail ∧
      (t.jrn.holds.filter fun e => e.1 != k) = s.jrn.holds.filter fun e => e.1 != k) ∧
    Runs (.sessionIdleClose k) s { s with jrn := { s.jrn with
      sessions := s.jrn.sessions.set k none, holds := s.jrn.holds.filter fun e => e.1 != k } } ∧
    (s.core.tickOn = false → ∀ cut, Runs (.epochEnd cut) s s) ∧
    ∀ cut, s.core.tickOn = true →
      ((if cut then s.stat.jumped = true else s.core.frameNo.toNat % 1024 = 0) → Runs (.epochEnd cut) s { s with
        stat := { s.stat with lastEpoch := { s.stat.epoch with isPartial := cut }, epoch := Epoch.zero,
                              egen := s.stat.egen + 1, jumped := false }
        host := { s.host with irqStat0 := s.host.irqStat0 ||| 0x10#8 } }) ∧
      ((if cut then s.stat.jumped = false else s.core.frameNo.toNat % 1024 ≠ 0) → Runs (.epochEnd cut) s s)) ∧
  (∀ (d : Fin 2) (k : Side) (s : State), k = (if d.val = 0 then .a else .b) → hearthLive s = true →
    (s.jrn.rose.getD (6 * d.val) false = true → s.jrn.cycles.at k = none →
      ∃ y, Runs (.cycleStart d) s { s with jrn := { s.jrn with cycles := s.jrn.cycles.set k (some y) } } ∧
        y.start = s.core.frameNo ∧ y.samples = [] ∧ y.edges = [] ∧ y.truncated = false ∧ y.edgesCut = false ∧
        y.marks = (List.range 4).map fun i => if s.jrn.rose.getD (6 * d.val + 2 + i) false then some 0 else none) ∧
    (s.jrn.rose.getD (6 * d.val) false = false → Runs (.cycleStart d) s s) ∧
    (s.jrn.rose.getD (6 * d.val + 1) false = false ∨ s.jrn.cycles.at k = none → Runs (.cycleEnd d) s s) ∧
    (s.jrn.cycles.at k = none ∨
      (∃ x, s.jrn.cycles.at k = some x ∧ (s.core.frameNo - x.start).toNat < framesOfMs s 60000) → Runs (.cycleTimeout d) s s) ∧
    ∀ c x, s.jrn.cycles.at k = some x →
      (c = .cycleStart d ∧ s.jrn.rose.getD (6 * d.val) false = true) ∨
      (c = .cycleEnd d ∧ s.jrn.rose.getD (6 * d.val + 1) false = true) ∨
      (c = .cycleTimeout d ∧ framesOfMs s 60000 ≤ (s.core.frameNo - x.start).toNat) →
      ∃ b y, Runs c s { s with jrn := { s.jrn with
          cycles := s.jrn.cycles.set k y, ended := s.jrn.ended.set k (s.jrn.ended.at k ++ [b]) } } ∧
        (c = .cycleStart d → ∃ z, y = some z ∧ z.start = s.core.frameNo ∧ z.samples = [] ∧ z.edges = []) ∧
        (c ≠ .cycleStart d → y = none) ∧
        byteAt b 0 = 0x20#8 ∧ b.length = 32 * (byteAt b 1).toNat ∧
        2 ≤ (byteAt b 1).toNat ∧ (byteAt b 2).toNat = d.val ∧
        bitOf (byteAt b 3) 2 = decide (c = .cycleTimeout d) ∧ bitOf (byteAt b 3) 3 = decide (c = .cycleStart d) ∧
        u32At b 4 = x.start)

/-- The fabric's reports: FAB_STATUS, FAB_MEMBERS for a manager, FAB_CONN for a range of the active loaf's connections; and
CAN_CONFIG keeps a configuration for the next start-up. -/
def Obligations.FabricReportsAnswer : Prop :=
  ∀ (via : Via) (s : State) (p : List Byte),
    (Starts s via 0x60#8 p → ∃ t, Runs (.fabStatus via) s t ∧ Answers s t via
      ([roleOf s, stationByte s, (portOf s .p0).st.code, (portOf s .p1).st.code, s.fab.sync.code,
        if s.fab.topo.healed then 1 else 0, s.fab.topo.p1Tail, s.fab.topo.p0Tail] ++ seg32 s ++
        leBytes 2 ((portOf s .p0).delay.getD 150) ++ leBytes 2 ((portOf s .p1).delay.getD 150))) ∧
    (∀ f n, Starts s via 0x61#8 [f, n] →
      (63 < f.toNat → ∃ t, Runs (.fabMembers via) s t ∧ Denies s t via 0x05#8 8) ∧
      (f.toNat ≤ 63 → n = 0 ∨ 14 < n.toNat ∨ 64 < f.toNat + n.toNat →
        ∃ t, Runs (.fabMembers via) s t ∧ Denies s t via 0x05#8 9) ∧
      (n ≠ 0 → n.toNat ≤ 14 → f.toNat + n.toNat ≤ 64 →
        (isManager s = false → ∃ t, Runs (.fabMembers via) s t ∧ Denies s t via 0x0E#8 0) ∧
        (isManager s = true → ∃ t, Runs (.fabMembers via) s t ∧
          Answers s t via ((List.range n.toNat).flatMap fun i => memberBytes s (f.toNat + i))))) ∧
    (∀ f n, Starts s via 0x62#8 [f, n] → activeCfg s = none →
      ∃ t, Runs (.fabConn via) s t ∧ Denies s t via 0x05#8 8) ∧
    (∀ f n cfg, Starts s via 0x62#8 [f, n] → activeCfg s = some cfg →
      (cfg.seeds.length ≤ f.toNat → ∃ t, Runs (.fabConn via) s t ∧ Denies s t via 0x05#8 8) ∧
      (f.toNat < cfg.seeds.length → n = 0 ∨ 16 < n.toNat ∨ cfg.seeds.length < f.toNat + n.toNat →
        ∃ t, Runs (.fabConn via) s t ∧ Denies s t via 0x05#8 9) ∧
      (n ≠ 0 → n.toNat ≤ 16 → f.toNat + n.toNat ≤ cfg.seeds.length → ∃ t, Runs (.fabConn via) s t ∧
        Answers s t via (((cfg.seeds.drop f.toNat).take n.toNat).flatMap (connBytes (reportingLane s) cfg)))) ∧
    (∀ on node nominal data, Starts s via 0x71#8 [on, node, nominal, data] →
      (on.toNat ≤ 1 → node.toNat ≤ 63 → nominal.toNat ≤ 3 → data.toNat ≤ 3 → ∃ t, Runs (.canConfig via) s t ∧
        Answers { s with nv := { s.nv with canCfg := some (on == 1, node, nominal, data) } } t via []) ∧
      (1 < on.toNat → ∃ t, Runs (.canConfig via) s t ∧ Denies s t via 0x05#8 8) ∧
      (on.toNat ≤ 1 → 63 < node.toNat → ∃ t, Runs (.canConfig via) s t ∧ Denies s t via 0x05#8 9) ∧
      (on.toNat ≤ 1 → node.toNat ≤ 63 → 3 < nominal.toNat → ∃ t, Runs (.canConfig via) s t ∧ Denies s t via 0x05#8 10) ∧
      (on.toNat ≤ 1 → node.toNat ≤ 63 → nominal.toNat ≤ 3 → 3 < data.toNat →
        ∃ t, Runs (.canConfig via) s t ∧ Denies s t via 0x05#8 11))

/-- Door positions: DOORPOS_LEARN begins a run of both pairs, ending the one before it, and refuses a pair or a count that does
not fit; it ends ABORTED, at once where a lane is retired, for a capture missing, for its spread, or with offsets that stand pending
(log 57); DOORPOS_CONFIRM puts pending offsets into both lanes' copies and the record; DOORPOS_READ answers
both. -/
def Obligations.DoorPositionsAreLearned : Prop :=
  (∀ (via : Via) (s : State) (a b n : Byte),
    (Starts s via 0x72#8 [a, b, n] →
      (pairCodeA a = false ∨ quadOfLoaf s a.toNat = none → ∃ t, Runs (.doorposLearn via) s t ∧ Denies s t via 0x05#8 8) ∧
      (pairCodeA a = true → (quadOfLoaf s a.toNat).isSome = true → pairCodeB b = false ∨ quadOfLoaf s b.toNat = none →
        ∃ t, Runs (.doorposLearn via) s t ∧ Denies s t via 0x05#8 9)) ∧
    (Starts s via 0x73#8 [a, b] →
      (pairCodeA a = false → ∃ t, Runs (.doorposConfirm via) s t ∧ Denies s t via 0x05#8 8) ∧
      (pairCodeA a = true → pairCodeB b = false → ∃ t, Runs (.doorposConfirm via) s t ∧ Denies s t via 0x05#8 9)) ∧
    (Starts s via 0x74#8 [a] → pairCodeA a = false → pairCodeB a = false →
      ∃ t, Runs (.doorposRead via) s t ∧ Denies s t via 0x05#8 8)) ∧
  ∀ (via : Via) (s : State) (a b : Byte), pairCodeA a = true → pairCodeB b = true →
    (∀ n, Starts s via 0x72#8 [a, b, n] → (quadOfLoaf s a.toNat).isSome = true → (quadOfLoaf s b.toNat).isSome = true →
      (n.toNat < 2 ∨ 16 < n.toNat → ∃ t, Runs (.doorposLearn via) s t ∧ Denies s t via 0x05#8 10) ∧
      (2 ≤ n.toNat → n.toNat ≤ 16 → s.mbx.learn = none → ∃ t, Runs (.doorposLearn via) s t ∧
        EntryNow { s with mbx := { s.mbx with learn := some { via := via, pairA := a.toNat, pairB := b.toNat, cycles := n.toNat, caps := ⟨[], []⟩ } } }
          t via .running) ∧
      (2 ≤ n.toNat → n.toNat ≤ 16 → ∀ r, s.mbx.learn = some r → r.via ≠ via → ∃ t, Runs (.doorposLearn via) s t ∧
        t.mbx.learn = some { via := via, pairA := a.toNat, pairB := b.toNat, cycles := n.toNat, caps := ⟨[], []⟩ } ∧
        (entryOf t via).map (·.st) = some .running ∧
        (∀ e, entryOf t r.via = some e → e.st = .replied 0x0F#8 (leBytes 4 3)) ∧
        t = { s with mbx := { s.mbx with learn := t.mbx.learn, queue := t.mbx.queue } })) ∧
    (s.mbx.learn = none → ∀ why, Runs (.learningRunEnd why) s s) ∧
    (∀ r, s.mbx.learn = some r →
      (∀ why, ∃ t, Runs (.learningRunEnd why) s t ∧ t.mbx.learn = none ∧
        t = { s with drawn := t.drawn, mbx := { s.mbx with learn := none, learned := t.mbx.learned, queue := t.mbx.queue } }) ∧
      (∃ t, Runs (.learningRunEnd .interrupted) s t ∧ t.mbx.learned = s.mbx.learned ∧
        ∀ e, entryOf t r.via = some e → e.st = .replied 0x0F#8 (leBytes 4 (if bothInService s then 1 else 2))) ∧
      (bothInService s = false → ∀ why, ∃ t, Runs (.learningRunEnd why) s t ∧ t.mbx.learned = s.mbx.learned ∧
        ∀ e, entryOf t r.via = some e → e.st = .replied 0x0F#8 (leBytes 4 2)) ∧
      (∀ i, bothInService s = true → missingCycle r = some i → ∀ why, why ≠ .interrupted →
        ∃ t, Runs (.learningRunEnd why) s t ∧ t.mbx.learned = s.mbx.learned ∧
          ∀ e, entryOf t r.via = some e → e.st = .replied 0x16#8 (leBytes 4 i)) ∧
      (bothInService s = true → missingCycle r = none → ∃ t, Runs (.learningRunEnd .timeout) s t ∧ t.mbx.learned = s.mbx.learned ∧
        ∀ e, entryOf t r.via = some e → e.st = .replied 0x16#8 (leBytes 4 r.cycles)) ∧
      (∀ code, bothInService s = true → missingCycle r = none → spreadPair s r = some code →
        ∃ t, Runs (.learningRunEnd .cycles) s t ∧ t.mbx.learned = s.mbx.learned ∧
          ∀ e, entryOf t r.via = some e → e.st = .replied 0x15#8 (leBytes 4 code)) ∧
      (bothInService s = true → missingCycle r = none → spreadPair s r = none → r.pairA ≠ r.pairB →
        ∃ t, Runs (.learningRunEnd .cycles) s t ∧
          tabFind t.mbx.learned r.pairA =
            some (learnedOffset s 0 r.pairA (closings r .a), learnedOffset s 1 r.pairA (openings r .a)) ∧
          tabFind t.mbx.learned r.pairB =
            some (learnedOffset s 2 r.pairB (closings r .b), learnedOffset s 3 r.pairB (openings r .b)) ∧
          ∀ e, entryOf t r.via = some e → ∃ q, e.st = .replied 0x00#8 q ∧ q.length = 12)) ∧
    (Starts s via 0x73#8 [a, b] →
      (∀ x y all, tabFind s.mbx.learned a.toNat = some x → tabFind s.mbx.learned b.toNat = some y →
        all = tabPut (tabPut (bootOffsets s.nv) a.toNat x) b.toNat y →
        ∃ t, Runs (.doorposConfirm via) s t ∧ t.nv = { s.nv with calib := all, laneOffsets := ⟨some all, some all⟩ } ∧
          tabFind t.mbx.learned a.toNat = none ∧ tabFind t.mbx.learned b.toNat = none ∧
          tabFind t.mbx.confirm a.toNat = some x ∧ tabFind t.mbx.confirm b.toNat = some y ∧
          (entryOf t via).map (·.st) = some (.replied 0x00#8 []) ∧
          t = { s with nv := t.nv, mbx := t.mbx, meas := t.meas, jrn := t.jrn, stat := t.stat }) ∧
      (tabFind s.mbx.learned a.toNat = none ∨ tabFind s.mbx.learned b.toNat = none →
        ∃ t, Runs (.doorposConfirm via) s t ∧ Denies s t via 0x17#8 0)) ∧
    ∀ c, c = a ∨ c = b → Starts s via 0x74#8 [c] → ∃ t, Runs (.doorposRead via) s t ∧ Answers s t via
      (byteOfBits [(tabFind s.mbx.learned c.toNat).isSome, (tabFind (bootOffsets s.nv) c.toNat).isSome] ::
        (offsetBytes ((tabFind (bootOffsets s.nv) c.toNat).getD (0, 0)) ++
          offsetBytes ((tabFind s.mbx.learned c.toNat).getD (0, 0))))

/-! ## The actuator identity bus -/

/-- The actuator bus: ACT_STATUS reports it, ACT_SCAN asks for a scan, BUS_SCAN takes over what each chip answers and replies to
those who waited, and keeps a chip whose UID changed unproven until it authenticates; WEAR_ADVANCE takes 256 counts off a proven
chip that answers it right under the UID recorded, and leaves the flags of the scan; a failed transaction is reported; a bus that does
not recover is BUS_STUCK (logs 59, 127). -/
def Obligations.ActuatorBusActs : Prop :=
  ∀ (via : Via) (s : State) (p : List Byte),
    (Starts s via 0x78#8 p → ∃ t, Runs (.actStatus via) s t ∧ Answers s t via (actStatusBytes s)) ∧
    (Starts s via 0x79#8 p →
      (busState s = 2 → ∃ t, Runs (.actScan via) s t ∧ Denies s t via 0x1C#8 0) ∧
      (busState s ≠ 2 → busActive s s.core.mode = false →
        ∃ t, Runs (.actScan via) s t ∧ Answers s t via (actStatusBytes s)) ∧
      (busState s ≠ 2 → busActive s s.core.mode = true → ∃ t, Runs (.actScan via) s t ∧
        EntryNow { s with act := { s.act with scanDue := true, scanVia := s.act.scanVia ++ [via] } } t via .running)) ∧
    (∀ replies, busUsable s = true → s.act.scanDue = true → s.act.recoverDue = false →
      ∃ t, Runs (.busScan replies) s t ∧ t.act.scanDue = false ∧ t.act.scanVia = [] ∧ SameStore s t ∧ SameClock s t ∧
        (∀ v ∈ s.act.scanVia, ∀ e, entryOf t v = some e → e.st = .replied 0x00#8 (actStatusBytes t)) ∧
        ∀ j i e, (chipEntries s)[j]? = some (i, e) →
          (match replies.getD j .absent with
            | .absent => (chipOf t i).present = false ∧ (chipOf t i).authOk = false ∧
                (chipOf t i).count = (chipOf s i).count ∧ (chipOf t i).uid = (chipOf s i).uid
            | .failed none => (chipOf t i).present = true ∧ (chipOf t i).authOk = false ∧ (chipOf t i).count = (chipOf s i).count
            | .failed (some a) => (chipOf t i).present = true ∧ (chipOf t i).authOk = false ∧ (chipOf t i).authFail = true ∧
                (chipOf t i).uid = a.1 ∧ (chipOf t i).count = a.2
            | .present uid count _ => (chipOf t i).present = true ∧ (chipOf t i).count = count ∧ (chipOf t i).uid = uid ∧
                (chipKey s e = none → (chipOf t i).authOk = false ∧ (chipOf t i).authFail = true ∧ (chipOf t i).noKey = true)) ∧
          ∀ uid, (match replies.getD j .absent with
              | .absent => False
              | .failed a => ∃ n, a = some (uid, n)
              | .present u _ _ => u = uid) →
            tabGet [] t.nv.actUid i = uid ∧
            ((chipOf t i).uidChanged = true ↔ tabGet [] s.nv.actUid i ≠ [] ∧ tabGet [] s.nv.actUid i ≠ uid) ∧
            ((chipOf t i).uidChanged = true → (chipOf t i).pending = 0) ∧
            (i ∈ t.nv.actUnproven ↔
              (chipOf t i).authOk = false ∧ ((chipOf t i).uidChanged = true ∨ i ∈ s.nv.actUnproven))) ∧
    (∀ i e key uid count hmac challenge, busUsable s = true → s.act.scanDue = true → s.act.recoverDue = false →
      chipEntries s = [(i, e)] → chipKey s e = some key → challenge = (List.range 16).map (Config.freeByte s.drawn) →
      ∃ t, Runs (.busScan [.present uid count hmac]) s t ∧
        (chipOf t i).authOk = decide (hmac = hmacSha256 key (challenge ++ uid ++ le32 count ++ [byteAt e 2])) ∧
        (chipOf t i).authFail = !(chipOf t i).authOk ∧ (chipOf t i).noKey = false ∧
        (chipOf t i).warn = decide (chipWarn e ≤ count) ∧ (chipOf t i).limit = decide (chipLimit e ≤ count)) ∧
    (∀ replies, busUsable s = false ∨ s.act.scanDue = false ∨ s.act.recoverDue = true → Runs (.busScan replies) s s) ∧
    (∀ r, Runs (.chipTransactionFail r) s (if busUsable s && r then { s with core := { s.core with
      found := s.core.found ++ [{ chan := chanActBus, code := 0x38#8, permanent := false }] } } else s)) ∧
    (∀ (idx : Fin 8) e, (chipEntries s).find? (fun c => c.1 == idx.val) = some (idx.val, e) →
      (∀ r, advanceDue s idx.val = false ∨ idx.val ∈ s.nv.actUnproven ∨ (chipOf s idx.val).pending < 256 →
        Runs (.wearAdvance idx r) s s) ∧
      (∀ r, advanceDue s idx.val = true → r = .absent ∨ (∃ a, r = .failed a) →
        ∃ t, Runs (.wearAdvance idx r) s t ∧ chipOf t idx.val = { chipOf s idx.val with advanceFailed := true } ∧
          SameStore s t ∧ SameClock s t) ∧
      (∀ uid count hmac, advanceDue s idx.val = true →
        chipKey s e = none ∨ count.toNat ≠ (chipOf s idx.val).count.toNat + 256 ∨
          (∃ key, chipKey s e = some key ∧ hmac ≠ hmacSha256 key ((List.range 16).map (Config.freeByte s.drawn) ++
            (chipOf s idx.val).uid ++ le32 count ++ [byteAt e 2])) →
        ∃ t, Runs (.wearAdvance idx (.present uid count hmac)) s t ∧ (chipOf t idx.val).advanceFailed = true ∧
          (chipOf t idx.val).count = count ∧ (chipOf t idx.val).pending = (chipOf s idx.val).pending) ∧
      (∀ key uid count hmac challenge, advanceDue s idx.val = true → chipKey s e = some key →
        challenge = (List.range 16).map (Config.freeByte s.drawn) →
        hmac = hmacSha256 key (challenge ++ (chipOf s idx.val).uid ++ le32 count ++ [byteAt e 2]) →
        count.toNat = (chipOf s idx.val).count.toNat + 256 →
        ∃ t, Runs (.wearAdvance idx (.present uid count hmac)) s t ∧ (chipOf t idx.val).count = count ∧
          (chipOf t idx.val).pending = (chipOf s idx.val).pending - 256 ∧
          (chipOf t idx.val).authOk = (chipOf s idx.val).authOk ∧ (chipOf t idx.val).authFail = (chipOf s idx.val).authFail ∧
          SameStore s t ∧ SameClock s t)) ∧
    (∀ (idx : Fin 8) r, ((chipEntries s).find? fun c => c.1 == idx.val) = none → Runs (.wearAdvance idx r) s s) ∧
    (busUsable s = false → ∀ r, Runs (.busRecovery r) s s) ∧
    (busUsable s = true →
      Runs (.busRecovery (some 0)) s { s with act := { s.act with
        recoverDue := false, scanDue := s.act.scanDue || s.act.recoverDue } } ∧
      (∀ n, 1 ≤ n → n ≤ 27 → ∃ t, Runs (.busRecovery (some n)) s t ∧
        t = { s with act := { s.act with recoverDue := false, scanDue := true }, jrn := t.jrn, stat := t.stat } ∧
        SameStore s t ∧ SameClock s t) ∧
      ∀ r, (∀ n, r = some n → 27 < n) → ∃ t, Runs (.busRecovery r) s t ∧
        t = { s with act := t.act, core := t.core, jrn := t.jrn, stat := t.stat, mbx := { s.mbx with queue := t.mbx.queue } } ∧
        t.act = { s.act with recoverDue := false, scanDue := false, scanVia := [] } ∧
        t.core = { s.core with found := s.core.found ++ [{ chan := chanActBus, code := 0x39#8, permanent := true }] } ∧
        ∀ v ∈ s.act.scanVia, ∀ e, entryOf t v = some e → e.st = .replied 0x1C#8 (leBytes 4 0))
end

