-- ==== Sys2Proof/Laws/Tab.lean ====
section
/-! SUPPORT. Laws of finite tables: what a read gives after a change, and that every change keeps the canonical form. The
journal and the mailbox's bytes are such tables, so these are the laws of memory. -/

namespace Sys2Proof.Machine

variable {α : Type}

/-! ## Reading after a change -/

@[simp] theorem tabFind_nil (n : Nat) : tabFind ([] : Tab α) n = none := rfl

theorem tabFind_cons (k : Nat) (v : α) (r : Tab α) (n : Nat) :
    tabFind ((k, v) :: r) n = if n = k then some v else tabFind r n := rfl

theorem tabFind_put (t : Tab α) (n m : Nat) (x : α) :
    tabFind (tabPut t n x) m = if m = n then some x else tabFind t m := by
  induction t with
  | nil => rfl
  | cons e r ih =>
    obtain ⟨k, v⟩ := e
    unfold tabPut
    split
    · simp only [tabFind_cons]
    · split
      · subst n; simp only [tabFind_cons]; split <;> rfl
      · simp only [tabFind_cons, ih]
        split
        · split
          · omega
          · rfl
        · rfl

theorem tabFind_del (t : Tab α) (n m : Nat) : tabFind (tabDel t n) m = if m = n then none else tabFind t m := by
  induction t with
  | nil => simp [tabDel]
  | cons e r ih =>
    obtain ⟨k, v⟩ := e
    unfold tabDel
    split
    · subst n; rw [ih, tabFind_cons]; split <;> rfl
    · rw [tabFind_cons, tabFind_cons, ih]
      split
      · split
        · omega
        · rfl
      · rfl

@[simp] theorem tabGet_nil (d : α) (n : Nat) : tabGet d [] n = d := rfl

/-- A read after a change of the same key gives the new value, and every other key is as before. -/
theorem tabGet_set [DecidableEq α] (d : α) (t : Tab α) (n m : Nat) (x : α) :
    tabGet d (tabSet d t n x) m = if m = n then x else tabGet d t m := by
  unfold tabGet tabSet
  split
  · subst x; rw [tabFind_del]; split <;> rfl
  · rw [tabFind_put]; split <;> rfl

theorem tabGet_mod [DecidableEq α] (d : α) (t : Tab α) (n m : Nat) (f : α → α) :
    tabGet d (tabMod d t n f) m = if m = n then f (tabGet d t n) else tabGet d t m := tabGet_set d t n m _

theorem memRead_write (m : Tab Byte) (a b : Nat) (v : Byte) :
    memRead (memWrite m a v) b = if b = a then v else memRead m b := tabGet_set 0 m a b v

/-- Bytes outside those written read as before. -/
theorem memRead_writeBytes_outside (m : Tab Byte) (a b : Nat) (l : List Byte) (h : b < a ∨ a + l.length ≤ b) :
    memRead (memWriteBytes m a l) b = memRead m b := by
  induction l generalizing m a with
  | nil => rfl
  | cons x r ih =>
    simp only [List.length_cons] at h
    rw [memWriteBytes, ih _ _ (by omega), memRead_write, if_neg (by omega)]

/-- Each byte written reads as it was written. -/
theorem memRead_writeBytes_inside (m : Tab Byte) (a i : Nat) (l : List Byte) (h : i < l.length) :
    memRead (memWriteBytes m a l) (a + i) = l.getD i 0 := by
  induction l generalizing m a i with
  | nil => exact absurd h (by simp)
  | cons x r ih =>
    cases i with
    | zero => rw [memWriteBytes, memRead_writeBytes_outside _ _ _ _ (by omega), memRead_write]; simp
    | succ j =>
      have hj : j < r.length := by simpa using h
      have := ih (memWrite m a x) (a + 1) j hj
      rw [memWriteBytes, show a + (j + 1) = a + 1 + j by omega, this]; simp

/-! ## The canonical form -/

theorem tabRising_weaken (t : Tab α) (l k : Nat) (h : l ≤ k) (ht : tabRising (some k) t = true) :
    tabRising (some l) t = true := by
  cases t with
  | nil => rfl
  | cons e r => simp only [tabRising, Bool.and_eq_true, decide_eq_true_eq] at ht ⊢; exact ⟨by omega, ht.2⟩

theorem tabRising_none (t : Tab α) (k : Nat) (ht : tabRising (some k) t = true) : tabRising none t = true := by
  cases t with
  | nil => rfl
  | cons e r => simp only [tabRising, Bool.and_eq_true, decide_eq_true_eq, Bool.true_and] at ht ⊢; exact ht.2

/-- A bound below the keys of a table: none, or less than the key given. -/
def below (lo : Option Nat) (n : Nat) : Prop := ∀ l, lo = some l → l < n

theorem tabRising_cons (lo : Option Nat) (k : Nat) (v : α) (r : Tab α) :
    tabRising lo ((k, v) :: r) = true ↔ below lo k ∧ tabRising (some k) r = true := by
  cases lo with
  | none => simp [tabRising, below]
  | some l => simp [tabRising, below]

theorem tabRising_put (t : Tab α) (lo : Option Nat) (n : Nat) (x : α) (h : tabRising lo t = true) (hn : below lo n) :
    tabRising lo (tabPut t n x) = true := by
  induction t generalizing lo with
  | nil => exact (tabRising_cons _ _ _ _).2 ⟨hn, rfl⟩
  | cons e r ih =>
    obtain ⟨k, v⟩ := e
    have ⟨h1, h2⟩ := (tabRising_cons _ _ _ _).1 h
    unfold tabPut
    split
    · rename_i hlt
      exact (tabRising_cons _ _ _ _).2 ⟨hn, (tabRising_cons _ _ _ _).2 ⟨fun l hl => by cases hl; exact hlt, h2⟩⟩
    · split
      · rename_i heq
        subst heq
        exact (tabRising_cons _ _ _ _).2 ⟨hn, h2⟩
      · rename_i hnlt hne
        exact (tabRising_cons _ _ _ _).2 ⟨h1, ih (some k) h2 (fun l hl => by cases hl; omega)⟩

theorem tabRising_filter (t : Tab α) (lo : Option Nat) (p : Nat × α → Bool) (h : tabRising lo t = true) :
    tabRising lo (t.filter p) = true := by
  induction t generalizing lo with
  | nil => rfl
  | cons e r ih =>
    obtain ⟨k, v⟩ := e
    have ⟨h1, h2⟩ := (tabRising_cons _ _ _ _).1 h
    rw [List.filter_cons]
    split
    · exact (tabRising_cons _ _ _ _).2 ⟨h1, ih _ h2⟩
    · refine ih lo ?_
      cases lo with
      | none => exact tabRising_none _ _ h2
      | some l => exact tabRising_weaken _ _ _ (by have := h1 l rfl; omega) h2

theorem tabDel_eq_filter (t : Tab α) (n : Nat) : tabDel t n = t.filter fun e => decide (e.1 ≠ n) := by
  induction t with
  | nil => rfl
  | cons e r ih =>
    obtain ⟨k, v⟩ := e
    unfold tabDel
    rw [List.filter_cons]
    split
    · rename_i hn
      rw [ih]; simp [hn.symm]
    · rename_i hn
      rw [ih]; simp [Ne.symm hn]

theorem mem_tabPut (t : Tab α) (n : Nat) (x : α) (e : Nat × α) (h : e ∈ tabPut t n x) : e = (n, x) ∨ e ∈ t := by
  induction t with
  | nil => simpa [tabPut] using h
  | cons a r ih =>
    obtain ⟨k, v⟩ := a
    unfold tabPut at h
    split at h
    · simpa using h
    · split at h
      · rcases List.mem_cons.1 h with h | h
        · exact .inl h
        · exact .inr (List.mem_cons_of_mem _ h)
      · rcases List.mem_cons.1 h with h | h
        · exact .inr (h ▸ List.mem_cons_self)
        · rcases ih h with h | h
          · exact .inl h
          · exact .inr (List.mem_cons_of_mem _ h)

variable [DecidableEq α]

theorem tabWf_iff (d : α) (t : Tab α) : tabWf d t = true ↔ tabRising none t = true ∧ ∀ e ∈ t, e.2 ≠ d := by
  simp [tabWf, List.all_eq_true]

/-- Every change of one key keeps the canonical form. -/
theorem tabWf_set (d : α) (t : Tab α) (n : Nat) (x : α) (h : tabWf d t = true) : tabWf d (tabSet d t n x) = true := by
  have ⟨h1, h2⟩ := (tabWf_iff d t).1 h
  unfold tabSet
  split
  · rw [tabDel_eq_filter]
    exact (tabWf_iff _ _).2 ⟨tabRising_filter _ _ _ h1, fun e he => h2 e (List.mem_filter.1 he).1⟩
  · rename_i hx
    refine (tabWf_iff _ _).2 ⟨tabRising_put _ _ _ _ h1 (fun l hl => by cases hl), fun e he => ?_⟩
    rcases mem_tabPut _ _ _ _ he with rfl | he
    · exact hx
    · exact h2 e he

theorem tabWf_filter (d : α) (t : Tab α) (p : Nat × α → Bool) (h : tabWf d t = true) : tabWf d (t.filter p) = true := by
  have ⟨h1, h2⟩ := (tabWf_iff d t).1 h
  exact (tabWf_iff _ _).2 ⟨tabRising_filter _ _ _ h1, fun e he => h2 e (List.mem_filter.1 he).1⟩

theorem Memory.wf_write (m : Tab Byte) (a : Nat) (v : Byte) (h : Memory.wf m = true) : Memory.wf (memWrite m a v) = true :=
  tabWf_set 0 m a v h

theorem Memory.wf_writeBytes (m : Tab Byte) (a : Nat) (l : List Byte) (h : Memory.wf m = true) :
    Memory.wf (memWriteBytes m a l) = true := by
  induction l generalizing m a with
  | nil => exact h
  | cons x r ih => exact ih _ _ (Memory.wf_write m a x h)

theorem Memory.wf_filter (m : Tab Byte) (p : Nat × Byte → Bool) (h : Memory.wf m = true) : Memory.wf (m.filter p) = true :=
  tabWf_filter 0 m p h

/-! ## A property of every listed entry -/

/-- What holds of each listed value holds of each value after one is changed by a function that keeps it. -/
theorem tabMod_all (P : α → Prop) (d : α) (t : Tab α) (n : Nat) (f : α → α) (hd : P d) (h : ∀ e ∈ t, P e.2)
    (hf : ∀ x, P x → P (f x)) : ∀ e ∈ tabMod d t n f, P e.2 := by
  have hget : P (tabGet d t n) := by
    unfold tabGet
    cases hfind : tabFind t n with
    | none => exact hd
    | some v =>
      have : ∀ (t : Tab α), (∀ e ∈ t, P e.2) → tabFind t n = some v → P v := by
        intro t ht hv
        induction t with
        | nil => cases hv
        | cons a r ih =>
          obtain ⟨k, w⟩ := a
          rw [tabFind_cons] at hv
          split at hv
          · cases hv; exact ht _ List.mem_cons_self
          · exact ih (fun e he => ht e (List.mem_cons_of_mem _ he)) hv
      exact this t h hfind
  intro e he
  unfold tabMod tabSet at he
  split at he
  · rw [tabDel_eq_filter] at he
    exact h e (List.mem_filter.1 he).1
  · rcases mem_tabPut _ _ _ _ he with rfl | he
    · exact hf _ hget
    · exact h e he

theorem tabMap_all (P : α → Prop) (d : α) (t : Tab α) (f : Nat → α → α) (h : ∀ e ∈ t, P e.2)
    (hf : ∀ n x, P x → P (f n x)) : ∀ e ∈ tabMap d t f, P e.2 := by
  intro e he
  unfold tabMap at he
  obtain ⟨a, ha, rfl⟩ := List.mem_map.1 (List.mem_filter.1 he).1
  exact hf _ _ (h a ha)

theorem tabEach_all (P : α → Prop) (d : α) (t : Tab α) (n : Nat) (f : Nat → α → α) (hd : P d) (h : ∀ e ∈ t, P e.2)
    (hf : ∀ k x, P x → P (f k x)) : ∀ e ∈ tabEach d t n f, P e.2 := by
  induction n with
  | zero => exact h
  | succ n ih => exact tabMod_all P d _ n (f n) hd ih (hf n)

end Sys2Proof.Machine
end

