-- ==== Sys2Proof/Laws/Crust.lean ====
section
/-! SUPPORT. What the crust operations do to the commanded legs: an operation is tame if it leaves the supplies of a crust
as they are and switches no leg on. Everything but the commit and the silence timeout is tame. -/

namespace Sys2Proof.Machine

/-- An operation that leaves a crust's supply conditions and switches no leg on. -/
def Tame (f : CrustSt → CrustSt) : Prop :=
  ∀ x, (f x).logicPower = x.logicPower ∧ (f x).lockout = x.lockout ∧ (f x).overvolt = x.overvolt ∧
    (legsOff x = true → legsOff (f x) = true)

theorem legsOff_iff (x : CrustSt) : legsOff x = true ↔ ∀ e ∈ x.legs, e.2.cmd = false := by
  simp [legsOff, List.all_eq_true]

theorem quiet_iff (x : CrustSt) : quiet x = true ↔ crustPowered x = true ∨ legsOff x = true := by
  simp [quiet, Bool.or_eq_true]

theorem Tame.quiet {f : CrustSt → CrustSt} (h : Tame f) {x : CrustSt} (hx : quiet x = true) : Machine.quiet (f x) = true := by
  obtain ⟨h1, h2, h3, h4⟩ := h x
  rcases (quiet_iff x).1 hx with hp | hl
  · exact (quiet_iff _).2 (.inl (by simpa [crustPowered, h1, h2, h3] using hp))
  · exact (quiet_iff _).2 (.inr (h4 hl))

/-- An operation that does not touch the legs or the supplies. -/
theorem Tame.of_same {f : CrustSt → CrustSt} (h : ∀ x, (f x).logicPower = x.logicPower ∧ (f x).lockout = x.lockout ∧
    (f x).overvolt = x.overvolt ∧ (f x).legs = x.legs) : Tame f := fun x =>
  ⟨(h x).1, (h x).2.1, (h x).2.2.1, fun hl => by rw [legsOff_iff] at hl ⊢; rw [(h x).2.2.2]; exact hl⟩

theorem Tame.id : Tame fun x => x := fun _ => ⟨rfl, rfl, rfl, fun h => h⟩

theorem Tame.comp {f g : CrustSt → CrustSt} (hf : Tame f) (hg : Tame g) : Tame fun x => f (g x) := fun x =>
  ⟨(hf _).1.trans (hg x).1, (hf _).2.1.trans (hg x).2.1, (hf _).2.2.1.trans (hg x).2.2.1,
    fun h => (hf _).2.2.2 ((hg x).2.2.2 h)⟩

theorem Tame.ite {f g : CrustSt → CrustSt} (c : CrustSt → Bool) (hf : Tame f) (hg : Tame g) :
    Tame fun x => if c x then f x else g x := fun x => by
  dsimp only
  split
  · exact hf x
  · exact hg x

/-- A fold of tame operations that may look at the crust. -/
theorem Tame.foldl {α : Type} (f : CrustSt → α → CrustSt) (h : ∀ a, Tame fun x => f x a) (l : List α) :
    Tame fun x => l.foldl f x := by
  induction l with
  | nil => exact Tame.id
  | cons a r ih => exact ih.comp (h a)

theorem Tame.modIn (n : Nat) (f : InSt → InSt) : Tame fun x => Machine.modIn x n f :=
  Tame.of_same fun _ => ⟨rfl, rfl, rfl, rfl⟩
theorem Tame.modQuad (n : Nat) (f : QuadSt → QuadSt) : Tame fun x => Machine.modQuad x n f :=
  Tame.of_same fun _ => ⟨rfl, rfl, rfl, rfl⟩
theorem Tame.modSrc (n : Nat) (f : SrcSt → SrcSt) : Tame fun x => Machine.modSrc x n f :=
  Tame.of_same fun _ => ⟨rfl, rfl, rfl, rfl⟩
theorem Tame.modAna (n : Nat) (f : AnaSt → AnaSt) : Tame fun x => Machine.modAna x n f :=
  Tame.of_same fun _ => ⟨rfl, rfl, rfl, rfl⟩
theorem Tame.modDrive (n : Nat) (f : DriveSt → DriveSt) : Tame fun x => Machine.modDrive x n f :=
  Tame.of_same fun _ => ⟨rfl, rfl, rfl, rfl⟩

/-- A leg changed by a function that switches nothing on. -/
theorem Tame.modLeg (n : Nat) (f : LegSt → LegSt) (h : ∀ l, l.cmd = false → (f l).cmd = false) :
    Tame fun x => Machine.modLeg x n f := fun x =>
  ⟨rfl, rfl, rfl, fun hl => (legsOff_iff _).2
    (tabMod_all (fun l : LegSt => l.cmd = false) LegSt.off x.legs n f rfl ((legsOff_iff _).1 hl) h)⟩

theorem Tame.modLegs (ns : List Nat) (f : LegSt → LegSt) (h : ∀ l, l.cmd = false → (f l).cmd = false) :
    Tame fun x => Machine.modLegs x ns f := Tame.foldl _ (fun n => Tame.modLeg n f h) ns

theorem Tame.reportLeg (ps : List ParamRec) (c : Side) (n : Nat) (code : Byte) :
    Tame (Machine.reportLeg ps c n code) := Tame.modLeg _ _ fun _ h => h

/-! ## Operations that open everything -/

theorem legsOff_openCrust (x : CrustSt) : legsOff (openCrust x) = true := by
  rw [legsOff_iff]
  intro e he
  obtain ⟨a, _, rfl⟩ := List.mem_map.1 (List.mem_filter.1 he).1
  rfl

theorem quiet_of_legsOff {x : CrustSt} (h : legsOff x = true) : quiet x = true := (quiet_iff x).2 (.inr h)

theorem quiet_openCrust (x : CrustSt) : quiet (openCrust x) = true := quiet_of_legsOff (legsOff_openCrust x)

theorem legsOff_resetCrust (x : CrustSt) : legsOff (resetCrust x) = true := rfl

/-! ## The commit -/

theorem Tame.drivesTick : Tame Machine.drivesTick := Tame.of_same fun _ => ⟨rfl, rfl, rfl, rfl⟩

theorem Tame.startFrame (now : Stamp) : Tame (Machine.startFrame now) := fun x =>
  ⟨rfl, rfl, rfl, fun hl => (legsOff_iff _).2
    (tabMap_all (fun l : LegSt => l.cmd = false) LegSt.off x.legs (fun _ l => { l with anomaly := 0, blankLeft := l.blankLeft - 1 })
      ((legsOff_iff _).1 hl) fun _ _ h => h)⟩

theorem Tame.judgeAtTick (s : State) (c : Side) (f : BitVec 24) (ma : Vector Nat 8) :
    Tame (Machine.judgeAtTick s c f ma) := by
  intro x
  unfold Machine.judgeAtTick
  refine Tame.comp (Tame.foldl _ (fun n => ?_) _) (Tame.foldl _ (fun k => ?_) _) x
  · intro x
    dsimp only
    (repeat' split) <;> first | exact Tame.id x | exact Tame.modIn _ _ x
  · intro x
    dsimp only
    (repeat' split) <;> first | exact Tame.id x | exact Tame.modSrc _ _ x

/-- The commit switches a leg on only on a crust that may drive. -/
theorem quiet_commit (cfg : Option LoafCfg) (c : Side) (x : CrustSt) (hx : quiet x = true) :
    quiet (commit cfg c x) = true := by
  unfold commit
  split
  · refine Tame.quiet (f := fun x => { x with legs := tabMap LegSt.off x.legs fun _ l =>
      { l with changed := false, holdNow := false } }) ?_ hx
    exact fun x => ⟨rfl, rfl, rfl, fun hl => (legsOff_iff _).2
      (tabMap_all (fun l : LegSt => l.cmd = false) LegSt.off x.legs
        (fun _ l => { l with changed := false, holdNow := false }) ((legsOff_iff _).1 hl) fun _ _ h => h)⟩
  · dsimp only
    split
    · exact Tame.quiet (f := fun x => { x with staged := none }) (Tame.of_same fun _ => ⟨rfl, rfl, rfl, rfl⟩) hx
    · rename_i hm
      have hp : crustPowered x = true := by
        simp only [mayCommit, crustPowered, Bool.not_eq_true', Bool.not_eq_false, Bool.and_eq_true] at hm ⊢
        exact ⟨⟨hm.1.1.1.1, hm.1.1.2⟩, hm.1.2⟩
      refine Tame.quiet (Tame.foldl _ (fun e => ?_) _) ((quiet_iff _).2 (.inl hp))
      exact fun x => Tame.modDrive _ _ x

/-- Silence switches a standard leg on only on a crust that may drive. -/
theorem legsOff_silence (dead : Bool) (m : List (List Byte)) (c : Side) (t : Tab LegSt) (hd : dead = true)
    (h : ∀ e ∈ t, e.2.cmd = false) : ∀ e ∈ tabEach LegSt.off t 17 (silenceLeg dead m c), e.2.cmd = false := by
  refine tabEach_all (fun l : LegSt => l.cmd = false) _ _ _ _ rfl h fun k l hl => ?_
  subst hd
  unfold silenceLeg
  split
  · split
    · rename_i h; simp at h
    · split
      · exact hl
      · rfl
  · rfl

end Sys2Proof.Machine
end

