-- ==== Sys2Proof/Laws/Keep.lean ====
section
/-! SUPPORT. What no command but a few touches: the crusts, the journal's bytes and open page, the mailbox's bytes, the
writer's skip list and HOSTWD. `kept` gathers them; one lemma per operation says that it leaves them as they are. -/

namespace Sys2Proof.Machine

/-- The pieces of state that the invariant of `Safety` speaks of. -/
structure Kept where
  crust : Two CrustSt
  journal : Tab Byte
  openPage : Option Nat
  mem : Tab Byte
  skip : List Nat
  hostwd : Byte
  life : Lifecycle
  inReset : Bool
  starting : Bool
  mode : Mode
  modeNext : Option (Mode × ModeWhy)
  tickOn : Bool
  frameNo : W32
  off : BitVec 20
  phase : Phase
  statFrame : W32
  statGen : Byte
  latched : Counts
  pending : List Instr

def kept (s : State) : Kept := ⟨s.crust, s.nv.journal, s.nv.openPage, s.mbx.mem, s.jrn.skip, s.host.hostwd,
  s.nv.life, s.core.inReset, s.core.startUp.isSome, s.core.mode, s.core.modeNext, s.core.tickOn, s.core.frameNo, s.core.off, s.core.phase, s.stat.frame,
  s.stat.gen, s.stat.latched, s.pending⟩

@[simp] theorem kept_mk (p : List Instr) (co nv cr ln fb ho mb ca ind jr st ac me te dr) :
    kept (State.mk p co nv cr ln fb ho mb ca ind jr st ac me te dr) = ⟨cr, nv.journal, nv.openPage, mb.mem, jr.skip, ho.hostwd, nv.life, co.inReset, co.startUp.isSome, co.mode, co.modeNext, co.tickOn,
      co.frameNo, co.off, co.phase, st.frame, st.gen, st.latched, p⟩ := rfl

theorem crust_kept (s : State) : s.crust = (kept s).crust := rfl
theorem journal_kept (s : State) : s.nv.journal = (kept s).journal := rfl
theorem openPage_kept (s : State) : s.nv.openPage = (kept s).openPage := rfl
theorem mem_kept (s : State) : s.mbx.mem = (kept s).mem := rfl
theorem skip_kept (s : State) : s.jrn.skip = (kept s).skip := rfl
theorem hostwd_kept (s : State) : s.host.hostwd = (kept s).hostwd := rfl
theorem life_kept (s : State) : s.nv.life = (kept s).life := rfl
theorem inReset_kept (s : State) : s.core.inReset = (kept s).inReset := rfl
theorem starting_kept (s : State) : s.core.startUp.isSome = (kept s).starting := rfl
theorem mode_kept (s : State) : s.core.mode = (kept s).mode := rfl
theorem modeNext_kept (s : State) : s.core.modeNext = (kept s).modeNext := rfl
theorem tickOn_kept (s : State) : s.core.tickOn = (kept s).tickOn := rfl
theorem frameNo_kept (s : State) : s.core.frameNo = (kept s).frameNo := rfl
theorem off_kept (s : State) : s.core.off = (kept s).off := rfl
theorem phase_kept (s : State) : s.core.phase = (kept s).phase := rfl
theorem statFrame_kept (s : State) : s.stat.frame = (kept s).statFrame := rfl
theorem statGen_kept (s : State) : s.stat.gen = (kept s).statGen := rfl
theorem latched_kept (s : State) : s.stat.latched = (kept s).latched := rfl
theorem pending_kept (s : State) : s.pending = (kept s).pending := rfl

theorem kept_ite (c : Prop) [Decidable c] (a b : State) : kept (if c then a else b) = if c then kept a else kept b := by
  split <;> rfl

theorem kept_foldl {α : Type} (f : State → α → State) (h : ∀ s x, kept (f s x) = kept s) (l : List α) (s : State) :
    kept (l.foldl f s) = kept s := by
  induction l generalizing s with
  | nil => rfl
  | cons x r ih => rw [List.foldl_cons, ih, h]

@[simp] theorem kept_setIrq0 (s : State) (i : Nat) :
    kept (setIrq0 s i) = kept s := by
  rfl

@[simp] theorem kept_setIrq1 (s : State) (i : Nat) :
    kept (setIrq1 s i) = kept s := by
  rfl

@[simp] theorem kept_syncIrq (before after : State) :
    kept (syncIrq before after) = kept after := by
  simp [syncIrq, kept_ite, ite_self]

@[simp] theorem kept_modLive (s : State) (f : Counts → Counts) :
    kept (modLive s f) = kept s := by
  rfl

@[simp] theorem kept_modEpoch (s : State) (f : Epoch → Epoch) :
    kept (modEpoch s f) = kept s := by
  rfl

@[simp] theorem kept_countLinkErr (s : State) :
    kept (countLinkErr s) = kept s := by
  rfl

@[simp] theorem kept_countRetry (s : State) :
    kept (countRetry s) = kept s := by
  rfl

@[simp] theorem kept_countTrans (s : State) (n : Nat) :
    kept (countTrans s n) = kept s := by
  rfl

@[simp] theorem kept_countStale (s : State) (n : Nat) :
    kept (countStale s n) = kept s := by
  rfl

@[simp] theorem kept_countSfdrop (s : State) :
    kept (countSfdrop s) = kept s := by
  rfl

@[simp] theorem kept_countSafedisc (s : State) :
    kept (countSafedisc s) = kept s := by
  rfl

@[simp] theorem kept_countCanerr (s : State) :
    kept (countCanerr s) = kept s := by
  rfl

@[simp] theorem kept_countEcc (s : State) (n : Nat) :
    kept (countEcc s n) = kept s := by
  rfl

@[simp] theorem kept_countOverflow (s : State) (n : Nat) :
    kept (countOverflow s n) = kept s := by
  rfl

@[simp] theorem kept_countDiscarded (s : State) :
    kept (countDiscarded s) = kept s := by
  rfl

@[simp] theorem kept_countMbxDiscarded (s : State) :
    kept (countMbxDiscarded s) = kept s := by
  rfl

@[simp] theorem kept_countLateReply (s : State) :
    kept (countLateReply s) = kept s := by
  rfl

@[simp] theorem kept_countMismatch (s : State) :
    kept (countMismatch s) = kept s := by
  rfl

@[simp] theorem kept_countTimeout (s : State) :
    kept (countTimeout s) = kept s := by
  rfl

@[simp] theorem kept_countLostCrumb (s : State) :
    kept (countLostCrumb s) = kept s := by
  rfl

@[simp] theorem kept_countAnalogOver (s : State) (n : Nat) :
    kept (countAnalogOver s n) = kept s := by
  rfl

@[simp] theorem kept_latchEpoch (s : State) (isPartial : Bool) :
    kept (latchEpoch s isPartial) = kept s := by
  rfl

@[simp] theorem kept_latchFrame (s : State) (ended : W32) :
    kept (latchFrame s ended) =
      { kept s with statFrame := ended, statGen := s.stat.gen + 1, latched := s.stat.live } := by
  rfl

@[simp] theorem kept_modLane (s : State) (l : Side) (f : LaneSt → LaneSt) :
    kept (modLane s l f) = kept s := by
  rfl

@[simp] theorem kept_modLanes (s : State) (f : LaneSt → LaneSt) :
    kept (modLanes s f) = kept s := by
  rfl

@[simp] theorem kept_modPort (s : State) (p : PortId) (f : PortSt → PortSt) :
    kept (modPort s p f) = kept s := by
  rfl

@[simp] theorem kept_setOff (s : State) (t : BitVec 20) :
    kept (setOff s t) = { kept s with off := t } := by
  rfl

@[simp] theorem kept_pushCrumb (s : State) (c : List Byte) :
    kept (pushCrumb s c) = kept s := by
  simp [pushCrumb, crust_kept, journal_kept, openPage_kept, mem_kept, skip_kept, hostwd_kept, life_kept, inReset_kept, starting_kept, mode_kept, modeNext_kept, tickOn_kept, frameNo_kept, off_kept, phase_kept, statFrame_kept, statGen_kept, latched_kept, pending_kept, kept_ite, ite_self]

@[simp] theorem kept_crumb (s : State) (kind : Byte) (chan : Nat) (code : Byte) (body : List Byte) :
    kept (crumb s kind chan code body) = kept s := by
  simp [crumb]

@[simp] theorem kept_laneReport (s : State) (r : Rep) :
    kept (laneReport s r) = kept s := by
  rfl

@[simp] theorem kept_foundReport (s : State) (r : Rep) :
    kept (foundReport s r) = kept s := by
  rfl

@[simp] theorem kept_fatalFault (s : State) (code : Byte) :
    kept (fatalFault s code) = kept s := by
  simp [fatalFault, crust_kept, journal_kept, openPage_kept, mem_kept, skip_kept, hostwd_kept, life_kept, inReset_kept, starting_kept, mode_kept, modeNext_kept, tickOn_kept, frameNo_kept, off_kept, phase_kept, statFrame_kept, statGen_kept, latched_kept, pending_kept, kept_ite, ite_self]

/-- The mode changes, and nothing else that is kept. -/
@[simp] theorem kept_setMode (s : State) (m : Mode) (why : ModeWhy) :
    kept (setMode s m why) = { kept s with mode := m } := by
  unfold setMode
  rw [kept_setIrq0, kept_crumb]
  rfl

@[simp] theorem kept_extendM (s : State) (i : Nat) (v : List Byte) :
    kept (extendM s i v) = kept s := by
  simp [extendM, crust_kept, journal_kept, openPage_kept, mem_kept, skip_kept, hostwd_kept, life_kept, inReset_kept, starting_kept, mode_kept, modeNext_kept, tickOn_kept, frameNo_kept, off_kept, phase_kept, statFrame_kept, statGen_kept, latched_kept, pending_kept, kept_ite, ite_self]

@[simp] theorem kept_measEvent (s : State) (ev : Byte) (subject detail : List Byte) :
    kept (measEvent s ev subject detail) = kept s := by
  unfold measEvent
  dsimp only
  rw [kept_pushCrumb, kept_extendM]
  rfl

@[simp] theorem kept_leaveFabric (s : State) :
    kept (leaveFabric s) = kept s := by
  rfl

@[simp] theorem kept_setQ (s : State) (via : Via) (st : QState) :
    kept (setQ s via st) = kept s := by
  rfl

@[simp] theorem kept_replyOk (s : State) (via : Via) (payload : List Byte) :
    kept (replyOk s via payload) = kept s := by
  rfl

@[simp] theorem kept_replyErr (s : State) (via : Via) (status : Byte) (detail : Nat) :
    kept (replyErr s via status detail) = kept s := by
  rfl

@[simp] theorem kept_retireLane (s : State) (l : Side) (code : Byte) :
    kept (retireLane s l code) = kept s := by
  simp [retireLane, kept_ite, ite_self]

@[simp] theorem kept_retireEffects (s : State) (n : Nat) :
    kept (retireEffects s n) = kept s := by
  unfold retireEffects
  split <;> simp [crust_kept, journal_kept, openPage_kept, mem_kept, skip_kept, hostwd_kept, life_kept, inReset_kept, starting_kept, mode_kept, modeNext_kept, tickOn_kept, frameNo_kept, off_kept, phase_kept, statFrame_kept, statGen_kept, latched_kept, pending_kept, kept_foldl]

@[simp] theorem kept_journalOutcome (lanesOut : List Side) (s : State) (e : TallyEv) :
    kept (journalOutcome lanesOut s e) = kept s := by
  simp [journalOutcome, kept_ite, ite_self]

@[simp] theorem kept_applyOutcome (s : State) (e : TallyEv) :
    kept (applyOutcome s e) = kept s := by
  unfold applyOutcome
  (repeat' split) <;> first | rfl | exact kept_retireLane _ _ _

@[simp] theorem kept_applyOutcomes (s : State) :
    kept (applyOutcomes s) = kept s := by
  simp [applyOutcomes, crust_kept, journal_kept, openPage_kept, mem_kept, skip_kept, hostwd_kept, life_kept, inReset_kept, starting_kept, mode_kept, modeNext_kept, tickOn_kept, frameNo_kept, off_kept, phase_kept, statFrame_kept, statGen_kept, latched_kept, pending_kept, kept_ite, ite_self, kept_foldl]

@[simp] theorem kept_modChans (s : State) (n : Nat) (f : ChanRec → ChanRec) :
    kept (modChans s n f) = kept s := by
  rfl

@[simp] theorem kept_endProbation (s : State) (n : Nat) :
    kept (endProbation s n) = kept s := by
  unfold endProbation
  split <;> simp

@[simp] theorem kept_installLoaf (s : State) (a b : LoafCfg) :
    kept (installLoaf s a b) = kept s := by
  rfl

@[simp] theorem kept_extendAll (s : State) (l : List (Nat × List Byte)) :
    kept (extendAll s l) = kept s := by
  simp [extendAll, kept_foldl]

@[simp] theorem kept_setMstate (s : State) (v : Byte) :
    kept (setMstate s v) = kept s := by
  rfl

@[simp] theorem kept_markRest (s : State) (done : Nat) :
    kept (markRest s done) = kept s := by
  simp [markRest]

@[simp] theorem kept_hearthStart (s : State) :
    kept (hearthStart s) = kept s := by
  rfl

@[simp] theorem kept_canApply (s : State) :
    kept (canApply s) = kept s := by
  unfold canApply
  split <;> simp [crust_kept, journal_kept, openPage_kept, mem_kept, skip_kept, hostwd_kept, life_kept, inReset_kept, starting_kept, mode_kept, modeNext_kept, tickOn_kept, frameNo_kept, off_kept, phase_kept, statFrame_kept, statGen_kept, latched_kept, pending_kept]

@[simp] theorem kept_honourConfigure (s : State) (asked : Bool) :
    kept (honourConfigure s asked) = kept s := by
  simp [honourConfigure, crust_kept, journal_kept, openPage_kept, mem_kept, skip_kept, hostwd_kept, life_kept, inReset_kept, starting_kept, mode_kept, modeNext_kept, tickOn_kept, frameNo_kept, off_kept, phase_kept, statFrame_kept, statGen_kept, latched_kept, pending_kept, kept_ite, ite_self]

@[simp] theorem kept_stopInSafeHold (s : State) :
    kept (stopInSafeHold s) = { kept s with mode := .safeHold } := by
  unfold stopInSafeHold
  rw [kept_setMode]
  rfl

@[simp] theorem kept_keepAsked (s : State) (asked : Bool) : kept (keepAsked s asked) = kept s := by
  unfold keepAsked
  split <;> rfl

/-- The start-up leaves BOOT for SAFE_HOLD, DEGRADED or CONFIGURE, or stays in it. -/
theorem kept_endOfStep5 (s : State) (asked : Bool) :
    kept (endOfStep5 s asked) = kept s ∨
      ∃ m, (m = .safeHold ∨ m = .degraded ∨ m = .configure) ∧ kept (endOfStep5 s asked) = { kept s with mode := m } := by
  unfold endOfStep5
  (repeat' split) <;> first
    | exact .inl rfl
    | exact .inr ⟨_, .inl rfl, by rw [kept_stopInSafeHold, kept_keepAsked]⟩
    | exact .inr ⟨_, .inr (.inl rfl), by rw [kept_setMode, kept_keepAsked]; rfl⟩
    | exact .inr ⟨_, .inr (.inr rfl), by rw [kept_setMode, kept_honourConfigure]; rfl⟩

@[simp] theorem kept_restoreLanes (s : State) (quick : Bool) :
    kept (restoreLanes s quick) = kept s := by
  simp [restoreLanes, crust_kept, journal_kept, openPage_kept, mem_kept, skip_kept, hostwd_kept, life_kept, inReset_kept, starting_kept, mode_kept, modeNext_kept, tickOn_kept, frameNo_kept, off_kept, phase_kept, statFrame_kept, statGen_kept, latched_kept, pending_kept, kept_ite, ite_self]

@[simp] theorem kept_markSent (s : State) (f : Frame) :
    kept (markSent s f) = kept s := by
  unfold markSent
  split <;> simp [crust_kept, journal_kept, openPage_kept, mem_kept, skip_kept, hostwd_kept, life_kept, inReset_kept, starting_kept, mode_kept, modeNext_kept, tickOn_kept, frameNo_kept, off_kept, phase_kept, statFrame_kept, statGen_kept, latched_kept, pending_kept]

@[simp] theorem kept_pump (s : State) (p : PortId) :
    kept (pump s p) = kept s := by
  unfold pump
  simp [kept_ite]
  (repeat' split) <;> simp_all

@[simp] theorem kept_pumpBoth (s : State) :
    kept (pumpBoth s) = kept s := by
  simp [pumpBoth]

@[simp] theorem kept_sendOwn (s : State) (p : PortId) (f : Frame) :
    kept (sendOwn s p f) = kept s := by
  simp [sendOwn]

@[simp] theorem kept_cutThrough (s : State) (p : PortId) (f : Frame) : kept (cutThrough s p f) = kept s := by
  unfold cutThrough
  dsimp only
  (repeat' split) <;> rfl

@[simp] theorem kept_forwardFrame (s : State) (p : PortId) (f : Frame) :
    kept (forwardFrame s p f) = kept s := by
  simp [forwardFrame, kept_ite, ite_self]

@[simp] theorem kept_sendOut (s : State) (ps : List PortId) (c : BitVec 4) (dst : Byte) (payload : List Byte) :
    kept (sendOut s ps c dst payload) = kept s := by
  unfold sendOut newFrame nextSeq
  simp [crust_kept, journal_kept, openPage_kept, mem_kept, skip_kept, hostwd_kept, life_kept, inReset_kept, starting_kept, mode_kept, modeNext_kept, tickOn_kept, frameNo_kept, off_kept, phase_kept, statFrame_kept, statGen_kept, latched_kept, pending_kept, kept_foldl, kept_ite]

@[simp] theorem kept_portAnomaly (s : State) (p : PortId) (code : Byte) :
    kept (portAnomaly s p code) = kept s := by
  rfl

@[simp] theorem kept_proofAtManager (s : State) (p : PortId) (f : Frame) (t : BitVec 20) :
    kept (proofAtManager s p f t) = kept s := by
  simp [proofAtManager, kept_ite, ite_self]

@[simp] theorem kept_proofAtWorker (s : State) (p : PortId) (f : Frame) :
    kept (proofAtWorker s p f) = kept s := by
  simp [proofAtWorker, kept_ite, ite_self]

@[simp] theorem kept_toInbox (s : State) (p : PortId) (f : Frame) :
    kept (toInbox s p f) = kept s := by
  rfl

@[simp] theorem kept_routeManager (s : State) (p : PortId) (f : Frame) (t : BitVec 20) :
    kept (routeManager s p f t) = kept s := by
  simp [routeManager, kept_ite, ite_self]

@[simp] theorem kept_routeWorker (s : State) (p : PortId) (f : Frame) :
    kept (routeWorker s p f) = kept s := by
  simp [routeWorker, kept_ite, ite_self]

@[simp] theorem kept_routeFrame (s : State) (p : PortId) (b : List Byte) (t : BitVec 20) :
    kept (routeFrame s p b t) = kept s := by
  simp [routeFrame, kept_ite, ite_self]

@[simp] theorem kept_consequence (s : State) (code : Byte) (conn : W16) :
    kept (consequence s code conn) = kept s := by
  simp [consequence]

@[simp] theorem kept_discUp (s : State) (both : Bool) (except : PortId) (payload : List Byte) :
    kept (discUp s both except payload) = kept s := by
  simp [discUp]

@[simp] theorem kept_fabricCrumb (s : State) (code station reason : Byte) (tag : List Byte) :
    kept (fabricCrumb s code station reason tag) = kept s := by
  simp [fabricCrumb]

@[simp] theorem kept_reportReady (s : State) (p : PortId) :
    kept (reportReady s p) = kept s := by
  unfold reportReady noteReady restoreIfReady
  split
  · dsimp only
    split
    · rw [kept_fabricCrumb, kept_sendOut]; rfl
    · rfl
  · exact kept_discUp _ _ _ _

@[simp] theorem kept_changeTopo (s : State) (t : Topo) : kept (changeTopo s t) = kept s := by
  unfold changeTopo
  rw [kept_sendOut, kept_fabricCrumb]
  rfl

@[simp] theorem kept_healTo (s : State) (t : Topo) (r : Byte) (c : Side) (e : Byte × Byte) :
    kept (healTo s t r c e) = kept s := by
  unfold healTo
  rw [kept_changeTopo, kept_fabricCrumb]
  rfl

@[simp] theorem kept_healBreak (s : State) (arrival : PortId) (r : Byte) (e : Byte × Byte) :
    kept (healBreak s arrival r e) = kept s := kept_healTo _ _ _ _ _

@[simp] theorem kept_recordMember (s : State) (k : Nat) (m : Member) :
    kept (recordMember s k m) = kept s := by
  rfl

@[simp] theorem kept_forwardTick (s : State) (p : PortId) (f : Frame) (residence : Nat) :
    kept (forwardTick s p f residence) = kept s := by
  simp [forwardTick, kept_ite, ite_self]

@[simp] theorem kept_hearTick (s : State) (p : PortId) (f : Frame) (err : Int) :
    kept (hearTick s p f err) = { kept s with frameNo := u32At f.payload 0 } := rfl

@[simp] theorem kept_followTick (s : State) (p : PortId) (f : Frame) (err : Int) :
    kept (followTick s p f err) =
      { kept s with frameNo := if s.fab.sync = .loss then u32At f.payload 0 else s.core.frameNo } := by
  unfold followTick
  dsimp only
  split <;> rfl

@[simp] theorem kept_markRejoined (s : State) :
    kept (markRejoined s) = kept s := by
  rfl

@[simp] theorem kept_cycleEdges (s : State) (c : Side) (x : Snap) :
    kept (cycleEdges s c x) = kept s := by
  unfold cycleEdges
  dsimp only
  split <;> rfl

@[simp] theorem kept_useSnapshot (cfg : LoafCfg) (s : State) (c : Side) : kept (useSnapshot cfg s c) = kept s := by
  simp [useSnapshot, kept_foldl]

/-- A snapshot that is not used goes back into the crust, and nothing else that is kept changes. -/
theorem kept_takeSnapshot (env : PhaseSEnv) (s : State) (c : Side) :
    kept (takeSnapshot env s c) = kept s ∨ kept (takeSnapshot env s c) = kept (loseSnapshot s c) := by
  unfold takeSnapshot
  (repeat' split) <;> first
    | exact .inl rfl
    | exact .inr (kept_laneReport _ _)
    | exact .inl (kept_useSnapshot _ _ _)

@[simp] theorem kept_parityReps (env : PhaseSEnv) (s : State) :
    kept (parityReps env s) = kept s := by
  simp [parityReps, kept_foldl]

@[simp] theorem kept_pairShort (cfg : LoafCfg) (s : State) (p : Nat) :
    kept (pairShort cfg s p) = kept s := by
  unfold pairShort
  split <;> simp

@[simp] theorem kept_findShorts (env : PhaseSEnv) (s : State) :
    kept (findShorts env s) = kept s := by
  unfold findShorts
  (repeat' split) <;> simp [kept_foldl]

@[simp] theorem kept_applyChanOp (s : State) (e : Nat × ChanOp) :
    kept (applyChanOp s e) = kept s := by
  rfl

@[simp] theorem kept_hearthDeliver (s : State) :
    kept (hearthDeliver s) = kept s := by
  simp [hearthDeliver, crust_kept, journal_kept, openPage_kept, mem_kept, skip_kept, hostwd_kept, life_kept, inReset_kept, starting_kept, mode_kept, modeNext_kept, tickOn_kept, frameNo_kept, off_kept, phase_kept, statFrame_kept, statGen_kept, latched_kept, pending_kept, kept_ite, ite_self, kept_foldl]

@[simp] theorem kept_stopEnters (s : State) : kept (stopEnters s) = kept s := by
  unfold stopEnters
  split
  · rw [kept_fatalFault]; rfl
  · rfl

@[simp] theorem kept_rangeFault (s : State) : kept (rangeFault s) = kept s := by
  simp [rangeFault, kept_ite, ite_self]

@[simp] theorem kept_clockStopEnters (s : State) :
    kept (clockStopEnters s) = kept s := by
  unfold clockStopEnters
  dsimp only
  split
  · rw [kept_rangeFault, ← kept_stopEnters s]; rfl
  · exact kept_stopEnters s

@[simp] theorem kept_hostParity (env : PhaseSEnv) (s : State) : kept (hostParity env s) = kept s := by
  unfold hostParity
  split <;> rfl

/-- The exchange of the inputs changes nothing that is kept but for the crusts' own snapshots. -/
theorem kept_exchangeInputs (env : PhaseSEnv) (s : State) :
    ∃ t, kept t = kept s ∧ kept (exchangeInputs env s) = kept (takeSnapshots env t) := by
  unfold exchangeInputs
  dsimp only
  simp only [kept_ite, kept_laneReport, kept_findShorts, kept_parityReps, ite_self]
  exact ⟨_, by rw [kept_modLane, kept_modLane, kept_hostParity], rfl⟩

@[simp] theorem kept_indMode (s : State) :
    kept (indMode s) = kept s := by
  unfold indMode
  split <;> simp [crust_kept, journal_kept, openPage_kept, mem_kept, skip_kept, hostwd_kept, life_kept, inReset_kept, starting_kept, mode_kept, modeNext_kept, tickOn_kept, frameNo_kept, off_kept, phase_kept, statFrame_kept, statGen_kept, latched_kept, pending_kept]

@[simp] theorem kept_abortScans (s : State) : kept (abortScans s) = kept s := by
  unfold abortScans
  rw [kept_foldl (fun s v => replyErr s v stAborted abortMode) (fun _ _ => kept_replyErr _ _ _ _)]
  rfl

@[simp] theorem kept_busMode (before s : State) :
    kept (busMode before s) = kept s := by
  unfold busMode
  dsimp only
  (repeat' split) <;> first | rfl | exact kept_abortScans s

@[simp] theorem kept_dropForces (s : State) :
    kept (dropForces s) = kept s := by
  rfl

@[simp] theorem kept_enterProving (s : State) :
    kept (enterProving s) = kept s := by
  simp [enterProving, crust_kept, journal_kept, openPage_kept, mem_kept, skip_kept, hostwd_kept, life_kept, inReset_kept, starting_kept, mode_kept, modeNext_kept, tickOn_kept, frameNo_kept, off_kept, phase_kept, statFrame_kept, statGen_kept, latched_kept, pending_kept, kept_ite, ite_self]

@[simp] theorem kept_enterShutdown (old : Mode) (s : State) :
    kept (enterShutdown old s) = kept s := by
  rfl

@[simp] theorem kept_dropLearn (s : State) : kept (dropLearn s) = kept s := by
  unfold dropLearn endLearn
  split
  · rw [kept_replyErr]; rfl
  · rfl

@[simp] theorem kept_dropSwitch (s : State) : kept (dropSwitch s) = kept s := by
  unfold dropSwitch
  (repeat' split) <;> rfl

@[simp] theorem kept_enterMode (s : State) (m : Mode) (why : ModeWhy) :
    kept (enterMode s m why) = { kept s with mode := m } := by
  have h1 : kept (dropSwitch (dropLearn (setMode s m why))) = { kept s with mode := m } := by
    rw [kept_dropSwitch, kept_dropLearn, kept_setMode]
  have h2 : kept (if s.core.mode = .maintain ∧ m ≠ .maintain then dropForces (dropSwitch (dropLearn (setMode s m why)))
      else dropSwitch (dropLearn (setMode s m why))) = { kept s with mode := m } := by
    split
    · rw [kept_dropForces, h1]
    · exact h1
  unfold enterMode
  dsimp only
  rw [← h2]
  generalize (if s.core.mode = .maintain ∧ m ≠ .maintain then dropForces (dropSwitch (dropLearn (setMode s m why)))
      else dropSwitch (dropLearn (setMode s m why))) = u
  cases m
  · exact kept_enterProving _
  · rfl
  · rfl
  · rfl
  · dsimp only
    split
    · rfl
    · rw [kept_leaveFabric]; rfl
  · rfl
  · exact kept_enterShutdown _ _

@[simp] theorem kept_changeMode (s : State) :
    kept (changeMode s) =
      { kept s with mode := ((nextMode s).map (·.1)).getD s.core.mode, modeNext := none } := by
  unfold changeMode
  split <;> rename_i h <;> rw [h]
  · rw [kept_busMode, kept_indMode, kept_enterMode]; rfl
  · rw [kept_indMode]; rfl

@[simp] theorem kept_intervalCheck (env : TickEnv) (tf : Byte) (s : State) (l : Side) :
    kept (intervalCheck env tf s l) = kept s := by
  unfold intervalCheck
  dsimp only
  (repeat' split) <;> rfl

@[simp] theorem kept_abortCanSafe (s : State) :
    kept (abortCanSafe s) = kept s := by
  simp [abortCanSafe, crust_kept, journal_kept, openPage_kept, mem_kept, skip_kept, hostwd_kept, life_kept, inReset_kept, starting_kept, mode_kept, modeNext_kept, tickOn_kept, frameNo_kept, off_kept, phase_kept, statFrame_kept, statGen_kept, latched_kept, pending_kept, kept_foldl]

@[simp] theorem kept_clearIsolations (s : State) :
    kept (clearIsolations s) = kept s := by
  rfl

@[simp] theorem kept_sampleModeReq (s : State) :
    kept (sampleModeReq s) = kept s := by
  rfl

@[simp] theorem kept_startProbation (s : State) (n : Nat) :
    kept (startProbation s n) = kept s := by
  unfold startProbation
  split <;> simp [crust_kept, journal_kept, openPage_kept, mem_kept, skip_kept, hostwd_kept, life_kept, inReset_kept, starting_kept, mode_kept, modeNext_kept, tickOn_kept, frameNo_kept, off_kept, phase_kept, statFrame_kept, statGen_kept, latched_kept, pending_kept]

@[simp] theorem kept_takeReadmits (s : State) :
    kept (takeReadmits s) = kept s := by
  simp [takeReadmits, crust_kept, journal_kept, openPage_kept, mem_kept, skip_kept, hostwd_kept, life_kept, inReset_kept, starting_kept, mode_kept, modeNext_kept, tickOn_kept, frameNo_kept, off_kept, phase_kept, statFrame_kept, statGen_kept, latched_kept, pending_kept, kept_foldl]

@[simp] theorem kept_takeOffsets (s : State) :
    kept (takeOffsets s) = kept s := by
  simp [takeOffsets, crust_kept, journal_kept, openPage_kept, mem_kept, skip_kept, hostwd_kept, life_kept, inReset_kept, starting_kept, mode_kept, modeNext_kept, tickOn_kept, frameNo_kept, off_kept, phase_kept, statFrame_kept, statGen_kept, latched_kept, pending_kept, kept_ite, ite_self]

@[simp] theorem kept_provingTick (s : State) :
    kept (provingTick s) = kept s := by
  unfold provingTick
  split <;> rfl

@[simp] theorem kept_fabricTick (s : State) :
    kept (fabricTick s) = kept s := by
  rfl

@[simp] theorem kept_sendTick (s : State) :
    kept (sendTick s) = kept s := by
  simp [sendTick, kept_ite, ite_self]

@[simp] theorem kept_dropTest (s : State) : kept (dropTest s) = kept s := by
  unfold dropTest
  dsimp only
  (repeat' split) <;> rfl

@[simp] theorem kept_holdFabric (s : State) : kept (holdFabric s) = kept s := by
  unfold holdFabric
  split <;> rfl

@[simp] theorem kept_holdTick (s : State) :
    kept (holdTick s) = kept s := by
  unfold holdTick
  dsimp only
  split
  · rw [kept_holdFabric]; rfl
  · rfl

@[simp] theorem kept_flushCycles (s : State) : kept (flushCycles s) = kept s := by
  unfold flushCycles
  rw [kept_foldl pushCrumb kept_pushCrumb]
  rfl

@[simp] theorem kept_takeRetiring (s : State) : kept (takeRetiring s) = kept s := by
  unfold takeRetiring
  rw [kept_foldl retireEffects kept_retireEffects]
  rfl

@[simp] theorem kept_nextFrame (s : State) :
    kept (nextFrame s) = { kept s with frameNo := s.core.frameNo + 1, off := 0, phase := .s } := by
  rfl

@[simp] theorem kept_deliverConn (cfg : LoafCfg) (s : State) (k : Conn) :
    kept (deliverConn cfg s k) = kept s := by
  unfold deliverConn
  (repeat' split) <;> simp

@[simp] theorem kept_deliverAll (s : State) :
    kept (deliverAll s) = kept s := by
  unfold deliverAll
  split <;> simp [kept_foldl]

@[simp] theorem kept_ageAll (s : State) :
    kept (ageAll s) = kept s := by
  unfold ageAll
  split <;> simp [kept_foldl]

@[simp] theorem kept_timeOut (cfg : LoafCfg) (k : Conn) (s : State) :
    kept (timeOut cfg k s) = kept s := by
  simp [timeOut, crust_kept, journal_kept, openPage_kept, mem_kept, skip_kept, hostwd_kept, life_kept, inReset_kept, starting_kept, mode_kept, modeNext_kept, tickOn_kept, frameNo_kept, off_kept, phase_kept, statFrame_kept, statGen_kept, latched_kept, pending_kept]

@[simp] theorem kept_evaluate (env : PhaseEEnv) (seg : Byte) (s : State) (l : Side) :
    kept (evaluate env seg s l) = kept s := by
  simp [evaluate, kept_ite, ite_self]

@[simp] theorem kept_evalFaults (env : PhaseEEnv) (s : State) (l : Side) :
    kept (evalFaults env s l) = kept s := by
  simp [evalFaults, kept_ite, ite_self]

@[simp] theorem kept_clockCheck (s : State) (l : Side) :
    kept (clockCheck s l) = kept s := by
  unfold clockCheck
  simp
  (repeat' split) <;> simp_all

@[simp] theorem kept_tallyUpdate (blk : Two (Tab BlkSt)) (s : State) :
    kept (tallyUpdate blk s) = kept s := by
  rfl

@[simp] theorem kept_lateRep (env : PhaseCEnv) (s : State) (l : Side) :
    kept (lateRep env s l) = kept s := by
  simp [lateRep, kept_ite, ite_self]

@[simp] theorem kept_countEccLate (s : State) : kept (countEccLate s) = kept s := rfl

/-- A disturbance of the proving period takes back the transition that ends it. -/
theorem kept_disturb (s : State) : kept (disturb s) = kept s ∨ kept (disturb s) = { kept s with modeNext := none } := by
  unfold disturb
  dsimp only
  cases (s.core.mode == .boot && s.core.modeNext == some (.operate, .request)) with
  | false => exact .inl rfl
  | true => exact .inr rfl

/-- A late frame may take back the transition that ends the proving period. -/
theorem kept_lateFrame (env : PhaseCEnv) (s : State) :
    kept (lateFrame env s) = kept s ∨ kept (lateFrame env s) = { kept s with modeNext := none } := by
  unfold lateFrame
  dsimp only
  rw [kept_modLive]
  have h := kept_disturb (applyOutcomes (countEccLate (lateRep env (lateRep env (modLanes s takeBack) .a) .b)))
  simpa using h

@[simp] theorem kept_answerMode (target : Option Mode) (s : State) (e : QEntry) :
    kept (answerMode target s e) = kept s := by
  simp [answerMode, kept_ite, ite_self]

theorem kept_endRequest (s : State) (target : Option Mode) :
    kept (endRequest s target) =
      { kept s with modeNext := (target.map fun m => (m, ModeWhy.request)).or s.core.modeNext } := by
  have h1 : kept (s.mbx.queue.foldl (answerMode target) s) = kept s :=
    kept_foldl _ (fun s e => kept_answerMode target s e) _ _
  unfold endRequest
  dsimp only
  rw [kept_setIrq0]
  cases target
  · exact h1
  · rw [← h1]; rfl

@[simp] theorem kept_keepRequest (s : State) :
    kept (keepRequest s) = kept s := by
  rfl

/-- The evaluation leaves the mode due next alone, or makes it one that the permit or the request asks for. -/
theorem kept_evaluateMode (deaf : Bool) (s : State) :
    kept (evaluateMode deaf s) = kept s ∨
    (s.core.mode = .maintain ∧ kept (evaluateMode deaf s) = { kept s with modeNext := some (.boot, .fault) }) ∨
    ∃ v m, requestTarget s v = some m ∧ kept (evaluateMode deaf s) = { kept s with modeNext := some (m, .request) } := by
  unfold evaluateMode
  dsimp only
  split
  · exact .inl (kept_keepRequest s)
  · split
    · rename_i h
      refine .inr (.inl ⟨?_, by rw [kept_keepRequest]; rfl⟩)
      simp only [permitLost, Bool.and_eq_true, beq_iff_eq] at h
      exact h.2.1
    · split
      · rename_i v _
        rw [kept_endRequest]
        cases deaf
        · cases h : requestTarget s v with
          | none => exact .inl rfl
          | some m => exact .inr (.inr ⟨v, m, h, rfl⟩)
        · exact .inl rfl
      · exact .inl rfl

theorem kept_disagreement (env : PhaseCEnv) (s : State) :
    kept (disagreement env s) = kept s ∨ kept (disagreement env s) = { kept s with modeNext := none } := by
  have h := kept_disturb s
  unfold disagreement
  dsimp only
  split
  · rw [kept_laneReport, kept_laneReport]; exact h
  · exact h

@[simp] theorem kept_countPullIns (s : State) (cfg : LoafCfg) (pairs : List Nat) :
    kept (countPullIns s cfg pairs) = kept s := by
  simp [countPullIns, crust_kept, journal_kept, openPage_kept, mem_kept, skip_kept, hostwd_kept, life_kept, inReset_kept, starting_kept, mode_kept, modeNext_kept, tickOn_kept, frameNo_kept, off_kept, phase_kept, statFrame_kept, statGen_kept, latched_kept, pending_kept, kept_ite, ite_self]

@[simp] theorem kept_takeVector (s : State) :
    kept (takeVector s) = kept s := by
  unfold takeVector
  split <;> simp [crust_kept, journal_kept, openPage_kept, mem_kept, skip_kept, hostwd_kept, life_kept, inReset_kept, starting_kept, mode_kept, modeNext_kept, tickOn_kept, frameNo_kept, off_kept, phase_kept, statFrame_kept, statGen_kept, latched_kept, pending_kept, kept_ite, ite_self]

@[simp] theorem kept_postVector (env : PhaseCEnv) (before s : State) :
    kept (postVector env before s) = kept s := by
  simp [postVector, crust_kept, journal_kept, openPage_kept, mem_kept, skip_kept, hostwd_kept, life_kept, inReset_kept, starting_kept, mode_kept, modeNext_kept, tickOn_kept, frameNo_kept, off_kept, phase_kept, statFrame_kept, statGen_kept, latched_kept, pending_kept]

@[simp] theorem kept_beginHold (s : State) :
    kept (beginHold s) = kept s := by
  simp [beginHold, crust_kept, journal_kept, openPage_kept, mem_kept, skip_kept, hostwd_kept, life_kept, inReset_kept, starting_kept, mode_kept, modeNext_kept, tickOn_kept, frameNo_kept, off_kept, phase_kept, statFrame_kept, statGen_kept, latched_kept, pending_kept, kept_ite, ite_self]

@[simp] theorem kept_lateNext (s : State) (l : Side) :
    kept (lateNext s l) = kept s := by
  rfl

@[simp] theorem kept_loadChain (s : State) (cfg : LoafCfg) (chain : List Byte) (pattern : Option (List Bool)) :
    kept (loadChain s cfg chain pattern) = kept s := by
  rfl

@[simp] theorem kept_strobeEnd (s : State) :
    kept (strobeEnd s) = kept s := by
  rfl

@[simp] theorem kept_strobe (stuck : Bool) (s : State) : kept (strobe stuck s) = kept s := by
  unfold strobe
  dsimp only
  (repeat' split) <;> rfl

@[simp] theorem kept_indLate (s : State) (cfg : LoafCfg) (chain : List Byte) :
    kept (indFrame.late cfg chain s) = kept s := by
  unfold indFrame.late
  rw [kept_setIrq0, kept_modLive]
  rfl

@[simp] theorem kept_indFrame (stuck : Bool) (s : State) (cfg : LoafCfg) (chain : List Byte) :
    kept (indFrame stuck s cfg chain) = kept s := by
  unfold indFrame
  (repeat' split) <;> simp only [kept_strobe, kept_indLate, kept_loadChain] <;> rfl

@[simp] theorem kept_indicatorH (stuck : Bool) (s : State) :
    kept (indicatorH stuck s) = kept s := by
  unfold indicatorH
  dsimp only
  (repeat' split) <;> first | rfl | (rw [kept_indFrame]; rfl)

@[simp] theorem kept_canStart (s : State) :
    kept (canStart s) = kept s := by
  unfold canStart
  (repeat' split) <;> simp [crust_kept, journal_kept, openPage_kept, mem_kept, skip_kept, hostwd_kept, life_kept, inReset_kept, starting_kept, mode_kept, modeNext_kept, tickOn_kept, frameNo_kept, off_kept, phase_kept, statFrame_kept, statGen_kept, latched_kept, pending_kept]

@[simp] theorem kept_canQueue (s : State) (ident : BitVec 11) (data : List Byte) (safe : Option (W16 × Side)) :
    kept (canQueue s ident data safe) = kept s := by
  simp [canQueue, crust_kept, journal_kept, openPage_kept, mem_kept, skip_kept, hostwd_kept, life_kept, inReset_kept, starting_kept, mode_kept, modeNext_kept, tickOn_kept, frameNo_kept, off_kept, phase_kept, statFrame_kept, statGen_kept, latched_kept, pending_kept, kept_ite, ite_self]

@[simp] theorem kept_supersede (s : State) (k : Conn) (l : Side) :
    kept (supersede s k l) = kept s := rfl

@[simp] theorem kept_supersedeCan (s : State) (k : Conn) (l : Side) :
    kept (supersedeCan s k l) = kept s := by
  rfl

@[simp] theorem kept_dropOlder (s : State) (k : Conn) (l : Side) : kept (dropOlder s k l) = kept s := by
  unfold dropOlder
  split <;> simp

@[simp] theorem kept_releaseCopy (cfg : LoafCfg) (l : Side) (s : State) (k : Conn) :
    kept (releaseCopy cfg l s k) = kept s := by
  unfold releaseCopy
  dsimp only
  (repeat' split) <;> simp

@[simp] theorem kept_releaseAll (s : State) :
    kept (releaseAll s) = kept s := by
  unfold releaseAll
  split <;> simp [kept_foldl]

@[simp] theorem kept_startChain (branch : Byte) (s : State) (l : Side) :
    kept (startChain branch s l) = kept s := by
  simp [startChain, kept_ite, ite_self]

@[simp] theorem kept_startChains (s : State) :
    kept (startChains s) = kept s := by
  unfold startChains
  split <;> simp [kept_ite, ite_self]

@[simp] theorem kept_judgeLane (plan : Plan) (s : State) (l : Side) :
    kept (judgeLane plan s l) = kept s := by
  unfold judgeLane
  simp [kept_ite]
  (repeat' split) <;> simp_all

@[simp] theorem kept_keepCopy (s : State) (l : Side) (m : SafeMsg) (port : Nat) :
    kept (keepCopy s l m port) = kept s := by
  rfl

@[simp] theorem kept_sawCopy (s : State) (l : Side) (m : SafeMsg) : kept (sawCopy s l m) = kept s := rfl

@[simp] theorem kept_fabricCopy (s : State) (cfg : LoafCfg) (p : PortId) (f : Frame) (l : Side) :
    kept (fabricCopy s cfg p f l) = kept s := by
  unfold fabricCopy
  dsimp only
  (repeat' split) <;> rfl

@[simp] theorem kept_canCopy (s : State) (cfg : LoafCfg) (data : List Byte) (l : Side) :
    kept (canCopy s cfg data l) = kept s := by
  unfold canCopy
  dsimp only
  (repeat' split) <;> rfl

@[simp] theorem kept_modStreams (s : State) (f : List Stream → List Stream) :
    kept (modStreams s f) = kept s := by
  rfl

@[simp] theorem kept_setStream (s : State) (peer stream : Byte) (f : Stream → Stream) :
    kept (setStream s peer stream f) = kept s := by
  rfl

@[simp] theorem kept_sendBulk (s : State) (peer stream wseq flags : Byte) (data : List Byte) :
    kept (sendBulk s peer stream wseq flags data) = kept s := by
  simp [sendBulk]

@[simp] theorem kept_refill (n : Nat) (s : State) (peer stream : Byte) : kept (refill n s peer stream) = kept s := by
  induction n generalizing s with
  | zero => rfl
  | succ n ih =>
    unfold refill
    (repeat' split) <;> simp [ih]

@[simp] theorem kept_refillPeer (s : State) (peer : Byte) : kept (refillPeer s peer) = kept s := by
  simp [refillPeer, kept_foldl, kept_ite]

@[simp] theorem kept_takeAck (s : State) (peer stream wseq : Byte) :
    kept (takeAck s peer stream wseq) = kept s := by
  simp [takeAck]

@[simp] theorem kept_takeData (s : State) (peer stream wseq : Byte) (data : List Byte) :
    kept (takeData s peer stream wseq data) = kept s := by
  unfold takeData
  simp [crust_kept]
  (repeat' split) <;> simp_all [journal_kept, openPage_kept, mem_kept, skip_kept, hostwd_kept, life_kept, inReset_kept, starting_kept, mode_kept, modeNext_kept, tickOn_kept, frameNo_kept, off_kept, phase_kept, statFrame_kept, statGen_kept, latched_kept, pending_kept]

@[simp] theorem kept_resendAll (s : State) (x : Stream) :
    kept (resendAll s x) = kept s := by
  simp [resendAll, kept_foldl]

@[simp] theorem kept_sendImage (s : State) (dst : Byte) (b : List Byte) (reply path : Bool) (idx : BitVec 2) :
    kept (sendImage s dst b reply path idx) = kept s := by
  simp [sendImage, kept_foldl]

@[simp] theorem kept_takeRemote (s : State) (via : Via) (b : List Byte) :
    kept (takeRemote s via b) = kept s := by
  unfold takeRemote
  (repeat' split) <;> simp [crust_kept, journal_kept, openPage_kept, mem_kept, skip_kept, hostwd_kept, life_kept, inReset_kept, starting_kept, mode_kept, modeNext_kept, tickOn_kept, frameNo_kept, off_kept, phase_kept, statFrame_kept, statGen_kept, latched_kept, pending_kept, kept_ite, ite_self, modMbx]

@[simp] theorem kept_takeRequest (s : State) (via : Via) (b : List Byte) :
    kept (takeRequest s via b) = kept s := by
  simp [takeRequest, crust_kept, journal_kept, openPage_kept, mem_kept, skip_kept, hostwd_kept, life_kept, inReset_kept, starting_kept, mode_kept, modeNext_kept, tickOn_kept, frameNo_kept, off_kept, phase_kept, statFrame_kept, statGen_kept, latched_kept, pending_kept, kept_ite, ite_self, modMbx]

@[simp] theorem kept_setSlotState (s : State) (k : Nat) (x : MbxState) :
    kept (setSlotState s k x) = kept s := by
  rfl

@[simp] theorem kept_sendTunnel (s : State) (idx : BitVec 2) (b : List Byte) :
    kept (sendTunnel s idx b) = kept s := by
  simp [sendTunnel, kept_foldl]

@[simp] theorem kept_abortTunnel (s : State) (idx : BitVec 2) :
    kept (abortTunnel s idx) = kept s := by
  rfl

@[simp] theorem kept_dropCanAsm (s : State) (idx : BitVec 2) :
    kept (dropCanAsm s idx) = kept s := by
  rfl

@[simp] theorem kept_discardTunnel (s : State) (idx : BitVec 2) :
    kept (discardTunnel s idx) = kept s := by
  rfl

@[simp] theorem kept_kick (s : State) :
    kept (kick s) = kept s := by
  rfl

@[simp] theorem kept_takeSlot (s : State) : kept (takeSlot s) = kept s := by
  unfold takeSlot
  (repeat' split) <;> simp

@[simp] theorem kept_takeSlots (n : Nat) (s : State) : kept (takeSlots n s) = kept s := by
  induction n generalizing s with
  | zero => rfl
  | succ n ih => rw [takeSlots, ih, kept_takeSlot]

@[simp] theorem kept_tunnelRequest (s : State) (idx : BitVec 2) (b : List Byte) (busyNow : Bool) :
    kept (tunnelRequest s idx b busyNow) = kept s := by
  unfold tunnelRequest
  dsimp only
  (repeat' split) <;> simp

@[simp] theorem kept_remoteRequest (s : State) (path : Bool) (idx : BitVec 2) (b : List Byte) :
    kept (remoteRequest s path idx b) = kept s := by
  simp [remoteRequest, kept_ite, ite_self]

@[simp] theorem kept_abortModeSets (s : State) :
    kept (abortModeSets s) = kept s := by
  rfl

@[simp] theorem kept_writeModeReq (s : State) (v : Byte) :
    kept (writeModeReq s v) = kept s := by
  simp [writeModeReq, crust_kept, journal_kept, openPage_kept, mem_kept, skip_kept, hostwd_kept, life_kept, inReset_kept, starting_kept, mode_kept, modeNext_kept, tickOn_kept, frameNo_kept, off_kept, phase_kept, statFrame_kept, statGen_kept, latched_kept, pending_kept, kept_ite, ite_self]

@[simp] theorem kept_modUnit (s : State) (n : Fin 4) (f : CrcUnit → CrcUnit) :
    kept (modUnit s n f) = kept s := by
  rfl

@[simp] theorem kept_goUnit (s : State) (n : Fin 4) :
    kept (goUnit s n) = kept s := by
  simp [goUnit, kept_ite, ite_self]

@[simp] theorem kept_writeCtl (s : State) (n : Fin 4) (v : Byte) :
    kept (writeCtl s n v) = kept s := by
  simp [writeCtl, kept_ite, ite_self]

@[simp] theorem kept_accessError (s : State) :
    kept (accessError s) = kept s := by
  rfl

@[simp] theorem kept_postBit (s : State) (k : Nat) :
    kept (postBit s k) = kept s := by
  simp [postBit, kept_ite, ite_self]

@[simp] theorem kept_ackBit (s : State) (k : Nat) :
    kept (ackBit s k) = kept s := by
  simp [ackBit, kept_ite, ite_self]

@[simp] theorem kept_clearIrq (s : State) (hiByte : Bool) (mask hwSet : Byte) :
    kept (clearIrq s hiByte mask hwSet) = kept s := by
  simp [clearIrq, crust_kept, journal_kept, openPage_kept, mem_kept, skip_kept, hostwd_kept, life_kept, inReset_kept, starting_kept, mode_kept, modeNext_kept, tickOn_kept, frameNo_kept, off_kept, phase_kept, statFrame_kept, statGen_kept, latched_kept, pending_kept, kept_ite, ite_self]

@[simp] theorem kept_writeSpiCfg (s : State) (v : Byte) :
    kept (writeSpiCfg s v) = kept s := by
  rfl

@[simp] theorem kept_writeIndCtl (s : State) (v : Byte) :
    kept (writeIndCtl s v) = kept s := by
  rfl

@[simp] theorem kept_clearInd (s : State) (mask hwSet : Byte) :
    kept (clearInd s mask hwSet) = kept s := by
  simp [clearInd, crust_kept, journal_kept, openPage_kept, mem_kept, skip_kept, hostwd_kept, life_kept, inReset_kept, starting_kept, mode_kept, modeNext_kept, tickOn_kept, frameNo_kept, off_kept, phase_kept, statFrame_kept, statGen_kept, latched_kept, pending_kept, kept_ite, ite_self]

@[simp] theorem kept_shadowWrite (s : State) (a : Nat) (v : Byte) :
    kept (shadowWrite s a v) = kept s := by
  rfl

@[simp] theorem kept_dropShadow (s : State) (base : Nat) :
    kept (dropShadow s base) = kept s := by
  rfl

@[simp] theorem kept_writeCrc (s : State) (n : Fin 4) (o a : Nat) (v : Byte) :
    kept (writeCrc s n o a v) = kept s := by
  simp [writeCrc, kept_ite, ite_self]

@[simp] theorem kept_spiBegin (s : State) (sdo : List Byte) :
    kept (spiBegin s sdo) = kept s := by
  rfl

@[simp] theorem kept_crcFault (s : State) :
    kept (crcFault s) = kept s := by
  rfl

@[simp] theorem kept_snoopByte (s : State) (a : Nat) (v : Byte) :
    kept (snoopByte s a v) = kept s := by
  simp [snoopByte, kept_ite, ite_self]

@[simp] theorem kept_freeSlots (s : State) :
    kept (freeSlots s) = kept s := by
  rfl

@[simp] theorem kept_badParam (s : State) (via : Via) (i : Nat) :
    kept (badParam s via i) = kept s := by
  rfl

@[simp] theorem kept_requestMode (s : State) (via : Via) (v : Byte) :
    kept (requestMode s via v) = kept s := by
  simp [requestMode]

@[simp] theorem kept_keepHold (s : State) (f : W32) (mask : W16) :
    kept (keepHold s f mask) = kept s := by
  rfl

@[simp] theorem kept_putSlot (s : State) (k : Side) (x : LoafSlot) :
    kept (putSlot s k x) = kept s := by
  rfl

@[simp] theorem kept_writeLoaf (s : State) (w : LoafWriteOp) (k : Side) (start : Bool) (data : List Byte) :
    kept (writeLoaf s w k start data) = kept s := by
  unfold writeLoaf
  dsimp only
  split <;> rfl

@[simp] theorem kept_loafCrumb (s : State) (k : Side) (status : Byte) (image : List Byte) :
    kept (loafCrumb s k status image) = kept s := by
  simp [loafCrumb]

@[simp] theorem kept_checkSlot (s : State) (via : Via) (k : Side) :
    kept (checkSlot s via k) = kept s := by
  unfold checkSlot
  simp
  (repeat' split) <;> simp_all

@[simp] theorem kept_beginSwitch (s : State) (via : Via) (k : Side) (image : List Byte) :
    kept (beginSwitch s via k image) = kept s := by
  rfl

@[simp] theorem kept_acceptReadmit (s : State) (n : Nat) :
    kept (acceptReadmit s n) = kept s := by
  simp [acceptReadmit, crust_kept, journal_kept, openPage_kept, mem_kept, skip_kept, hostwd_kept, life_kept, inReset_kept, starting_kept, mode_kept, modeNext_kept, tickOn_kept, frameNo_kept, off_kept, phase_kept, statFrame_kept, statGen_kept, latched_kept, pending_kept, modMbx]

@[simp] theorem kept_oweChanOp (s : State) (via : Via) (n : Nat) (op : ChanOp) :
    kept (oweChanOp s via n op) = kept s := by
  rfl

@[simp] theorem kept_setNonce (s : State) (n : Option (List Byte)) : kept (setNonce s n) = kept s := rfl

@[simp] theorem kept_spendNonce (cmd : Byte) (uses : QEntry → Bool) (via : Via) (s : State) :
    kept (spendNonce cmd uses via s) = kept s := by
  unfold spendNonce
  (repeat' split) <;> rfl

@[simp] theorem kept_endLearn (s : State) (status : Byte) (detail : Nat) :
    kept (endLearn s status detail) = kept s := by
  unfold endLearn
  split <;> simp [crust_kept, journal_kept, openPage_kept, mem_kept, skip_kept, hostwd_kept, life_kept, inReset_kept, starting_kept, mode_kept, modeNext_kept, tickOn_kept, frameNo_kept, off_kept, phase_kept, statFrame_kept, statGen_kept, latched_kept, pending_kept, modMbx]

@[simp] theorem kept_finishLearn (s : State) (r : LearnRun) :
    kept (finishLearn s r) = kept s := by
  unfold finishLearn
  split <;> simp [crust_kept, journal_kept, openPage_kept, mem_kept, skip_kept, hostwd_kept, life_kept, inReset_kept, starting_kept, mode_kept, modeNext_kept, tickOn_kept, frameNo_kept, off_kept, phase_kept, statFrame_kept, statGen_kept, latched_kept, pending_kept, modMbx]

@[simp] theorem kept_confirmOffsets (s : State) (a b : Nat) (x y : Int × Int) :
    kept (confirmOffsets s a b x y) = kept s := by
  simp [confirmOffsets, crust_kept, journal_kept, openPage_kept, mem_kept, skip_kept, hostwd_kept, life_kept, inReset_kept, starting_kept, mode_kept, modeNext_kept, tickOn_kept, frameNo_kept, off_kept, phase_kept, statFrame_kept, statGen_kept, latched_kept, pending_kept, modMbx]

@[simp] theorem kept_breakOldest (s : State) :
    kept (breakOldest s) = kept s := by
  unfold breakOldest
  split <;> simp [crust_kept, journal_kept, openPage_kept, mem_kept, skip_kept, hostwd_kept, life_kept, inReset_kept, starting_kept, mode_kept, modeNext_kept, tickOn_kept, frameNo_kept, off_kept, phase_kept, statFrame_kept, statGen_kept, latched_kept, pending_kept, modJrn]

@[simp] theorem kept_reportLost (s : State) :
    kept (reportLost s) = kept s := by
  simp [reportLost, crust_kept, journal_kept, openPage_kept, mem_kept, skip_kept, hostwd_kept, life_kept, inReset_kept, starting_kept, mode_kept, modeNext_kept, tickOn_kept, frameNo_kept, off_kept, phase_kept, statFrame_kept, statGen_kept, latched_kept, pending_kept, kept_ite, ite_self, modJrn]

@[simp] theorem kept_setSession (s : State) (k : Side) (x : Option Session) :
    kept (setSession s k x) = kept s := by
  rfl

@[simp] theorem kept_closeSession (s : State) (k : Side) :
    kept (closeSession s k) = kept s := by
  rfl

@[simp] theorem kept_holdPage (s : State) (k : Side) (p : Nat) :
    kept (holdPage s k p) = kept s := by
  unfold holdPage
  simp [crust_kept, journal_kept, openPage_kept, mem_kept, skip_kept, hostwd_kept, life_kept, inReset_kept, starting_kept, mode_kept, modeNext_kept, tickOn_kept, frameNo_kept, off_kept, phase_kept, statFrame_kept, statGen_kept, latched_kept, pending_kept, modJrn]
  (repeat' split) <;> simp_all [skip_kept]

@[simp] theorem kept_restartSession (s : State) (k : Side) (x : Session) :
    kept (restartSession s k x) = kept s := by
  unfold restartSession
  split <;> simp

@[simp] theorem kept_readChunk (s : State) (via : Via) (k : Side) (x : Session) :
    kept (readChunk s via k x) = kept s := by
  simp [readChunk, journal_kept, openPage_kept]

@[simp] theorem kept_setPins (s : State) (via : Via) (l : List Nat) :
    kept (setPins s via l) = kept s := by
  rfl

@[simp] theorem kept_setCycle (s : State) (d : Fin 2) (c : Option CycleRec) :
    kept (setCycle s d c) = kept s := by
  rfl

@[simp] theorem kept_endCycle (s : State) (d : Fin 2) (timeout newStart : Bool) :
    kept (endCycle s d timeout newStart) = kept s := by
  unfold endCycle
  split <;> rfl

@[simp] theorem kept_storeKey (s : State) (kind : Byte) (slot : Nat) (key : List Byte) :
    kept (storeKey s kind slot key) = kept s := by
  unfold storeKey
  (repeat' split) <;> simp [crust_kept, journal_kept, openPage_kept, mem_kept, skip_kept, hostwd_kept, life_kept, inReset_kept, starting_kept, mode_kept, modeNext_kept, tickOn_kept, frameNo_kept, off_kept, phase_kept, statFrame_kept, statGen_kept, latched_kept, pending_kept, modNv]

@[simp] theorem kept_changeLife (s : State) (new : Lifecycle) :
    kept (changeLife s new) = { kept s with life := new } := by
  unfold changeLife
  dsimp only
  rw [kept_measEvent]
  split <;> rfl

@[simp] theorem kept_testCrumb (s : State) (source : Byte) (r : Byte × Byte × W32) :
    kept (testCrumb s source r) = kept s := by
  simp [testCrumb]

@[simp] theorem kept_retireAtOnce (s : State) (l : Side) (code : Byte) :
    kept (retireAtOnce s l code) = kept s := by
  simp [retireAtOnce, kept_ite, ite_self]

@[simp] theorem kept_raiseCrcUnits (s : State) (units : BitVec 4) :
    kept (raiseCrcUnits s units) = kept s := by
  simp [raiseCrcUnits, kept_foldl]

@[simp] theorem kept_permanentEffect (s : State) (r : BlockRun) (b : Nat) :
    kept (permanentEffect s r b) = kept s := by
  unfold permanentEffect
  (repeat' split) <;> first
    | rfl
    | exact kept_foldl _ (fun s n => kept_laneReport s _) _ _
    | exact kept_raiseCrcUnits _ _
    | exact kept_foldl _ (fun s l => kept_retireAtOnce s l _) _ _

@[simp] theorem kept_blockOutcome (source : Byte) (w : LockWindow) (runs : List BlockRun) (s : State) (b : Nat) :
    kept (blockOutcome source w runs s b) = kept s := by
  unfold blockOutcome
  dsimp only
  split <;> simp [kept_foldl]

@[simp] theorem kept_reinitBlock (s : State) (b : Nat) :
    kept (reinitBlock s b) = kept s := by
  simp [reinitBlock, crust_kept, journal_kept, openPage_kept, mem_kept, skip_kept, hostwd_kept, life_kept, inReset_kept, starting_kept, mode_kept, modeNext_kept, tickOn_kept, frameNo_kept, off_kept, phase_kept, statFrame_kept, statGen_kept, latched_kept, pending_kept, kept_ite, ite_self]

@[simp] theorem kept_clearReps (s : State) :
    kept (clearReps s) = kept s := by
  rfl

@[simp] theorem kept_modAct (s : State) (f : ActSt → ActSt) :
    kept (modAct s f) = kept s := by
  rfl

@[simp] theorem kept_setChip (s : State) (i : Nat) (x : ChipSt) :
    kept (setChip s i x) = kept s := by
  rfl

@[simp] theorem kept_actCrumb (s : State) (code : Byte) (body : List Byte) :
    kept (actCrumb s code body) = kept s := by
  simp [actCrumb]

@[simp] theorem kept_busCrumb (s : State) (code : Byte) (pulses : Nat) :
    kept (busCrumb s code pulses) = kept s := by
  simp [busCrumb]

@[simp] theorem kept_chipCrumb (s : State) (code : Byte) (i : Nat) (e : List Byte) (x : ChipSt) :
    kept (chipCrumb s code i e x) = kept s := by
  simp [chipCrumb]

@[simp] theorem kept_wearCrumbs (s : State) (i : Nat) (e : List Byte) (old new : ChipSt) :
    kept (wearCrumbs s i e old new) = kept s := by
  simp [wearCrumbs, kept_ite, ite_self]

@[simp] theorem kept_chipAnswer (s : State) (i : Nat) (e uid : List Byte) (count : W32) (hmac : Option (List Byte)) :
    kept (chipAnswer s i e uid count hmac) = kept s := by
  unfold chipAnswer drawBytes
  dsimp only
  rw [kept_wearCrumbs]
  (repeat' split) <;> simp only [kept_chipCrumb, kept_setChip] <;> rfl

@[simp] theorem kept_scanChip (s : State) (i : Nat) (e : List Byte) (r : ChipReply) :
    kept (scanChip s i e r) = kept s := by
  unfold scanChip
  split <;> simp

@[simp] theorem kept_endScan (ok : Bool) (s : State) :
    kept (endScan ok s) = kept s := by
  unfold endScan
  dsimp only
  split <;> simp [kept_foldl]

@[simp] theorem kept_savePending (s : State) :
    kept (savePending s) = kept s := by
  rfl

@[simp] theorem kept_advanceFails (s : State) (i : Nat) (e : List Byte) (x : ChipSt) :
    kept (advanceFails s i e x) = kept s := by
  simp [advanceFails]

@[simp] theorem kept_advanceAnswer (s : State) (i : Nat) (e : List Byte) (count : W32) (hmac : List Byte) :
    kept (advanceAnswer s i e count hmac) = kept s := by
  simp [advanceAnswer, crust_kept, journal_kept, openPage_kept, mem_kept, skip_kept, hostwd_kept, life_kept, inReset_kept, starting_kept, mode_kept, modeNext_kept, tickOn_kept, frameNo_kept, off_kept, phase_kept, statFrame_kept, statGen_kept, latched_kept, pending_kept, kept_ite, ite_self, drawBytes]

@[simp] theorem kept_advanceChip (s : State) (i : Nat) (e : List Byte) (r : ChipReply) :
    kept (advanceChip s i e r) = kept s := by
  unfold advanceChip
  split <;> simp

@[simp] theorem kept_busStuck (s : State) :
    kept (busStuck s) = kept s := by
  simp [busStuck, kept_foldl]

@[simp] theorem kept_busRecovered (s : State) (n : Nat) :
    kept (busRecovered s n) = kept s := by
  simp [busRecovered, kept_ite, ite_self]

end Sys2Proof.Machine
end

