-- ==== Sys2Proof/Laws/Inv.lean ====
section
/-! SUPPORT. The invariant of `Safety` under the operations that do touch what it speaks of: the crusts, the journal, the
slots' bytes, HOSTWD and the mode. An operation that leaves `kept` as it is keeps the invariant. -/

namespace Sys2Proof.Machine

/-- The invariant on the pieces of state it speaks of. -/
structure KInv (k : Kept) : Prop where
  a : quiet k.crust.a = true
  b : quiet k.crust.b = true
  journal : Memory.wf k.journal = true
  mem : Memory.wf k.mem = true
  page : ∀ p, k.openPage = some p → p < journalPages
  skip : ∀ p ∈ k.skip, p < journalPages
  hostwd : k.hostwd &&& 0xE0#8 = 0
  mode : modeOk (k.inReset || k.starting) k.tickOn k.mode k.modeNext = true

theorem writerOk_iff (o : Option Nat) (l : List Nat) :
    writerOk o l = true ↔ (∀ p, o = some p → p < journalPages) ∧ ∀ p ∈ l, p < journalPages := by
  cases o <;> simp [writerOk]

theorem inv_iff (s : State) : s.inv = true ↔ KInv (kept s) := by
  have e : s.inv = (quiet (kept s).crust.a && quiet (kept s).crust.b && Memory.wf (kept s).journal &&
    Memory.wf (kept s).mem && writerOk (kept s).openPage (kept s).skip && ((kept s).hostwd &&& 0xE0#8) == 0 &&
    modeOk ((kept s).inReset || (kept s).starting) (kept s).tickOn (kept s).mode (kept s).modeNext) := rfl
  rw [e]
  simp only [Bool.and_eq_true, beq_iff_eq, writerOk_iff]
  constructor
  · rintro ⟨⟨⟨⟨⟨⟨h1, h2⟩, h3⟩, h4⟩, h5, h6⟩, h7⟩, h8⟩
    exact ⟨h1, h2, h3, h4, h5, h6, h7, h8⟩
  · rintro ⟨h1, h2, h3, h4, h5, h6, h7, h8⟩
    exact ⟨⟨⟨⟨⟨⟨h1, h2⟩, h3⟩, h4⟩, h5, h6⟩, h7⟩, h8⟩

theorem inv_of_kept {s t : State} (h : kept t = kept s) (hs : s.inv = true) : t.inv = true := by
  rw [inv_iff, h, ← inv_iff]
  exact hs

/-- The lifecycle state, the mode and the reset of the core: what hardly any command changes. -/
def rest (s : State) : Lifecycle × Mode × Bool := (s.nv.life, s.core.mode, s.core.inReset)

theorem rest_of_kept {s t : State} (h : kept t = kept s) : rest t = rest s := by
  have e : ∀ s : State, rest s = ((kept s).life, (kept s).mode, (kept s).inReset) := fun _ => rfl
  rw [e, e, h]

theorem rest_foldl {α : Type} (f : State → α → State) (h : ∀ s x, rest (f s x) = rest s) (l : List α) (s : State) :
    rest (l.foldl f s) = rest s := by
  induction l generalizing s with
  | nil => rfl
  | cons x r ih => rw [List.foldl_cons, ih, h]

@[simp] theorem rest_modCrust (s : State) (c : Side) (f : CrustSt → CrustSt) : rest (modCrust s c f) = rest s := rfl
@[simp] theorem rest_handshake (s : State) (c : Side) : rest (handshake s c) = rest s := rfl

theorem inv_of {t : State} {k : Kept} (h : kept t = k) (hk : KInv k) : t.inv = true := by
  rw [inv_iff, h]
  exact hk

theorem quiet_at {s : State} (hs : s.inv = true) (c : Side) : quiet (s.crust.at c) = true := by
  have h := (inv_iff s).1 hs
  cases c
  · exact h.a
  · exact h.b

/-! ## Crusts -/

/-- A change of one crust. -/
theorem inv_onCrust {s : State} (hs : s.inv = true) (c : Side) (y : CrustSt) (hy : quiet y = true) :
    ({ s with crust := s.crust.set c y } : State).inv = true := by
  have h := (inv_iff s).1 hs
  cases c
  · exact inv_of (k := { kept s with crust := s.crust.set .a y }) rfl { h with a := hy, b := h.b }
  · exact inv_of (k := { kept s with crust := s.crust.set .b y }) rfl { h with a := h.a, b := hy }

theorem inv_modCrust {s : State} (hs : s.inv = true) (c : Side) (f : CrustSt → CrustSt)
    (hf : quiet (f (s.crust.at c)) = true) : (modCrust s c f).inv = true := inv_onCrust hs c _ hf

theorem inv_tame {s : State} (hs : s.inv = true) (c : Side) {f : CrustSt → CrustSt} (hf : Tame f) :
    (modCrust s c f).inv = true := inv_modCrust hs c f (hf.quiet (quiet_at hs c))

theorem quiet_handshake (s : State) (x : CrustSt) : quiet (
    let y := openCrust x
    { y with
      handshake := true, silent := false
      ins := tabMap InSt.init y.ins fun _ i => if i.raw = i.deb then i else { i with pend := some (stampAt s s.core.off) } }
    : CrustSt) = true := quiet_of_legsOff (legsOff_openCrust x)

theorem inv_handshake {s : State} (hs : s.inv = true) (c : Side) : (handshake s c).inv = true :=
  inv_modCrust hs c _ (quiet_handshake s _)

theorem inv_renewHandshakes {s : State} (hs : s.inv = true) : (renewHandshakes s).inv = true := by
  have one : ∀ (s : State) (c : Side), s.inv = true →
      (if laneLive s c && (s.crust.at c).logicPower then handshake s c else s).inv = true := by
    intro s c h
    split
    · exact inv_handshake h c
    · exact h
  exact one _ _ (one _ _ hs)

/-- A snapshot that is not used goes back into the crust. -/
theorem inv_loseSnapshot {s : State} (hs : s.inv = true) (c : Side) : (loseSnapshot s c).inv = true :=
  inv_tame hs c (Tame.of_same fun _ => ⟨rfl, rfl, rfl, rfl⟩)

theorem inv_takeSnapshots (env : PhaseSEnv) {s : State} (hs : s.inv = true) : (takeSnapshots env s).inv = true := by
  have one : ∀ (c : Side) (s : State), s.inv = true → (takeSnapshot env s c).inv = true := by
    intro c s h
    rcases kept_takeSnapshot env s c with k | k
    · exact inv_of_kept k h
    · exact inv_of_kept k (inv_loseSnapshot h c)
  unfold takeSnapshots
  split
  · exact inv_of_kept (kept_fatalFault _ _) hs
  · exact one _ _ (one _ _ hs)

theorem inv_exchangeInputs (env : PhaseSEnv) {s : State} (hs : s.inv = true) : (exchangeInputs env s).inv = true := by
  obtain ⟨t, h1, h2⟩ := kept_exchangeInputs env s
  exact inv_of_kept h2 (inv_takeSnapshots env (inv_of_kept h1 hs))

/-- A crust that opens everything, whatever else becomes of it. -/
theorem quiet_open (x y : CrustSt) (h : y.legs = (openCrust x).legs) : quiet y = true := by
  refine quiet_of_legsOff ?_
  have := legsOff_openCrust x
  rw [legsOff_iff] at this ⊢
  rw [h]
  exact this

theorem rest_renewHandshakes (s : State) : rest (renewHandshakes s) = rest s := by
  have one : ∀ (s : State) (c : Side),
      rest (if laneLive s c && (s.crust.at c).logicPower then handshake s c else s) = rest s := by
    intro s c
    split <;> rfl
  exact (one _ _).trans (one _ _)

/-! ## Resets -/

theorem quiet_killCrust (x : CrustSt) : quiet (killCrust x) = true := quiet_open x _ rfl

theorem quiet_resetCrust (x : CrustSt) : quiet (resetCrust x) = true := quiet_of_legsOff (legsOff_resetCrust x)

/-- What a core reset keeps and clears of the pieces that the invariant speaks of. -/
theorem kept_coreReset (s : State) (cause : ResetCause) : kept (coreReset s cause) = if s.core.inReset then kept s else
    { kept s with
      crust := s.crust.map killCrust, mem := [], skip := [], hostwd := 0, inReset := true, starting := false, mode := .boot, modeNext := none,
      tickOn := false, frameNo := 0, off := 0, phase := .g, statFrame := 0, statGen := 0, latched := Counts.zero } := by
  unfold coreReset
  split <;> rfl

theorem inv_coreReset {s : State} (hs : s.inv = true) (cause : ResetCause) : (coreReset s cause).inv = true := by
  have h := (inv_iff s).1 hs
  refine inv_of (kept_coreReset s cause) ?_
  split
  · exact h
  · exact { a := quiet_killCrust _, b := quiet_killCrust _, journal := h.journal, mem := rfl, page := h.page,
            skip := by simp, hostwd := (by decide : (0#8 &&& 0xE0#8) = 0#8), mode := rfl }

theorem inv_powerLoss {s : State} (hs : s.inv = true) (r : Bool) : (powerLoss s r).inv = true := by
  have h := inv_coreReset hs .brownOut
  unfold powerLoss
  dsimp only
  split
  · have k := (inv_iff _).1 h
    exact inv_of (k := { kept (coreReset s .brownOut) with
        crust := (coreReset s .brownOut).crust.map fun c => { openCrust c with logicPower := false, drives := [] },
        statFrame := 0, statGen := 0, latched := Counts.zero }) rfl
      { k with a := quiet_open _ _ rfl, b := quiet_open _ _ rfl }
  · exact inv_of_kept (s := coreReset s .brownOut) rfl h

/-! ## The journal's bytes and pages -/

theorem inv_journal {s : State} (hs : s.inv = true) (t : State) (m : Tab Byte) (o : Option Nat) (hm : Memory.wf m = true)
    (ho : ∀ p, o = some p → p < journalPages) (h : kept t = { kept s with journal := m, openPage := o }) : t.inv = true :=
  inv_of h { (inv_iff s).1 hs with journal := hm, page := ho }

theorem inv_skip {s : State} (hs : s.inv = true) (t : State) (l : List Nat) (hl : ∀ p ∈ l, p < journalPages)
    (h : kept t = { kept s with skip := l }) : t.inv = true :=
  inv_of h { (inv_iff s).1 hs with skip := hl }

theorem inv_journalWf {s : State} (hs : s.inv = true) : Memory.wf s.nv.journal = true := ((inv_iff s).1 hs).journal
theorem inv_openLt {s : State} (hs : s.inv = true) : ∀ p, s.nv.openPage = some p → p < journalPages := ((inv_iff s).1 hs).page
theorem inv_skipLt {s : State} (hs : s.inv = true) : ∀ p ∈ s.jrn.skip, p < journalPages := ((inv_iff s).1 hs).skip

theorem inv_markBad {s : State} (hs : s.inv = true) (p : Nat) : (markBad s p).inv = true := by
  unfold markBad
  split
  · exact hs
  · refine inv_of_kept (kept_crumb _ _ _ _ _) ?_
    refine inv_journal hs _ (memWriteBytes s.nv.journal (pageBytes * p) (stateHeader s.nv p 0x03))
      (if s.nv.openPage = some p then none else s.nv.openPage) (Memory.wf_writeBytes _ _ _ (inv_journalWf hs)) ?_ rfl
    intro q hq
    split at hq
    · simp at hq
    · exact inv_openLt hs q hq

theorem rest_markBad (s : State) (p : Nat) : rest (markBad s p) = rest s := by
  unfold markBad
  split
  · rfl
  · dsimp only
    exact (rest_of_kept (kept_crumb _ _ _ _ _)).trans rfl

theorem inv_foldl {α : Type} (f : State → α → State) (h : ∀ s x, s.inv = true → (f s x).inv = true) (l : List α) {s : State}
    (hs : s.inv = true) : (l.foldl f s).inv = true := by
  induction l generalizing s with
  | nil => exact hs
  | cons x r ih => exact ih (h s x hs)

theorem inv_scanPages {s : State} (hs : s.inv = true) (runs : List BlockRun) (set : List Nat) :
    (scanPages s runs set).inv = true := by
  unfold scanPages
  split
  · exact inv_foldl (fun s (p : W16) => markBad s p.toNat) (fun s p h => inv_markBad h p.toNat) _ hs
  · exact hs

theorem rest_scanPages (s : State) (runs : List BlockRun) (set : List Nat) : rest (scanPages s runs set) = rest s := by
  unfold scanPages
  split
  · exact rest_foldl (fun s (p : W16) => markBad s p.toNat) (fun s p => rest_markBad s p.toNat) _ _
  · rfl

theorem rest_closeOpen (s : State) : rest (modNv s closeOpen) = rest s := by
  unfold modNv closeOpen
  split <;> rfl

theorem inv_closeOpen {s : State} (hs : s.inv = true) : (modNv s closeOpen).inv = true := by
  unfold modNv closeOpen
  split
  · rename_i p _
    exact inv_journal hs _ (memWriteBytes s.nv.journal (pageBytes * p)
      (pageHeader (listSet (memReadBytes s.nv.journal (pageBytes * p) 28) 17 0x02))) none
      (Memory.wf_writeBytes _ _ _ (inv_journalWf hs)) (by simp) rfl
  · exact hs

theorem inv_openAt {s : State} (hs : s.inv = true) (p : Nat) (first : Byte) (hp : p < journalPages) :
    (openAt s p first).inv = true := by
  have e : Memory.wf (erasePage s.nv.journal p) = true := Memory.wf_filter _ _ (inv_journalWf hs)
  unfold openAt modNv
  dsimp only
  generalize pageHeader _ = hd
  exact inv_journal hs _ (memWriteBytes (erasePage s.nv.journal p) (pageBytes * p) hd) (some p) (Memory.wf_writeBytes _ (pageBytes * p) _ e) (by intro q hq; injection hq; omega) rfl

theorem ringNext_lt (p : Nat) : ringNext p < journalPages := by
  unfold ringNext journalPages
  split <;> omega

/-- A page found in the ring lies in the journal. -/
theorem inv_huntPage (k : Nat) (s : State) (p q : Nat) (t : State) (hs : s.inv = true) (hp : p < journalPages)
    (h : huntPage k s p = some (q, t)) : t.inv = true ∧ q < journalPages := by
  induction k generalizing s p with
  | zero => simp [huntPage] at h
  | succ k ih =>
    unfold huntPage at h
    split at h
    · exact ih _ _ hs (ringNext_lt p) h
    · split at h
      · split at h
        · refine ih _ _ (inv_skip hs _ (nodupInsert s.jrn.skip p) ?_ rfl) (ringNext_lt p) h
          intro x hx
          unfold nodupInsert at hx
          split at hx
          · exact inv_skipLt hs x hx
          · rcases List.mem_append.1 hx with h1 | h1
            · exact inv_skipLt hs x h1
            · rw [List.mem_singleton.1 h1]; exact hp
        · exact ih _ _ (inv_of_kept (kept_breakOldest s) hs) hp h
      · injection h with h
        injection h with h1 h2
        subst h1 h2
        exact ⟨hs, hp⟩

theorem rest_huntPage (k : Nat) (s : State) (p q : Nat) (t : State) (h : huntPage k s p = some (q, t)) : rest t = rest s := by
  induction k generalizing s p with
  | zero => simp [huntPage] at h
  | succ k ih =>
    unfold huntPage at h
    split at h
    · exact ih _ _ h
    · split at h
      · split at h
        · exact (ih _ _ h).trans rfl
        · exact (ih _ _ h).trans (rest_of_kept (kept_breakOldest s))
      · injection h with h
        injection h with h1 h2
        rw [h2]

theorem rest_nextPage (s : State) (first : Byte) : rest (nextPage s first) = rest s := by
  unfold nextPage
  split
  · rename_i p t h
    have ht : rest t = rest s := by
      unfold choosePage at h
      split at h
      · injection h with h
        injection h with h1 h2
        rw [← h2]
        rfl
      · exact rest_huntPage _ _ _ _ _ h
    exact (rest_closeOpen t).trans ht
  · exact rest_closeOpen s

theorem rest_putUnits (l : List (List Byte)) (s : State) : rest (putUnits l s) = rest s := by
  induction l generalizing s with
  | nil => rfl
  | cons u r ih =>
    unfold putUnits
    split
    · rfl
    · dsimp only
      refine (ih _).trans ?_
      split
      · exact rest_nextPage _ _
      · rfl

theorem rest_writeHead (s : State) : rest (writeHead s) = rest s := by
  have hr : rest (pageReady s) = rest s := by
    unfold pageReady
    split
    · rfl
    · exact rest_nextPage _ _
  unfold writeHead
  split
  · rfl
  · dsimp only
    split
    · exact hr
    · exact (rest_of_kept (kept_reportLost _)).trans ((rest_putUnits _ _).trans hr)

theorem rest_closeAtEnd (s : State) : rest (closeAtEnd s) = rest s := by
  unfold closeAtEnd
  split
  · exact rest_closeOpen (modJrn s fun j => { j with closed := true })
  · rfl

theorem skipChoice_lt {s : State} (hs : s.inv = true) (p : Nat) (h : skipChoice s = some p) : p < journalPages := by
  have key : ∀ (l : List Nat) (o : Option Nat), (∀ x ∈ l, x < journalPages) → (∀ x, o = some x → x < journalPages) →
      ∀ x, l.foldl (fun b p => match b with
        | some x => some (min x p)
        | none => some p) o = some x → x < journalPages := by
    intro l
    induction l with
    | nil => exact fun o _ ho x hx => ho x hx
    | cons a r ih =>
      intro o hl ho x hx
      refine ih _ (fun y hy => hl y (List.mem_cons_of_mem _ hy)) ?_ x hx
      intro y hy
      have ha := hl a (List.mem_cons_self ..)
      cases o with
      | none => injection hy with hy; omega
      | some b => have hb := ho b rfl; injection hy with hy; omega
  exact key _ none (fun x hx => inv_skipLt hs x (List.mem_filter.1 hx).1) (by simp) p h

theorem huntStart_lt {s : State} : huntStart s.nv < journalPages := by
  unfold huntStart
  split
  · exact ringNext_lt _
  · exact ringNext_lt _
  · decide

theorem inv_nextPage {s : State} (hs : s.inv = true) (first : Byte) : (nextPage s first).inv = true := by
  unfold nextPage
  split
  · rename_i p t h
    unfold choosePage at h
    split at h
    · rename_i q hq
      injection h with h
      injection h with h1 h2
      subst h1 h2
      refine inv_openAt (inv_closeOpen (inv_skip hs _ (s.jrn.skip.filter fun x => x != q) ?_ rfl)) _ _ (skipChoice_lt hs _ hq)
      exact fun x hx => inv_skipLt hs x (List.mem_filter.1 hx).1
    · have := inv_huntPage _ _ _ _ _ hs huntStart_lt h
      exact inv_openAt (inv_closeOpen this.1) _ _ this.2
  · exact inv_closeOpen hs

theorem inv_putUnits (l : List (List Byte)) {s : State} (hs : s.inv = true) : (putUnits l s).inv = true := by
  induction l generalizing s with
  | nil => exact hs
  | cons u r ih =>
    unfold putUnits
    split
    · exact hs
    · rename_i p hp
      have h1 : (modNv s fun n => { n with
          journal := memWriteBytes n.journal (pageBytes * p + 32 * n.openUnit) u, openUnit := n.openUnit + 1 }).inv = true :=
        inv_journal hs _ (memWriteBytes s.nv.journal (pageBytes * p + 32 * s.nv.openUnit) u) s.nv.openPage
          (Memory.wf_writeBytes _ _ _ (inv_journalWf hs)) (inv_openLt hs) rfl
      dsimp only
      split
      · exact ih (inv_nextPage h1 _)
      · exact ih h1

theorem inv_writeHead {s : State} (hs : s.inv = true) : (writeHead s).inv = true := by
  have hr : (pageReady s).inv = true := by
    unfold pageReady
    split
    · exact hs
    · exact inv_nextPage hs _
  unfold writeHead
  split
  · exact hs
  · dsimp only
    split
    · exact hr
    · exact inv_of_kept (kept_reportLost _) (inv_putUnits _ (inv_of_kept (s := pageReady s) rfl hr))

theorem inv_closeAtEnd {s : State} (hs : s.inv = true) : (closeAtEnd s).inv = true := by
  unfold closeAtEnd
  split
  · exact inv_of_kept (s := modNv (modJrn s fun j => { j with closed := true }) closeOpen) rfl
      (inv_closeOpen (inv_of_kept (s := s) rfl hs))
  · exact hs

/-! ## The slots' bytes and HOSTWD -/

theorem inv_mem {s : State} (hs : s.inv = true) (t : State) (m : Tab Byte) (hm : Memory.wf m = true)
    (h : kept t = { kept s with mem := m }) : t.inv = true := inv_of h { (inv_iff s).1 hs with mem := hm }

theorem inv_memWf {s : State} (hs : s.inv = true) : Memory.wf s.mbx.mem = true := ((inv_iff s).1 hs).mem

theorem inv_writeSlot {s : State} (hs : s.inv = true) (o : Nat) (v : Byte) : (writeSlot s o v).inv = true := by
  have h : (modMbx s fun m => { m with mem := memWrite m.mem o v }).inv = true :=
    inv_mem hs _ (memWrite s.mbx.mem o v) (Memory.wf_write _ _ _ (inv_memWf hs)) rfl
  unfold writeSlot
  dsimp only
  split
  · exact inv_of_kept (kept_setSlotState _ _ _) h
  · exact h

theorem inv_deliverReply {s : State} (hs : s.inv = true) (via : Via) (b : List Byte) : (deliverReply s via b).inv = true := by
  unfold deliverReply
  split
  · rename_i k
    refine inv_of_kept (by rw [kept_setIrq0, kept_setSlotState]) (inv_mem hs (modMbx s fun m => { m with
      mem := memWriteBytes m.mem (256 * k.val) (b.take 256) }) _ (Memory.wf_writeBytes _ _ _ (inv_memWf hs)) rfl)
  · exact inv_of_kept (kept_sendTunnel _ _ _) hs
  · exact inv_of_kept (kept_sendImage _ _ _ _ _ _) hs

theorem inv_writeHostwd {s : State} (hs : s.inv = true) (v : Byte) : (writeHostwd s v).inv = true := by
  refine inv_of_kept (kept_kick _) (inv_of (k := { kept s with hostwd := v &&& 0x1F#8 }) rfl
    { (inv_iff s).1 hs with hostwd := ?_ })
  show v &&& 0x1F#8 &&& 0xE0#8 = 0
  rw [BitVec.and_assoc]
  simp

theorem rest_writeSlot (s : State) (o : Nat) (v : Byte) : rest (writeSlot s o v) = rest s := by
  unfold writeSlot
  dsimp only
  split
  · exact rest_of_kept (s := modMbx s fun m => { m with mem := memWrite m.mem o v }) (kept_setSlotState _ _ _)
  · rfl

theorem rest_deliverReply (s : State) (via : Via) (b : List Byte) : rest (deliverReply s via b) = rest s := by
  unfold deliverReply
  split
  · rfl
  · exact rest_of_kept (kept_sendTunnel _ _ _)
  · exact rest_of_kept (kept_sendImage _ _ _ _ _ _)

theorem rest_writeHostwd (s : State) (v : Byte) : rest (writeHostwd s v) = rest s := rfl

theorem inv_commitByte {s : State} (hs : s.inv = true) (a : Nat) (v : Byte) : (commitByte s a v).inv = true := by
  unfold commitByte
  by_cases h0 : a = 0x12
  · rw [if_pos h0]
    exact inv_of_kept (kept_writeModeReq _ _) hs
  rw [if_neg h0]
  by_cases h1 : a = 0x18
  · rw [if_pos h1]
    exact inv_of_kept (kept_clearIrq _ _ _ _) hs
  rw [if_neg h1]
  by_cases h2 : a = 0x19
  · rw [if_pos h2]
    exact inv_of_kept (kept_clearIrq _ _ _ _) hs
  rw [if_neg h2]
  by_cases h3 : a = 0x1A
  · rw [if_pos h3]
    exact inv_of_kept (s := s) rfl hs
  rw [if_neg h3]
  by_cases h4 : a = 0x1B
  · rw [if_pos h4]
    exact inv_of_kept (s := s) rfl hs
  rw [if_neg h4]
  by_cases h5 : a = 0x1C
  · rw [if_pos h5]
    exact inv_writeHostwd hs v
  rw [if_neg h5]
  by_cases h6 : a = 0x1D
  · rw [if_pos h6]
    exact inv_of_kept (kept_writeSpiCfg _ _) hs
  rw [if_neg h6]
  by_cases h7 : a = 0x21
  · rw [if_pos h7]
    exact inv_of_kept (kept_foldl postBit kept_postBit _ _) hs
  rw [if_neg h7]
  by_cases h8 : a = 0x23
  · rw [if_pos h8]
    exact inv_of_kept (kept_foldl ackBit kept_ackBit _ _) hs
  rw [if_neg h8]
  by_cases h9 : a = 0x30
  · rw [if_pos h9]
    exact inv_of_kept (kept_clearInd _ _ _) hs
  rw [if_neg h9]
  by_cases h10 : a = 0x31
  · rw [if_pos h10]
    exact inv_of_kept (kept_writeIndCtl _ _) hs
  rw [if_neg h10]
  by_cases h11 : 0x800 ≤ a ∧ a < 0x1000
  · rw [if_pos h11]
    exact inv_writeSlot hs _ v
  rw [if_neg h11]
  split
  · exact inv_of_kept (kept_writeCrc _ _ _ _ _) hs
  · exact hs

theorem rest_commitByte (s : State) (a : Nat) (v : Byte) : rest (commitByte s a v) = rest s := by
  unfold commitByte
  by_cases h0 : a = 0x12
  · rw [if_pos h0]
    exact rest_of_kept (kept_writeModeReq _ _)
  rw [if_neg h0]
  by_cases h1 : a = 0x18
  · rw [if_pos h1]
    exact rest_of_kept (kept_clearIrq _ _ _ _)
  rw [if_neg h1]
  by_cases h2 : a = 0x19
  · rw [if_pos h2]
    exact rest_of_kept (kept_clearIrq _ _ _ _)
  rw [if_neg h2]
  by_cases h3 : a = 0x1A
  · rw [if_pos h3]
    exact rfl
  rw [if_neg h3]
  by_cases h4 : a = 0x1B
  · rw [if_pos h4]
    exact rfl
  rw [if_neg h4]
  by_cases h5 : a = 0x1C
  · rw [if_pos h5]
    exact rest_writeHostwd s v
  rw [if_neg h5]
  by_cases h6 : a = 0x1D
  · rw [if_pos h6]
    exact rest_of_kept (kept_writeSpiCfg _ _)
  rw [if_neg h6]
  by_cases h7 : a = 0x21
  · rw [if_pos h7]
    exact rest_of_kept (kept_foldl postBit kept_postBit _ _)
  rw [if_neg h7]
  by_cases h8 : a = 0x23
  · rw [if_pos h8]
    exact rest_of_kept (kept_foldl ackBit kept_ackBit _ _)
  rw [if_neg h8]
  by_cases h9 : a = 0x30
  · rw [if_pos h9]
    exact rest_of_kept (kept_clearInd _ _ _)
  rw [if_neg h9]
  by_cases h10 : a = 0x31
  · rw [if_pos h10]
    exact rest_of_kept (kept_writeIndCtl _ _)
  rw [if_neg h10]
  by_cases h11 : 0x800 ≤ a ∧ a < 0x1000
  · rw [if_pos h11]
    exact rest_writeSlot s _ v
  rw [if_neg h11]
  split
  · exact rest_of_kept (kept_writeCrc _ _ _ _ _)
  · rfl

/-! ## Modes -/

theorem inv_modeNext {s : State} (hs : s.inv = true) (t : State) (n : Option (Mode × ModeWhy))
    (h : kept t = { kept s with modeNext := n }) (hn : modeOk (s.core.inReset || s.core.startUp.isSome) s.core.tickOn s.core.mode n = true) : t.inv = true :=
  inv_of h { (inv_iff s).1 hs with mode := hn }

theorem inv_mode {s : State} (hs : s.inv = true) (t : State) (m : Mode) (n : Option (Mode × ModeWhy))
    (h : kept t = { kept s with mode := m, modeNext := n }) (hn : modeOk (s.core.inReset || s.core.startUp.isSome) s.core.tickOn m n = true) : t.inv = true :=
  inv_of h { (inv_iff s).1 hs with mode := hn }

theorem inv_modeOk {s : State} (hs : s.inv = true) : modeOk (s.core.inReset || s.core.startUp.isSome) s.core.tickOn s.core.mode s.core.modeNext = true :=
  ((inv_iff s).1 hs).mode

/-- Where the tick runs, start-up has done its steps 4 and 5. -/
theorem inv_started {s : State} (hs : s.inv = true) (h : s.core.tickOn = true) : s.core.startUp = none := by
  have e := inv_modeOk hs
  cases k : s.core.startUp with
  | none => rfl
  | some env => simp [modeOk, h, k] at e

/-- A core in reset is in BOOT with no mode due and its tick still. -/
theorem inv_inReset {s : State} (hs : s.inv = true) (h : s.core.inReset = true) :
    s.core.tickOn = false ∧ s.core.mode = .boot ∧ s.core.modeNext = none := by
  have e := inv_modeOk hs
  simp only [modeOk, h, Bool.true_or, Bool.not_true, Bool.false_or, Bool.and_eq_true, Bool.not_eq_true', beq_iff_eq,
    Option.isNone_iff_eq_none] at e
  exact ⟨e.1.1.1, e.1.1.2, e.1.2⟩

theorem inv_ticking {s : State} (hs : s.inv = true) (h : s.core.tickOn = true) : s.core.inReset = false := by
  cases e : s.core.inReset
  · rfl
  · simp [inv_inReset hs e] at h

theorem modeOk_some {s : State} (hs : s.inv = true) {m : Mode} {w : ModeWhy} (h : s.core.modeNext = some (m, w)) :
    modeEdge s.core.mode m = true := by
  have e := inv_modeOk hs
  simp only [modeOk, h, Bool.and_eq_true] at e
  exact e.2

theorem modeOk_running (t : Bool) (m : Mode) (n : Option (Mode × ModeWhy))
    (h : ∀ k w, n = some (k, w) → modeEdge m k = true) : modeOk false t m n = true := by
  cases n with
  | none => rfl
  | some e => exact h e.1 e.2 rfl

/-- The mode due at the next tick is one transition of R64 away. -/
theorem nextMode_edge {s : State} (hs : s.inv = true) {m : Mode} {w : ModeWhy} (h : nextMode s = some (m, w)) :
    modeEdge s.core.mode m = true := by
  unfold nextMode at h
  dsimp only at h
  split at h
  · rename_i h1
    injection h with h
    injection h with h2 h3
    subst h2
    simp only [Bool.and_eq_true, bne_iff_ne] at h1
    cases e : s.core.mode <;> simp_all [modeEdge]
  · split at h
    · rename_i h1
      injection h with h
      injection h with h2 h3
      subst h2
      simp only [Bool.and_eq_true, Bool.or_eq_true, beq_iff_eq] at h1
      rcases h1.2 with ((h4 | h4) | h4) | h4 <;> rw [h4] <;> rfl
    · exact modeOk_some hs h

theorem inv_changeMode {s : State} (hs : s.inv = true) (hr : s.core.inReset = false) (hu : s.core.startUp = none) :
    (changeMode s).inv = true :=
  inv_mode hs _ _ _ (kept_changeMode s) (by rw [hr, hu]; rfl)

theorem requestTarget_edge (s : State) (v : Byte) (m : Mode) (h : requestTarget s v = some m) :
    modeEdge s.core.mode m = true := by
  have pick : ∀ (c : Prop) [Decidable c] (k : Mode), (if c then some k else none) = some m → c ∧ k = m := by
    intro c _ k e
    split at e
    · exact ⟨‹_›, by injection e⟩
    · cases e
  unfold requestTarget at h
  dsimp only at h
  split at h
  · obtain ⟨h1, rfl⟩ := pick _ _ h
    rcases h1 with h1 | h1 | h1 | h1 | h1 <;> rw [h1] <;> rfl
  split at h
  · obtain ⟨⟨h1, -⟩, rfl⟩ := pick _ _ h
    rcases h1 with h1 | h1 <;> rw [h1] <;> rfl
  split at h
  · obtain ⟨h1, rfl⟩ := pick _ _ h
    rcases h1 with h1 | ⟨h1, -⟩ <;> rw [h1] <;> rfl
  split at h
  · obtain ⟨⟨h1, -⟩, rfl⟩ := pick _ _ h
    rw [h1]
    rfl
  · cases h

/-! ## A lane fault found late in a frame (R36, R37) -/

theorem Tame.unstageCrust (rail : Bool) (cfg : LoafCfg) (c : Side) : Tame (Machine.unstageCrust rail cfg c) :=
  Tame.of_same fun _ => ⟨rfl, rfl, rfl, rfl⟩

theorem inv_unstage {s : State} (hs : s.inv = true) (rail : Bool) : (unstage rail s).inv = true := by
  unfold unstage
  split
  · exact hs
  · exact inv_of_kept (kept_modLanes _ _) (inv_tame (inv_tame hs .a (Tame.unstageCrust rail _ .a)) .b (Tame.unstageCrust rail _ .b))

theorem rest_unstage (rail : Bool) (s : State) : rest (unstage rail s) = rest s := by
  unfold unstage
  split <;> rfl

theorem inv_disturb {s : State} (hs : s.inv = true) : (disturb s).inv = true := by
  refine inv_modeNext hs _ (disturb s).core.modeNext rfl ?_
  have e := inv_modeOk hs
  unfold disturb
  dsimp only
  split
  · simp only [modeOk, Bool.and_eq_true, Bool.or_eq_true] at e ⊢
    exact ⟨e.1.imp id fun k => ⟨k.1, rfl⟩, trivial⟩
  · exact e

theorem inv_laneFault {s : State} (hs : s.inv = true) (r : Rep) : (laneFault s r).inv = true := by
  have h := inv_disturb (inv_of_kept (kept_laneReport s r) hs)
  unfold laneFault
  dsimp only
  (repeat' split) <;> first
    | exact h
    | exact inv_of_kept (kept_modLanes _ _) (inv_unstage h true)
    | exact inv_unstage h false

theorem rest_laneFault (s : State) (r : Rep) : rest (laneFault s r) = rest s := by
  unfold laneFault
  dsimp only
  (repeat' split) <;> first
    | rfl
    | exact rest_unstage true _
    | exact rest_unstage false _

theorem inv_sliceResult {s : State} (hs : s.inv = true) (l : Side) (r : SliceResult) : (sliceResult s l r).inv = true := by
  have hf : (sliceFails s l).inv = true := inv_laneFault (inv_of_kept (kept_modLane s l _) hs) _
  unfold sliceResult
  split
  · exact hs
  · split
    · exact inv_of_kept (kept_modLane _ _ _) hs
    · exact hf
    · exact inv_of_kept (kept_lateNext _ _) hf
    · split
      · exact inv_of_kept (kept_lateNext _ _) (inv_laneFault hs _)
      · exact hf
    · exact hs

theorem rest_sliceResult (s : State) (l : Side) (r : SliceResult) : rest (sliceResult s l r) = rest s := by
  have hf : rest (sliceFails s l) = rest s := rest_laneFault _ _
  unfold sliceResult
  split
  · rfl
  · split
    · rfl
    · exact hf
    · exact hf
    · split
      · exact rest_laneFault _ _
      · exact hf
    · rfl

end Sys2Proof.Machine
end

