-- ==== Sys2Proof/Laws/Queue.lean ====
section
/-! SUPPORT. The hearth queue: what changing one entry's state does to the entries, and what a mailbox command does once it is
next to start and its gates pass. -/

namespace Sys2Proof.Machine

/-- What `startable` asks of an entry. -/
theorem startable_iff (s : State) (via : Via) (cmd : Byte) (e : QEntry) :
    startable s via cmd = some e ↔
      entryOf s via = some e ∧ hearthLive s = true ∧ e.cmd = cmd ∧ e.st = .waiting ∧
      (∀ x ∈ ahead via s.mbx.queue, x.st ≠ .waiting ∨ (isHeavy x.cmd = true ∧ heavyRunning s = true)) ∧
      (isHeavy cmd = true → heavyRunning s = false) := by
  unfold startable
  split
  · next h => simp [h]
  · next y h =>
    rw [h]
    by_cases c : (hearthLive s && y.cmd == cmd && y.st == .waiting &&
        ((ahead via s.mbx.queue).all fun x => x.st != .waiting || (isHeavy x.cmd && heavyRunning s)) &&
        !(isHeavy cmd && heavyRunning s)) = true
    · simp only [c, if_true]
      simp only [Bool.and_eq_true, beq_iff_eq, List.all_eq_true, Bool.or_eq_true, bne_iff_ne, Bool.not_eq_true',
        Bool.and_eq_false_iff] at c
      obtain ⟨⟨⟨⟨a1, a2⟩, a3⟩, a4⟩, a5⟩ := c
      constructor
      · intro he
        cases he
        refine ⟨rfl, a1, a2, a3, a4, fun hh => ?_⟩
        rcases a5 with a5 | a5
        · rw [hh] at a5; cases a5
        · exact a5
      · intro he
        exact he.1
    · simp only [c]
      constructor
      · intro he; simp at he
      · intro ⟨he, b1, b2, b3, b4, b5⟩
        exfalso
        cases he
        apply c
        simp only [Bool.and_eq_true, beq_iff_eq, List.all_eq_true, Bool.or_eq_true, bne_iff_ne, Bool.not_eq_true',
          Bool.and_eq_false_iff]
        refine ⟨⟨⟨⟨b1, b2⟩, b3⟩, b4⟩, ?_⟩
        cases hh : isHeavy cmd
        · exact .inl rfl
        · exact .inr (b5 hh)

/-- A command that is not the next to start changes nothing. -/
theorem runCmd_idle (cmd : Byte) (via : Via) (s : State) (body : QEntry → State) (h : startable s via cmd = none) :
    runCmd cmd via s body = .next s := by
  unfold runCmd; rw [h]

/-- A command that is next and passes its gates has its own effect. -/
theorem runCmd_next (cmd : Byte) (via : Via) (s : State) (body : QEntry → State) (e : QEntry)
    (h : startable s via cmd = some e) (hg : gate s e = none) : runCmd cmd via s body = .next (body e) := by
  unfold runCmd; rw [h]; simp only; rw [hg]

/-- A command that fails a gate ends with its status and changes nothing else. -/
theorem runCmd_denied (cmd : Byte) (via : Via) (s : State) (body : QEntry → State) (e : QEntry) (st : Byte) (d : Nat)
    (h : startable s via cmd = some e) (hg : gate s e = some (st, d)) :
    runCmd cmd via s body = .next (replyErr s via st d) := by
  unfold runCmd; rw [h]; simp only; rw [hg]

/-- The gates pass where lifecycle, mode, length and header are right. -/
theorem gate_none (s : State) (e : QEntry) (r : CmdRow) (hl : lifeGate s.nv.life e.cmd = true)
    (hm : modeGate s.core.mode e.cmd e.payload = true) (hr : cmdRow e.cmd = some r) (hn : badLength s e r = none)
    (hb : e.badField = none) : gate s e = none := by
  unfold gate
  simp only [hl, hm, hr, hb, hn, Bool.not_true]
  rw [if_neg (by simp), if_neg (by simp)]

/-- The length of a command whose table gives a range is right within it. -/
theorem badLength_none (s : State) (e : QEntry) (r : CmdRow) (hk : e.cmd ≠ 0x75#8) (h1 : r.lo ≤ e.payload.length)
    (h2 : e.payload.length ≤ r.hi) : badLength s e r = none := by
  unfold badLength
  dsimp only
  rw [if_neg (fun h => hk h.1), if_neg (by omega)]

/-! ## One entry's state -/

theorem find_modFirst (via : Via) (f : QEntry → QEntry) (hf : ∀ e, (f e).via = e.via) (l : List QEntry) :
    (modFirst (fun e => e.via == via) f l).find? (fun e => e.via == via) = (l.find? fun e => e.via == via).map f := by
  induction l with
  | nil => rfl
  | cons x r ih =>
    simp only [modFirst]
    by_cases h : (x.via == via) = true
    · simp [h, hf]
    · simp [h, ih]

theorem find_modFirst_other (via v : Via) (h : v ≠ via) (f : QEntry → QEntry) (hf : ∀ e, (f e).via = e.via)
    (l : List QEntry) :
    (modFirst (fun e => e.via == via) f l).find? (fun e => e.via == v) = l.find? fun e => e.via == v := by
  induction l with
  | nil => rfl
  | cons x r ih =>
    simp only [modFirst]
    by_cases hx : (x.via == via) = true
    · have : x.via = via := by simpa using hx
      have hne : ¬ (x.via == v) = true := by rw [this]; simpa using (Ne.symm h)
      simp [hx, hf, hne]
    · by_cases hv : (x.via == v) = true
      · simp [hx, hv]
      · simp [hx, hv, ih]

theorem length_modFirst {α : Type} (p : α → Bool) (f : α → α) (l : List α) : (modFirst p f l).length = l.length := by
  induction l with
  | nil => rfl
  | cons x r ih =>
    simp only [modFirst]
    split
    · rfl
    · simp [ih]

/-- The entry of the command itself takes its new state. -/
@[simp] theorem entryOf_setQ (s : State) (via : Via) (st : QState) :
    entryOf (setQ s via st) via = (entryOf s via).map fun e => { e with st := st } :=
  find_modFirst via (fun e => { e with st := st }) (fun _ => rfl) s.mbx.queue

/-- Every other entry stays. -/
theorem entryOf_setQ_other (s : State) (via v : Via) (st : QState) (h : v ≠ via) :
    entryOf (setQ s via st) v = entryOf s v :=
  find_modFirst_other via v h (fun e => { e with st := st }) (fun _ => rfl) s.mbx.queue

@[simp] theorem length_setQ (s : State) (via : Via) (st : QState) :
    (setQ s via st).mbx.queue.length = s.mbx.queue.length := length_modFirst _ _ s.mbx.queue

/-- Nothing but the queue changes. -/
theorem setQ_eq (s : State) (via : Via) (st : QState) :
    setQ s via st = { s with mbx := { s.mbx with queue := (setQ s via st).mbx.queue } } := rfl

end Sys2Proof.Machine
end

