-- ==== Sys2Proof/Laws/State.lean ====
section
/-! SUPPORT. One lemma for each field of `State` under each update that the meanings are written with, and for each field of a
crust and of a lane under the updates of its tables: all hold by rfl, so that no proof unfolds a record update. -/

namespace Sys2Proof.Machine

/-! `modCrust` -/

@[simp] theorem modCrust_pending (s : State) (c : Side) (f : CrustSt → CrustSt) : (modCrust s c f).pending = s.pending := rfl
@[simp] theorem modCrust_core (s : State) (c : Side) (f : CrustSt → CrustSt) : (modCrust s c f).core = s.core := rfl
@[simp] theorem modCrust_nv (s : State) (c : Side) (f : CrustSt → CrustSt) : (modCrust s c f).nv = s.nv := rfl
@[simp] theorem modCrust_crust (s : State) (c : Side) (f : CrustSt → CrustSt) :
    (modCrust s c f).crust = s.crust.set c (f (s.crust.at c)) := rfl
@[simp] theorem modCrust_lane (s : State) (c : Side) (f : CrustSt → CrustSt) : (modCrust s c f).lane = s.lane := rfl
@[simp] theorem modCrust_fab (s : State) (c : Side) (f : CrustSt → CrustSt) : (modCrust s c f).fab = s.fab := rfl
@[simp] theorem modCrust_host (s : State) (c : Side) (f : CrustSt → CrustSt) : (modCrust s c f).host = s.host := rfl
@[simp] theorem modCrust_mbx (s : State) (c : Side) (f : CrustSt → CrustSt) : (modCrust s c f).mbx = s.mbx := rfl
@[simp] theorem modCrust_can (s : State) (c : Side) (f : CrustSt → CrustSt) : (modCrust s c f).can = s.can := rfl
@[simp] theorem modCrust_ind (s : State) (c : Side) (f : CrustSt → CrustSt) : (modCrust s c f).ind = s.ind := rfl
@[simp] theorem modCrust_jrn (s : State) (c : Side) (f : CrustSt → CrustSt) : (modCrust s c f).jrn = s.jrn := rfl
@[simp] theorem modCrust_stat (s : State) (c : Side) (f : CrustSt → CrustSt) : (modCrust s c f).stat = s.stat := rfl
@[simp] theorem modCrust_act (s : State) (c : Side) (f : CrustSt → CrustSt) : (modCrust s c f).act = s.act := rfl
@[simp] theorem modCrust_meas (s : State) (c : Side) (f : CrustSt → CrustSt) : (modCrust s c f).meas = s.meas := rfl
@[simp] theorem modCrust_test (s : State) (c : Side) (f : CrustSt → CrustSt) : (modCrust s c f).test = s.test := rfl
@[simp] theorem modCrust_drawn (s : State) (c : Side) (f : CrustSt → CrustSt) : (modCrust s c f).drawn = s.drawn := rfl

/-! `modLane` -/

@[simp] theorem modLane_pending (s : State) (l : Side) (f : LaneSt → LaneSt) : (modLane s l f).pending = s.pending := rfl
@[simp] theorem modLane_core (s : State) (l : Side) (f : LaneSt → LaneSt) : (modLane s l f).core = s.core := rfl
@[simp] theorem modLane_nv (s : State) (l : Side) (f : LaneSt → LaneSt) : (modLane s l f).nv = s.nv := rfl
@[simp] theorem modLane_crust (s : State) (l : Side) (f : LaneSt → LaneSt) : (modLane s l f).crust = s.crust := rfl
@[simp] theorem modLane_lane (s : State) (l : Side) (f : LaneSt → LaneSt) :
    (modLane s l f).lane = s.lane.set l (f (s.lane.at l)) := rfl
@[simp] theorem modLane_fab (s : State) (l : Side) (f : LaneSt → LaneSt) : (modLane s l f).fab = s.fab := rfl
@[simp] theorem modLane_host (s : State) (l : Side) (f : LaneSt → LaneSt) : (modLane s l f).host = s.host := rfl
@[simp] theorem modLane_mbx (s : State) (l : Side) (f : LaneSt → LaneSt) : (modLane s l f).mbx = s.mbx := rfl
@[simp] theorem modLane_can (s : State) (l : Side) (f : LaneSt → LaneSt) : (modLane s l f).can = s.can := rfl
@[simp] theorem modLane_ind (s : State) (l : Side) (f : LaneSt → LaneSt) : (modLane s l f).ind = s.ind := rfl
@[simp] theorem modLane_jrn (s : State) (l : Side) (f : LaneSt → LaneSt) : (modLane s l f).jrn = s.jrn := rfl
@[simp] theorem modLane_stat (s : State) (l : Side) (f : LaneSt → LaneSt) : (modLane s l f).stat = s.stat := rfl
@[simp] theorem modLane_act (s : State) (l : Side) (f : LaneSt → LaneSt) : (modLane s l f).act = s.act := rfl
@[simp] theorem modLane_meas (s : State) (l : Side) (f : LaneSt → LaneSt) : (modLane s l f).meas = s.meas := rfl
@[simp] theorem modLane_test (s : State) (l : Side) (f : LaneSt → LaneSt) : (modLane s l f).test = s.test := rfl
@[simp] theorem modLane_drawn (s : State) (l : Side) (f : LaneSt → LaneSt) : (modLane s l f).drawn = s.drawn := rfl

/-! `modLanes` -/

@[simp] theorem modLanes_pending (s : State) (f : LaneSt → LaneSt) : (modLanes s f).pending = s.pending := rfl
@[simp] theorem modLanes_core (s : State) (f : LaneSt → LaneSt) : (modLanes s f).core = s.core := rfl
@[simp] theorem modLanes_nv (s : State) (f : LaneSt → LaneSt) : (modLanes s f).nv = s.nv := rfl
@[simp] theorem modLanes_crust (s : State) (f : LaneSt → LaneSt) : (modLanes s f).crust = s.crust := rfl
@[simp] theorem modLanes_lane (s : State) (f : LaneSt → LaneSt) : (modLanes s f).lane = s.lane.map f := rfl
@[simp] theorem modLanes_fab (s : State) (f : LaneSt → LaneSt) : (modLanes s f).fab = s.fab := rfl
@[simp] theorem modLanes_host (s : State) (f : LaneSt → LaneSt) : (modLanes s f).host = s.host := rfl
@[simp] theorem modLanes_mbx (s : State) (f : LaneSt → LaneSt) : (modLanes s f).mbx = s.mbx := rfl
@[simp] theorem modLanes_can (s : State) (f : LaneSt → LaneSt) : (modLanes s f).can = s.can := rfl
@[simp] theorem modLanes_ind (s : State) (f : LaneSt → LaneSt) : (modLanes s f).ind = s.ind := rfl
@[simp] theorem modLanes_jrn (s : State) (f : LaneSt → LaneSt) : (modLanes s f).jrn = s.jrn := rfl
@[simp] theorem modLanes_stat (s : State) (f : LaneSt → LaneSt) : (modLanes s f).stat = s.stat := rfl
@[simp] theorem modLanes_act (s : State) (f : LaneSt → LaneSt) : (modLanes s f).act = s.act := rfl
@[simp] theorem modLanes_meas (s : State) (f : LaneSt → LaneSt) : (modLanes s f).meas = s.meas := rfl
@[simp] theorem modLanes_test (s : State) (f : LaneSt → LaneSt) : (modLanes s f).test = s.test := rfl
@[simp] theorem modLanes_drawn (s : State) (f : LaneSt → LaneSt) : (modLanes s f).drawn = s.drawn := rfl

/-! `modPort` -/

@[simp] theorem modPort_pending (s : State) (p : PortId) (f : PortSt → PortSt) : (modPort s p f).pending = s.pending := rfl
@[simp] theorem modPort_core (s : State) (p : PortId) (f : PortSt → PortSt) : (modPort s p f).core = s.core := rfl
@[simp] theorem modPort_nv (s : State) (p : PortId) (f : PortSt → PortSt) : (modPort s p f).nv = s.nv := rfl
@[simp] theorem modPort_crust (s : State) (p : PortId) (f : PortSt → PortSt) : (modPort s p f).crust = s.crust := rfl
@[simp] theorem modPort_lane (s : State) (p : PortId) (f : PortSt → PortSt) : (modPort s p f).lane = s.lane := rfl
@[simp] theorem modPort_fab (s : State) (p : PortId) (f : PortSt → PortSt) :
    (modPort s p f).fab = { s.fab with ports := s.fab.ports.set p.side (f (portOf s p)) } := rfl
@[simp] theorem modPort_host (s : State) (p : PortId) (f : PortSt → PortSt) : (modPort s p f).host = s.host := rfl
@[simp] theorem modPort_mbx (s : State) (p : PortId) (f : PortSt → PortSt) : (modPort s p f).mbx = s.mbx := rfl
@[simp] theorem modPort_can (s : State) (p : PortId) (f : PortSt → PortSt) : (modPort s p f).can = s.can := rfl
@[simp] theorem modPort_ind (s : State) (p : PortId) (f : PortSt → PortSt) : (modPort s p f).ind = s.ind := rfl
@[simp] theorem modPort_jrn (s : State) (p : PortId) (f : PortSt → PortSt) : (modPort s p f).jrn = s.jrn := rfl
@[simp] theorem modPort_stat (s : State) (p : PortId) (f : PortSt → PortSt) : (modPort s p f).stat = s.stat := rfl
@[simp] theorem modPort_act (s : State) (p : PortId) (f : PortSt → PortSt) : (modPort s p f).act = s.act := rfl
@[simp] theorem modPort_meas (s : State) (p : PortId) (f : PortSt → PortSt) : (modPort s p f).meas = s.meas := rfl
@[simp] theorem modPort_test (s : State) (p : PortId) (f : PortSt → PortSt) : (modPort s p f).test = s.test := rfl
@[simp] theorem modPort_drawn (s : State) (p : PortId) (f : PortSt → PortSt) : (modPort s p f).drawn = s.drawn := rfl

/-! `modNv` -/

@[simp] theorem modNv_pending (s : State) (f : NvSt → NvSt) : (modNv s f).pending = s.pending := rfl
@[simp] theorem modNv_core (s : State) (f : NvSt → NvSt) : (modNv s f).core = s.core := rfl
@[simp] theorem modNv_nv (s : State) (f : NvSt → NvSt) : (modNv s f).nv = f s.nv := rfl
@[simp] theorem modNv_crust (s : State) (f : NvSt → NvSt) : (modNv s f).crust = s.crust := rfl
@[simp] theorem modNv_lane (s : State) (f : NvSt → NvSt) : (modNv s f).lane = s.lane := rfl
@[simp] theorem modNv_fab (s : State) (f : NvSt → NvSt) : (modNv s f).fab = s.fab := rfl
@[simp] theorem modNv_host (s : State) (f : NvSt → NvSt) : (modNv s f).host = s.host := rfl
@[simp] theorem modNv_mbx (s : State) (f : NvSt → NvSt) : (modNv s f).mbx = s.mbx := rfl
@[simp] theorem modNv_can (s : State) (f : NvSt → NvSt) : (modNv s f).can = s.can := rfl
@[simp] theorem modNv_ind (s : State) (f : NvSt → NvSt) : (modNv s f).ind = s.ind := rfl
@[simp] theorem modNv_jrn (s : State) (f : NvSt → NvSt) : (modNv s f).jrn = s.jrn := rfl
@[simp] theorem modNv_stat (s : State) (f : NvSt → NvSt) : (modNv s f).stat = s.stat := rfl
@[simp] theorem modNv_act (s : State) (f : NvSt → NvSt) : (modNv s f).act = s.act := rfl
@[simp] theorem modNv_meas (s : State) (f : NvSt → NvSt) : (modNv s f).meas = s.meas := rfl
@[simp] theorem modNv_test (s : State) (f : NvSt → NvSt) : (modNv s f).test = s.test := rfl
@[simp] theorem modNv_drawn (s : State) (f : NvSt → NvSt) : (modNv s f).drawn = s.drawn := rfl

/-! `modJrn` -/

@[simp] theorem modJrn_pending (s : State) (f : JrnSt → JrnSt) : (modJrn s f).pending = s.pending := rfl
@[simp] theorem modJrn_core (s : State) (f : JrnSt → JrnSt) : (modJrn s f).core = s.core := rfl
@[simp] theorem modJrn_nv (s : State) (f : JrnSt → JrnSt) : (modJrn s f).nv = s.nv := rfl
@[simp] theorem modJrn_crust (s : State) (f : JrnSt → JrnSt) : (modJrn s f).crust = s.crust := rfl
@[simp] theorem modJrn_lane (s : State) (f : JrnSt → JrnSt) : (modJrn s f).lane = s.lane := rfl
@[simp] theorem modJrn_fab (s : State) (f : JrnSt → JrnSt) : (modJrn s f).fab = s.fab := rfl
@[simp] theorem modJrn_host (s : State) (f : JrnSt → JrnSt) : (modJrn s f).host = s.host := rfl
@[simp] theorem modJrn_mbx (s : State) (f : JrnSt → JrnSt) : (modJrn s f).mbx = s.mbx := rfl
@[simp] theorem modJrn_can (s : State) (f : JrnSt → JrnSt) : (modJrn s f).can = s.can := rfl
@[simp] theorem modJrn_ind (s : State) (f : JrnSt → JrnSt) : (modJrn s f).ind = s.ind := rfl
@[simp] theorem modJrn_jrn (s : State) (f : JrnSt → JrnSt) : (modJrn s f).jrn = f s.jrn := rfl
@[simp] theorem modJrn_stat (s : State) (f : JrnSt → JrnSt) : (modJrn s f).stat = s.stat := rfl
@[simp] theorem modJrn_act (s : State) (f : JrnSt → JrnSt) : (modJrn s f).act = s.act := rfl
@[simp] theorem modJrn_meas (s : State) (f : JrnSt → JrnSt) : (modJrn s f).meas = s.meas := rfl
@[simp] theorem modJrn_test (s : State) (f : JrnSt → JrnSt) : (modJrn s f).test = s.test := rfl
@[simp] theorem modJrn_drawn (s : State) (f : JrnSt → JrnSt) : (modJrn s f).drawn = s.drawn := rfl

/-! `modMbx` -/

@[simp] theorem modMbx_pending (s : State) (f : MbxSt → MbxSt) : (modMbx s f).pending = s.pending := rfl
@[simp] theorem modMbx_core (s : State) (f : MbxSt → MbxSt) : (modMbx s f).core = s.core := rfl
@[simp] theorem modMbx_nv (s : State) (f : MbxSt → MbxSt) : (modMbx s f).nv = s.nv := rfl
@[simp] theorem modMbx_crust (s : State) (f : MbxSt → MbxSt) : (modMbx s f).crust = s.crust := rfl
@[simp] theorem modMbx_lane (s : State) (f : MbxSt → MbxSt) : (modMbx s f).lane = s.lane := rfl
@[simp] theorem modMbx_fab (s : State) (f : MbxSt → MbxSt) : (modMbx s f).fab = s.fab := rfl
@[simp] theorem modMbx_host (s : State) (f : MbxSt → MbxSt) : (modMbx s f).host = s.host := rfl
@[simp] theorem modMbx_mbx (s : State) (f : MbxSt → MbxSt) : (modMbx s f).mbx = f s.mbx := rfl
@[simp] theorem modMbx_can (s : State) (f : MbxSt → MbxSt) : (modMbx s f).can = s.can := rfl
@[simp] theorem modMbx_ind (s : State) (f : MbxSt → MbxSt) : (modMbx s f).ind = s.ind := rfl
@[simp] theorem modMbx_jrn (s : State) (f : MbxSt → MbxSt) : (modMbx s f).jrn = s.jrn := rfl
@[simp] theorem modMbx_stat (s : State) (f : MbxSt → MbxSt) : (modMbx s f).stat = s.stat := rfl
@[simp] theorem modMbx_act (s : State) (f : MbxSt → MbxSt) : (modMbx s f).act = s.act := rfl
@[simp] theorem modMbx_meas (s : State) (f : MbxSt → MbxSt) : (modMbx s f).meas = s.meas := rfl
@[simp] theorem modMbx_test (s : State) (f : MbxSt → MbxSt) : (modMbx s f).test = s.test := rfl
@[simp] theorem modMbx_drawn (s : State) (f : MbxSt → MbxSt) : (modMbx s f).drawn = s.drawn := rfl

/-! `modAct` -/

@[simp] theorem modAct_pending (s : State) (f : ActSt → ActSt) : (modAct s f).pending = s.pending := rfl
@[simp] theorem modAct_core (s : State) (f : ActSt → ActSt) : (modAct s f).core = s.core := rfl
@[simp] theorem modAct_nv (s : State) (f : ActSt → ActSt) : (modAct s f).nv = s.nv := rfl
@[simp] theorem modAct_crust (s : State) (f : ActSt → ActSt) : (modAct s f).crust = s.crust := rfl
@[simp] theorem modAct_lane (s : State) (f : ActSt → ActSt) : (modAct s f).lane = s.lane := rfl
@[simp] theorem modAct_fab (s : State) (f : ActSt → ActSt) : (modAct s f).fab = s.fab := rfl
@[simp] theorem modAct_host (s : State) (f : ActSt → ActSt) : (modAct s f).host = s.host := rfl
@[simp] theorem modAct_mbx (s : State) (f : ActSt → ActSt) : (modAct s f).mbx = s.mbx := rfl
@[simp] theorem modAct_can (s : State) (f : ActSt → ActSt) : (modAct s f).can = s.can := rfl
@[simp] theorem modAct_ind (s : State) (f : ActSt → ActSt) : (modAct s f).ind = s.ind := rfl
@[simp] theorem modAct_jrn (s : State) (f : ActSt → ActSt) : (modAct s f).jrn = s.jrn := rfl
@[simp] theorem modAct_stat (s : State) (f : ActSt → ActSt) : (modAct s f).stat = s.stat := rfl
@[simp] theorem modAct_act (s : State) (f : ActSt → ActSt) : (modAct s f).act = f s.act := rfl
@[simp] theorem modAct_meas (s : State) (f : ActSt → ActSt) : (modAct s f).meas = s.meas := rfl
@[simp] theorem modAct_test (s : State) (f : ActSt → ActSt) : (modAct s f).test = s.test := rfl
@[simp] theorem modAct_drawn (s : State) (f : ActSt → ActSt) : (modAct s f).drawn = s.drawn := rfl

/-! `modLive` -/

@[simp] theorem modLive_pending (s : State) (f : Counts → Counts) : (modLive s f).pending = s.pending := rfl
@[simp] theorem modLive_core (s : State) (f : Counts → Counts) : (modLive s f).core = s.core := rfl
@[simp] theorem modLive_nv (s : State) (f : Counts → Counts) : (modLive s f).nv = s.nv := rfl
@[simp] theorem modLive_crust (s : State) (f : Counts → Counts) : (modLive s f).crust = s.crust := rfl
@[simp] theorem modLive_lane (s : State) (f : Counts → Counts) : (modLive s f).lane = s.lane := rfl
@[simp] theorem modLive_fab (s : State) (f : Counts → Counts) : (modLive s f).fab = s.fab := rfl
@[simp] theorem modLive_host (s : State) (f : Counts → Counts) : (modLive s f).host = s.host := rfl
@[simp] theorem modLive_mbx (s : State) (f : Counts → Counts) : (modLive s f).mbx = s.mbx := rfl
@[simp] theorem modLive_can (s : State) (f : Counts → Counts) : (modLive s f).can = s.can := rfl
@[simp] theorem modLive_ind (s : State) (f : Counts → Counts) : (modLive s f).ind = s.ind := rfl
@[simp] theorem modLive_jrn (s : State) (f : Counts → Counts) : (modLive s f).jrn = s.jrn := rfl
@[simp] theorem modLive_stat (s : State) (f : Counts → Counts) :
    (modLive s f).stat = { s.stat with live := f s.stat.live } := rfl
@[simp] theorem modLive_act (s : State) (f : Counts → Counts) : (modLive s f).act = s.act := rfl
@[simp] theorem modLive_meas (s : State) (f : Counts → Counts) : (modLive s f).meas = s.meas := rfl
@[simp] theorem modLive_test (s : State) (f : Counts → Counts) : (modLive s f).test = s.test := rfl
@[simp] theorem modLive_drawn (s : State) (f : Counts → Counts) : (modLive s f).drawn = s.drawn := rfl

/-! `modEpoch` -/

@[simp] theorem modEpoch_pending (s : State) (f : Epoch → Epoch) : (modEpoch s f).pending = s.pending := rfl
@[simp] theorem modEpoch_core (s : State) (f : Epoch → Epoch) : (modEpoch s f).core = s.core := rfl
@[simp] theorem modEpoch_nv (s : State) (f : Epoch → Epoch) : (modEpoch s f).nv = s.nv := rfl
@[simp] theorem modEpoch_crust (s : State) (f : Epoch → Epoch) : (modEpoch s f).crust = s.crust := rfl
@[simp] theorem modEpoch_lane (s : State) (f : Epoch → Epoch) : (modEpoch s f).lane = s.lane := rfl
@[simp] theorem modEpoch_fab (s : State) (f : Epoch → Epoch) : (modEpoch s f).fab = s.fab := rfl
@[simp] theorem modEpoch_host (s : State) (f : Epoch → Epoch) : (modEpoch s f).host = s.host := rfl
@[simp] theorem modEpoch_mbx (s : State) (f : Epoch → Epoch) : (modEpoch s f).mbx = s.mbx := rfl
@[simp] theorem modEpoch_can (s : State) (f : Epoch → Epoch) : (modEpoch s f).can = s.can := rfl
@[simp] theorem modEpoch_ind (s : State) (f : Epoch → Epoch) : (modEpoch s f).ind = s.ind := rfl
@[simp] theorem modEpoch_jrn (s : State) (f : Epoch → Epoch) : (modEpoch s f).jrn = s.jrn := rfl
@[simp] theorem modEpoch_stat (s : State) (f : Epoch → Epoch) :
    (modEpoch s f).stat = { s.stat with epoch := f s.stat.epoch } := rfl
@[simp] theorem modEpoch_act (s : State) (f : Epoch → Epoch) : (modEpoch s f).act = s.act := rfl
@[simp] theorem modEpoch_meas (s : State) (f : Epoch → Epoch) : (modEpoch s f).meas = s.meas := rfl
@[simp] theorem modEpoch_test (s : State) (f : Epoch → Epoch) : (modEpoch s f).test = s.test := rfl
@[simp] theorem modEpoch_drawn (s : State) (f : Epoch → Epoch) : (modEpoch s f).drawn = s.drawn := rfl

/-! `setOff` -/

@[simp] theorem setOff_pending (s : State) (t : BitVec 20) : (setOff s t).pending = s.pending := rfl
@[simp] theorem setOff_core (s : State) (t : BitVec 20) : (setOff s t).core = { s.core with off := t } := rfl
@[simp] theorem setOff_nv (s : State) (t : BitVec 20) : (setOff s t).nv = s.nv := rfl
@[simp] theorem setOff_crust (s : State) (t : BitVec 20) : (setOff s t).crust = s.crust := rfl
@[simp] theorem setOff_lane (s : State) (t : BitVec 20) : (setOff s t).lane = s.lane := rfl
@[simp] theorem setOff_fab (s : State) (t : BitVec 20) : (setOff s t).fab = s.fab := rfl
@[simp] theorem setOff_host (s : State) (t : BitVec 20) : (setOff s t).host = s.host := rfl
@[simp] theorem setOff_mbx (s : State) (t : BitVec 20) : (setOff s t).mbx = s.mbx := rfl
@[simp] theorem setOff_can (s : State) (t : BitVec 20) : (setOff s t).can = s.can := rfl
@[simp] theorem setOff_ind (s : State) (t : BitVec 20) : (setOff s t).ind = s.ind := rfl
@[simp] theorem setOff_jrn (s : State) (t : BitVec 20) : (setOff s t).jrn = s.jrn := rfl
@[simp] theorem setOff_stat (s : State) (t : BitVec 20) : (setOff s t).stat = s.stat := rfl
@[simp] theorem setOff_act (s : State) (t : BitVec 20) : (setOff s t).act = s.act := rfl
@[simp] theorem setOff_meas (s : State) (t : BitVec 20) : (setOff s t).meas = s.meas := rfl
@[simp] theorem setOff_test (s : State) (t : BitVec 20) : (setOff s t).test = s.test := rfl
@[simp] theorem setOff_drawn (s : State) (t : BitVec 20) : (setOff s t).drawn = s.drawn := rfl

/-! `foundReport` -/

@[simp] theorem foundReport_pending (s : State) (r : Rep) : (foundReport s r).pending = s.pending := rfl
@[simp] theorem foundReport_core (s : State) (r : Rep) :
    (foundReport s r).core = { s.core with found := s.core.found ++ [r] } := rfl
@[simp] theorem foundReport_nv (s : State) (r : Rep) : (foundReport s r).nv = s.nv := rfl
@[simp] theorem foundReport_crust (s : State) (r : Rep) : (foundReport s r).crust = s.crust := rfl
@[simp] theorem foundReport_lane (s : State) (r : Rep) : (foundReport s r).lane = s.lane := rfl
@[simp] theorem foundReport_fab (s : State) (r : Rep) : (foundReport s r).fab = s.fab := rfl
@[simp] theorem foundReport_host (s : State) (r : Rep) : (foundReport s r).host = s.host := rfl
@[simp] theorem foundReport_mbx (s : State) (r : Rep) : (foundReport s r).mbx = s.mbx := rfl
@[simp] theorem foundReport_can (s : State) (r : Rep) : (foundReport s r).can = s.can := rfl
@[simp] theorem foundReport_ind (s : State) (r : Rep) : (foundReport s r).ind = s.ind := rfl
@[simp] theorem foundReport_jrn (s : State) (r : Rep) : (foundReport s r).jrn = s.jrn := rfl
@[simp] theorem foundReport_stat (s : State) (r : Rep) : (foundReport s r).stat = s.stat := rfl
@[simp] theorem foundReport_act (s : State) (r : Rep) : (foundReport s r).act = s.act := rfl
@[simp] theorem foundReport_meas (s : State) (r : Rep) : (foundReport s r).meas = s.meas := rfl
@[simp] theorem foundReport_test (s : State) (r : Rep) : (foundReport s r).test = s.test := rfl
@[simp] theorem foundReport_drawn (s : State) (r : Rep) : (foundReport s r).drawn = s.drawn := rfl

/-! `laneReport` -/

@[simp] theorem laneReport_pending (s : State) (r : Rep) : (laneReport s r).pending = s.pending := rfl
@[simp] theorem laneReport_core (s : State) (r : Rep) : (laneReport s r).core = s.core := rfl
@[simp] theorem laneReport_nv (s : State) (r : Rep) : (laneReport s r).nv = s.nv := rfl
@[simp] theorem laneReport_crust (s : State) (r : Rep) : (laneReport s r).crust = s.crust := rfl
@[simp] theorem laneReport_lane (s : State) (r : Rep) :
    (laneReport s r).lane = s.lane.map fun l => { l with reps := l.reps ++ [r] } := rfl
@[simp] theorem laneReport_fab (s : State) (r : Rep) : (laneReport s r).fab = s.fab := rfl
@[simp] theorem laneReport_host (s : State) (r : Rep) : (laneReport s r).host = s.host := rfl
@[simp] theorem laneReport_mbx (s : State) (r : Rep) : (laneReport s r).mbx = s.mbx := rfl
@[simp] theorem laneReport_can (s : State) (r : Rep) : (laneReport s r).can = s.can := rfl
@[simp] theorem laneReport_ind (s : State) (r : Rep) : (laneReport s r).ind = s.ind := rfl
@[simp] theorem laneReport_jrn (s : State) (r : Rep) : (laneReport s r).jrn = s.jrn := rfl
@[simp] theorem laneReport_stat (s : State) (r : Rep) : (laneReport s r).stat = s.stat := rfl
@[simp] theorem laneReport_act (s : State) (r : Rep) : (laneReport s r).act = s.act := rfl
@[simp] theorem laneReport_meas (s : State) (r : Rep) : (laneReport s r).meas = s.meas := rfl
@[simp] theorem laneReport_test (s : State) (r : Rep) : (laneReport s r).test = s.test := rfl
@[simp] theorem laneReport_drawn (s : State) (r : Rep) : (laneReport s r).drawn = s.drawn := rfl

/-! `modStreams` -/

@[simp] theorem modStreams_pending (s : State) (f : List Stream → List Stream) : (modStreams s f).pending = s.pending := rfl
@[simp] theorem modStreams_core (s : State) (f : List Stream → List Stream) : (modStreams s f).core = s.core := rfl
@[simp] theorem modStreams_nv (s : State) (f : List Stream → List Stream) : (modStreams s f).nv = s.nv := rfl
@[simp] theorem modStreams_crust (s : State) (f : List Stream → List Stream) : (modStreams s f).crust = s.crust := rfl
@[simp] theorem modStreams_lane (s : State) (f : List Stream → List Stream) : (modStreams s f).lane = s.lane := rfl
@[simp] theorem modStreams_fab (s : State) (f : List Stream → List Stream) :
    (modStreams s f).fab = { s.fab with streams := f s.fab.streams } := rfl
@[simp] theorem modStreams_host (s : State) (f : List Stream → List Stream) : (modStreams s f).host = s.host := rfl
@[simp] theorem modStreams_mbx (s : State) (f : List Stream → List Stream) : (modStreams s f).mbx = s.mbx := rfl
@[simp] theorem modStreams_can (s : State) (f : List Stream → List Stream) : (modStreams s f).can = s.can := rfl
@[simp] theorem modStreams_ind (s : State) (f : List Stream → List Stream) : (modStreams s f).ind = s.ind := rfl
@[simp] theorem modStreams_jrn (s : State) (f : List Stream → List Stream) : (modStreams s f).jrn = s.jrn := rfl
@[simp] theorem modStreams_stat (s : State) (f : List Stream → List Stream) : (modStreams s f).stat = s.stat := rfl
@[simp] theorem modStreams_act (s : State) (f : List Stream → List Stream) : (modStreams s f).act = s.act := rfl
@[simp] theorem modStreams_meas (s : State) (f : List Stream → List Stream) : (modStreams s f).meas = s.meas := rfl
@[simp] theorem modStreams_test (s : State) (f : List Stream → List Stream) : (modStreams s f).test = s.test := rfl
@[simp] theorem modStreams_drawn (s : State) (f : List Stream → List Stream) : (modStreams s f).drawn = s.drawn := rfl

/-! Updates within a crust -/

@[simp] theorem modIn_logicPower (x : CrustSt) (n : Nat) (f : InSt → InSt) : (modIn x n f).logicPower = x.logicPower := rfl
@[simp] theorem modIn_handshake (x : CrustSt) (n : Nat) (f : InSt → InSt) : (modIn x n f).handshake = x.handshake := rfl
@[simp] theorem modIn_undervolt (x : CrustSt) (n : Nat) (f : InSt → InSt) : (modIn x n f).undervolt = x.undervolt := rfl
@[simp] theorem modIn_lockout (x : CrustSt) (n : Nat) (f : InSt → InSt) : (modIn x n f).lockout = x.lockout := rfl
@[simp] theorem modIn_overvolt (x : CrustSt) (n : Nat) (f : InSt → InSt) : (modIn x n f).overvolt = x.overvolt := rfl
@[simp] theorem modIn_supplyEvent (x : CrustSt) (n : Nat) (f : InSt → InSt) : (modIn x n f).supplyEvent = x.supplyEvent := rfl
@[simp] theorem modIn_uvSince (x : CrustSt) (n : Nat) (f : InSt → InSt) : (modIn x n f).uvSince = x.uvSince := rfl
@[simp] theorem modIn_lockoutSince (x : CrustSt) (n : Nat) (f : InSt → InSt) :
    (modIn x n f).lockoutSince = x.lockoutSince := rfl
@[simp] theorem modIn_overvoltSince (x : CrustSt) (n : Nat) (f : InSt → InSt) :
    (modIn x n f).overvoltSince = x.overvoltSince := rfl
@[simp] theorem modIn_lostOut (x : CrustSt) (n : Nat) (f : InSt → InSt) : (modIn x n f).lostOut = x.lostOut := rfl
@[simp] theorem modIn_sinceFrame (x : CrustSt) (n : Nat) (f : InSt → InSt) : (modIn x n f).sinceFrame = x.sinceFrame := rfl
@[simp] theorem modIn_silent (x : CrustSt) (n : Nat) (f : InSt → InSt) : (modIn x n f).silent = x.silent := rfl
@[simp] theorem modIn_resync (x : CrustSt) (n : Nat) (f : InSt → InSt) : (modIn x n f).resync = x.resync := rfl
@[simp] theorem modIn_snapLost (x : CrustSt) (n : Nat) (f : InSt → InSt) : (modIn x n f).snapLost = x.snapLost := rfl
@[simp] theorem modIn_staged (x : CrustSt) (n : Nat) (f : InSt → InSt) : (modIn x n f).staged = x.staged := rfl
@[simp] theorem modIn_ins (x : CrustSt) (n : Nat) (f : InSt → InSt) : (modIn x n f).ins = tabMod InSt.init x.ins n f := rfl
@[simp] theorem modIn_quads (x : CrustSt) (n : Nat) (f : InSt → InSt) : (modIn x n f).quads = x.quads := rfl
@[simp] theorem modIn_srcs (x : CrustSt) (n : Nat) (f : InSt → InSt) : (modIn x n f).srcs = x.srcs := rfl
@[simp] theorem modIn_ana (x : CrustSt) (n : Nat) (f : InSt → InSt) : (modIn x n f).ana = x.ana := rfl
@[simp] theorem modIn_sinceReference (x : CrustSt) (n : Nat) (f : InSt → InSt) :
    (modIn x n f).sinceReference = x.sinceReference := rfl
@[simp] theorem modIn_legs (x : CrustSt) (n : Nat) (f : InSt → InSt) : (modIn x n f).legs = x.legs := rfl
@[simp] theorem modIn_drives (x : CrustSt) (n : Nat) (f : InSt → InSt) : (modIn x n f).drives = x.drives := rfl
@[simp] theorem modIn_landHot (x : CrustSt) (n : Nat) (f : InSt → InSt) : (modIn x n f).landHot = x.landHot := rfl
@[simp] theorem modIn_drawn (x : CrustSt) (n : Nat) (f : InSt → InSt) : (modIn x n f).drawn = x.drawn := rfl
@[simp] theorem modIn_carries (x : CrustSt) (n : Nat) (f : InSt → InSt) : (modIn x n f).carries = x.carries := rfl
@[simp] theorem modIn_probePass (x : CrustSt) (n : Nat) (f : InSt → InSt) : (modIn x n f).probePass = x.probePass := rfl
@[simp] theorem modIn_stuck (x : CrustSt) (n : Nat) (f : InSt → InSt) : (modIn x n f).stuck = x.stuck := rfl
@[simp] theorem modIn_snap (x : CrustSt) (n : Nat) (f : InSt → InSt) : (modIn x n f).snap = x.snap := rfl

@[simp] theorem modQuad_logicPower (x : CrustSt) (n : Nat) (f : QuadSt → QuadSt) :
    (modQuad x n f).logicPower = x.logicPower := rfl
@[simp] theorem modQuad_handshake (x : CrustSt) (n : Nat) (f : QuadSt → QuadSt) : (modQuad x n f).handshake = x.handshake := rfl
@[simp] theorem modQuad_undervolt (x : CrustSt) (n : Nat) (f : QuadSt → QuadSt) : (modQuad x n f).undervolt = x.undervolt := rfl
@[simp] theorem modQuad_lockout (x : CrustSt) (n : Nat) (f : QuadSt → QuadSt) : (modQuad x n f).lockout = x.lockout := rfl
@[simp] theorem modQuad_overvolt (x : CrustSt) (n : Nat) (f : QuadSt → QuadSt) : (modQuad x n f).overvolt = x.overvolt := rfl
@[simp] theorem modQuad_supplyEvent (x : CrustSt) (n : Nat) (f : QuadSt → QuadSt) :
    (modQuad x n f).supplyEvent = x.supplyEvent := rfl
@[simp] theorem modQuad_uvSince (x : CrustSt) (n : Nat) (f : QuadSt → QuadSt) : (modQuad x n f).uvSince = x.uvSince := rfl
@[simp] theorem modQuad_lockoutSince (x : CrustSt) (n : Nat) (f : QuadSt → QuadSt) :
    (modQuad x n f).lockoutSince = x.lockoutSince := rfl
@[simp] theorem modQuad_overvoltSince (x : CrustSt) (n : Nat) (f : QuadSt → QuadSt) :
    (modQuad x n f).overvoltSince = x.overvoltSince := rfl
@[simp] theorem modQuad_lostOut (x : CrustSt) (n : Nat) (f : QuadSt → QuadSt) : (modQuad x n f).lostOut = x.lostOut := rfl
@[simp] theorem modQuad_sinceFrame (x : CrustSt) (n : Nat) (f : QuadSt → QuadSt) :
    (modQuad x n f).sinceFrame = x.sinceFrame := rfl
@[simp] theorem modQuad_silent (x : CrustSt) (n : Nat) (f : QuadSt → QuadSt) : (modQuad x n f).silent = x.silent := rfl
@[simp] theorem modQuad_resync (x : CrustSt) (n : Nat) (f : QuadSt → QuadSt) : (modQuad x n f).resync = x.resync := rfl
@[simp] theorem modQuad_snapLost (x : CrustSt) (n : Nat) (f : QuadSt → QuadSt) : (modQuad x n f).snapLost = x.snapLost := rfl
@[simp] theorem modQuad_staged (x : CrustSt) (n : Nat) (f : QuadSt → QuadSt) : (modQuad x n f).staged = x.staged := rfl
@[simp] theorem modQuad_ins (x : CrustSt) (n : Nat) (f : QuadSt → QuadSt) : (modQuad x n f).ins = x.ins := rfl
@[simp] theorem modQuad_quads (x : CrustSt) (n : Nat) (f : QuadSt → QuadSt) :
    (modQuad x n f).quads = tabMod QuadSt.init x.quads n f := rfl
@[simp] theorem modQuad_srcs (x : CrustSt) (n : Nat) (f : QuadSt → QuadSt) : (modQuad x n f).srcs = x.srcs := rfl
@[simp] theorem modQuad_ana (x : CrustSt) (n : Nat) (f : QuadSt → QuadSt) : (modQuad x n f).ana = x.ana := rfl
@[simp] theorem modQuad_sinceReference (x : CrustSt) (n : Nat) (f : QuadSt → QuadSt) :
    (modQuad x n f).sinceReference = x.sinceReference := rfl
@[simp] theorem modQuad_legs (x : CrustSt) (n : Nat) (f : QuadSt → QuadSt) : (modQuad x n f).legs = x.legs := rfl
@[simp] theorem modQuad_drives (x : CrustSt) (n : Nat) (f : QuadSt → QuadSt) : (modQuad x n f).drives = x.drives := rfl
@[simp] theorem modQuad_landHot (x : CrustSt) (n : Nat) (f : QuadSt → QuadSt) : (modQuad x n f).landHot = x.landHot := rfl
@[simp] theorem modQuad_drawn (x : CrustSt) (n : Nat) (f : QuadSt → QuadSt) : (modQuad x n f).drawn = x.drawn := rfl
@[simp] theorem modQuad_carries (x : CrustSt) (n : Nat) (f : QuadSt → QuadSt) : (modQuad x n f).carries = x.carries := rfl
@[simp] theorem modQuad_probePass (x : CrustSt) (n : Nat) (f : QuadSt → QuadSt) : (modQuad x n f).probePass = x.probePass := rfl
@[simp] theorem modQuad_stuck (x : CrustSt) (n : Nat) (f : QuadSt → QuadSt) : (modQuad x n f).stuck = x.stuck := rfl
@[simp] theorem modQuad_snap (x : CrustSt) (n : Nat) (f : QuadSt → QuadSt) : (modQuad x n f).snap = x.snap := rfl

@[simp] theorem modSrc_logicPower (x : CrustSt) (n : Nat) (f : SrcSt → SrcSt) : (modSrc x n f).logicPower = x.logicPower := rfl
@[simp] theorem modSrc_handshake (x : CrustSt) (n : Nat) (f : SrcSt → SrcSt) : (modSrc x n f).handshake = x.handshake := rfl
@[simp] theorem modSrc_undervolt (x : CrustSt) (n : Nat) (f : SrcSt → SrcSt) : (modSrc x n f).undervolt = x.undervolt := rfl
@[simp] theorem modSrc_lockout (x : CrustSt) (n : Nat) (f : SrcSt → SrcSt) : (modSrc x n f).lockout = x.lockout := rfl
@[simp] theorem modSrc_overvolt (x : CrustSt) (n : Nat) (f : SrcSt → SrcSt) : (modSrc x n f).overvolt = x.overvolt := rfl
@[simp] theorem modSrc_supplyEvent (x : CrustSt) (n : Nat) (f : SrcSt → SrcSt) :
    (modSrc x n f).supplyEvent = x.supplyEvent := rfl
@[simp] theorem modSrc_uvSince (x : CrustSt) (n : Nat) (f : SrcSt → SrcSt) : (modSrc x n f).uvSince = x.uvSince := rfl
@[simp] theorem modSrc_lockoutSince (x : CrustSt) (n : Nat) (f : SrcSt → SrcSt) :
    (modSrc x n f).lockoutSince = x.lockoutSince := rfl
@[simp] theorem modSrc_overvoltSince (x : CrustSt) (n : Nat) (f : SrcSt → SrcSt) :
    (modSrc x n f).overvoltSince = x.overvoltSince := rfl
@[simp] theorem modSrc_lostOut (x : CrustSt) (n : Nat) (f : SrcSt → SrcSt) : (modSrc x n f).lostOut = x.lostOut := rfl
@[simp] theorem modSrc_sinceFrame (x : CrustSt) (n : Nat) (f : SrcSt → SrcSt) : (modSrc x n f).sinceFrame = x.sinceFrame := rfl
@[simp] theorem modSrc_silent (x : CrustSt) (n : Nat) (f : SrcSt → SrcSt) : (modSrc x n f).silent = x.silent := rfl
@[simp] theorem modSrc_resync (x : CrustSt) (n : Nat) (f : SrcSt → SrcSt) : (modSrc x n f).resync = x.resync := rfl
@[simp] theorem modSrc_snapLost (x : CrustSt) (n : Nat) (f : SrcSt → SrcSt) : (modSrc x n f).snapLost = x.snapLost := rfl
@[simp] theorem modSrc_staged (x : CrustSt) (n : Nat) (f : SrcSt → SrcSt) : (modSrc x n f).staged = x.staged := rfl
@[simp] theorem modSrc_ins (x : CrustSt) (n : Nat) (f : SrcSt → SrcSt) : (modSrc x n f).ins = x.ins := rfl
@[simp] theorem modSrc_quads (x : CrustSt) (n : Nat) (f : SrcSt → SrcSt) : (modSrc x n f).quads = x.quads := rfl
@[simp] theorem modSrc_srcs (x : CrustSt) (n : Nat) (f : SrcSt → SrcSt) :
    (modSrc x n f).srcs = tabMod SrcSt.init x.srcs n f := rfl
@[simp] theorem modSrc_ana (x : CrustSt) (n : Nat) (f : SrcSt → SrcSt) : (modSrc x n f).ana = x.ana := rfl
@[simp] theorem modSrc_sinceReference (x : CrustSt) (n : Nat) (f : SrcSt → SrcSt) :
    (modSrc x n f).sinceReference = x.sinceReference := rfl
@[simp] theorem modSrc_legs (x : CrustSt) (n : Nat) (f : SrcSt → SrcSt) : (modSrc x n f).legs = x.legs := rfl
@[simp] theorem modSrc_drives (x : CrustSt) (n : Nat) (f : SrcSt → SrcSt) : (modSrc x n f).drives = x.drives := rfl
@[simp] theorem modSrc_landHot (x : CrustSt) (n : Nat) (f : SrcSt → SrcSt) : (modSrc x n f).landHot = x.landHot := rfl
@[simp] theorem modSrc_drawn (x : CrustSt) (n : Nat) (f : SrcSt → SrcSt) : (modSrc x n f).drawn = x.drawn := rfl
@[simp] theorem modSrc_carries (x : CrustSt) (n : Nat) (f : SrcSt → SrcSt) : (modSrc x n f).carries = x.carries := rfl
@[simp] theorem modSrc_probePass (x : CrustSt) (n : Nat) (f : SrcSt → SrcSt) : (modSrc x n f).probePass = x.probePass := rfl
@[simp] theorem modSrc_stuck (x : CrustSt) (n : Nat) (f : SrcSt → SrcSt) : (modSrc x n f).stuck = x.stuck := rfl
@[simp] theorem modSrc_snap (x : CrustSt) (n : Nat) (f : SrcSt → SrcSt) : (modSrc x n f).snap = x.snap := rfl

@[simp] theorem modAna_logicPower (x : CrustSt) (n : Nat) (f : AnaSt → AnaSt) : (modAna x n f).logicPower = x.logicPower := rfl
@[simp] theorem modAna_handshake (x : CrustSt) (n : Nat) (f : AnaSt → AnaSt) : (modAna x n f).handshake = x.handshake := rfl
@[simp] theorem modAna_undervolt (x : CrustSt) (n : Nat) (f : AnaSt → AnaSt) : (modAna x n f).undervolt = x.undervolt := rfl
@[simp] theorem modAna_lockout (x : CrustSt) (n : Nat) (f : AnaSt → AnaSt) : (modAna x n f).lockout = x.lockout := rfl
@[simp] theorem modAna_overvolt (x : CrustSt) (n : Nat) (f : AnaSt → AnaSt) : (modAna x n f).overvolt = x.overvolt := rfl
@[simp] theorem modAna_supplyEvent (x : CrustSt) (n : Nat) (f : AnaSt → AnaSt) :
    (modAna x n f).supplyEvent = x.supplyEvent := rfl
@[simp] theorem modAna_uvSince (x : CrustSt) (n : Nat) (f : AnaSt → AnaSt) : (modAna x n f).uvSince = x.uvSince := rfl
@[simp] theorem modAna_lockoutSince (x : CrustSt) (n : Nat) (f : AnaSt → AnaSt) :
    (modAna x n f).lockoutSince = x.lockoutSince := rfl
@[simp] theorem modAna_overvoltSince (x : CrustSt) (n : Nat) (f : AnaSt → AnaSt) :
    (modAna x n f).overvoltSince = x.overvoltSince := rfl
@[simp] theorem modAna_lostOut (x : CrustSt) (n : Nat) (f : AnaSt → AnaSt) : (modAna x n f).lostOut = x.lostOut := rfl
@[simp] theorem modAna_sinceFrame (x : CrustSt) (n : Nat) (f : AnaSt → AnaSt) : (modAna x n f).sinceFrame = x.sinceFrame := rfl
@[simp] theorem modAna_silent (x : CrustSt) (n : Nat) (f : AnaSt → AnaSt) : (modAna x n f).silent = x.silent := rfl
@[simp] theorem modAna_resync (x : CrustSt) (n : Nat) (f : AnaSt → AnaSt) : (modAna x n f).resync = x.resync := rfl
@[simp] theorem modAna_snapLost (x : CrustSt) (n : Nat) (f : AnaSt → AnaSt) : (modAna x n f).snapLost = x.snapLost := rfl
@[simp] theorem modAna_staged (x : CrustSt) (n : Nat) (f : AnaSt → AnaSt) : (modAna x n f).staged = x.staged := rfl
@[simp] theorem modAna_ins (x : CrustSt) (n : Nat) (f : AnaSt → AnaSt) : (modAna x n f).ins = x.ins := rfl
@[simp] theorem modAna_quads (x : CrustSt) (n : Nat) (f : AnaSt → AnaSt) : (modAna x n f).quads = x.quads := rfl
@[simp] theorem modAna_srcs (x : CrustSt) (n : Nat) (f : AnaSt → AnaSt) : (modAna x n f).srcs = x.srcs := rfl
@[simp] theorem modAna_ana (x : CrustSt) (n : Nat) (f : AnaSt → AnaSt) : (modAna x n f).ana = tabMod AnaSt.init x.ana n f := rfl
@[simp] theorem modAna_sinceReference (x : CrustSt) (n : Nat) (f : AnaSt → AnaSt) :
    (modAna x n f).sinceReference = x.sinceReference := rfl
@[simp] theorem modAna_legs (x : CrustSt) (n : Nat) (f : AnaSt → AnaSt) : (modAna x n f).legs = x.legs := rfl
@[simp] theorem modAna_drives (x : CrustSt) (n : Nat) (f : AnaSt → AnaSt) : (modAna x n f).drives = x.drives := rfl
@[simp] theorem modAna_landHot (x : CrustSt) (n : Nat) (f : AnaSt → AnaSt) : (modAna x n f).landHot = x.landHot := rfl
@[simp] theorem modAna_drawn (x : CrustSt) (n : Nat) (f : AnaSt → AnaSt) : (modAna x n f).drawn = x.drawn := rfl
@[simp] theorem modAna_carries (x : CrustSt) (n : Nat) (f : AnaSt → AnaSt) : (modAna x n f).carries = x.carries := rfl
@[simp] theorem modAna_probePass (x : CrustSt) (n : Nat) (f : AnaSt → AnaSt) : (modAna x n f).probePass = x.probePass := rfl
@[simp] theorem modAna_stuck (x : CrustSt) (n : Nat) (f : AnaSt → AnaSt) : (modAna x n f).stuck = x.stuck := rfl
@[simp] theorem modAna_snap (x : CrustSt) (n : Nat) (f : AnaSt → AnaSt) : (modAna x n f).snap = x.snap := rfl

@[simp] theorem modLeg_logicPower (x : CrustSt) (n : Nat) (f : LegSt → LegSt) : (modLeg x n f).logicPower = x.logicPower := rfl
@[simp] theorem modLeg_handshake (x : CrustSt) (n : Nat) (f : LegSt → LegSt) : (modLeg x n f).handshake = x.handshake := rfl
@[simp] theorem modLeg_undervolt (x : CrustSt) (n : Nat) (f : LegSt → LegSt) : (modLeg x n f).undervolt = x.undervolt := rfl
@[simp] theorem modLeg_lockout (x : CrustSt) (n : Nat) (f : LegSt → LegSt) : (modLeg x n f).lockout = x.lockout := rfl
@[simp] theorem modLeg_overvolt (x : CrustSt) (n : Nat) (f : LegSt → LegSt) : (modLeg x n f).overvolt = x.overvolt := rfl
@[simp] theorem modLeg_supplyEvent (x : CrustSt) (n : Nat) (f : LegSt → LegSt) :
    (modLeg x n f).supplyEvent = x.supplyEvent := rfl
@[simp] theorem modLeg_uvSince (x : CrustSt) (n : Nat) (f : LegSt → LegSt) : (modLeg x n f).uvSince = x.uvSince := rfl
@[simp] theorem modLeg_lockoutSince (x : CrustSt) (n : Nat) (f : LegSt → LegSt) :
    (modLeg x n f).lockoutSince = x.lockoutSince := rfl
@[simp] theorem modLeg_overvoltSince (x : CrustSt) (n : Nat) (f : LegSt → LegSt) :
    (modLeg x n f).overvoltSince = x.overvoltSince := rfl
@[simp] theorem modLeg_lostOut (x : CrustSt) (n : Nat) (f : LegSt → LegSt) : (modLeg x n f).lostOut = x.lostOut := rfl
@[simp] theorem modLeg_sinceFrame (x : CrustSt) (n : Nat) (f : LegSt → LegSt) : (modLeg x n f).sinceFrame = x.sinceFrame := rfl
@[simp] theorem modLeg_silent (x : CrustSt) (n : Nat) (f : LegSt → LegSt) : (modLeg x n f).silent = x.silent := rfl
@[simp] theorem modLeg_resync (x : CrustSt) (n : Nat) (f : LegSt → LegSt) : (modLeg x n f).resync = x.resync := rfl
@[simp] theorem modLeg_snapLost (x : CrustSt) (n : Nat) (f : LegSt → LegSt) : (modLeg x n f).snapLost = x.snapLost := rfl
@[simp] theorem modLeg_staged (x : CrustSt) (n : Nat) (f : LegSt → LegSt) : (modLeg x n f).staged = x.staged := rfl
@[simp] theorem modLeg_ins (x : CrustSt) (n : Nat) (f : LegSt → LegSt) : (modLeg x n f).ins = x.ins := rfl
@[simp] theorem modLeg_quads (x : CrustSt) (n : Nat) (f : LegSt → LegSt) : (modLeg x n f).quads = x.quads := rfl
@[simp] theorem modLeg_srcs (x : CrustSt) (n : Nat) (f : LegSt → LegSt) : (modLeg x n f).srcs = x.srcs := rfl
@[simp] theorem modLeg_ana (x : CrustSt) (n : Nat) (f : LegSt → LegSt) : (modLeg x n f).ana = x.ana := rfl
@[simp] theorem modLeg_sinceReference (x : CrustSt) (n : Nat) (f : LegSt → LegSt) :
    (modLeg x n f).sinceReference = x.sinceReference := rfl
@[simp] theorem modLeg_legs (x : CrustSt) (n : Nat) (f : LegSt → LegSt) :
    (modLeg x n f).legs = tabMod LegSt.off x.legs n f := rfl
@[simp] theorem modLeg_drives (x : CrustSt) (n : Nat) (f : LegSt → LegSt) : (modLeg x n f).drives = x.drives := rfl
@[simp] theorem modLeg_landHot (x : CrustSt) (n : Nat) (f : LegSt → LegSt) : (modLeg x n f).landHot = x.landHot := rfl
@[simp] theorem modLeg_drawn (x : CrustSt) (n : Nat) (f : LegSt → LegSt) : (modLeg x n f).drawn = x.drawn := rfl
@[simp] theorem modLeg_carries (x : CrustSt) (n : Nat) (f : LegSt → LegSt) : (modLeg x n f).carries = x.carries := rfl
@[simp] theorem modLeg_probePass (x : CrustSt) (n : Nat) (f : LegSt → LegSt) : (modLeg x n f).probePass = x.probePass := rfl
@[simp] theorem modLeg_stuck (x : CrustSt) (n : Nat) (f : LegSt → LegSt) : (modLeg x n f).stuck = x.stuck := rfl
@[simp] theorem modLeg_snap (x : CrustSt) (n : Nat) (f : LegSt → LegSt) : (modLeg x n f).snap = x.snap := rfl

@[simp] theorem modDrive_logicPower (x : CrustSt) (n : Nat) (f : DriveSt → DriveSt) :
    (modDrive x n f).logicPower = x.logicPower := rfl
@[simp] theorem modDrive_handshake (x : CrustSt) (n : Nat) (f : DriveSt → DriveSt) :
    (modDrive x n f).handshake = x.handshake := rfl
@[simp] theorem modDrive_undervolt (x : CrustSt) (n : Nat) (f : DriveSt → DriveSt) :
    (modDrive x n f).undervolt = x.undervolt := rfl
@[simp] theorem modDrive_lockout (x : CrustSt) (n : Nat) (f : DriveSt → DriveSt) : (modDrive x n f).lockout = x.lockout := rfl
@[simp] theorem modDrive_overvolt (x : CrustSt) (n : Nat) (f : DriveSt → DriveSt) :
    (modDrive x n f).overvolt = x.overvolt := rfl
@[simp] theorem modDrive_supplyEvent (x : CrustSt) (n : Nat) (f : DriveSt → DriveSt) :
    (modDrive x n f).supplyEvent = x.supplyEvent := rfl
@[simp] theorem modDrive_uvSince (x : CrustSt) (n : Nat) (f : DriveSt → DriveSt) : (modDrive x n f).uvSince = x.uvSince := rfl
@[simp] theorem modDrive_lockoutSince (x : CrustSt) (n : Nat) (f : DriveSt → DriveSt) :
    (modDrive x n f).lockoutSince = x.lockoutSince := rfl
@[simp] theorem modDrive_overvoltSince (x : CrustSt) (n : Nat) (f : DriveSt → DriveSt) :
    (modDrive x n f).overvoltSince = x.overvoltSince := rfl
@[simp] theorem modDrive_lostOut (x : CrustSt) (n : Nat) (f : DriveSt → DriveSt) : (modDrive x n f).lostOut = x.lostOut := rfl
@[simp] theorem modDrive_sinceFrame (x : CrustSt) (n : Nat) (f : DriveSt → DriveSt) :
    (modDrive x n f).sinceFrame = x.sinceFrame := rfl
@[simp] theorem modDrive_silent (x : CrustSt) (n : Nat) (f : DriveSt → DriveSt) : (modDrive x n f).silent = x.silent := rfl
@[simp] theorem modDrive_resync (x : CrustSt) (n : Nat) (f : DriveSt → DriveSt) : (modDrive x n f).resync = x.resync := rfl
@[simp] theorem modDrive_snapLost (x : CrustSt) (n : Nat) (f : DriveSt → DriveSt) :
    (modDrive x n f).snapLost = x.snapLost := rfl
@[simp] theorem modDrive_staged (x : CrustSt) (n : Nat) (f : DriveSt → DriveSt) : (modDrive x n f).staged = x.staged := rfl
@[simp] theorem modDrive_ins (x : CrustSt) (n : Nat) (f : DriveSt → DriveSt) : (modDrive x n f).ins = x.ins := rfl
@[simp] theorem modDrive_quads (x : CrustSt) (n : Nat) (f : DriveSt → DriveSt) : (modDrive x n f).quads = x.quads := rfl
@[simp] theorem modDrive_srcs (x : CrustSt) (n : Nat) (f : DriveSt → DriveSt) : (modDrive x n f).srcs = x.srcs := rfl
@[simp] theorem modDrive_ana (x : CrustSt) (n : Nat) (f : DriveSt → DriveSt) : (modDrive x n f).ana = x.ana := rfl
@[simp] theorem modDrive_sinceReference (x : CrustSt) (n : Nat) (f : DriveSt → DriveSt) :
    (modDrive x n f).sinceReference = x.sinceReference := rfl
@[simp] theorem modDrive_legs (x : CrustSt) (n : Nat) (f : DriveSt → DriveSt) : (modDrive x n f).legs = x.legs := rfl
@[simp] theorem modDrive_drives (x : CrustSt) (n : Nat) (f : DriveSt → DriveSt) :
    (modDrive x n f).drives = tabMod DriveSt.init x.drives n f := rfl
@[simp] theorem modDrive_landHot (x : CrustSt) (n : Nat) (f : DriveSt → DriveSt) : (modDrive x n f).landHot = x.landHot := rfl
@[simp] theorem modDrive_drawn (x : CrustSt) (n : Nat) (f : DriveSt → DriveSt) : (modDrive x n f).drawn = x.drawn := rfl
@[simp] theorem modDrive_carries (x : CrustSt) (n : Nat) (f : DriveSt → DriveSt) : (modDrive x n f).carries = x.carries := rfl
@[simp] theorem modDrive_probePass (x : CrustSt) (n : Nat) (f : DriveSt → DriveSt) :
    (modDrive x n f).probePass = x.probePass := rfl
@[simp] theorem modDrive_stuck (x : CrustSt) (n : Nat) (f : DriveSt → DriveSt) : (modDrive x n f).stuck = x.stuck := rfl
@[simp] theorem modDrive_snap (x : CrustSt) (n : Nat) (f : DriveSt → DriveSt) : (modDrive x n f).snap = x.snap := rfl

/-! Updates within a lane -/

@[simp] theorem modChan_retired (x : LaneSt) (n : Nat) (f : ChanRec → ChanRec) : (modChan x n f).retired = x.retired := rfl
@[simp] theorem modChan_powerCycled (x : LaneSt) (n : Nat) (f : ChanRec → ChanRec) :
    (modChan x n f).powerCycled = x.powerCycled := rfl
@[simp] theorem modChan_stopped (x : LaneSt) (n : Nat) (f : ChanRec → ChanRec) : (modChan x n f).stopped = x.stopped := rfl
@[simp] theorem modChan_cfg (x : LaneSt) (n : Nat) (f : ChanRec → ChanRec) : (modChan x n f).cfg = x.cfg := rfl
@[simp] theorem modChan_beads (x : LaneSt) (n : Nat) (f : ChanRec → ChanRec) : (modChan x n f).beads = x.beads := rfl
@[simp] theorem modChan_inBeads (x : LaneSt) (n : Nat) (f : ChanRec → ChanRec) : (modChan x n f).inBeads = x.inBeads := rfl
@[simp] theorem modChan_vals (x : LaneSt) (n : Nat) (f : ChanRec → ChanRec) : (modChan x n f).vals = x.vals := rfl
@[simp] theorem modChan_blockVals (x : LaneSt) (n : Nat) (f : ChanRec → ChanRec) :
    (modChan x n f).blockVals = x.blockVals := rfl
@[simp] theorem modChan_blk (x : LaneSt) (n : Nat) (f : ChanRec → ChanRec) : (modChan x n f).blk = x.blk := rfl
@[simp] theorem modChan_chans (x : LaneSt) (n : Nat) (f : ChanRec → ChanRec) :
    (modChan x n f).chans = tabMod ChanRec.clear x.chans n f := rfl
@[simp] theorem modChan_reps (x : LaneSt) (n : Nat) (f : ChanRec → ChanRec) : (modChan x n f).reps = x.reps := rfl
@[simp] theorem modChan_saved (x : LaneSt) (n : Nat) (f : ChanRec → ChanRec) : (modChan x n f).saved = x.saved := rfl
@[simp] theorem modChan_pairs (x : LaneSt) (n : Nat) (f : ChanRec → ChanRec) : (modChan x n f).pairs = x.pairs := rfl
@[simp] theorem modChan_stdStaged (x : LaneSt) (n : Nat) (f : ChanRec → ChanRec) :
    (modChan x n f).stdStaged = x.stdStaged := rfl
@[simp] theorem modChan_stdHoldOff (x : LaneSt) (n : Nat) (f : ChanRec → ChanRec) :
    (modChan x n f).stdHoldOff = x.stdHoldOff := rfl
@[simp] theorem modChan_out (x : LaneSt) (n : Nat) (f : ChanRec → ChanRec) : (modChan x n f).out = x.out := rfl
@[simp] theorem modChan_digest (x : LaneSt) (n : Nat) (f : ChanRec → ChanRec) : (modChan x n f).digest = x.digest := rfl
@[simp] theorem modChan_contrib (x : LaneSt) (n : Nat) (f : ChanRec → ChanRec) : (modChan x n f).contrib = x.contrib := rfl
@[simp] theorem modChan_noSafe (x : LaneSt) (n : Nat) (f : ChanRec → ChanRec) : (modChan x n f).noSafe = x.noSafe := rfl
@[simp] theorem modChan_forcedLate (x : LaneSt) (n : Nat) (f : ChanRec → ChanRec) :
    (modChan x n f).forcedLate = x.forcedLate := rfl
@[simp] theorem modChan_parityHit (x : LaneSt) (n : Nat) (f : ChanRec → ChanRec) :
    (modChan x n f).parityHit = x.parityHit := rfl
@[simp] theorem modChan_eccHit (x : LaneSt) (n : Nat) (f : ChanRec → ChanRec) : (modChan x n f).eccHit = x.eccHit := rfl
@[simp] theorem modChan_entryParity (x : LaneSt) (n : Nat) (f : ChanRec → ChanRec) :
    (modChan x n f).entryParity = x.entryParity := rfl
@[simp] theorem modChan_hostBad (x : LaneSt) (n : Nat) (f : ChanRec → ChanRec) : (modChan x n f).hostBad = x.hostBad := rfl
@[simp] theorem modChan_supplyOut (x : LaneSt) (n : Nat) (f : ChanRec → ChanRec) :
    (modChan x n f).supplyOut = x.supplyOut := rfl
@[simp] theorem modChan_clockDev (x : LaneSt) (n : Nat) (f : ChanRec → ChanRec) : (modChan x n f).clockDev = x.clockDev := rfl
@[simp] theorem modChan_gate (x : LaneSt) (n : Nat) (f : ChanRec → ChanRec) : (modChan x n f).gate = x.gate := rfl
@[simp] theorem modChan_tickDev (x : LaneSt) (n : Nat) (f : ChanRec → ChanRec) : (modChan x n f).tickDev = x.tickDev := rfl
@[simp] theorem modChan_slice (x : LaneSt) (n : Nat) (f : ChanRec → ChanRec) : (modChan x n f).slice = x.slice := rfl
@[simp] theorem modChan_sliceFailed (x : LaneSt) (n : Nat) (f : ChanRec → ChanRec) :
    (modChan x n f).sliceFailed = x.sliceFailed := rfl
@[simp] theorem modChan_accepted (x : LaneSt) (n : Nat) (f : ChanRec → ChanRec) : (modChan x n f).accepted = x.accepted := rfl
@[simp] theorem modChan_seenCopies (x : LaneSt) (n : Nat) (f : ChanRec → ChanRec) :
    (modChan x n f).seenCopies = x.seenCopies := rfl
@[simp] theorem modChan_conns (x : LaneSt) (n : Nat) (f : ChanRec → ChanRec) : (modChan x n f).conns = x.conns := rfl
@[simp] theorem modChan_proofs (x : LaneSt) (n : Nat) (f : ChanRec → ChanRec) : (modChan x n f).proofs = x.proofs := rfl
@[simp] theorem modChan_verdict (x : LaneSt) (n : Nat) (f : ChanRec → ChanRec) : (modChan x n f).verdict = x.verdict := rfl
@[simp] theorem modChan_verdictBefore (x : LaneSt) (n : Nat) (f : ChanRec → ChanRec) :
    (modChan x n f).verdictBefore = x.verdictBefore := rfl
@[simp] theorem modChan_offsets (x : LaneSt) (n : Nat) (f : ChanRec → ChanRec) : (modChan x n f).offsets = x.offsets := rfl
@[simp] theorem modChan_enteredOperate (x : LaneSt) (n : Nat) (f : ChanRec → ChanRec) :
    (modChan x n f).enteredOperate = x.enteredOperate := rfl

@[simp] theorem modPair_retired (x : LaneSt) (n : Nat) (f : PairRec → PairRec) : (modPair x n f).retired = x.retired := rfl
@[simp] theorem modPair_powerCycled (x : LaneSt) (n : Nat) (f : PairRec → PairRec) :
    (modPair x n f).powerCycled = x.powerCycled := rfl
@[simp] theorem modPair_stopped (x : LaneSt) (n : Nat) (f : PairRec → PairRec) : (modPair x n f).stopped = x.stopped := rfl
@[simp] theorem modPair_cfg (x : LaneSt) (n : Nat) (f : PairRec → PairRec) : (modPair x n f).cfg = x.cfg := rfl
@[simp] theorem modPair_beads (x : LaneSt) (n : Nat) (f : PairRec → PairRec) : (modPair x n f).beads = x.beads := rfl
@[simp] theorem modPair_inBeads (x : LaneSt) (n : Nat) (f : PairRec → PairRec) : (modPair x n f).inBeads = x.inBeads := rfl
@[simp] theorem modPair_vals (x : LaneSt) (n : Nat) (f : PairRec → PairRec) : (modPair x n f).vals = x.vals := rfl
@[simp] theorem modPair_blockVals (x : LaneSt) (n : Nat) (f : PairRec → PairRec) :
    (modPair x n f).blockVals = x.blockVals := rfl
@[simp] theorem modPair_blk (x : LaneSt) (n : Nat) (f : PairRec → PairRec) : (modPair x n f).blk = x.blk := rfl
@[simp] theorem modPair_chans (x : LaneSt) (n : Nat) (f : PairRec → PairRec) : (modPair x n f).chans = x.chans := rfl
@[simp] theorem modPair_reps (x : LaneSt) (n : Nat) (f : PairRec → PairRec) : (modPair x n f).reps = x.reps := rfl
@[simp] theorem modPair_saved (x : LaneSt) (n : Nat) (f : PairRec → PairRec) : (modPair x n f).saved = x.saved := rfl
@[simp] theorem modPair_pairs (x : LaneSt) (n : Nat) (f : PairRec → PairRec) :
    (modPair x n f).pairs = tabMod PairRec.init x.pairs n f := rfl
@[simp] theorem modPair_stdStaged (x : LaneSt) (n : Nat) (f : PairRec → PairRec) :
    (modPair x n f).stdStaged = x.stdStaged := rfl
@[simp] theorem modPair_stdHoldOff (x : LaneSt) (n : Nat) (f : PairRec → PairRec) :
    (modPair x n f).stdHoldOff = x.stdHoldOff := rfl
@[simp] theorem modPair_out (x : LaneSt) (n : Nat) (f : PairRec → PairRec) : (modPair x n f).out = x.out := rfl
@[simp] theorem modPair_digest (x : LaneSt) (n : Nat) (f : PairRec → PairRec) : (modPair x n f).digest = x.digest := rfl
@[simp] theorem modPair_contrib (x : LaneSt) (n : Nat) (f : PairRec → PairRec) : (modPair x n f).contrib = x.contrib := rfl
@[simp] theorem modPair_noSafe (x : LaneSt) (n : Nat) (f : PairRec → PairRec) : (modPair x n f).noSafe = x.noSafe := rfl
@[simp] theorem modPair_forcedLate (x : LaneSt) (n : Nat) (f : PairRec → PairRec) :
    (modPair x n f).forcedLate = x.forcedLate := rfl
@[simp] theorem modPair_parityHit (x : LaneSt) (n : Nat) (f : PairRec → PairRec) :
    (modPair x n f).parityHit = x.parityHit := rfl
@[simp] theorem modPair_eccHit (x : LaneSt) (n : Nat) (f : PairRec → PairRec) : (modPair x n f).eccHit = x.eccHit := rfl
@[simp] theorem modPair_entryParity (x : LaneSt) (n : Nat) (f : PairRec → PairRec) :
    (modPair x n f).entryParity = x.entryParity := rfl
@[simp] theorem modPair_hostBad (x : LaneSt) (n : Nat) (f : PairRec → PairRec) : (modPair x n f).hostBad = x.hostBad := rfl
@[simp] theorem modPair_supplyOut (x : LaneSt) (n : Nat) (f : PairRec → PairRec) :
    (modPair x n f).supplyOut = x.supplyOut := rfl
@[simp] theorem modPair_clockDev (x : LaneSt) (n : Nat) (f : PairRec → PairRec) : (modPair x n f).clockDev = x.clockDev := rfl
@[simp] theorem modPair_gate (x : LaneSt) (n : Nat) (f : PairRec → PairRec) : (modPair x n f).gate = x.gate := rfl
@[simp] theorem modPair_tickDev (x : LaneSt) (n : Nat) (f : PairRec → PairRec) : (modPair x n f).tickDev = x.tickDev := rfl
@[simp] theorem modPair_slice (x : LaneSt) (n : Nat) (f : PairRec → PairRec) : (modPair x n f).slice = x.slice := rfl
@[simp] theorem modPair_sliceFailed (x : LaneSt) (n : Nat) (f : PairRec → PairRec) :
    (modPair x n f).sliceFailed = x.sliceFailed := rfl
@[simp] theorem modPair_accepted (x : LaneSt) (n : Nat) (f : PairRec → PairRec) : (modPair x n f).accepted = x.accepted := rfl
@[simp] theorem modPair_seenCopies (x : LaneSt) (n : Nat) (f : PairRec → PairRec) :
    (modPair x n f).seenCopies = x.seenCopies := rfl
@[simp] theorem modPair_conns (x : LaneSt) (n : Nat) (f : PairRec → PairRec) : (modPair x n f).conns = x.conns := rfl
@[simp] theorem modPair_proofs (x : LaneSt) (n : Nat) (f : PairRec → PairRec) : (modPair x n f).proofs = x.proofs := rfl
@[simp] theorem modPair_verdict (x : LaneSt) (n : Nat) (f : PairRec → PairRec) : (modPair x n f).verdict = x.verdict := rfl
@[simp] theorem modPair_verdictBefore (x : LaneSt) (n : Nat) (f : PairRec → PairRec) :
    (modPair x n f).verdictBefore = x.verdictBefore := rfl
@[simp] theorem modPair_offsets (x : LaneSt) (n : Nat) (f : PairRec → PairRec) : (modPair x n f).offsets = x.offsets := rfl
@[simp] theorem modPair_enteredOperate (x : LaneSt) (n : Nat) (f : PairRec → PairRec) :
    (modPair x n f).enteredOperate = x.enteredOperate := rfl

end Sys2Proof.Machine
end

