-- ==== Sys2Proof/WellFormed.lean ====
section
/-! DEFINITION. Which terms of `Instr` stand for something that the surroundings can send: message lengths, data lengths of
CAN FD, channel and block numbers, chip replies. The machine answers every term; the check says which ones the spec knows. -/

namespace Sys2Proof

/-- A reception holds one frame at most: the groups outside a frame hold no SOF, and those of a frame begin with its one SOF
(R280, R284). -/
def groupsOk (idle gs : List CodeGroup) : Bool :=
  !idle.contains .k277 && match gs with
  | [] => true
  | g :: r => g == .k277 && !r.contains .k277

/-- The data lengths of CAN FD: 0 to 8, 12, 16, 20, 24, 32, 48, 64 (R361). -/
def canLengths : List Nat := [0, 1, 2, 3, 4, 5, 6, 7, 8, 12, 16, 20, 24, 32, 48, 64]

/-- An 11-bit identifier unless the frame has a 29-bit one, and a data length that a DLC codes. -/
def canOk (f : CanFrame) : Bool := (f.ext || decide (f.ident.toNat < 2048)) && canLengths.contains f.data.length

/-- A channel number of R393. -/
def chanAssigned (n : Nat) : Bool :=
  decide (n ≤ 0x34) || (decide (0x40 ≤ n) && decide (n ≤ 0x74)) || (decide (0x80 ≤ n) && decide (n ≤ 0x83)) ||
  n == 0x8A || n == 0x8B

/-- A block number of R416, and journal pages that exist (R437). -/
def runOk (r : BlockRun) : Bool :=
  decide (1 ≤ r.block.toNat) && decide (r.block.toNat ≤ 19) && r.badPages.all fun p => decide (p.toNat < 12288)

/-- A bead of the hearth: a host bit 0-63, or 64 and the pair of a MAINT_HOLD (R391). -/
def beadOk (n : Nat) : Bool := decide (n < 80)

/-- A chip's answer has a UID of 8 bytes and an HMAC of 32 (R461). -/
def chipOk : ChipReply → Bool
  | .absent => true
  | .failed info => info.all fun a => a.1.length == 8
  | .present uid _ hmac => uid.length == 8 && hmac.length == 32

/-- An SPI transaction has its command byte, bit 7 of which tells a read from a write (R347). -/
def spiOk (sdi : List Byte) (read : Bool) : Bool := decide (1 ≤ sdi.length) && (sdi.getD 0 0).getLsbD 7 == read

/-- The operands of a command lie within what the spec gives its row. -/
def Instr.wellFormed : Instr → Bool
  | .vdd33BrownOut _ => true
  | .rstnLow _ => true
  | .internalReset => true
  | .resetRelease env => env.runs.all runOk
  | .crustLogicPowerLoss _ => true
  | .lPlusUndervoltage _ => true
  | .lPlusUndervoltageCleared _ => true
  | .lPlusLockout _ => true
  | .lPlusLockoutCleared _ _ => true
  | .overvoltageLockout _ => true
  | .overvoltageCleared _ _ => true
  | .tick _ => true
  | .phaseS env => env.hostParity.a.all beadOk && env.hostParity.b.all beadOk
  | .windowXOpen => true
  | .windowXEnd => true
  | .connTimeout _ => true
  | .phaseE _ => true
  | .phaseC _ => true
  | .phaseH _ => true
  | .sliceOverrun _ => true
  | .provingPeriodEnd => true
  | .shutdownSelftestComplete runs => runs.all runOk
  | .clockGateClose _ _ => true
  | .clockStop _ => true
  | .fifoResync _ => true
  | .receiverLock _ => true
  | .lockLoss _ => true
  | .relockTimeout _ => true
  | .fabricFrameReceive _ idle groups _ _ => groupsOk idle groups
  | .hopnakReceive _ _ _ _ => true
  | .joinGap _ => true
  | .joinGapEnd => true
  | .call => true
  | .report => true
  | .admitMsg => true
  | .refuse => true
  | .breakMsg => true
  | .topo => true
  | .linkready => true
  | .tickReceive _ _ => true
  | .tickMissing => true
  | .syncLoss => true
  | .syncProvingEnd => true
  | .managerListenExpiry => true
  | .safeCopyReceive => true
  | .bulkReceive => true
  | .bulkResendTimeout _ _ => true
  | .remoteRequestReceive => true
  | .remoteReplyReceive => true
  | .remoteDeadline _ _ => true
  | .canSafeReceive f => canOk f
  | .canTunnelSegment e => canOk e.frame
  | .canTunnelTimeout _ => true
  | .canTransmitEnd _ => true
  | .canErrorPassive => true
  | .canBusOff => true
  | .canBusOffRecovery => true
  | .rawInputChange _ _ _ => true
  | .debounceExpiry _ _ => true
  | .testPulse _ => true
  | .pulseTestSample _ _ _ _ => true
  | .retryPulse _ => true
  | .thresholdCheck _ _ _ => true
  | .srcOvercurrent _ => true
  | .ossdPulseTimeout _ _ => true
  | .counterEdge _ _ _ _ => true
  | .frequencyTimeout _ => true
  | .analogConversion _ _ _ => true
  | .stall _ => true
  | .legReadback _ _ => true
  | .highSideProbe _ _ _ => true
  | .lowSideProbe _ _ _ => true
  | .darkPulse _ _ _ => true
  | .landSample _ _ => true
  | .blankingEnd _ _ => true
  | .overcurrent _ => true
  | .thermal _ => true
  | .thermalReclose _ => true
  | .pullInEnd _ => true
  | .pullInLevelSample _ _ => true
  | .stuckdrive _ _ => true
  | .firingHistoryBin => true
  | .silenceTimeout _ => true
  | .currentSenseCheck _ _ _ => true
  | .patternCompose => true
  | .strobeWatchdog => true
  | .probationEnd ch => chanAssigned ch.toNat
  | .hostWatchdogExpiry => true
  | .hearthHeartbeatLoss => true
  | .hearthRestart => true
  | .spiWrite sdi _ => spiOk sdi false
  | .spiRead sdi _ => spiOk sdi true
  | .registerWrite _ _ => true
  | .modeReqWrite _ => true
  | .slotWrite _ _ => true
  | .mbxPost _ => true
  | .mbxAck _ => true
  | .irqStatClear _ _ _ => true
  | .hostwdWrite _ => true
  | .spiCfgWrite _ => true
  | .crcInit _ => true
  | .crcGo _ => true
  | .crcnDataWrite _ _ => true
  | .crcnRunWrite _ _ _ => true
  | .oenOffWrite _ => true
  | .indStatClear _ _ => true
  | .slotTake => true
  | .commandReply _ => true
  | .echo _ => true
  | .identity _ => true
  | .modeSet _ => true
  | .maintHold _ => true
  | .hostbitSet _ => true
  | .hostbitGet _ => true
  | .loafWrite _ => true
  | .loafCheck _ => true
  | .loafActivate _ => true
  | .loafInfo _ => true
  | .loafErase _ => true
  | .chanStatus _ => true
  | .chanReadmit _ => true
  | .chanIsolate _ => true
  | .chanRestore _ => true
  | .chanForce _ => true
  | .indStatus _ => true
  | .selftestRun _ => true
  | .commandSelftestComplete runs _ => runs.all runOk
  | .selftestResult _ => true
  | .shutdown _ => true
  | .shutdownStatus _ => true
  | .measRead _ => true
  | .quote _ => true
  | .certRead _ => true
  | .jrnOpen _ => true
  | .jrnRead _ => true
  | .jrnClose _ => true
  | .jrnPin _ => true
  | .jrnInfo _ => true
  | .statEpoch _ => true
  | .fabStatus _ => true
  | .fabMembers _ => true
  | .fabConn _ => true
  | .timeGet _ _ => true
  | .canConfig _ => true
  | .doorposLearn _ => true
  | .learningRunEnd _ => true
  | .doorposConfirm _ => true
  | .doorposRead _ => true
  | .keyLoad _ => true
  | .nonceGet _ => true
  | .nonceExpiry => true
  | .lifecycleSet _ => true
  | .actStatus _ => true
  | .actScan _ => true
  | .busScan rs => decide (rs.length ≤ 8) && rs.all chipOk
  | .chipTransactionFail _ => true
  | .wearAdvance _ r => chipOk r
  | .busRecovery n => match n with
    | some k => decide (k ≤ 27)
    | none => true
  | .crumbWrite => true
  | .pageHoldExpiry _ => true
  | .sessionIdleClose _ => true
  | .epochEnd _ => true
  | .cycleStart _ => true
  | .cycleEnd _ => true
  | .cycleTimeout _ => true
  | .crustLogicPowerReturn _ => true
  | .hearthHeartbeatReturn => true
  | .productionTestEnd => true
  | .fuseRepair _ _ => true
  | .fabricFrameTransmitEnd _ _ => true

end Sys2Proof
end

