-- ==== Sys2Proof/Tests/Slice0.lean ====
section
/-! SUPPORT. Small tests: an ill-formed term for each check of WellFormed, test vectors of the check values and the hash, and
for each statement a concrete state and operands that meet its hypotheses, clause by clause at a boundary of their ranges.
Expected results come from the rules named, or from published vectors. -/

namespace Sys2Proof.Tests

open Sys2Proof.Machine Sys2Proof.Claims

/-! ## Ill-formed terms -/

def run1 (b : Byte) (bad : List W16) : BlockRun :=
  { block := b, first := goodRun b.toNat, rerun := goodRun b.toNat, badPages := bad, crcUnits := 0 }

def boot1 (runs : List BlockRun) : BootEnv :=
  { runs := runs, step3Fail := none, handshakeFails := ⟨0, 0⟩, configureAsked := false, heard := 0, heardFrame := none
    silentFrames := 0, identityUpset := ⟨0, 0⟩ }

def canF (i : BitVec 29) (d : List Byte) : CanFrame := { ident := i, ext := false, fdf := true, data := d }

/-- R416: there is no block 20. -/
theorem test_wf_block : (Instr.resetRelease (boot1 [run1 20 []])).wellFormed = false := by decide
/-- R437: pages 0 to 12,287. -/
theorem test_wf_page : (Instr.shutdownSelftestComplete [run1 1 [12288]]).wellFormed = false ∧
    (Instr.commandSelftestComplete [run1 19 [12287]] ⟨⟨true, true⟩, ⟨0, 0⟩⟩).wellFormed = true := by decide
/-- R280, R284: one SOF in a reception. -/
theorem test_wf_frame : (Instr.fabricFrameReceive .p0 [] [.k277, .data 0, .k277] false 0).wellFormed = false ∧
    (Instr.fabricFrameReceive .p0 [] [.k277, .data 0, .k297] false 0).wellFormed = true := by decide
/-- R361: no DLC codes 9 bytes, and an 11-bit identifier is below 2048. -/
theorem test_wf_can_length : (Instr.canSafeReceive (canF 0 (List.replicate 9 0))).wellFormed = false := by decide
theorem test_wf_can_ident : (Instr.canTunnelSegment ⟨canF 0x800 [], false⟩).wellFormed = false := by decide
/-- R393: 0x35 is no channel. -/
theorem test_wf_channel : (Instr.probationEnd 0x35).wellFormed = false := by decide
/-- R347: bit 7 of the first byte tells a read. -/
theorem test_wf_spi_write : (Instr.spiWrite [0x80, 0, 0, 0] false).wellFormed = false ∧
    (Instr.spiWrite [] false).wellFormed = false := by decide
theorem test_wf_spi_read : (Instr.spiRead [0x00, 0, 0, 0] false).wellFormed = false := by decide
/-- R461: a UID has 8 bytes. -/
theorem test_wf_scan : (Instr.busScan [.present [0] 0 (List.replicate 32 0)]).wellFormed = false := by decide
theorem test_wf_scan_many : (Instr.busScan (List.replicate 9 .absent)).wellFormed = false := by decide
theorem test_wf_wear : (Instr.wearAdvance 0 (.present (List.replicate 8 0) 0 [])).wellFormed = false := by decide
theorem test_wf_recovery : (Instr.busRecovery (some 28)).wellFormed = false := by decide

/-! ## Check values and the hash -/

/-- "123456789". -/
def digits : List Byte := [0x31, 0x32, 0x33, 0x34, 0x35, 0x36, 0x37, 0x38, 0x39]

/-- R348 gives 0xDF. -/
theorem test_crc8 : crc8 digits = 0xDF#8 := by decide +kernel
/-- The catalogued check value of CRC-16 with 0x1021 and initial value 0xFFFF. -/
theorem test_crc16 : crc16From 0xFFFF#16 digits = 0x29B1#16 := by decide +kernel
/-- The catalogued check value of CRC-32C. -/
theorem test_crc32c : crc32c digits = 0xE3069283#32 := by decide +kernel
/-- The catalogued check value of the CRC-32 of IEEE 802.3. -/
theorem test_crc32 : crc32 digits = 0xCBF43926#32 := by decide +kernel
/-- FIPS 180-4: SHA-256 of "abc". -/
theorem test_sha256 : sha256 [0x61, 0x62, 0x63] =
    [0xBA, 0x78, 0x16, 0xBF, 0x8F, 0x01, 0xCF, 0xEA, 0x41, 0x41, 0x40, 0xDE, 0x5D, 0xAE, 0x22, 0x23,
     0xB0, 0x03, 0x61, 0xA3, 0x96, 0x17, 0x7A, 0x9C, 0xB4, 0x10, 0xFF, 0x61, 0xF2, 0x00, 0x15, 0xAD] := by decide +kernel
/-- RFC 4231, test case 2: HMAC-SHA-256 with key "Jefe" of "what do ya want for nothing?". -/
theorem test_hmac : (hmacSha256 [0x4A, 0x65, 0x66, 0x65]
    [0x77, 0x68, 0x61, 0x74, 0x20, 0x64, 0x6F, 0x20, 0x79, 0x61, 0x20, 0x77, 0x61, 0x6E, 0x74, 0x20, 0x66, 0x6F, 0x72, 0x20,
     0x6E, 0x6F, 0x74, 0x68, 0x69, 0x6E, 0x67, 0x3F]).take 8 = [0x5B, 0xDC, 0xC1, 0x46, 0xBF, 0x60, 0x75, 0x4E] := by
  decide +kernel
/-- FIPS 197: the S-box of 0x53, and the worked column of MixColumns. -/
theorem test_aes_sbox : aesSbox 0x53 = 0xED#8 := by decide
theorem test_aes_mix : aesMixColumn [0xDB, 0x13, 0x53, 0x45] = [0x8E, 0x4D, 0xA1, 0xBC] := by decide

/-! ## States for the witnesses -/

/-- A key of 16 bytes, that of RFC 4493's examples. -/
def cmacKey : List Byte :=
  [0x2B, 0x7E, 0x15, 0x16, 0x28, 0xAE, 0xD2, 0xA6, 0xAB, 0xF7, 0x15, 0x88, 0x09, 0xCF, 0x4F, 0x3C]

/-- Crust A: input 0 Tested by source 0, debounce 3, stamped; input 1 OSSD; input 2 a counter, input 3 a frequency. Crust B:
inputs 0 and 1 a quadrature pair. Analog input 0 of crust A; leg 5 of crust A standard with SAFE off; the actuator bus with chip 0
and key slot 0; a second quadrature pair of crust A. -/
def ioT : List (List Byte) :=
  [[0x02, 0x00, 2, 0, 3, 0, 1, 0, 0, 0, 0, 0, 0], [0x02, 0x01, 3, 0xFF, 3, 0, 0, 0, 10, 0, 5, 0, 0],
   [0x02, 0x02, 4, 0xFF, 0, 0, 0, 0, 0, 0, 0, 0, 0], [0x02, 0x03, 5, 0xFF, 0, 0, 0, 0, 0, 0, 0, 0, 0],
   [0x02, 0x40, 6, 0xFF, 0, 0, 0, 0, 0, 0, 0, 0, 0], [0x02, 0x41, 6, 0xFF, 0, 0, 0, 0, 0, 0, 0, 0, 0],
   [0x03, 0x40, 0, 0, 0, 0, 0, 0], [0x05, 0x00, 0, 0, 0, 0], [0x10, 0x05, 2, 1, 0, 0, 0, 0],
   [0x50, 0, 0, 0, 0, 0, 0, 0], [0x51, 0, 0x30, 0, 0, 0, 0, 0],
   [0x03, 0x01, 0, 0, 0, 0, 0, 0]]

def paramT (ty : Byte) (words : List W32) : ParamRec := { ty := ty, words := words, initial := [] }

/-- Instance 0: pair 0 as QPAIR on legs QH0 and QL0; instance 1: pair 1 as LOCKDRV on QH1 and QL1; instance 2: the import of
connection 7; instance 3: the export of connection 9. -/
def paramsT : List ParamRec :=
  [paramT tyQPAIR [0, 0, 1], paramT tyLOCKDRV [1, 1, 1], paramT tyIMPORT [7], paramT tyEXPORT [9]]

def importT : Conn :=
  { connId := 7, isExport := false, canFd := false, peer := 2, timeout := 2, keySlot := none, beads := 1,
    seedA := 1, seedB := 2 }
def exportT : Conn :=
  { connId := 9, isExport := true, canFd := false, peer := 2, timeout := 2, keySlot := none, beads := 1,
    seedA := 3, seedB := 4 }

def planT : Plan :=
  { seg := 5, ring := true, members := [{ tag := zeros 8, sig := 0 }, { tag := List.replicate 8 1, sig := 0x1111 }] }

def cfgT (role : Byte) : LoafCfg :=
  { loafId := List.replicate 8 2, trailer := [], check := 0, tfCode := 2, role := role, flags := 0,
    bind := { tag := zeros 8, seg := 5, pos := 0, sig := 0 }, params := paramsT, iomap := ioT, smap := [],
    plan := some planT, seeds := [importT, exportT],
    form := { beadCount := 3, inputs := [], elems := [.gate .and [0, 1] 2], permit := none } }

/-- The block at work in a mode, with a fabric role (0 none, 1 worker, 2 manager). -/
def atMode (m : Mode) (role : Byte) : State :=
  { State.reset with
    core := { CoreSt.reset with inReset := false, mode := m, bootStep := .ended, tickOn := true, phase := .h }
    host := { HostSt.reset with hearth := true, fwMajor := 1, lifeReg := 2 }
    lane := ⟨{ LaneSt.reset with cfg := some (cfgT role) }, { LaneSt.reset with cfg := some (cfgT role) }⟩
    crust := ⟨{ CrustSt.reset with handshake := true, resync := false }, { CrustSt.reset with handshake := true, resync := false }⟩ }

def op : State := atMode .operate 0

def entryT (via : Via) (cmd : Byte) (p : List Byte) (st : QState) : QEntry :=
  { via := via, cmd := cmd, tag := 0, target := 0xFF, badField := none, taken := 0, payload := p, st := st }

/-- One request waits alone in the hearth queue. -/
def ask (s : State) (via : Via) (cmd : Byte) (p : List Byte) : State :=
  { s with mbx := { s.mbx with queue := [entryT via cmd p .waiting] } }

/-- What a command's gates ask of a state. -/
def passes (s : State) (cmd : Byte) (p : List Byte) : Bool :=
  hearthLive s && lifeGate s.nv.life cmd && modeGate s.core.mode cmd p && (keyLoadNeeds s cmd p).all (fun n => p.length == n) &&
    match cmdRow cmd with
    | some r => decide (r.lo ≤ p.length) && decide (p.length ≤ r.hi)
    | none => false

theorem starts_ask (s : State) (via : Via) (cmd : Byte) (p : List Byte) (h : passes s cmd p = true) :
    Starts (ask s via cmd p) via cmd p := by
  unfold passes at h
  cases hr : cmdRow cmd with
  | none => simp [hr] at h
  | some r =>
    simp only [hr, Bool.and_eq_true, decide_eq_true_eq] at h
    obtain ⟨⟨⟨⟨h1, h2⟩, h3⟩, h6⟩, h4, h5⟩ := h
    refine ⟨entryT via cmd p .waiting, ⟨h1, ?_, rfl, rfl, ?_, ?_⟩, rfl, rfl, h2, h3, ?_, r, hr, h4, h5⟩
    · simp [ask, entryOf, entryT]
    · simp [ask, ahead, entryT]
    · intro _; simp [ask, heavyRunning, entryT]
    · intro n hn
      have hk : keyLoadNeeds s cmd p = some n := hn
      simpa [hk] using h6

/-! ## Witnesses: the queue, supplies and resets -/

theorem wit_step : ({ op with pending := [.nonceExpiry] } : State).pending = .nonceExpiry :: [] ∧ op.pending = [] :=
  ⟨rfl, rfl⟩
theorem wit_invariant : op.inv = true ∧ step op = .next op := ⟨by decide, rfl⟩
theorem wit_core_reset (c : Instr) (k : ResetCause) (h : (c, k) ∈ [(Instr.vdd33BrownOut true, ResetCause.powerOn),
    (.vdd33BrownOut false, .brownOut), (.rstnLow 10000, .rstn), (.internalReset, .internalCause)]) :
    op.core.inReset = false ∧ State.reset.core.inReset = true ∧
    ((c = .vdd33BrownOut true ∧ k = .powerOn) ∨ (c = .vdd33BrownOut false ∧ k = .brownOut) ∨
      (∃ w, 10000 ≤ w ∧ c = .rstnLow w ∧ k = .rstn) ∨ (c = .internalReset ∧ k = .internalCause)) := by
  refine ⟨rfl, rfl, ?_⟩
  simp only [List.mem_cons, Prod.mk.injEq, List.not_mem_nil, or_false] at h
  rcases h with h | h | h | h
  · exact .inl h
  · exact .inr (.inl h)
  · exact .inr (.inr (.inl ⟨10000, by decide, h⟩))
  · exact .inr (.inr (.inr h))
/-- R50: 999 ns, 1 us, 9,999 ns and 10 us. -/
theorem wit_rstn : op.core.inReset = false ∧ 999 < 1000 ∧ (1000 ≤ 1000 ∧ 9999 < 10000) ∧ 10000 ≤ 10000 := by
  refine ⟨rfl, ?_⟩; decide
/-- A token that names the start-up counted next. -/
def quickNv (s : State) (rows : Option RepairRecord) : State :=
  { s with nv := { s.nv with token := some { bootCount := bootCount s.nv, loafId := activeLoafId s.nv, life := s.nv.life.code, crcOk := true, results := [] }
                             repair := rows } }
/-- Block 7 fails; a quick boot without a repair record; all blocks pass, in a quick boot with its record too; step 3 fails at
its first measurement, and a retired module. -/
theorem wit_release (s : State) (hs : s = State.reset) : s.core.inReset = true ∧ tokenValid (advanceBoot s.nv) = false ∧
    (∃ b ∈ bootSet false, blockFails (bootWindow s) [{ run1 7 [] with first := { goodRun 7 with pass := false } }] b = true) ∧
    (∀ b ∈ bootSet false, blockFails (bootWindow s) [] b = false) ∧ (∀ b ∈ bootSet true, blockFails (bootWindow s) [] b = false) ∧
    tokenValid (advanceBoot (quickNv s none).nv) = true ∧ repairMap (quickNv s none).nv = none ∧
    tokenValid (advanceBoot (quickNv s (some ⟨⟨[], []⟩, true⟩)).nv) = true ∧
    (repairMap (quickNv s (some ⟨⟨[], []⟩, true⟩)).nv).isSome = true ∧ op.core.inReset = false ∧
    ({ boot1 [] with step3Fail := some 0 } : BootEnv).step3Fail = some 0 ∧ (boot1 []).step3Fail = none ∧ s.nv.life ≠ .retired := by
  subst hs; decide
/-- The first TICK of a start-up whose first three steps are done, after two failed attempts of each handshake. -/
theorem wit_release_goes_on (s : State) (env : BootEnv) (he : env = { boot1 [] with handshakeFails := ⟨2, 2⟩ })
    (hs : s = { State.reset with core := { CoreSt.reset with inReset := false, startUp := some env } }) :
    s.core.inReset = false ∧ s.core.startUp = some env ∧ s.core.phase = .g ∧ s.core.mode = .boot ∧ s.core.modeNext = none ∧
    s.core.fatal = [] ∧ s.mbx.switch = none ∧
    (∀ c, (s.lane.at c).retired = false ∧ (s.lane.at c).cfg = none ∧ env.handshakeFails.at c < 3 ∧
      (s.crust.at c).logicPower = true) ∧ activeImage s.nv = none ∧ configureAsked s env = false := by
  subst hs he
  refine ⟨rfl, rfl, rfl, rfl, rfl, rfl, rfl, fun c => ?_, by decide, rfl⟩
  cases c <;> decide

def crustAs (f : CrustSt → CrustSt) : State := { op with crust := { op.crust with a := f op.crust.a } }
def outSrc (s : State) : State := { s with lane := s.lane.map fun l => modChan l 0x18 fun r => { r with retired := true } }
def laneGone (s : State) : State := { s with lane := ⟨{ s.lane.a with retired := true }, s.lane.b⟩ }
def phased (p : Phase) (s : State) : State := { s with core := { s.core with phase := p } }

theorem wit_undervoltage_cleared (s : State) (h : s = crustAs fun x => { x with lockout := true }) : op.crust.a.lockout = false ∧
    s.crust.a.lockout = true ∧ (crustAs fun x => { x with lockout := true, logicPower := true }).core.inReset = false ∧
    ({ s with core := { s.core with inReset := true } } : State).core.inReset = true ∧ s.crust.a.overvolt = false := by
  subst h; decide

theorem wit_crust_return : (crustAs fun x => { x with logicPower := false }).crust.a.logicPower = false ∧
    op.core.vddGood = true ∧ op.crust.a.lockout = false := ⟨rfl, rfl, rfl⟩
theorem wit_crust_clears (s : State) (h : s = crustAs fun x => { x with lockout := true }) :
    s.crust.a.lockout = true ∧ s.crust.a.overvolt = false ∧ s.core.inReset = false ∧ s.crust.a.logicPower = true ∧
    s.crust.a.handshake = true := by subst h; decide
theorem wit_crust_clears_overvolt (s : State) (h : s = crustAs fun x => { x with overvolt := true }) :
    s.crust.a.overvolt = true ∧ s.crust.a.lockout = false ∧ s.core.inReset = false ∧ s.crust.a.logicPower = true ∧
    s.crust.a.handshake = true ∧ State.reset.core.inReset = true := by subst h; decide

/-! ## Witnesses: the frame -/

theorem wit_tick (s : State) (h : s = phased .g (crustAs fun x => { x with staged := some [(0, true)] })) : s.core.tickOn = true ∧
    s.core.phase = .g ∧ op.core.phase ≠ .g ∧ s.mbx.switch = none ∧ s.lane.a.retired = false ∧ s.crust.a.logicPower = true ∧ s.crust.a.staged = some [(0, true)] ∧
    s.crust.b.staged = none := by subst h; decide

def envS : PhaseSEnv := { crustOk := ⟨true, true⟩, crossOk := true, parity := [], hostParity := ⟨[], []⟩, identityUpset := ⟨0, 0⟩ }
def testHold (s : State) : State := { s with test := { s.test with hold := true } }

theorem wit_phase_s (p : State) (hp : p = phased .s op) : p.core.tickOn = true ∧ p.core.phase = .s ∧ op.core.phase ≠ .s ∧ hearthLive op = true ∧ op.mbx.chanOps = [] ∧ op.mbx.hostBitsNext = none ∧
    (testHold op).test.hold = true ∧ op.test.hold = false ∧ envS.parity = [] ∧ laneLive op .a = true ∧
    op.lane.a.cfg = some (cfgT 0) ∧ 1 < 24 ∧ envS.crustOk.a = true ∧ op.crust.a.logicPower = true ∧
    isLevelMode (modeOfInput (cfgT 0).iomap (chanIn .a 1)) = true := by subst hp; decide
/-- The window opens, then is open; a manager lane without a message of each branch. -/
theorem wit_window_x (s m : State) (hs : s = phased .x op) (hm : m = phased .x (atMode .operate 2)) : s.core.tickOn = true ∧
    s.core.phase = .x ∧ s.core.xOpen = false ∧ ({ s with core := { s.core with xOpen := true } } : State).core.xOpen = true ∧
    op.core.phase ≠ .x ∧ activeCfg s = some (cfgT 0) ∧ exports (cfgT 0) = [exportT] ∧
    ((exports (cfgT 0)).map fun k => k.connId).Nodup ∧ isManager s = false ∧ planOf m = some planT ∧ isManager m = true ∧
    laneLive m .a = true ∧ branchMsgs m.lane.a 1 = [] := by subst hs hm; decide

/-- The import has waited one frame; with TIMEOUT 2 the next one is the last. -/
def waited (n : Nat) : State :=
  { op with lane := op.lane.map fun l =>
    { l with blk := [(2, { BlkSt.init with imp := { ImportSt.init with since := n, timedOut := false } })] } }

theorem wit_conn_timeout (p : State) (hp : p = phased .e (waited 1)) : p.core.tickOn = true ∧ p.core.phase = .e ∧
    op.core.phase ≠ .e ∧ timeoutDue (waited 0) (cfgT 0) importT = false ∧ timeoutDue p (cfgT 0) importT = true ∧ activeCfg (waited 1) = some (cfgT 0) ∧
    (imports (cfgT 0)).find? (fun k => k.connId == (7 : W16)) = some importT ∧
    (importOf (reportingLane (waited 1)) (cfgT 0) 7).timedOut = false ∧
    importT.timeout ≤ (importOf (reportingLane (waited 1)) (cfgT 0) 7).since + 1 ∧ deliverable (waited 1) 7 = none ∧
    importInsts (cfgT 0) 7 ≠ [] ∧ ¬ importT.timeout ≤ (importOf (reportingLane (waited 0)) (cfgT 0) 7).since + 1 := by
  subst hp; decide

def envE : PhaseEEnv := { parity := ⟨[], []⟩, stateParity := ⟨[], []⟩, eccDouble := ⟨false, false⟩, corrected := 0, evalTime := ⟨1, 2⟩ }
/-- A block without connections. -/
def noSeeds : State := { op with lane := op.lane.map fun l => { l with cfg := some { cfgT 0 with seeds := [] } } }

theorem wit_phase_e : (phased .e op).core.tickOn = true ∧ (phased .e op).core.phase = .e ∧ op.core.phase ≠ .e ∧ op.test.hold = false ∧ laneLive op .a = true ∧ envE.parity.a = [] ∧
    op.lane.a.cfg = some (cfgT 0) ∧ (cfgT 0).form.inputs = [] ∧ (cfgT 0).form.elems = [.gate .and [0, 1] 2] := by decide
theorem wit_phase_e_tally : (∀ cfg, activeCfg noSeeds = some cfg → cfg.seeds = []) ∧
    (∀ l, envE.parity.at l = [] ∧ envE.stateParity.at l = [] ∧ envE.eccDouble.at l = false ∧ (noSeeds.lane.at l).hostBad = []) ∧ laneLive noSeeds .a = true ∧ 0x00 ∈ allChans ∧ 0x8B ∈ allChans ∧
    tallied noSeeds.lane.a.retired noSeeds.lane.b.retired 0x00 = true :=
  ⟨fun cfg h => by cases h; rfl, fun l => by cases l <;> decide, by decide, by decide, by decide, by decide⟩

def envC (late : Bool) : PhaseCEnv :=
  { late := ⟨late, false⟩, digestUpset := ⟨0, 0⟩, tallyUpset := ⟨0, 0⟩, checkUpset := ⟨0, 0⟩, delivered := ⟨true, false⟩ }

theorem wit_phase_c : (phased .c op).core.tickOn = true ∧ (phased .c op).core.phase = .c ∧ op.core.phase ≠ .c ∧ op.test.hold = false ∧ op.lane.a.retired = false ∧
    (envC false).delivered.a = true ∧ op.crust.a.logicPower = true ∧ (envC false).delivered.b = false ∧
    anyLate (envC true) op = true ∧ isLate (envC true) op .a = true ∧ laneLive op .b = true := by decide
/-- Both lanes deliver the same records. -/
theorem wit_phase_c_agrees (s : State) (h : s = phased .c op) : anyLate (envC false) s = false ∧ s.core.outcomes = [] ∧
    s.host.sampled = none ∧ permitLost s = false ∧ identityBroken (envC false) s = false ∧ bothInService s = true ∧ s.test.learned = false ∧
    compareOuts (envC false) s (laneOut s false s.lane.a) (laneOut s false s.lane.b) = .agree := by subst h; decide +kernel
theorem wit_phase_c_off : (atMode .degraded 0).core.mode ≠ .operate ∧ (atMode .degraded 0).core.mode ≠ .maintain ∧
    (∀ w, (atMode .degraded 0).core.modeNext ≠ some (.operate, w)) ∧
    (∀ w, (atMode .degraded 0).core.modeNext ≠ some (.maintain, w)) ∧ laneLive (atMode .degraded 0) .a = true :=
  ⟨by decide, by decide, fun w => by simp [atMode, CoreSt.reset], fun w => by simp [atMode, CoreSt.reset], by decide⟩

def asked (s : State) (v : Byte) : State := { s with host := { s.host with sampled := some v, modeReq := v } }

theorem wit_mode_request (s : State) (h : s = phased .c (asked op 7)) : s.core.tickOn = true ∧ s.core.phase = .c ∧ s.host.sampled = some 7 ∧
    s.host.rewritten = false ∧ s.core.outcomes = [] ∧ identityBroken (envC false) s = false ∧ faultComing s = false ∧ s.test.hold = false ∧
    anyLate (envC false) s = false ∧ permitLost s = false ∧ requestTarget s 7 = some .shutdown ∧
    requestTarget s 6 = none := by subst h; decide
theorem wit_mode_request_fault (s : State)
    (h : s = { asked op 7 with core := { op.core with fatal := [0x50] } }) :
    s.host.sampled = some 7 ∧ faultComing s = true ∧ s.core.outcomes = [] ∧ identityBroken (envC false) s = false := by
  subst h; decide
theorem wit_mode_request_hold (s : State) (h : s = testHold (asked op 7)) : s.test.hold = true ∧ faultComing s = false ∧
    identityBroken (envC false) s = false := by subst h; decide

def envH (r : SliceResult) : PhaseHEnv := { slice := ⟨r, r⟩, corrected := 0, strobeStuck := false }

theorem wit_phase_h : op.core.tickOn = true ∧ op.core.phase = .h ∧ (phased .g op).core.phase ≠ .h ∧ runsSlice op .a = true ∧ (envH .pass).slice.a = .pass ∧
    (envH .fail).slice.a = .fail ∧ runsSlice (testHold op) .a = false := by decide

def proving : State := { atMode .boot 0 with core := { (atMode .boot 0).core with bootStep := .proving, proving := 16, phase := .c } }
/-- A loaf without an input in use, whose every channel is proved. -/
def provedT : State :=
  { proving with lane := proving.lane.map fun l => { l with cfg := some { cfgT 0 with iomap := [], params := [] } }
                 crust := proving.crust.map fun x => { x with sinceReference := 0, ana := [(0, { AnaSt.init with fresh := true })] } }

theorem wit_proving : provingMet provedT = true ∧ provedT.core.phase = .c ∧ provingMet op = false := by decide

/-! ## Witnesses: clocks and crossings -/

def atFrame256 (s : State) : State := { s with core := { s.core with frameNo := 256 } }

theorem wit_clocks (s : State) (h : s = crustAs fun x => { x with staged := some [] }) : s.core.tickOn = true ∧
    laneLive s .a = true ∧ s.core.inReset = false ∧ (watchers .lanea).any (laneLive s) = true ∧
    s.crust.a.staged.isSome = true ∧ op.crust.a.staged = none ∧ laneLive (laneGone op) .a = false := by subst h; decide

/-! ## Witnesses: the fabric -/

def frameT (cls : BitVec 4) (src dst : Byte) (payload : List Byte) : Frame :=
  { cls := cls, retry := false, hop := 62, src := src, dst := dst, seq := 1, payload := payload }

def mapPort (s : State) (f : PortSt → PortSt) : State := modPort s .p0 f
def worker : State := mapPort { atMode .operate 1 with fab := { FabSt.reset with station := some 1, hop := 1 } } fun q =>
  { q with st := .up }
def manager : State := mapPort (atMode .operate 2) fun q => { q with st := .up }
def inInbox (s : State) (f : Frame) : State := { s with fab := { s.fab with inbox := [(.p0, f)] } }

/-- The greatest hop that is taken, 62; a frame with one wrong link CRC byte; a frame of class 0. -/
theorem wit_frame : worker.core.inReset = false ∧ (portOf worker .p0).st = .up ∧
    linkCrcOk (frameBytes (frameT clsDisc 0 1 [1])) = true ∧ frameKnown (frameBytes (frameT clsDisc 0 1 [1])) = true ∧
    (parseFrame (frameBytes (frameT clsDisc 0 1 [1]))).hop.toNat < 63 ∧ isWorker worker = true ∧
    worker.fab.station = some (parseFrame (frameBytes (frameT clsDisc 0 1 [1]))).dst ∧
    (parseFrame (frameBytes (frameT clsDisc 0 1 [1]))).src ≠ (parseFrame (frameBytes (frameT clsDisc 0 1 [1]))).dst ∧
    isProof (parseFrame (frameBytes (frameT clsDisc 0 1 [1]))).cls = false ∧
    linkCrcOk (frameBytes (frameT clsDisc 0 1 [1]) ++ [0]) = false ∧
    linkCrcOk (frameBytes (frameT 0 0 1 [])) = true ∧ frameKnown (frameBytes (frameT 0 0 1 [])) = false := by decide +kernel

def sentT (late : Bool) : TxRec :=
  { frame := frameT clsDisc 0 1 [1], retried := late, cancelled := false, aborted := false, first := 0, eof := { frame := 0, off := 50000 } }
def keeps (r : TxRec) : State := mapPort worker fun q => { q with kept := [r], tx := some { r with cancelled := true } }

/-- 2.5 us after the EOF a frame is still sent again, 10 ns later no more. -/
theorem wit_hopnak : (portOf (keeps (sentT false)) .p0).kept.find? (fun r => r.frame.cls == clsDisc && r.frame.seq == 1) =
      some (sentT false) ∧
    retryAllowed (keeps (sentT false)) (stampAt (keeps (sentT false)) 50250) (sentT false) = true ∧
    retryAllowed (keeps (sentT false)) (stampAt (keeps (sentT false)) 50251) (sentT false) = false ∧
    (portOf (keeps (sentT false)) .p0).tx = some { sentT false with cancelled := true } := by decide

def portAs (st : PortState) (relock : Bool) : State := mapPort worker fun q => { q with st := st, relocking := relock }

theorem wit_ports : (portOf (portAs .down false) .p0).st = .down ∧ (portOf (portAs .locking false) .p0).st = .locking ∧
    ((portOf (portAs .up true) .p0).st = .up ∧ (portOf (portAs .up true) .p0).relocking = true) ∧
    ((portOf (portAs .up false) .p0).st = .up ∧ (portOf (portAs .up false) .p0).relocking = false) ∧
    (portOf (portAs .bypass false) .p0).st = .bypass ∧ (portOf (portAs .standby false) .p0).st = .standby := by decide

def joining (n : W32) : State :=
  { atMode .boot 1 with core := { (atMode .boot 1).core with bootStep := .join, frameNo := n }
                        fab := { FabSt.reset with heard := 16 } }

theorem wit_join_gap : (joining 256).core.tickOn = true ∧ (joining 256).core.frameNo.toNat % 256 = 0 ∧
    (joining 256).fab.gap = false ∧ mayJoin (joining 256) = true ∧ (joining 257).core.frameNo.toNat % 256 ≠ 0 := by decide
theorem wit_join_gap_closed (s : State) (h : s = { joining 256 with fab := { (joining 256).fab with heard := 15 } }) :
    s.core.tickOn = true ∧ s.core.frameNo.toNat % 256 = 0 ∧ s.fab.gap = false ∧ mayJoin s = false ∧ bypassClosed s = true := by
  subst h; decide
theorem wit_join_gap_end : ({ worker with fab := { worker.fab with gap := true } } : State).fab.gap = true := rfl
def listening (n : Nat) : State := { atMode .boot 2 with fab := { FabSt.reset with listened := n } }
theorem wit_listen : isManager (listening 512) = true ∧ bypassClosed (listening 512) = true ∧
    (listening 512).fab.duplicate = false ∧ 512 ≤ (listening 512).fab.listened ∧ (listening 511).fab.listened < 512 ∧
    isManager (listening 511) = true ∧ bypassClosed (listening 511) = true := by decide

/-- A REPORT of station 1 of the plan, and one that names another position. -/
def reportT (pos : Byte) : List Byte :=
  [0x02, 1, 0, 2, 1, 3, 0, 0] ++ List.replicate 8 1 ++ [5, 0, 0, 0, pos, 0, 0x11, 0x11] ++ zeros 8

theorem wit_call : activeCfg manager = some (cfgT 2) ∧ isManager manager = true ∧ bypassClosed manager = false ∧
    manager.core.inReset = false ∧ activeCfg (inInbox worker (frameT clsDisc 0 0xFF [1])) = some (cfgT 1) ∧
    isManager (inInbox worker (frameT clsDisc 0 0xFF [1])) = false ∧
    Waits (inInbox worker (frameT clsDisc 0 0xFF [1])) (isDisc 0x01) .p0 (frameT clsDisc 0 0xFF [1]) :=
  ⟨rfl, rfl, rfl, rfl, rfl, rfl, by unfold Waits; decide⟩
theorem wit_report (s : State) (f : Frame) (hf : f = frameT clsDisc 0xFE 0 (reportT 1)) (hs : s = inInbox manager f) :
    activeCfg s = some (cfgT 2) ∧ planOf s = some planT ∧ isManager s = true ∧ Waits s (isDisc 0x02) .p0 f ∧
    judgeReport (taken s .p0 f) (cfgT 2) planT (parseReport f) (.p0 != p1Port s) = .inl 1 := by
  subst hf hs; unfold Waits; decide
theorem wit_report_refused (s : State) (f : Frame) (hf : f = frameT clsDisc 0xFE 0 (reportT 2)) (hs : s = inInbox manager f) :
    planOf s = some planT ∧ isManager s = true ∧ Waits s (isDisc 0x02) .p0 f ∧ (1 ≠ 0xFF ∧ 0x02#8 ≠ 0x03#8) ∧
    judgeReport (taken s .p0 f) (cfgT 2) planT (parseReport f) (.p0 != p1Port s) = .inr (1, 0x02) := by
  subst hf hs; unfold Waits; decide
theorem wit_admit (s : State) (f : Frame) (k : Byte) (hf : f = frameT clsDisc 0 0xFE ([k, 1, 1, 0] ++ zeros 8))
    (hs : s = inInbox worker f) (hk : k = 3 ∨ k = 4) :
    isWorker s = true ∧ Waits s (fun f => isDisc k f && forUs s f) .p0 f := by
  unfold Waits; rcases hk with hk | hk <;> subst hk <;> subst hf hs <;> decide

theorem wit_break (s : State) (f : Frame) (k : Byte) (hf : f = frameT clsDisc 1 0 [5, 1, k]) (hs : s = inInbox manager f)
    (hk : k = 0xFE ∨ k = 2) : isManager s = true ∧ Waits s (isDisc 0x05) .p0 f ∧ s.core.off.toNat < startG s.core.tfCode ∧
    (byteAt f.payload 2 = 0xFE#8 ∨ byteAt f.payload 2 ≠ 0xFE#8) := by
  unfold Waits; rcases hk with hk | hk <;> subst hk <;> subst hf hs <;> decide
theorem wit_topo (s : State) (f : Frame) (k : Byte) (hf : f = frameT clsDisc 0 0xFF [6, 1, 2, 3, k]) (hs : s = inInbox worker f)
    (hk : k = 0 ∨ k = 1) : isWorker s = true ∧ Waits s (isDisc 0x06) .p0 f ∧
    (bitOf (byteAt f.payload 4) 0 = false ∨ bitOf (byteAt f.payload 4) 0 = true) := by
  unfold Waits; rcases hk with hk | hk <;> subst hk <;> subst hf hs <;> decide
theorem wit_linkready (s : State) (f : Frame) (hf : f = frameT clsDisc 1 0 [7, 0, 1]) (hs : s = inInbox manager f) :
    isManager s = true ∧ Waits s (isDisc 0x07) .p0 f := by subst hf hs; unfold Waits; decide

def syncAs (s : State) (y : SyncState) (f : FabSt → FabSt) : State := { s with fab := f { s.fab with sync := y } }

/-- A TICK of the segment, its phase error at 5 us. -/
theorem wit_tick_receive (s : State) (f : Frame) (n : Byte) (hf : f = frameT clsTick 0 0xFF [9, 0, 0, 0, n, 5, 0, 0, 0, 0, 0, 0])
    (hs : s = inInbox worker f) (hn : n = 2 ∨ n = 3) :
    activeCfg s = some (cfgT 1) ∧ isManager s = false ∧ Waits s (fun f => f.cls == clsTick) .p0 f ∧
    (tickValid (cfgT 1) f.payload = decide (n = 2)) ∧ bypassClosed s = false ∧ (-5000 : Int).natAbs ≤ 5000 ∧
    (syncAs s .loss id).fab.sync = .loss := by
  unfold Waits; rcases hn with hn | hn <;> subst hn <;> subst hf hs <;> decide
theorem wit_tick_missing : isWorker worker = true ∧ worker.core.tickOn = true ∧ worker.fab.gotTick = false ∧
    noTickFrame worker = false ∧ bypassClosed worker = false ∧ worker.fab.sync ≠ .loss := by decide
theorem wit_sync (s u : State) (hs : s = syncAs worker .inSync fun b => { b with missed := 16, proofFrames := 16 })
    (hu : u = syncAs worker .inSync fun b => { b with missed := 15, proofFrames := 15 }) :
    isWorker s = true ∧ s.fab.sync ≠ .loss ∧ 16 ≤ s.fab.missed ∧ u.fab.missed < 16 ∧ bypassClosed s = false ∧
    s.fab.sync = .inSync ∧ s.fab.settled = true ∧ 16 ≤ s.fab.proofFrames ∧ u.fab.proofFrames < 16 ∧ u.fab.settled = true := by
  subst hs hu; decide

/-! ## Witnesses: SAFE copies, BULK, remote commands, CAN FD -/

/-- A copy of the import of connection 7 in frame 0 for lane A, with its code. -/
def copyT (nb : Byte) (code : List Byte) : List Byte := [7, 0, 0x0A, nb, 1, 0, 0, 0, 0, 0, 0xFF, 0xFF, 0xFF, 0xFF, 0x8E] ++ code
def goodCode : List Byte := le32 (crc32cFrom 1 ([7, 0, 0x0A, 1, 1, 0, 0, 0, 0, 0, 0xFF, 0xFF, 0xFF, 0xFF, 0x8E] : List Byte))
def safeIn (b : List Byte) : State := inInbox worker (frameT clsSafe 2 1 b)

theorem wit_safe (s : State) (hs : s = safeIn (copyT 1 goodCode)) : activeCfg s = some (cfgT 1) ∧
    Waits s (fun f => f.cls == clsSafe) .p0 (frameT clsSafe 2 1 (copyT 1 goodCode)) ∧ s.test.hold = false ∧
    s.fab.sync ≠ .loss ∧ namedLane (byteAt (copyT 1 goodCode) 2) = some .a ∧ laneLive s .a = true ∧
    ((imports (cfgT 1)).find? fun k => k.connId == u16At (copyT 1 goodCode) 0 && !k.canFd && k.peer == 2) = some importT ∧
    checkCopy s (cfgT 1) importT .a (copyT 1 goodCode).length (14 + 1 + codeLen importT)
      (parseSafe (copyT 1 goodCode) (codeLen importT)) = .accepted ∧ (testHold s).test.hold = true := by
  subst hs; unfold Waits; decide +kernel
theorem wit_safe_refused (s : State) (hs : s = safeIn (copyT 1 goodCode)) :
    checkCopy s (cfgT 1) importT .a 19 (14 + 2 + codeLen importT) (parseSafe (copyT 2 goodCode) (codeLen importT)) = .discarded ∧
    checkCopy s (cfgT 1) importT .a 19 (14 + 1 + codeLen importT) (parseSafe (copyT 1 [0, 0, 0, 0]) (codeLen importT)) =
      .badCode := by subst hs; decide +kernel

/-- The import over CAN FD: ECHO names the frame in force. -/
def importCan : Conn := { importT with canFd := true }
def bodyCan : List Byte := [7, 0, 0x0A, 1, 1, 0, 0, 0, 0, 0, 0, 0, 0, 0, 0x8E]
def copyCan : List Byte := padTo 20 (bodyCan ++ le32 (crc32cFrom 1 bodyCan))
def onCan (s : State) : State :=
  { s with can := { s.can with on := true }, lane := s.lane.map fun l => { l with cfg := some { cfgT 1 with seeds := [importCan] } } }

theorem wit_can_safe (s : State) (hs : s = onCan worker) : activeCfg s = some { cfgT 1 with seeds := [importCan] } ∧
    canUp s.can = true ∧ (canF 7 copyCan).ext = false ∧ (canF 7 copyCan).fdf = true ∧ (canF 7 copyCan).ident.toNat < 0x400 ∧
    s.test.hold = false ∧ u16At copyCan 0 = (canF 7 copyCan).ident.setWidth 16 ∧
    u16At copyCan 0 ≠ (canF 0x3FF copyCan).ident.setWidth 16 ∧ (canF 0x3FF copyCan).ident.toNat < 0x400 ∧
    namedLane (byteAt copyCan 2) = some .a ∧ laneLive s .a = true ∧
    ((imports { cfgT 1 with seeds := [importCan] }).find? fun k => k.connId == u16At copyCan 0 && k.canFd) = some importCan ∧
    checkCopy s { cfgT 1 with seeds := [importCan] } importCan .a copyCan.length (dlcLen (14 + 1 + codeLen importCan))
      (parseSafe copyCan (codeLen importCan)) = .accepted := by subst hs; decide +kernel

def streamT (n : Nat) (open_ : Bool) : Stream :=
  { peer := 2, stream := 1, next := 1, unacked := if open_ then [(0, [1])] else [], waiting := [], resends := n, idle := 16 }
def streaming (n : Nat) (open_ : Bool) : State := { worker with fab := { worker.fab with streams := [streamT n open_] } }

theorem wit_bulk (s : State) (hs : s = inInbox worker (frameT clsBulk 2 1 [1, 0, 0, 9])) :
    Waits s (fun f => f.cls == clsBulk) .p0 (frameT clsBulk 2 1 [1, 0, 0, 9]) ∧
    bitOf (byteAt (frameT clsBulk 2 1 [1, 0, 0, 9]).payload 2) 0 = false := by subst hs; unfold Waits; decide
theorem wit_bulk_resend : streamOf (streaming 3 true) 2 1 = some (streamT 3 true) ∧ (streamT 3 true).unacked ≠ [] ∧
    (streamT 3 true).resends < 4 ∧ streamOf (streaming 4 true) 2 1 = some (streamT 4 true) ∧ 4 ≤ (streamT 4 true).resends ∧
    streamOf (streaming 0 false) 2 1 = some (streamT 0 false) ∧ (streamT 0 false).unacked = [] := by decide

theorem wit_remote_request (s : State) (f : Frame) (hf : f = frameT clsMbx 0 1 ([0x04] ++ zeros 12)) (hs : s = inInbox worker f) :
    hearthLive s = true ∧ isWorker s = true ∧ Waits s (fun f => f.cls == clsMbx && !bitOf (byteAt f.payload 0) 3) .p0 f ∧
    (byteAt f.payload 0).toNat % 4 = 0 ∧ bitOf (byteAt f.payload 0) 2 = true ∧ queueFull s = false ∧
    entryOf s (.fabric (segPath f.payload).1 (segPath f.payload).2) = none := by subst hf hs; unfold Waits; decide

/-- An entry sent to station 1 in frame `n`. -/
def sentTo (n : W32) : QEntry := { entryT (.slot 0) 0x00 [] (.sent false 0 (some n)) with target := 1 }
def awaiting (s : State) (l : List QEntry) (now : W32) : State :=
  { s with mbx := { s.mbx with queue := l }, core := { s.core with frameNo := now } }

theorem wit_remote_reply (s u : State) (f : Frame) (hf : f = frameT clsMbx 1 0 ([0x0C] ++ zeros 12))
    (hs : s = inInbox (awaiting manager [sentTo 0] 0) f) (hu : u = inInbox manager f) :
    isManager s = true ∧ Waits s (fun f => f.cls == clsMbx && bitOf (byteAt f.payload 0) 3) .p0 f ∧
    (byteAt f.payload 0).toNat % 4 = 0 ∧ bitOf (byteAt f.payload 0) 2 = true ∧
    sentEntry s (segPath f.payload).1 (segPath f.payload).2 = some (sentTo 0) ∧ (sentTo 0).target = f.src ∧
    sentEntry u (segPath f.payload).1 (segPath f.payload).2 = none := by subst hf hs hu; unfold Waits; decide
/-- ECHO is bound to 2 ms, at 1 ms a frame 2 frames: 66 frames after its request the entry times out. -/
theorem wit_remote_deadline : sentEntry (awaiting manager [sentTo 0] 66) false 0 = some (sentTo 0) ∧
    (sentTo 0).st = .sent false 0 (some 0) ∧
    boundFrames (awaiting manager [sentTo 0] 66) (sentTo 0).cmd + 64 ≤ ((awaiting manager [sentTo 0] 66).core.frameNo - 0).toNat ∧
    ¬ boundFrames (awaiting manager [sentTo 0] 65) (sentTo 0).cmd + 64 ≤
      ((awaiting manager [sentTo 0] 65).core.frameNo - 0).toNat := by decide

def tunnel (a : Option Asm) : State :=
  { op with can := { op.can with on := true, asm := match a with
    | some x => [(0, x)]
    | none => [] } }

theorem wit_tunnel_first (f : CanFrame) (hf : f = canF 0x400 [0x00, 1, 2]) : canUp (tunnel none).can = true ∧
    hearthLive (tunnel none) = true ∧ f.ident = 0x400#29 + (tunnel none).can.node.setWidth 29 ∧
    tabFind (tunnel none).can.asm ((((byteAt f.data 0) >>> 4).setWidth 2 : BitVec 2)).toNat = none ∧
    (byteAt f.data 0).toNat % 8 = 0 ∧ bitOf (byteAt f.data 0) 3 = false := by subst hf; decide
theorem wit_tunnel_next (s : State) (hs : s = tunnel (some { nextSeg := 4, bytes := [1, 0, 0, 0, 0, 0xFF] })) :
    tabFind s.can.asm 0 = some { nextSeg := 4, bytes := [1, 0, 0, 0, 0, 0xFF] } ∧
    4 = (byteAt [0x04] 0).toNat % 8 ∧ (4 ≠ 0 ∧ 4 ≤ 4) ∧ bitOf (byteAt [0x04] 0) 3 = false ∧ 4 = (byteAt [0x0C] 0).toNat % 8 ∧
    bitOf (byteAt [0x0C] 0) 3 = true ∧ queueFull s = false ∧ entryOf s (.can 0) = none ∧
    byteAt (padTo 256 ([1, 0, 0, 0, 0, 0xFF] ++ [])) 5 = 0xFF#8 ∧ (byteAt [0x05] 0).toNat % 8 ≠ 0 ∧
    4 ≠ (byteAt [0x05] 0).toNat % 8 := by subst hs; decide

def canTxT (won : Bool) : CanTx := { ident := 0x440, data := [1], safe := none, won := won, aborted := false }
def canAs (f : CanSt → CanSt) : State := { op with can := f { op.can with on := true } }

theorem wit_can_end : (canAs fun c => { c with txq := [canTxT true] }).can.txq = [canTxT true] ∧ (canTxT true).won = true ∧
    (canTxT true).aborted = false ∧ canUp (canAs fun c => { c with txq := [canTxT true] }).can = true ∧
    (∀ x ∈ [canTxT false], x.won = false) ∧ (canAs id).can.errorPassive = false ∧
    (canAs fun c => { c with busOff := true }).can.busOff = true ∧ (canAs id).can.busOff = false := by decide

/-! ## Witnesses: field inputs -/

def inT (n : Fin 24) : InChan := { crust := .a, num := n }
def inAs (n : Nat) (f : InSt → InSt) : State := crustAs fun x => modIn x n f
def entT (k : Nat) : List Byte := ioT.getD k []
def at0 (o : BitVec 20) : Stamp := { frame := 0, off := o }

/-- DEBOUNCE 3 is 30 us, which a crust realises up to 10 us short (R498): 20 us are enough. -/
theorem wit_debounce (s : State) (hs : s = inAs 0 fun i => { i with raw := true, pend := some (at0 100) }) :
    inputEntry (crustMap s .a) (chanIn .a 0) = some (entT 0) ∧ isLevelMode (inputMode (entT 0)) = true ∧
    inputDebounce (entT 0) ≠ 0 ∧ (inOf s.crust.a 0).raw ≠ false ∧ (inOf s.crust.a 0).pend = some (at0 100) ∧
    (inOf s.crust.a 0).raw ≠ (inOf s.crust.a 0).deb ∧ heldLongEnough s (entT 0) (at0 100) (stampAt s 2100) = true ∧
    heldLongEnough s (entT 0) (at0 100) (stampAt s 2099) = false ∧ inputStamped (entT 0) = true ∧
    (inOf s.crust.a 0).stamps.length < 16 ∧ s.crust.a.logicPower = true := by subst hs; decide
theorem wit_ossd (s : State) (hs : s = { (inAs 1 fun i => { i with deb := true, ossdMark := some (at0 0) }) with
      core := { op.core with frameNo := 5 } }) :
    (inOf s.crust.a 1).ossdMark = some (at0 0) ∧ inputEntry (crustMap s .a) (chanIn .a 1) = some (entT 1) ∧
    inputMode (entT 1) = 3#8 ∧ inputOssdp (entT 1) ≠ 0 ∧ (inOf s.crust.a 1).deb = true ∧
    (inputOssdp (entT 1) * 100000 : Int) ≤ unitsBetween s (at0 0) (stampAt s 0) := by subst hs; decide

def atFrame15 (s : State) : State := { s with core := { s.core with frameNo := 15 } }
def src0 : SrcId := { crust := .a, num := 0 }
def srcAs (f : SrcSt → SrcSt) (g : InSt → InSt) : State :=
  crustAs fun x => modIn (modSrc x 0 fun z => f { z with active := true }) 0 g

theorem wit_pulse (s u : State) (hs : s = srcAs id fun i => { i with retry := [(0, 0xFFFFFFFF)] })
    (hu : u = { s with core := { s.core with frameNo := 15 } }) :
    sourceRuns s src0 = true ∧ (srcOf s.crust.a 0).pulsed = false ∧ slotOf s = sourceSlot src0 ∧
    (∃ n ∈ testedInputs (crustMap s .a) .a, retryDue s src0.num (inOf s.crust.a n) = true) ∧ slotOf u ≠ sourceSlot src0 ∧
    (∀ n ∈ testedInputs (crustMap u .a) .a, retryDue u src0.num (inOf u.crust.a n) = false) ∧
    (srcOf s.crust.a 0).pulseAt = none ∧ sourceRuns op src0 = false := by subst hu hs; decide
/-- 5,499 mV confirm the pulse, 5,500 mV do not. -/
theorem wit_sample (s : State) (hs : s = srcAs (fun z => { z with pulseAt := some (at0 0) }) fun i => { i with retry := [(0, 0xFFFFFFFF)] }) :
    (srcOf s.crust.a 0).pulseAt.isSome = true ∧ slotOf s = sourceSlot src0 ∧ supplyBad s.crust.a = false ∧ 5499 < 5500 ∧
    0 ∈ testedInputs (crustMap s .a) .a ∧ sourceOfInput (crustMap s .a) .a 0 = 0 ∧
    (0 : BitVec 24).getLsbD 0 = false ∧ (1 : BitVec 24).getLsbD 0 = true ∧ retryDue s src0.num (inOf s.crust.a 0) = true ∧
    retryDue s src0.num (inOf (srcAs id id).crust.a 0) = false ∧ (inOf s.crust.a 0).deb = false ∧
    supplyBad { s.crust.a with uvSince := true } = true := by subst hs; decide
/-- In frame 15 of its slots source 0 has no regular test; input 0 of another crust's map hangs on source 1. -/
theorem wit_sample_foreign (s : State) (m : List (List Byte)) (hm : m = [[0x02, 0x00, 2, 1, 3, 0, 1, 0, 0, 0, 0, 0, 0]])
    (hs : s = srcAs (fun z => { z with pulseAt := some (at0 0) }) fun i => { i with rawAtPulse := true, deb := true }) :
    0 ∈ testedInputs m .a ∧ sourceOfInput m .a 0 ≠ src0.num.val ∧ (srcOf s.crust.a (sourceOfInput m .a 0)).pulsed = false ∧
    (inOf s.crust.a 0).rawAtPulse = true ∧ (inOf s.crust.a 0).deb = true ∧
    slotOf (atFrame15 s) ≠ sourceSlot src0 := by subst hm hs; decide

def atFrame (s : State) (n : W32) : State := { s with core := { s.core with frameNo := n } }
def ana0 : AnaId := { crust := .a, num := 0 }

theorem wit_threshold : op.core.tickOn = true ∧ op.crust.a.handshake = true ∧ op.crust.a.logicPower = true ∧
    slotOf (atFrame op 11) < 12 ∧ 12 ≤ slotOf (atFrame op 12) ∧ slotOf (atFrame op 16) < 12 ∧
    modeOfInput (crustMap op .a) (chanIn .a 4) = 0#8 ∧ modeOfInput (crustMap op .a) (chanIn .a 0) ≠ 0#8 := by decide
theorem wit_conversion : op.crust.a.logicPower = true ∧ 12 ≤ slotOf (atFrame op 12) ∧ slotOf (atFrame op 11) < 12 ∧
    (crustAs fun x => { x with logicPower := false }).crust.a.logicPower = false ∧
    (analogEntry (crustMap op .a) .a 0).isSome = true := by decide

/-- 4 us after the last edge of either direction an edge is no more too soon. -/
theorem wit_counter (s : State) (hs : s = inAs 2 fun i => { i with lastEdge := some (at0 0), lastAny := some (at0 0) }) :
    modeOfInput (crustMap s .a) (chanIn .a 2) = 4#8 ∧ (inOf s.crust.a 2).raw = false ∧ (inOf s.crust.a 2).raw ≠ true ∧
    edgeTooSoon s (inOf s.crust.a 2) (stampAt s 399) = true ∧ edgeTooSoon s (inOf s.crust.a 2) (stampAt s 400) = false := by
  subst hs; decide
theorem wit_quadrature : modeOfInput (crustMap op .b) (chanIn .b 1) = 6#8 ∧
    quadEntry (crustMap op .b) (sideBase .b + 1 / 2) = some (entT 6) ∧
    inputEntry (crustMap op .b) (chanIn .b (2 * (1 / 2))) = some (entT 4) ∧ (inOf op.crust.b 1).raw ≠ true ∧
    (inOf op.crust.b 1).overrate = false ∧ edgeTooSoon op (inOf op.crust.b 1) (stampAt op 0) = false := by decide
theorem wit_frequency (s : State)
    (hs : s = atFrame (inAs 3 fun i => { i with lastEdge := some (at0 0) }) 4000) :
    (inOf s.crust.a 3).lastEdge = some (at0 0) ∧ modeOfInput (crustMap s .a) (chanIn .a 3) = 5#8 ∧
    400000000 ≤ unitsBetween s (at0 0) (stampAt s s.core.off) := by subst hs; decide

/-! ## Witnesses: field outputs -/

def legAs (n : Nat) (f : LegSt → LegSt) : State := crustAs fun x => modLeg x n f
def leg0 : LegId := { crust := .a, num := 0 }
def pair0 : Nat × ParamRec := (0, paramT tyQPAIR [0, 0, 1])
def pair1 : Nat × ParamRec := (1, paramT tyLOCKDRV [1, 1, 1])
def conducting (n : Nat) : State :=
  { op with crust := op.crust.map fun x => modLeg x n fun l => { l with cmd := true } }

theorem wit_readback (s : State) (hs : s = legAs 16 fun l => { l with cmd := true }) : crustWorks s .a = true ∧
    (∀ n, n < 17 → legUnjudged (legOf s.crust.a n) = true ∨ (0x10000 : BitVec 17).getLsbD n = (legOf s.crust.a n).cmd) ∧
    (16 < 17 ∧ legUnjudged (legOf s.crust.a 16) = false ∧ (0 : BitVec 17).getLsbD 16 ≠ (legOf s.crust.a 16).cmd ∧
      ∀ k, k < 17 → k ≠ 16 → legUnjudged (legOf s.crust.a k) = true ∨ (0 : BitVec 17).getLsbD k = (legOf s.crust.a k).cmd) ∧
    crustWorks State.reset .a = false := by subst hs; decide
/-- 9 mA is no short, 10 mA is; the slot of pair 0 is slot 0. -/
theorem wit_probe : pairBlock (paramsOf op .a) 0 = some pair0 ∧ pairBlock (paramsOf op .b) 0 = some pair0 ∧
    probeDue op .a 0 (paramsOf op .a) pair0.2 = true ∧ probeDue op .b 0 (paramsOf op .b) pair0.2 = true ∧
    probeDue (atFrame op 1) .a 0 (paramsOf op .a) pair0.2 = false ∧ 9 < 10 ∧ 10 ≤ 10 ∧
    (∀ n ∈ groupLegs pair0.2 .a, (legOf op.crust.a n).senseBad = false) ∧ laneLive op .b = true ∧
    (false = decide (14000 ≤ 13999) ∧ true = decide (14000 ≤ 14000)) ∧ true = decide (2000 ≤ 2000) := by decide
theorem wit_dark_pulse : darkBlock (conducting 0) leg0 = some pair0.2 ∧
    (crustWorks (conducting 0) leg0.crust && darkPulseDue (conducting 0) leg0 pair0.2) = true ∧
    darkBlock op leg0 = some pair0.2 ∧ (crustWorks op leg0.crust && darkPulseDue op leg0 pair0.2) = false := by decide
theorem wit_land_sample : op.core.tickOn = true ∧ crustWorks op .a = true ∧ crustWorks op .b = true ∧
    crustWorks State.reset .a = false := by decide

theorem wit_trip (s : State) (hs : s = legAs 0 fun l => { l with cmd := true }) : (legOf s.crust.a 0).cmd = true ∧
    (legOf s.crust.a 0).blanking = false ∧ (legOf s.crust.a 0).tripped = false ∧ (legOf s.crust.a 0).thermal = false ∧
    crustWorks s .a = true ∧ s.crust.a.logicPower = true := by subst hs; decide
theorem wit_blanking (s : State) (hs : s = legAs 0 fun l => { l with blanking := true }) :
    (legOf s.crust.a 0).blanking = true ∧ (legOf s.crust.a 0).thermal = false ∧ crustWorks s .a = true ∧
    s.crust.a.logicPower = true := by subst hs; decide

def driveAs (f : DriveSt → DriveSt) : State := { op with crust := op.crust.map fun x => modDrive x 1 f }

theorem wit_pull_in (s u : State) (hs : s = driveAs fun d => { d with stage := 1 })
    (hu : u = driveAs fun d => { d with stage := 1, ticksLeft := 1 }) : crustWorks s .a = true ∧
    (driveOf s.crust.a 1).stage = 1 ∧ (driveOf s.crust.a 1).ticksLeft = 0 ∧ (driveOf u.crust.a 1).stage = 1 ∧
    (driveOf u.crust.a 1).ticksLeft ≠ 0 ∧ crustWorks s .b = true ∧ (driveOf s.crust.b 1).stage = 1 ∧
    (driveOf s.crust.b 1).level = none := by subst hs hu; decide
theorem wit_stuckdrive (s : State) (hs : s = driveAs fun d => { d with stage := 1, level := some 10 }) :
    pairBlock (paramsOf s .a) 1 = some pair1 ∧ pairBlock (paramsOf s .b) 1 = some pair1 ∧ crustWorks s .a = true ∧
    pair1.2.ty = tyLOCKDRV ∧ watchdogArmed .a (driveOf s.crust.a 1) = true ∧ watchdogArmed .b (driveOf s.crust.b 1) = true ∧
    watchdogArmed .a (driveOf op.crust.a 1) = false ∧ s.crust.a.logicPower = true ∧
    tabRising none s.crust.a.drives = true := by subst hs; decide

theorem wit_silence (s : State) (hs : s = crustAs fun x => { x with silent := true }) : op.crust.a.handshake = true ∧
    op.crust.a.logicPower = true ∧ op.crust.a.silent = false ∧ (standardLeg (crustMap op .a) .a 5).isSome = true ∧
    standardLeg (crustMap op .a) .a 16 = none ∧ s.crust.a.silent = true ∧ crustWorks op .a = true ∧
    12 ≤ slotOf (atFrame op 12) ∧ slotOf (atFrame op 11) < 12 := by subst hs; decide

/-! ## Witnesses: indicators, probation, the hearth -/

def vectorT : IndVector := { tag := 0, bits := [], cycles := [], pullIns := [] }

theorem wit_indicators (s : State) (hs : s = { op with ind := { op.ind with vector := some vectorT, run := true } }) :
    activeCfg s = some (cfgT 0) ∧ s.ind.vector = some vectorT ∧ hearthLive s = true ∧ s.ind.run = true ∧ op.ind.run = false := by
  subst hs; decide

def probT (n slots : Nat) : Probation :=
  { frames := n, hiProbe := false, loProbe := false, slotPasses := slots, rejoined := false, scanned := false, ossd := false }
/-- The source TA0, channel 0x18, in probation. -/
def probing (n slots : Nat) : State :=
  { op with lane := op.lane.map fun l => modChan l 0x18 fun r => { r with prob := some (probT n slots) } }

theorem wit_probation : (chanOf (reportingLane (probing 16 1)) 0x18).prob = some (probT 16 1) ∧
    (probing 16 1).core.tickOn = true ∧ probationMet (probing 16 1) 0x18 (probT 16 1) = true ∧
    (chanOf (reportingLane (probing 15 1)) 0x18).prob = some (probT 15 1) ∧
    probationMet (probing 15 1) 0x18 (probT 15 1) = false := by decide

def wdAs (n : Nat) (m : Mode) : State := { atMode m 0 with host := { op.host with hostwd := 1, wdCount := n } }

/-- HOSTWD[3:0] 1 is 16 frames. -/
theorem wit_watchdog : wdTimeout (wdAs 16 .operate).host.hostwd = some 16 ∧ (wdAs 16 .operate).core.tickOn = true ∧
    16 ≤ (wdAs 16 .operate).host.wdCount ∧ (wdAs 16 .operate).host.wdExpired = false ∧
    (wdAs 15 .operate).host.wdCount < 16 ∧ (wdAs 0 .safeHold).core.mode = .safeHold ∧
    (wdAs 0 .safeHold).host.hearth = true ∧ (wdAs 0 .operate).core.mode ≠ .safeHold := by decide
theorem wit_hearth (s : State) (hs : s = { op with host := { op.host with hearth := false }
                                                   nv := { op.nv with slots := ⟨{ state := .writing, image := [] }, LoafSlot.empty⟩ } }) :
    hearthStarted s = true ∧ s.host.hearth = false ∧ s.nv.slots.a.state = .writing ∧ s.nv.slots.b.state ≠ .writing := by
  subst hs; decide

/-! ## Witnesses: the host port -/

theorem wit_spi_write : op.core.inReset = false ∧ bitOf (byteAt [0x00, 0x1A, 0x00, 0xFF] 0) 7 = false ∧
    writeFaults op [0x00, 0x1A, 0x00, 0xFF] false = (false, false) ∧
    writeFaults op [0x00, 0x1A, 0x00] false = (true, false) ∧ writeFaults op [0x00, 0x1A, 0x00, 0xFF] true = (true, false) ∧
    writeFaults { op with host := { op.host with crcEn := true } } [0x00, 0x1A, 0x00, 0xFF, 0] false = (false, true) := by
  decide +kernel
/-- 0x7FF is the last location below the slots; FRAME_NO's lowest byte latches all four. -/
theorem wit_spi_read : op.host.crcEn = false ∧ bitOf (0x87 : Byte) 7 = true ∧
    (0x87 : Byte).toNat % 16 * 256 + (0xFF : Byte).toNat = 0x7FF ∧ 0x7FF < 0x800 ∧ multiOf 0x7FF = none ∧
    (∃ a, a < 0x800 ∧ multiOf a = some (a, 4)) ∧ ∃ a b, a < 0x800 ∧ multiOf a = some (b, 4) ∧ a ≠ b :=
  ⟨by decide, by decide, by decide, by decide, by decide, ⟨0x014, by decide⟩, 0x015, 0x014, by decide⟩

def slotAs (k : Nat) (x : MbxState) : State :=
  { op with mbx := { op.mbx with slots := op.mbx.slots.setIfInBounds k x } }

theorem wit_slots : slotWritable (slotAs 7 .filling) ((0x7FF : BitVec 11).toNat / 256) = true ∧
    slotWritable (slotAs 7 .posted) ((0x7FF : BitVec 11).toNat / 256) = false ∧ slotState op 0 = .free ∧
    slotState (slotAs 7 .done) 7 = .done ∧ op.host.hearth = true := by decide
theorem wit_registers : requestable 7 = true ∧ requestable 8 = false ∧ (8 : Byte) ≠ 0 ∧
    writable op (0x010 : BitVec 12).toNat = false := by decide

/-! ## Witnesses: the mailbox -/

theorem wit_gates : (∃ e, nextToStart (ask op (.slot 0) 0x03 []) (.slot 0) 0x03 e ∧ lifeGate op.nv.life 0x03 = true ∧
      modeGate op.core.mode 0x03 e.payload = false) ∧ (∀ e, ¬ nextToStart op (.slot 0) 0x03 e) ∧
    lifeGate .retired 0x03 = false ∧ modeGate .maintain 0x03 [0, 0, 0, 0, 0] = true ∧
    (∃ r, cmdRow 0x03 = some r ∧ 5 < r.lo ∧ r.hi < 7) :=
  ⟨⟨entryT (.slot 0) 0x03 [] .waiting, by unfold nextToStart; decide, by decide, by decide⟩,
    fun e h => absurd h.2.1 (by simp [op, atMode, entryOf, State.reset, MbxSt.reset]), by decide, by decide, ⟨_, rfl, by decide, by decide⟩⟩

/-- A request in slot 7 for target `k`: ECHO without a payload and its check value. -/
def posted (s : State) (k : Byte) : State :=
  { s with mbx := { s.mbx with slots := s.mbx.slots.setIfInBounds 7 .posted
                               mem := memWriteBytes [] (256 * 7) ([0, 0, 0, 0, 0, k, 0, 0] ++ le32 (crc32c [0, 0, 0, 0, 0, k, 0, 0])) } }

theorem wit_slot_take (s : State) (k : Byte) (hs : s = posted op k) (hk : k = 0xFF ∨ k = 1) : hearthLive s = true ∧
    queueFull s = false ∧ slotState s 7 = .posted ∧ (∀ j : Fin 8, j.val < 7 → slotState s j.val ≠ .posted) ∧
    byteAt (slotImage s 7) 5 = k ∧ ownStation s ≠ some 1 ∧ firstChecks (slotImage s 7) true = .waiting ∧
    isManager s = false ∧ (isManager (posted (atMode .operate 2) 1) = true ∧
      reachable (posted (atMode .operate 2) 1) 1 = false) := by
  rcases hk with hk | hk <;> subst hk <;> subst hs <;> decide +kernel
theorem wit_reply (s : State) (hs : s = awaiting op [entryT (.slot 7) 0x00 [] (.replied 0 (zeros 244))] 0) :
    hearthLive s = true ∧ entryOf s (.slot 7) = some (entryT (.slot 7) 0x00 [] (.replied 0 (zeros 244))) ∧
    (zeros 244).length ≤ 244 := by subst hs; decide +kernel

theorem wit_reporting (s : State) (hs : s = op) (via : Via) : Starts (ask s via 0x00 (zeros 244)) via 0x00 (zeros 244) ∧
    Starts (ask s via 0x01 []) via 0x01 [] ∧ Starts (ask s via 0x05 []) via 0x05 [] ∧ Starts (ask s via 0x13 [1]) via 0x13 [1] ∧
    Starts (ask s via 0x13 [2]) via 0x13 [2] ∧ Starts (ask s via 0x26 []) via 0x26 [] ∧
    Starts (ask s via 0x33 []) via 0x33 [] ∧ Starts (ask s via 0x31 []) via 0x31 [] ∧ Starts (ask s via 0x70 []) via 0x70 [] := by
  subst hs; refine ⟨?_, ?_, ?_, ?_, ?_, ?_, ?_, ?_, ?_⟩ <;> exact starts_ask _ _ _ _ (by decide +kernel)

def maint : State := atMode .maintain 0
def config : State := atMode .configure 0

theorem wit_mode_set (via : Via) : Starts (ask op via 0x02 [7]) via 0x02 [7] ∧ Starts (ask op via 0x32 []) via 0x32 [] ∧
    requestable 7 = true ∧ Starts (ask op via 0x02 [0]) via 0x02 [0] ∧ Starts (ask op via 0x02 [8]) via 0x02 [8] ∧
    Starts (ask op via 0x02 [1]) via 0x02 [1] ∧ requestable 1 = false :=
  ⟨starts_ask _ _ _ _ (by decide), starts_ask _ _ _ _ (by decide), by decide, starts_ask _ _ _ _ (by decide),
    starts_ask _ _ _ _ (by decide), starts_ask _ _ _ _ (by decide), by decide⟩
/-- Frames 0, 1, 4, 5 and 2^31 after the one in which the request was taken. -/
theorem wit_maint_hold (via : Via) (n : Byte) (h : n = 0 ∨ n = 1 ∨ n = 4 ∨ n = 5) :
    Starts (ask maint via 0x03 [n, 0, 0, 0, 1, 0]) via 0x03 [n, 0, 0, 0, 1, 0] ∧
    (u32At [n, 0, 0, 0, 1, 0] 0 - (entryT (.slot 0) 0x03 [] .waiting).taken).toNat = n.toNat ∧
    0x80000000 ≤ (u32At [0, 0, 0, 0x80, 1, 0] 0 - (0 : W32)).toNat ∧
    Starts (ask op via 0x04 (zeros 16)) via 0x04 (zeros 16) := by
  refine ⟨starts_ask _ _ _ _ ?_, ?_, by decide, starts_ask _ _ _ _ (by decide)⟩ <;>
    rcases h with h | h | h | h <;> subst h <;> decide

def loafAs (s : State) (x : SlotState) (image : List Byte) : State :=
  { s with nv := { s.nv with slots := ⟨LoafSlot.empty, { state := x, image := image }⟩ } }

theorem wit_loaf_write (via : Via) :
    Starts (ask (loafAs op .empty []) via 0x10 [1, 1, 0, 0, 0, 0, 0, 0, 9]) via 0x10 [1, 1, 0, 0, 0, 0, 0, 0, 9] ∧
    Starts (ask (loafAs op .writing [9]) via 0x10 [1, 0, 1, 0, 0, 0, 0, 0, 9]) via 0x10 [1, 0, 1, 0, 0, 0, 0, 0, 9] ∧
    (natAt [1, 0, 1, 0, 0, 0, 0, 0, 9] 2 4 = ([9] : List Byte).length ∧ natAt [1, 0, 1, 0, 0, 0, 0, 0, 9] 6 2 = 0) ∧
    (loafAs op .writing [9]).nv.slots.b.state = .writing ∧ sideOf 1 = .b ∧ 1 + (9 - 8) ≤ 0x200000 :=
  ⟨starts_ask _ _ _ _ (by decide), starts_ask _ _ _ _ (by decide), by decide, rfl, rfl, by decide⟩
theorem wit_loaf (via : Via) (x : SlotState) : Starts (ask (loafAs config x [9]) via 0x11 [1]) via 0x11 [1] ∧
    Starts (ask (loafAs config x [9]) via 0x12 [1]) via 0x12 [1] ∧ Starts (ask (loafAs config x [9]) via 0x14 [1]) via 0x14 [1] ∧
    Starts (ask (loafAs config x [9]) via 0x10 [1, 1, 0, 0, 0, 0, 0, 0, 9]) via 0x10 [1, 1, 0, 0, 0, 0, 0, 0, 9] ∧
    (loafAs config x [9]).nv.slots.b.state = x :=
  ⟨starts_ask _ _ _ _ rfl, starts_ask _ _ _ _ rfl, starts_ask _ _ _ _ rfl, starts_ask _ _ _ _ rfl, rfl⟩

theorem wit_chan_status (via : Via) : Starts (ask op via 0x20 [0x8B, 1]) via 0x20 [0x8B, 1] ∧
    (chanKind 0x8B).isSome = true ∧ ((allChans.filter fun k => decide (0x8B ≤ k)).take 1).length = 1 ∧
    ((allChans.filter fun k => decide (0x00 ≤ k)).take 48).length = 48 ∧ Starts (ask op via 0x20 [0x35, 1]) via 0x20 [0x35, 1] ∧
    (chanKind 0x35).isNone = true :=
  ⟨starts_ask _ _ _ _ (by decide), by decide, by decide, by decide, starts_ask _ _ _ _ (by decide), by decide⟩
theorem wit_readmit (via : Via) (s : State) (h : s = ask (outSrc op) via 0x21 [0x18]) : Starts s via 0x21 [0x18] ∧
    (chanKind 0x18).isSome = true ∧ isLaneChan 0x18 = none ∧ sideRetired s 0x18 = false ∧
    (chanOf (reportingLane s) (ownChan s 0x18)).retired = true ∧ ownChan s 0x18 ∉ s.mbx.readmits ∧ resetPathOk s 0x18 = true ∧
    (chanOf (reportingLane op) (ownChan op 0x18)).retired = false ∧ sideRetired (laneGone op) 0x18 = true ∧
    Starts (ask (laneGone op) via 0x21 [0x18]) via 0x21 [0x18] := by
  subst h
  exact ⟨starts_ask _ _ _ _ (by decide), by decide, by decide, rfl, rfl, by simp [ask, outSrc, op, atMode, State.reset, MbxSt.reset],
    rfl, by decide, by decide, starts_ask _ _ _ _ (by decide)⟩
def isolated (s : State) : State := { s with mbx := { s.mbx with chanOps := [(0, .isolate true)] } }
theorem wit_isolate (via : Via) : Starts (ask config via 0x22 [0x57, 1]) via 0x22 [0x57, 1] ∧ isInputChan 0x57 = true ∧
    Starts (ask (isolated config) via 0x23 [0]) via 0x23 [0] ∧ isolatedSoon (isolated config) 0 = true ∧
    isolatedSoon config 0 = false ∧ (chanKind 0).isSome = true ∧ Starts (ask maint via 0x24 [0, 2]) via 0x24 [0, 2] ∧
    isInputChan 0 = true ∧ leavingMaintain maint = false :=
  ⟨starts_ask _ _ _ _ (by decide), by decide, starts_ask _ _ _ _ (by decide), by decide, by decide, by decide,
    starts_ask _ _ _ _ (by decide), by decide, by decide⟩

/-! ## Witnesses: modes, lifecycle, tally, self-tests -/

theorem wit_mode_change (s : State) (h : s = { op with core := { op.core with modeNext := some (.maintain, .request) } }) :
    s.inv = true ∧ modeEdge s.core.mode .maintain = true ∧ ∃ t, step s = .next t := by
  subst h; exact ⟨by decide, by decide, _, rfl⟩

/-- LIFECYCLE_SET to FIELD with the tag of R395 under a key of 16 bytes and a nonce of zeros. -/
def lifeTag (new : Byte) : List Byte := hmacSha256 cmacKey (zeros 16 ++ padTo 8 (zeros 8) ++ [0x77#8] ++ [new, 0, 0, 0])
def lifeAs (s : State) (key nonce : Bool) : State :=
  { s with nv := { s.nv with lifeKey := if key then some cmacKey else none }
           mbx := { s.mbx with nonce := if nonce then some (zeros 16) else none } }

theorem lifeTag_length (new : Byte) (h : new = 3 ∨ new = 4) : (lifeTag new).length = 32 := by
  rcases h with h | h <;> subst h <;> decide

theorem wit_life_set (via : Via) (key nonce : Bool) (p : List Byte) (hp : p = [4, 0, 0, 0] ++ zeros 32 ∨ p = [4, 0, 0, 0] ++ lifeTag 4) :
    Starts (ask (lifeAs config key nonce) via 0x77 p) via 0x77 p ∧ bytesAt p 1 3 = [0, 0, 0] ∧
    lifeOfCode (byteAt p 0) = some .retired ∧ lifeMove (lifeAs config key nonce).nv.life .retired = true ∧
    lifeMove .commission .commission = false ∧ (p.drop 4 = zeros 32 ∨ p.drop 4 = lifeTag 4) := by
  rcases hp with hp | hp <;> subst hp
  · refine ⟨starts_ask _ _ _ _ ?_, ?_, ?_, ?_, ?_, .inl ?_⟩ <;> cases key <;> cases nonce <;> decide +kernel
  · refine ⟨starts_ask _ _ _ _ ?_, ?_, ?_, ?_, ?_, .inr ?_⟩ <;> cases key <;> cases nonce <;> decide +kernel
theorem wit_life_differs : zeros 32 ≠ lifeTag 4 := by decide +kernel
theorem wit_key_load (via : Via) (p : List Byte) (hp : p = [1, 7, 32, 0] ++ zeros 32) :
    Starts (ask config via 0x75 p) via 0x75 p ∧ p.length = 36 ∧ byteAt p 0 = 1 ∧ (byteAt p 1).toNat < 8 ∧ byteAt p 2 = 32 ∧
    byteAt p 3 = 0 ∧ Starts (ask config via 0x76 []) via 0x76 [] := by
  subst hp
  exact ⟨starts_ask _ _ _ _ (by decide), by decide, by decide, by decide, by decide, by decide,
    starts_ask _ _ _ _ (by decide)⟩
theorem wit_production (s : State) (h : s = { op with nv := { op.nv with life := .manufacture } }) :
    s.nv.life = .manufacture ∧ op.nv.life ≠ .manufacture := by subst h; decide

/-- VDD33 was removed, no token is valid, every block passes. -/
theorem wit_lane_returns (s : State) (h : s = { laneGone State.reset with lane := ⟨{ LaneSt.reset with retired := true, powerCycled := true }, LaneSt.reset⟩ }) :
    s.lane.a.retired = true ∧ s.core.inReset = true ∧
    s.lane.a.powerCycled = true ∧ op.lane.a.powerCycled = false ∧ tokenValid (advanceBoot s.nv) = false ∧ ∀ b ∈ setFull, blockFails (bootWindow s) [] b = false := by
  subst h; decide

def transientT : Rep := { chan := 0, code := 1, permanent := false }
def permanentT : Rep := { chan := 0, code := 1, permanent := true }
theorem wit_tally : (tallyChan (3, 64) 0 [transientT] { ChanRec.clear with tally := 2 }).1.tally = 3 ∧
    (tallyChan (3, 64) 0 [transientT] { ChanRec.clear with tally := 2 }).1.retired = true ∧
    (tallyChan (3, 64) 0 [permanentT] ChanRec.clear).1.retired = true ∧
    (tallyChan (3, 64) 0 [] { ChanRec.clear with tally := 2, clean := 63 }).1.tally = 1 ∧
    (tallyChan (3, 64) 0 [] { ChanRec.clear with tally := 2, clean := 62 }).1.clean = 63 ∧
    (tallyChan (3, 64) 0 [transientT] { ChanRec.clear with retired := true }).1 = { ChanRec.clear with retired := true } := by
  decide

def testing (via : Via) (m : Mode) : State := { testHold (atMode m 0) with test := { op.test with hold := true, asked := some (some via, 19) } }
theorem wit_selftest (via : Via) : Starts (ask maint via 0x30 [20]) via 0x30 [20] ∧ knownBlock 20 = false ∧
    Starts (ask maint via 0x30 [19]) via 0x30 [19] ∧ knownBlock 19 = true ∧ bothInService maint = true ∧
    Starts (ask (laneGone maint) via 0x30 [0xFF]) via 0x30 [0xFF] ∧ knownBlock 0xFF = true ∧ bothInService (laneGone maint) = false ∧
    (testing via .maintain).test.asked = some (some via, 19) ∧ (testing via .maintain).test.hold = true ∧
    (testing (.slot 0) .operate).core.mode ≠ .maintain ∧ op.test.asked = none :=
  ⟨starts_ask _ _ _ _ (by decide), by decide, starts_ask _ _ _ _ (by decide), by decide, by decide,
    starts_ask _ _ _ _ (by decide), by decide, by decide, rfl, rfl, by decide, rfl⟩
theorem wit_shutdown_test (s : State) (h : s = { atMode .shutdown 0 with test := { op.test with shutdown := 2 } }) :
    s.core.mode = .shutdown ∧ s.test.shutdown = 2 ∧ (∀ b ∈ setCommand, (finalResult s s.test.lockouts [] b).2.1 = 0x00#8) ∧
    s.test.fromSafeHold = false ∧ ¬ (op.core.mode = .shutdown ∧ op.test.shutdown = 2) := by subst h; decide

/-! ## Witnesses: measurements, the journal -/

def keyless : State := { op with nv := { op.nv with attKey := none } }
def certsT : State := { op with nv := { op.nv with certs := [[], [], [1, 2]] } }
theorem wit_measurements (via : Via) : Starts (ask op via 0x40 [8, 1]) via 0x40 [8, 1] ∧
    Starts (ask op via 0x40 [7, 0]) via 0x40 [7, 0] ∧ Starts (ask op via 0x40 [7, 2]) via 0x40 [7, 2] ∧
    Starts (ask op via 0x40 [7, 1]) via 0x40 [7, 1] ∧ Starts (ask op via 0x40 [1, 7]) via 0x40 [1, 7] ∧
    Starts (ask certsT via 0x42 [3, 0, 0]) via 0x42 [3, 0, 0] ∧ Starts (ask certsT via 0x42 [2, 2, 0]) via 0x42 [2, 2, 0] ∧
    Starts (ask certsT via 0x42 [2, 1, 0]) via 0x42 [2, 1, 0] ∧ (certOf certsT.nv 2).length = 2 ∧
    Starts (ask op via 0x41 (zeros 16)) via 0x41 (zeros 16) ∧ op.nv.attKey = some 0 ∧ keyless.nv.attKey = none ∧ op.meas.disabled = false ∧
    Starts (ask keyless via 0x41 (zeros 16)) via 0x41 (zeros 16) := by
  refine ⟨?_, ?_, ?_, ?_, ?_, ?_, ?_, ?_, by decide, ?_, rfl, rfl, rfl, ?_⟩ <;> exact starts_ask _ _ _ _ (by decide)

/-- Pages 0 and 12,287 are written, 0 the older one. -/
def paged (s : State) : State := { s with nv := { s.nv with pages := [(0, 1), (12287, 2)] } }
def sessionAs (s : State) (x : Session) : State := { s with jrn := { s.jrn with sessions := ⟨some x, none⟩ } }
theorem wit_jrn_open (via : Via) : Starts (ask (paged op) via 0x50 [3, 0, 0]) via 0x50 [3, 0, 0] ∧
    Starts (ask (paged op) via 0x50 [2, 0, 0x30]) via 0x50 [2, 0, 0x30] ∧ ((0 : Byte).toNat + 256 * (0x30 : Byte).toNat = 12288) ∧
    Starts (ask (paged op) via 0x50 [2, 0xFF, 0x2F]) via 0x50 [2, 0xFF, 0x2F] ∧
    startPage (paged op) 2 12287 = some (12287, 2) ∧ startPage (paged op) 0 0 = some (0, 1) ∧
    (paged op).jrn.sessions.a = none ∧ ((sessionAs op ⟨0, 1, 0⟩).jrn.sessions.a.isSome = true ∧
    (sessionAs op ⟨0, 1, 0⟩).jrn.sessions.b = none) :=
  ⟨starts_ask _ _ _ _ (by decide), starts_ask _ _ _ _ (by decide), by decide, starts_ask _ _ _ _ (by decide), by decide,
    by decide, rfl, rfl, rfl⟩
theorem wit_jrn_read (via : Via) (s : State) (h : s = sessionAs (paged op) ⟨0, 1, 31⟩) :
    Starts (ask s via 0x51 [0]) via 0x51 [0] ∧ s.jrn.sessions.a = some ⟨0, 1, 31⟩ ∧ 31 < 32 ∧
    tabFind s.nv.pages 0 = some 1 ∧ s.nv.openPage ≠ some 0 ∧ Starts (ask s via 0x51 [1]) via 0x51 [1] ∧
    s.jrn.sessions.b = none ∧ Starts (ask s via 0x52 [0]) via 0x52 [0] ∧ Starts (ask s via 0x52 [1]) via 0x52 [1] ∧
    tabFind s.nv.pages 12287 ≠ some 1 := by
  subst h
  exact ⟨starts_ask _ _ _ _ (by decide), rfl, by decide, by decide, by decide, starts_ask _ _ _ _ (by decide), rfl,
    starts_ask _ _ _ _ (by decide), starts_ask _ _ _ _ (by decide), by decide⟩
def pinned (n : Nat) : State := { paged op with nv := { (paged op).nv with pins := (List.range n).map (· + 1) } }
theorem wit_pins (via : Via) (v : Byte) (hv : v = 0 ∨ v = 1) : Starts (ask (pinned 255) via 0x53 [0, 0x30, v]) via 0x53 [0, 0x30, v] ∧
    Starts (ask (pinned 255) via 0x53 [0xFF, 0x2F, v]) via 0x53 [0xFF, 0x2F, v] ∧ pinnable (pinned 255).nv 12287 = true ∧
    12287 ∉ (pinned 255).nv.pins ∧ (pinned 255).nv.pins.length < 256 ∧ 256 ≤ (pinned 256).nv.pins.length ∧
    pinnable (pinned 255).nv 1 = false ∧ Starts (ask op via 0x54 []) via 0x54 [] ∧ Starts (ask op via 0x55 []) via 0x55 [] ∧
    oldestPage (paged op).nv = some (0, 1) ∧ newestPage (paged op).nv = some (12287, 2) := by
  refine ⟨starts_ask _ _ _ _ ?_, starts_ask _ _ _ _ ?_, ?_, ?_, ?_, ?_, ?_, starts_ask _ _ _ _ ?_, starts_ask _ _ _ _ ?_,
    ?_, ?_⟩ <;> rcases hv with hv | hv <;> subst hv <;> decide +kernel

def writing (s : State) (buf : List (List Byte)) (u : Nat) : State :=
  { s with nv := { s.nv with openPage := some 12287, openUnit := u }, jrn := { s.jrn with buf := buf } }
theorem wit_crumb : (∀ p, (writing op [zeros 32] 126).nv.openPage = some p → p < 12288) ∧
    hearthLive (writing op [zeros 32] 126) = true ∧ (writing op [zeros 32] 126).jrn.closed = false ∧
    (writing op [zeros 32] 126).jrn.buf = zeros 32 :: [] ∧ (zeros 32).length = 32 ∧
    (writing op [zeros 32] 126).nv.openPage = some 12287 ∧ (writing op [zeros 32] 126).nv.openUnit < 127 ∧
    (writing op [zeros 32] 126).jrn.lost = 0 ∧ (writing op [] 126).jrn.buf = [] ∧
    (writing (atMode .shutdown 0) [] 126).core.mode = .shutdown ∧ hearthLive State.reset = false :=
  ⟨fun p h => by simp [writing] at h; omega, by decide, rfl, rfl, by decide, rfl, by decide, rfl, rfl, rfl, rfl⟩

def cycleT : CycleRec := { start := 0, samples := [], truncated := false, edges := [], edgesCut := false, marks := [none, none, none, none] }
def doors (s : State) (open_ : Bool) : State :=
  { s with jrn := { s.jrn with rose := [true, true, false, false, false, false]
                               cycles := ⟨if open_ then some cycleT else none, none⟩ } }
theorem wit_epoch : hearthLive op = true ∧ op.core.tickOn = true ∧ (atFrame op 1024).core.frameNo.toNat % 1024 = 0 ∧
    (atFrame op 1025).core.frameNo.toNat % 1024 ≠ 0 := by decide
theorem wit_cycles : (doors op true).jrn.rose.getD (6 * 0) false = true ∧ (doors op true).jrn.rose.getD (6 * 0 + 1) false = true ∧
    (doors op true).jrn.cycles.a = some cycleT ∧ (doors op false).jrn.cycles.a = none ∧
    op.jrn.rose.getD (6 * 1) false = false ∧ op.jrn.rose.getD (6 * 1 + 1) false = false ∧ (doors op true).jrn.closed = false ∧
    bufUnits (doors op true).jrn.buf + 128 ≤ 512 := by decide

/-! ## Witnesses: the fabric's reports, door positions, the actuator bus -/

theorem wit_fabric_reports (via : Via) (s : State) (h : s = manager) : Starts (ask s via 0x60 []) via 0x60 [] ∧
    Starts (ask s via 0x61 [64, 1]) via 0x61 [64, 1] ∧ Starts (ask s via 0x61 [63, 2]) via 0x61 [63, 2] ∧
    Starts (ask s via 0x61 [63, 1]) via 0x61 [63, 1] ∧ Starts (ask s via 0x61 [50, 14]) via 0x61 [50, 14] ∧
    Starts (ask s via 0x62 [2, 1]) via 0x62 [2, 1] ∧ Starts (ask s via 0x62 [1, 2]) via 0x62 [1, 2] ∧
    Starts (ask s via 0x62 [0, 2]) via 0x62 [0, 2] ∧ (cfgT 2).seeds.length = 2 ∧ isManager s = true ∧ isManager op = false := by
  subst h
  refine ⟨?_, ?_, ?_, ?_, ?_, ?_, ?_, ?_, by decide, by decide, by decide⟩ <;> exact starts_ask _ _ _ _ (by decide)
theorem wit_can_config (via : Via) (p : List Byte) (h : p ∈ ([[1, 63, 3, 3], [2, 63, 3, 3], [1, 64, 3, 3], [1, 63, 4, 3],
    [1, 63, 3, 4]] : List (List Byte))) : Starts (ask config via 0x71 p) via 0x71 p := by
  simp only [List.mem_cons, List.not_mem_nil, or_false] at h
  rcases h with h | h | h | h | h <;> subst h <;> exact starts_ask _ _ _ _ (by decide)

def runT (caps : Two (List (Option Int × Option Int))) : LearnRun :=
  { via := .slot 0, pairA := 1, pairB := 0x40, cycles := 2, caps := caps }
def capsT (far : Int) : Two (List (Option Int × Option Int)) :=
  ⟨[(some 0, some 0), (some 0, some far)], [(some 0, some 0), (some 0, some 0)]⟩
def learning (s : State) (caps : Two (List (Option Int × Option Int))) : State :=
  { ask s (.slot 0) 0x72 [] with mbx := { s.mbx with
    queue := [entryT (.slot 0) 0x72 [] .running], learn := some (runT caps) } }
theorem wit_learn (via : Via) (n : Byte) (h : n ∈ ([1, 2, 16, 17] : List Byte)) : pairCodeA 1 = true ∧ pairCodeB 0x40 = true ∧
    Starts (ask config via 0x72 [1, 0x40, n]) via 0x72 [1, 0x40, n] ∧ (quadOfLoaf config 1).isSome = true ∧
    (quadOfLoaf config 0x40).isSome = true ∧ config.mbx.learn = none := by
  refine ⟨by decide, by decide, starts_ask _ _ _ _ ?_, by decide, by decide, rfl⟩
  simp only [List.mem_cons, List.not_mem_nil, or_false] at h
  rcases h with h | h | h | h <;> subst h <;> decide
/-- HOMETOL is 0, so captures that differ by 1 spread too far. -/
theorem wit_learned : (learning config (capsT 0)).mbx.learn = some (runT (capsT 0)) ∧ missingCycle (runT (capsT 0)) = none ∧
    spreadPair (learning config (capsT 0)) (runT (capsT 0)) = none ∧ (runT (capsT 0)).pairA ≠ (runT (capsT 0)).pairB ∧
    missingCycle (runT (capsT 1)) = none ∧ spreadPair (learning config (capsT 1)) (runT (capsT 1)) = some 1 ∧
    missingCycle (runT ⟨[], []⟩) = some 1 ∧
    entryOf (learning config (capsT 0)) (.slot 0) = some (entryT (.slot 0) 0x72 [] .running) := by decide
def withOffsets (s : State) : State := { s with mbx := { s.mbx with learned := [(1, (1, 2)), (0x40, (3, 4))] } }
theorem wit_confirm (via : Via) : Starts (ask (withOffsets config) via 0x73 [1, 0x40]) via 0x73 [1, 0x40] ∧
    tabFind (withOffsets config).mbx.learned 1 = some (1, 2) ∧ tabFind (withOffsets config).mbx.learned 0x40 = some (3, 4) ∧
    tabFind config.mbx.learned 1 = none ∧ Starts (ask config via 0x73 [1, 0x40]) via 0x73 [1, 0x40] ∧
    Starts (ask config via 0x74 [1]) via 0x74 [1] :=
  ⟨starts_ask _ _ _ _ (by decide), by decide, by decide, rfl, starts_ask _ _ _ _ (by decide), starts_ask _ _ _ _ (by decide)⟩

/-- 256 pull-ins wait, key slot 0 is filled. -/
def wearing : State :=
  { op with act := { op.act with chips := [(0, { ChipSt.init with present := true, authOk := true, pending := 256 })] }
            nv := { op.nv with actKeys := [(0, cmacKey)] } }
def scanning : State := { op with act := { op.act with scanDue := true, scanVia := [.slot 0] } }
def busOut : State :=
  { op with lane := op.lane.map fun l => modChan l chanActBus fun r => { r with retired := true } }
theorem wit_bus (via : Via) : Starts (ask op via 0x78 []) via 0x78 [] ∧ Starts (ask op via 0x79 []) via 0x79 [] ∧
    busState op ≠ 2 ∧ busActive op op.core.mode = true ∧ busState busOut = 2 ∧
    busActive (atMode .safeHold 0) (atMode .safeHold 0).core.mode = false ∧ busUsable scanning = true ∧
    scanning.act.scanDue = true ∧ scanning.act.recoverDue = false ∧ busUsable busOut = false ∧
    (chipEntries scanning)[0]? = some (0, entT 10) ∧ chipKey scanning (entT 10) = none :=
  ⟨starts_ask _ _ _ _ (by decide), starts_ask _ _ _ _ (by decide), by decide, by decide, by decide, by decide, by decide, rfl,
    rfl, by decide, by decide, by decide⟩
theorem wit_wear (challenge : List Byte) (hc : challenge = (List.range 16).map (Config.freeByte wearing.drawn)) :
    (chipEntries wearing).find? (fun c => c.1 == 0) = some (0, entT 10) ∧ advanceDue wearing 0 = true ∧
    advanceDue op 0 = false ∧ chipKey wearing (entT 10) = some cmacKey ∧
    (256 : W32).toNat = (chipOf wearing 0).count.toNat + 256 ∧
    ∃ hmac, hmac = hmacSha256 cmacKey (challenge ++ zeros 8 ++ le32 256 ++ [byteAt (entT 10) 2]) ∧
      challenge = (List.range 16).map (Config.freeByte wearing.drawn) :=
  ⟨by decide, by decide, by decide, by decide, by decide, _, rfl, hc⟩

/-! ## Witnesses: further clauses of the fabric -/

/-- The code groups of a frame: SOF, its bytes, EOF. -/
def framed (b : List Byte) : List CodeGroup := .k277 :: b.map .data ++ [.k297]

theorem wit_groups (f g : List CodeGroup) (hf : f = framed (frameBytes (frameT clsDisc 0 1 [1])))
    (hg : g = framed (frameBytes (frameT clsDisc 0 1 [1]) ++ [0])) : State.reset.core.inReset = true ∧
    CodeGroup.symbol ∈ [CodeGroup.k285, .symbol] ∧ f.head? = some .k277 ∧ CodeGroup.symbol ∉ [CodeGroup.k285] ∧
    (takeGroups [.data 1, .k307]).ending = .abort ∧ (takeGroups [.data 1, .symbol, .k297]).symbol = true ∧
    (takeGroups [.data 1, .k285]).ending = .cut ∧
    takeGroups (f.drop 1) = { bytes := frameBytes (frameT clsDisc 0 1 [1]), symbol := false, ending := .good } ∧
    linkCrcOk (takeGroups (g.drop 1)).bytes = false := by subst hf hg; decide +kernel
/-- A REPORT on the line to the manager. -/
theorem wit_report_arrives (b : List CodeGroup) (x : Taken) (hb : b = framed (frameBytes (frameT clsDisc 0xFE 0 (reportT 1))))
    (hx : x = takeGroups (b.drop 1)) : b.head? = some .k277 ∧ isManager manager = true ∧ manager.core.inReset = false ∧
    (portOf manager .p0).st = .up ∧ x.symbol = false ∧ x.ending = .good ∧ linkCrcOk x.bytes = true ∧
    frameKnown x.bytes = true ∧ isDisc 0x02 (parseFrame x.bytes) = true ∧ (parseFrame x.bytes).dst = 0 ∧
    (parseFrame x.bytes).src ≠ 0 := by subst hb hx; decide +kernel
theorem wit_no_hopnak : (portOf worker .p0).kept.find? (fun r => r.frame.cls == clsDisc && r.frame.seq == 1) = none ∧
    (portOf worker .p0).tx = none := by decide

theorem wit_port_actions (s m : State) (hs : s = portAs .up true) (hm : m = { manager with fab := { manager.fab with gap := true } }) :
    s.fab.breakDue ≠ some PortId.p0.other ∧ ¬ ((portOf worker .p0).st = .up ∧ (portOf worker .p0).relocking = true) ∧
    (joining 256).core.tickOn = true ∧ m.fab.gap = true ∧ bypassClosed worker = false ∧
    ({ atFrame256 worker with fab := worker.fab } : State).core.frameNo.toNat % 256 = 0 ∧ worker.fab.gap = false := by
  subst hs hm; decide

/-- Station 2 of a plan of three is refused by position; station 1 is held by another worker of this CALL; 0xFF and station 0. -/
def held (s : State) : State :=
  { s with fab := { s.fab with members := [(1, { state := 1, reason := 0, h := 1, mode := 0, tag := [], p0Branch := false, call := 0 })] } }
theorem wit_report_held (s : State) (f : Frame) (hf : f = frameT clsDisc 0xFE 0 (reportT 1)) (hs : s = held (inInbox manager f)) :
    planOf s = some planT ∧ isManager s = true ∧ Waits s (isDisc 0x02) .p0 f ∧ (tabGet memberNone s.fab.members 1).state = 1 ∧
    (tabGet memberNone s.fab.members 1).call = s.fab.callNo ∧
    judgeReport (taken s .p0 f) (cfgT 2) planT (parseReport f) (.p0 != p1Port s) = .inr (1, 0x03) := by subst hf hs; unfold Waits; decide
theorem wit_refused_tick (s : State) (h : s = phased .g { worker with fab := { worker.fab with refused := true } }) :
    s.fab.refused = true ∧ s.core.tickOn = true ∧ s.core.phase = .g := by subst h; decide

theorem wit_break_unadmitted (s u : State) (f : Frame) (hf : f = frameT clsDisc 0xFE 0 [5, 1, 0xFE]) (hs : s = inInbox manager f)
    (hu : u = inInbox { manager with fab := { manager.fab with members :=
      [(1, { state := 1, reason := 0, h := 63, mode := 0, tag := [], p0Branch := false, call := 0 })] } } f) :
    (∀ e ∈ branchMembers s .p1, e.2.h.toNat ≤ f.hop.toNat) ∧ (∃ e ∈ branchMembers u .p1, f.hop.toNat < e.2.h.toNat) ∧
    byteAt f.payload 2 = 0xFE#8 ∧ startG s.core.tfCode ≤ (atOff s 99999).core.off.toNat ∧ isManager u = true := by
  subst hf hs hu; decide

/-- A TICK arrives 5,000 ns after its expected time over a link of 150 ns; one that arrives 5,001 ns after is not used. -/
theorem wit_tick_error (s u : State) (f : Frame) (hf : f = frameT clsTick 0 0xFF [9, 0, 0, 0, 2, 5, 0, 0, 0, 0, 0, 0])
    (hs : s = inInbox worker f) (hu : u = inInbox (joining 256) f) :
    (5150 - (natAt f.payload 9 3 + (portOf s .p0).delay.getD 150 : Nat) - s.core.slewNs : Int).natAbs ≤ 5000 ∧
    5000 < (5151 - (natAt f.payload 9 3 + (portOf s .p0).delay.getD 150 : Nat) - s.core.slewNs : Int).natAbs ∧
    s.fab.sync ≠ .loss ∧ bypassClosed u = true ∧ activeCfg u = some (cfgT 1) ∧ isManager u = false ∧
    Waits u (fun f => f.cls == clsTick) .p0 f ∧ tickValid (cfgT 1) f.payload = true ∧ u.fab.heardFrame ≠ some 8 := by
  subst hf hs hu; unfold Waits; decide
theorem wit_foreign_manager (s : State) (f : Frame) (hf : f = frameT clsTick 0 0xFF [9, 0, 0, 0, 2, 5, 0, 0, 0, 0, 0, 0])
    (hs : s = inInbox manager f) : activeCfg s = some (cfgT 2) ∧ isManager s = true ∧
    Waits s (fun f => f.cls == clsTick) .p0 f ∧ s.fab.duplicate = false ∧
    ({ s with fab := { s.fab with duplicate := true } } : State).fab.duplicate = true := by
  subst hf hs; unfold Waits; decide
theorem wit_tick_missing_closed (s u : State) (hs : s = { joining 257 with fab := { (joining 257).fab with sync := .inSync } })
    (hu : u = syncAs worker .loss id) : isWorker s = true ∧ s.core.tickOn = true ∧ s.fab.gotTick = false ∧ noTickFrame s = false ∧
    bypassClosed s = true ∧ u.fab.sync = .loss ∧ bypassClosed u = false ∧ noTickFrame u = false ∧ u.fab.gotTick = false := by
  subst hs hu; decide

/-! ## Witnesses: further clauses of SAFE copies, BULK and remote commands -/

theorem wit_safe_dropped (s : State) (hs : s = safeIn (copyT 1 goodCode)) : (testHold s).test.hold = true ∧
    namedLane (byteAt [7, 0, 0x0C] 2) = none ∧ laneLive (laneGone s) .a = false ∧
    ((imports (cfgT 1)).find? fun k => k.connId == u16At [8, 0] 0 && !k.canFd && k.peer == 2) = none ∧
    7 ∈ ({ s.lane.a with seenCopies := [7] } : LaneSt).seenCopies := by subst hs; decide +kernel
theorem wit_can_safe_dropped (s : State) (m : SafeMsg) (hs : s = onCan worker) (hm : m = parseSafe copyCan (codeLen importCan)) :
    canUp op.can = false ∧ (canF 0x400 []).ident.toNat = 0x400 ∧ namedLane (byteAt [7, 0, 0x0C] 2) = none ∧
    ((imports { cfgT 1 with seeds := [importCan] }).find? fun k => k.connId == u16At [8, 0] 0 && k.canFd) = none ∧
    m.nb = importCan.beads ∧ copyCan.length = dlcLen (14 + m.nb + codeLen importCan) ∧
    safeCode s importCan .a m.body = some m.code ∧
    checkCopy { s with lane := s.lane.map fun l => { l with seenCopies := [7] } } { cfgT 1 with seeds := [importCan] }
      importCan .a copyCan.length (dlcLen (14 + m.nb + codeLen importCan)) m ≠ .accepted := by subst hs hm; decide +kernel

theorem wit_bulk_order (s u : State) (f g : Frame) (hf : f = frameT clsBulk 2 1 [1, 0, 0, 9]) (hg : g = frameT clsBulk 2 1 [1, 3, 1])
    (hs : s = inInbox worker f) (hu : u = { s with fab := { s.fab with bulkIn := [(bulkKey 2 1, 7)] } }) :
    tabFind s.fab.bulkIn (bulkKey f.src 1) = none ∧ byteAt f.payload 1 = 0 ∧ tabFind u.fab.bulkIn (bulkKey f.src 1) = some 7 ∧
    byteAt f.payload 1 ≠ 7 + 1 ∧ bitOf (byteAt g.payload 2) 0 = true ∧
    Waits (inInbox (streaming 0 true) g) (fun f => f.cls == clsBulk) .p0 g ∧
    (∀ y ∈ (streaming 0 true).fab.streams, y.peer = g.src → y.waiting = []) := by
  subst hf hg hs hu; unfold Waits; decide
theorem wit_bulk_idle (s : State) (x : Stream) (hx : x = { streamT 3 true with idle := 15 })
    (hs : s = { worker with fab := { worker.fab with streams := [x] } }) : streamOf s 2 1 = some x ∧ x.idle < 16 ∧
    16 ≤ (streamT 3 true).idle ∧ streamOf s 2 2 = none := by subst hx hs; decide

/-- Segments 0, 1 and 2 of a request under way, one out of order and one that nothing precedes. -/
theorem wit_segments (s u : State) (f : Frame) (n : Byte) (hf : f = frameT clsMbx 0 1 (n :: zeros 12)) (hn : n = 0 ∨ n = 1 ∨ n = 2)
    (hs : s = inInbox worker f) (hu : u = { s with fab := { s.fab with asm := [(0, { nextSeg := 2, bytes := [1] })] } }) :
    hearthLive s = true ∧ isWorker s = true ∧ Waits s (fun f => f.cls == clsMbx && !bitOf (byteAt f.payload 0) 3) .p0 f ∧
    bitOf (byteAt f.payload 0) 2 = false ∧ (byteAt f.payload 0).toNat % 4 = n.toNat ∧ segKey f.payload = 0 ∧
    tabFind s.fab.asm 0 = none ∧ tabFind u.fab.asm 0 = some { nextSeg := 2, bytes := [1] } := by
  unfold Waits; rcases hn with h | h | h <;> subst h <;> subst hf hs hu <;> decide
theorem wit_remote_busy (s : State) (f : Frame) (hf : f = frameT clsMbx 0 1 ([0x04] ++ zeros 12))
    (hs : s = { inInbox worker f with mbx := { worker.mbx with queue := [entryT (.fabric false 0) 0x00 [] .waiting] } }) :
    (entryOf s (.fabric (segPath f.payload).1 (segPath f.payload).2)).isSome = true ∧
    tabFind s.fab.asm (segKey f.payload) = none ∧ byteAt (padTo 256 (f.payload.drop 1)) 5 = 0 ∧ ownStation s ≠ some 0 ∧
    ownStation s = some 1 := by subst hf hs; decide +kernel
theorem wit_remote_unawaited (s : State) (f : Frame) (hf : f = frameT clsMbx 2 0 ([0x0C] ++ zeros 12))
    (hs : s = inInbox (awaiting manager [sentTo 0] 0) f) : sentEntry s false 0 = some (sentTo 0) ∧ (sentTo 0).target ≠ f.src ∧
    sentEntry s true 0 = none ∧ (sentTo 0).st = .sent false 0 (some 0) := by subst hf hs; decide

theorem wit_tunnel_none (f : CanFrame) (hf : f = canF 0x401 [0x00, 1, 2]) : canUp op.can = false ∧
    f.ident ≠ 0x400#29 + (tunnel none).can.node.setWidth 29 ∧ hearthLive State.reset = false ∧ f.ext = false ∧
    tabFind (tunnel none).can.asm 0 = none ∧ (byteAt [0x08] 0).toNat % 8 = 0 ∧ bitOf (byteAt [0x08] 0) 3 = true := by
  subst hf; decide
theorem wit_can_between (s : State) (hs : s = canAs fun c => { c with txq := [canTxT false, { canTxT true with aborted := true }] }) :
    (s.can.txq.find? fun t => t.won) = some { canTxT true with aborted := true } ∧
    ({ canTxT true with aborted := true } : CanTx).aborted = true ∧ (canAs id).can.busOff = false := by subst hs; decide

/-! ## Witnesses: further clauses of field inputs and outputs -/

/-- Both crusts with this map alone. -/
def mapped (m : List (List Byte)) (s : State) : State :=
  { s with lane := s.lane.map fun l => { l with cfg := some { cfgT 0 with iomap := m } } }
/-- Input 0 without DEBOUNCE. -/
def quickMap : List (List Byte) := [[0x02, 0x00, 2, 0, 0, 0, 0, 0, 0, 0, 0, 0, 0]]
theorem wit_raw (s u : State) (hs : s = mapped quickMap op) (hu : u = crustAs fun x => { x with logicPower := false }) :
    (inOf op.crust.a 0).raw ≠ true ∧ (inOf op.crust.a 0).raw = false ∧ op.crust.a.logicPower = true ∧ u.crust.a.logicPower = false ∧
    inputEntry (crustMap op .a) (chanIn .a 2) = some (entT 2) ∧ isLevelMode (inputMode (entT 2)) = false ∧
    inputEntry (crustMap op .a) (chanIn .a 0) = some (entT 0) ∧ inputDebounce (entT 0) ≠ 0 ∧
    inputEntry (crustMap s .a) (chanIn .a 0) = some (quickMap.getD 0 []) ∧ isLevelMode (inputMode (quickMap.getD 0 [])) = true ∧
    inputDebounce (quickMap.getD 0 []) = 0 ∧ refPairs (crustMap s .a) .a 0 = [] := by subst hs hu; decide
theorem wit_debounce_ends (s u : State) (i : InSt) (hi : i = { InSt.init with raw := true, pend := some (at0 100), stamps := List.replicate 16 { at_ := at0 0, level := true } })
    (hs : s = inAs 0 fun _ => i) (hu : u = mapped quickMap s) : (inOf s.crust.a 0).pend = some (at0 100) ∧
    16 ≤ (inOf s.crust.a 0).stamps.length ∧ inputStamped (entT 0) = true ∧ heldLongEnough s (entT 0) (at0 100) (stampAt s 2100) = true ∧
    inputStamped (quickMap.getD 0 []) = false ∧ refPairs (crustMap u .a) .a 0 = [] ∧
    heldLongEnough u (quickMap.getD 0 []) (at0 100) (stampAt u 100) = true ∧ (inOf u.crust.a 0).raw ≠ (inOf u.crust.a 0).deb ∧
    (inOf op.crust.a 0).pend = none := by subst hi; subst hs hu; decide
theorem wit_ossd_none (s : State) (hs : s = inAs 1 fun i => { i with deb := false, ossdMark := some (at0 0) }) :
    (inOf s.crust.a 1).ossdMark = some (at0 0) ∧ inputEntry (crustMap s .a) (chanIn .a 1) = some (entT 1) ∧
    (inOf s.crust.a 1).deb = false := by subst hs; decide
theorem wit_source_overcurrent (s u : State) (hs : s = srcAs id id) (hu : u = srcAs (fun z => { z with pulseAt := some (at0 0) }) id) :
    sourceRuns s src0 = true ∧ (srcOf s.crust.a 0).pulseAt = none ∧ (srcOf u.crust.a 0).pulseAt.isSome = true ∧
    sourceRuns op src0 = false := by subst hs hu; decide
theorem wit_no_reference (s : State) (hs : s = crustAs fun x => { x with handshake := false }) : s.crust.a.handshake = false ∧
    State.reset.core.tickOn = false ∧ analogEntry (crustMap op .a) .a 1 = none ∧ (4 : Nat) > 3 := by subst hs; decide
/-- Input 2 counts, input 3 is a Frequency, input 5 is not in use; a quadrature phase of crust B over its rate. -/
theorem wit_edges (s : State) (hs : s = { op with crust := { op.crust with b := modIn op.crust.b 0 fun i => { i with overrate := true } } }) :
    inputEntry (crustMap op .a) (chanIn .a 5) = none ∧ inputEntry (crustMap op .a) (chanIn .a 2) = some (entT 2) ∧
    inputEntry (crustMap op .a) (chanIn .a 3) = some (entT 3) ∧ inputMode (entT 2) = 4#8 ∧ inputMode (entT 3) = 5#8 ∧
    inputFilter (entT 2) ≤ 50 ∧ inputEntry (crustMap op .b) (chanIn .b 1) = some (entT 5) ∧ inputMode (entT 5) = 6#8 ∧
    quadEntry (crustMap op .b) (sideBase .b + 0) = some (entT 6) ∧ inputEntry (crustMap op .b) (chanIn .b (2 * 0)) = some (entT 4) ∧
    (inOf s.crust.b 0).overrate = true ∧ (inOf op.crust.b 0).overrate = false ∧ 49 < inputFilter (entT 5) ∧
    inputMode (entT 0) ≠ 4#8 ∧ inputMode (entT 0) ≠ 5#8 ∧ inputMode (entT 0) ≠ 6#8 := by subst hs; decide
theorem wit_frequency_none (s : State) (hs : s = atFrame (inAs 3 fun i => { i with lastEdge := some (at0 0) }) 3999) :
    unitsBetween s (at0 0) (stampAt s s.core.off) < 400000000 ∧ (inOf op.crust.a 3).lastEdge = none := by subst hs; decide

theorem wit_probe_none (s : State) (hs : s = atMode .safeHold 0) : pairBlock (paramsOf op .a) 7 = none ∧ s.core.mode = .safeHold ∧
    (crustAs fun x => { x with lockout := true }).crust.a.lockout = true ∧ laneLive (laneGone op) Side.b.other = false := by
  subst hs; decide
theorem wit_dark_none : darkBlock op { crust := .a, num := 9 } = none ∧ State.reset.core.tickOn = false := by decide
theorem wit_blanking_over (s u : State) (hs : s = legAs 0 fun l => { l with blanking := true, blankLeft := 0 })
    (hu : u = legAs 0 fun l => { l with blanking := true, blankLeft := 1 }) : (legOf s.crust.a 0).blankLeft = 0 ∧
    (legOf u.crust.a 0).blankLeft ≠ 0 ∧ (legOf s.crust.a 0).thermal = false ∧
    (legOf (legAs 0 fun l => { l with thermal := true }).crust.a 0).thermal = true ∧ (legOf op.crust.a 0).cmd = false := by
  subst hs hu; decide
theorem wit_drive_none : crustWorks State.reset .a = false ∧ pairBlock (paramsOf op .a) 7 = none ∧
    (crustAs fun x => { x with logicPower := false }).crust.a.logicPower = false ∧ (driveOf op.crust.a 1).stage ≠ 1 := by decide
/-- Without a CRUSTOUT entry SILENCE is 4 frames, of which 36 tenths must have passed. -/
theorem wit_silence_over (s u : State) (hs : s = crustAs fun x => { x with sinceFrame := 3 })
    (hu : u = crustAs fun x => { x with sinceFrame := 2 }) :
    9 * silenceFrames (crustMap s .a) .a ≤ 10 * (s.crust.a.sinceFrame + 1) ∧
    10 * (u.crust.a.sinceFrame + 1) < 9 * silenceFrames (crustMap u .a) .a := by subst hs hu; decide

/-! ## Witnesses: further clauses of the indicators, the hearth and the host port -/

theorem wit_no_pattern (s : State) (hs : s = { op with ind := { op.ind with icStb := true } }) : activeCfg State.reset = none ∧
    op.ind.vector = none ∧ hearthLive State.reset = false ∧ s.ind.icStb = true ∧ op.ind.icStb = false ∧
    (chanOf (reportingLane s) chanIndChain).prob = none := by subst hs; decide
theorem wit_no_probation : (chanOf (reportingLane op) 0x18).prob = none ∧ (chanKind 0x18).isSome = true ∧
    chanKind 0x20 = some (.leg .a 0) ∧ 0 ∈ legsWith (cfgT 0).params .a 0 ∧ 0 ∈ pairsOfLeg (cfgT 0).params .a 0 ∧
    (pairBlock (cfgT 0).params 0).isSome = true := by decide
theorem wit_watchdog_off (s : State) (hs : s = { wdAs 16 .operate with host := { (wdAs 16 .operate).host with wdExpired := true } }) :
    wdTimeout op.host.hostwd = none ∧ wdTimeout s.host.hostwd = some 16 ∧ s.host.wdExpired = true ∧
    hearthStarted State.reset = false ∧ State.reset.host.hearth = false := by subst hs; decide
theorem wit_spi_other : State.reset.core.inReset = true ∧ bitOf (byteAt [0x80] 0) 7 = true ∧ bitOf (byteAt [0x00] 0) 7 = false := by
  decide
theorem wit_slot_refused (s : State) (hs : s = slotAs 7 .posted) : slotWritable s ((0x7FF : BitVec 11).toNat / 256) = false ∧
    State.reset.host.hearth = false := by subst hs; decide

/-! ## Witnesses: further clauses of the mailbox -/

theorem wit_gates_last (s : State) (hs : s = atMode .maintain 0) (e : QEntry)
    (he : e = { entryT (.slot 0) 0x03 (zeros 6) .waiting with badField := some 3 }) :
    nextToStart { s with mbx := { s.mbx with queue := [e] } } (.slot 0) 0x03 e ∧ lifeGate s.nv.life 0x03 = true ∧
    modeGate s.core.mode 0x03 e.payload = true ∧ e.badField = some 3 ∧
    ∃ r, cmdRow 0x03 = some r ∧ r.lo ≤ e.payload.length ∧ e.payload.length ≤ r.hi := by
  subst hs he; exact ⟨by unfold nextToStart; decide, by decide, by decide, rfl, _, rfl, by decide, by decide⟩
theorem wit_slot_sent (s : State) (hs : s = posted (modPort { held manager with fab := { (held manager).fab with
    topo := { Topo.none with p1Tail := 1 } } } .p1 fun q => { q with st := .up }) 1) :
    isManager s = true ∧ byteAt (slotImage s 7) 5 = 1 ∧ reachable s 1 = true ∧ freeIdx s false = some 0 ∧
    (∀ k : Fin 8, slotState op k.val ≠ .posted) ∧ hearthLive State.reset = false := by subst hs; decide +kernel
theorem wit_no_index (s : State) (hs : s = awaiting manager ((List.range 4).map fun k =>
    { entryT (.slot 0) 0x00 [] (.sent false (BitVec.ofNat 2 k) none) with target := 1 }) 0) : freeIdx s false = none := by
  subst hs; decide
theorem wit_reply_waits (via : Via) (st : QState) (s : State) (hs : s = awaiting op [entryT via 0x00 [] st] 0) :
    entryOf s via = some (entryT via 0x00 [] st) ∧ entryOf op via = none := by
  subst hs; simp [awaiting, entryOf, entryT, op, atMode, State.reset, MbxSt.reset]
/-- Mode codes 7 and 1, 0 and 8 as before; an entry that awaits its mode is answered SUPERSEDED. -/
theorem wit_superseded (s : State) (hs : s = awaiting op [entryT (.slot 3) 0x02 [7] (.awaitingMode false)] 0) :
    requestable 7 = true ∧ (s.mbx.queue[0]?).map (·.st) = some (.awaitingMode false) ∧
    (entryOf s (.slot 3)).isSome = true := by subst hs; decide

theorem wit_loaf_refused (via : Via) (s : State) (hs : s = loafAs op .valid [9]) :
    Starts (ask s via 0x10 [2, 1, 0, 0, 0, 0, 0, 0, 9]) via 0x10 [2, 1, 0, 0, 0, 0, 0, 0, 9] ∧
    Starts (ask s via 0x10 [1, 1, 1, 0, 0, 0, 0, 0, 9]) via 0x10 [1, 1, 1, 0, 0, 0, 0, 0, 9] ∧
    Starts (ask s via 0x10 [1, 0, 0, 0, 0, 0, 0, 0, 9]) via 0x10 [1, 0, 0, 0, 0, 0, 0, 0, 9] ∧
    byteAt [1, 1] 1 &&& 0xFE#8 = 0 ∧ natAt [1, 1, 1, 0, 0, 0] 2 4 ≠ 0 ∧ s.nv.slots.b.state ≠ .writing := by
  subst hs
  exact ⟨starts_ask _ _ _ _ (by decide), starts_ask _ _ _ _ (by decide), starts_ask _ _ _ _ (by decide), by decide, by decide,
    by decide⟩
/-- An image of one byte fails its first check. -/
theorem wit_activation_fails : (checkImage [9]).isSome = true ∧ (activationCheck op.nv [9]).isSome = true := by decide

theorem wit_readmit_cases (via : Via) : Starts (ask op via 0x21 [0x18]) via 0x21 [0x18] ∧ isLaneChan 0x18 = none ∧
    Starts (ask config via 0x22 [0x18, 0]) via 0x22 [0x18, 0] ∧ isInputChan 0x18 = false ∧
    Starts (ask config via 0x22 [0, 2]) via 0x22 [0, 2] ∧ Starts (ask maint via 0x24 [0x18, 0]) via 0x24 [0x18, 0] ∧
    Starts (ask maint via 0x24 [0, 3]) via 0x24 [0, 3] ∧ Starts (ask (phased .s maint) via 0x24 [0, 2]) via 0x24 [0, 2] ∧
    (phased .s maint).core.phase ≠ .h ∧ (phased .s maint).core.phase ≠ .g ∧ maint.core.phase = .h ∧
    leavingMaintain { maint with core := { maint.core with modeNext := some (.operate, .request) } } = true := by
  refine ⟨?_, by decide, ?_, by decide, ?_, ?_, ?_, ?_, by decide, by decide, rfl, by decide⟩ <;>
    exact starts_ask _ _ _ _ (by decide)

/-- LIFECYCLE_SET with a reserved byte and with no lifecycle; KEY_LOAD of each kind, of kinds that there are not, with a slot, a length
field and a reserved byte out of range, and of a lifecycle key under another; lengths that a kind does not take. -/
theorem wit_key_forms (via : Via) (p : List Byte) (h : p ∈ ([[2, 15, 16, 0] ++ zeros 16, [1, 7, 32, 0] ++ zeros 32,
    [0, 0, 32, 0] ++ zeros 32, [4, 0, 32, 0] ++ zeros 32, [2, 16, 16, 0] ++ zeros 16, [1, 8, 32, 0] ++ zeros 32,
    [1, 7, 31, 0] ++ zeros 32, [1, 7, 32, 1] ++ zeros 32, [3, 0, 32, 0] ++ zeros 64] : List (List Byte))) :
    Starts (ask (lifeAs config true true) via 0x75 p) via 0x75 p := by
  simp only [List.mem_cons, List.not_mem_nil, or_false] at h
  rcases h with h | h | h | h | h | h | h | h | h <;> subst h <;> exact starts_ask _ _ _ _ (by decide)
theorem wit_key_first (via : Via) : Starts (ask (lifeAs config false true) via 0x75 ([3, 0, 32, 0] ++ zeros 32)) via 0x75
    ([3, 0, 32, 0] ++ zeros 32) ∧ (lifeAs config false true).nv.lifeKey = none := ⟨starts_ask _ _ _ _ (by decide), rfl⟩
theorem wit_key_length (s : State) (hs : s = lifeAs config true true) (e : QEntry)
    (he : e = entryT (.slot 0) 0x75 ([2, 15, 16, 0] ++ zeros 32) .waiting) :
    nextToStart { s with mbx := { s.mbx with queue := [e] } } (.slot 0) 0x75 e ∧ lifeGate s.nv.life 0x75 = true ∧
    modeGate s.core.mode 0x75 e.payload = true ∧ keyLoadNeeds s 0x75 e.payload = some 20 ∧ e.payload.length ≠ 20 ∧
    keyLoadNeeds s 0x75 ([0, 0] ++ zeros 17) = none ∧ ([0, 0] ++ zeros 17 : List Byte).length < 20 := by
  subst hs he; exact ⟨by unfold nextToStart; decide, by decide, by decide, by decide, by decide, by decide, by decide⟩
theorem wit_life_fields (via : Via) : Starts (ask config via 0x77 ([4, 1, 0, 0] ++ zeros 32)) via 0x77 ([4, 1, 0, 0] ++ zeros 32) ∧
    Starts (ask config via 0x77 ([9, 0, 0, 0] ++ zeros 32)) via 0x77 ([9, 0, 0, 0] ++ zeros 32) ∧ lifeOfCode 9 = none :=
  ⟨starts_ask _ _ _ _ (by decide), starts_ask _ _ _ _ (by decide), by decide⟩

/-- The whole chunks of the open page, a session at the end of a page, and an overwritten page. -/
theorem wit_jrn_moves (via : Via) (s : State) (x : Session) (hx : x = ⟨0, 1, 32⟩) (hs : s = sessionAs (paged op) x) :
    Starts (ask s via 0x51 [0]) via 0x51 [0] ∧ s.jrn.sessions.a = some x ∧ moveOn s.nv x = ⟨12287, 2, 0⟩ ∧
    tabFind s.nv.pages (moveOn s.nv x).page = some (moveOn s.nv x).pseq ∧
    tabFind (sessionAs (paged op) ⟨0, 7, 0⟩).nv.pages 0 ≠ some 7 ∧ Starts (ask s via 0x51 [2]) via 0x51 [2] ∧
    Starts (ask s via 0x52 [2]) via 0x52 [2] ∧ Starts (ask (paged op) via 0x53 [0, 0x2F, 2]) via 0x53 [0, 0x2F, 2] ∧
    startPage (paged op) 2 5 = none ∧ startPage op 0 0 = none := by
  subst hx hs
  exact ⟨starts_ask _ _ _ _ (by decide), rfl, by decide, by decide, by decide, starts_ask _ _ _ _ (by decide),
    starts_ask _ _ _ _ (by decide), starts_ask _ _ _ _ (by decide), by decide, by decide⟩

/-! ## Witnesses: further clauses of start-up and the frame -/

/-- Step 3 fails at its third load, after the hearth's firmware was released; the host asks for CONFIGURE; an image of one byte does not
verify. -/
theorem wit_release_ends (s : State) (env : BootEnv) (hs : s = { State.reset with nv := { State.reset.nv with
      slots := ⟨{ state := .active, image := [9] }, LoafSlot.empty⟩, records := ⟨{ seq := 1, active := some .a, crcOk := true }, State.reset.nv.records.b⟩ } })
    (he : env = { boot1 [] with step3Fail := some 2, configureAsked := true }) : env.step3Fail = some 2 ∧ 2 ≤ (2 : Fin 6).val ∧
    configureAsked s env = true ∧ ∃ i, activeImage s.nv = some i ∧ (lanesVerify s.nv env.identityUpset i).isSome = true := by
  subst hs he; exact ⟨rfl, by decide, by decide, _, rfl, by decide +kernel⟩

/-- A loaf on which the lanes have agreed, asked for by slot 0. -/
def switchT (agreed : Bool) : PendingSwitch := { via := some (.slot 0), slot := .b, agreed := agreed, cfgA := cfgT 0, cfgB := cfgT 0 }
def switching (s : State) (agreed : Bool) : State :=
  { s with mbx := { s.mbx with queue := [entryT (.slot 0) 0x12 [1] .running], switch := some (switchT agreed) } }

theorem wit_tick_samples (s : State) (hs : s = phased .g (asked (switching op true) 7)) : s.core.startUp = none ∧ s.core.tickOn = true ∧
    s.core.phase = .g ∧ hearthLive s = true ∧ s.host.modeReq = 7 ∧ s.mbx.switch = some (switchT true) ∧ (switchT true).agreed = true ∧
    (Via.slot 0) ∉ s.act.scanVia ∧ (∀ c, s.crust.at c = op.crust.at c) ∧ op.crust.a.logicPower = true ∧ op.crust.b.logicPower = true ∧
    (∀ n, (inOf op.crust.a n).pend = none) ∧ inputEntry (crustMap s .a) (chanIn .a 2) = some (entT 2) ∧
    (quadEntry (crustMap s .b) (sideBase .b + 0)).isSome = true ∧ (analogEntry (crustMap s .a) .a 0).isSome = true ∧
    pairShortHeld s.lane.a = false ∧ 0 ∈ drivenPairs (cfgT 0).params ∧ pairRetired (cfgT 0).params s.lane.a 0 = false ∧
    heldByShort (pairRecOf s.lane.a 0) = false := by
  subst hs
  exact ⟨rfl, rfl, rfl, rfl, rfl, rfl, rfl, by simp [phased, asked, switching, op, atMode, State.reset, ActSt.reset],
    fun c => by cases c <;> rfl, rfl, rfl, fun n => rfl, by decide, by decide, by decide, by decide, by decide, by decide, by decide⟩

/-- Blanking and a pull-in that the tick left at 0; one operation waits; a switch on which the lanes' check words differ in one bit. -/
theorem wit_phase_s_ends (s u : State) (hs : s = legAs 0 fun l => { l with blanking := true, blankLeft := 0, thermal := true })
    (hu : u = { switching op false with mbx := { (switching op false).mbx with chanOps := [(0, .force (some true))] } }) :
    crustWorks s .a = true ∧ (legOf s.crust.a 0).blanking = true ∧ (legOf s.crust.a 0).blankLeft = 0 ∧
    (legOf s.crust.a 0).thermal = true ∧ (driveOf (driveAs fun d => { d with stage := 1 }).crust.a 1).stage = 1 ∧
    (driveOf (driveAs fun d => { d with stage := 1 }).crust.a 1).ticksLeft = 0 ∧ hearthLive u = true ∧
    u.mbx.chanOps = [(0, .force (some true))] ∧ u.mbx.switch = some (switchT false) ∧ envS.crossOk = true ∧
    identityAgrees ⟨0, 0⟩ (cfgT 0) (cfgT 0) = true ∧ identityAgrees ⟨1, 0⟩ (cfgT 0) (cfgT 0) = false := by
  subst hs hu; decide
/-- A parity error of input 23 of crust B, which crust A's lane sees over the cross-lane link alone; a snapshot that is not valid. -/
theorem wit_phase_s_values (e : PhaseSEnv) (he : e = { envS with parity := [⟨⟨.b, 23⟩, true⟩], crustOk := ⟨false, true⟩ }) :
    laneRuns op .a = true ∧ (∃ h ∈ e.parity, h.chan.crust = .b ∧ h.chan.num.val = 23 ∧ (h.cross = false ∨ Side.a ≠ .b)) ∧
    snapValid e op .a = false ∧ snapValid e op .b = true ∧
    (0x100 + (sideBase .b + 0), (0, true, false), [chanIn .b 0, chanIn .b 1], [0, 1]) ∈
      shownVals (cfgT 0).iomap .b { Snap.empty with quads := [(0, { SnapVal.none with q := true, t := false, value := 0 })] } := by
  subst he; decide

/-- A lane that may send and one that was late; a manager over a line of two with one sound message, one of another frame, one that is
false, and a topology that leaves out a member. -/
def proofT (n : W32) (v : Byte) : ProofIn :=
  { frame := n, seg := 5, branch := 1, origin := 1, count := 2, value := v, crc := chainCrc .a [0x1111, 0] }
def judging (tail : Byte) (l : List ProofIn) : State :=
  { manager with fab := { manager.fab with topo := { Topo.none with p1Tail := tail } }
                 lane := ⟨{ manager.lane.a with proofs := l }, manager.lane.b⟩ }
def sigsT : List W16 := planT.members.map fun e => e.sig
theorem wit_verdict : planOf (judging 1 []) = some planT ∧ isManager (judging 1 []) = true ∧ laneLive (judging 1 []) .a = true ∧
    coverage (judging 0 []).fab.topo sigsT.length = false ∧ coverage (judging 1 []).fab.topo sigsT.length = true ∧
    branches (judging 1 []).fab.topo sigsT = [(1, 1, [0x1111, 0])] ∧ branchMsgs (judging 1 []).lane.a 1 = [] ∧
    branchMsgs (judging 1 [proofT 1 sound1]).lane.a 1 = [proofT 1 sound1] ∧ (proofT 1 sound1).frame ≠ (judging 1 []).core.frameNo ∧
    msgFits (judging 1 []) 5 .a (1, 1, [0x1111, 0]) (proofT 0 sound1) = true ∧
    (∀ m ∈ branchMsgs (judging 1 [proofT 0 sound1]).lane.a 1, m.value = sound1) ∧
    (∃ m ∈ branchMsgs (judging 1 [proofT 0 sound0]).lane.a 1, m.value ≠ sound1) := by decide +kernel
theorem wit_release_copy (s : State) (hs : s = { op with lane := ⟨{ op.lane.a with noSafe := true }, op.lane.b⟩ }) :
    releases op .a exportT = true ∧ releases s .a exportT = false ∧ exportT.canFd = false ∧
    releases s .a { exportT with canFd := true } = false ∧ exports (cfgT 0) = [exportT] ∧
    ((exports (cfgT 0)).map fun k => k.connId).Nodup := by subst hs; decide

/-! ## Witnesses: the blocks -/

/-- A lane whose form is one block over the first beads, in the state `b`. -/
def blockT (r : ParamRec) (ins outs : Nat) (b : BlkSt) (beads : List Byte) (srcs : List ValSrc) : State :=
  phased .e { op with lane := op.lane.map fun l => { l with
    cfg := some { cfgT 0 with
      seeds := [], params := [r]
      form := { beadCount := ins + outs, inputs := [], permit := none
                elems := [.block 0 ((List.range ins).map some) (((List.range outs).map fun k => ins + k).map some) srcs] } }
    beads := (List.range beads.length).zip beads, blk := [(0, b)] } }
theorem wit_block (r : ParamRec) (b : BlkSt) (s : State) (hr : r = paramT tyTON [3, 1]) (hb : b = BlkSt.init)
    (hs : s = blockT r 1 1 b [sound1, sound0] []) : s.core.tickOn = true ∧ s.core.phase = .e ∧ s.test.hold = false ∧
    laneRuns s .a = true ∧ [1].Nodup ∧ envE.parity.a = [] ∧ envE.stateParity.a = [] ∧ (cfgT 0).params[0]? = some (paramT tyQPAIR [0, 0, 1]) ∧
    (∀ c, activeCfg s = some c → c.seeds = []) ∧ tabGet BlkSt.init s.lane.a.blk 0 = b ∧
    (parityOk b.latch && parityOk b.edge0 && parityOk b.edge1 && parityOk b.edge2 && parityOk b.edge3) = true ∧
    parityChecked (beadOf s.lane.a 0) = sound1 := by
  subst hr hb hs; exact ⟨rfl, rfl, rfl, rfl, by decide, rfl, rfl, rfl, fun c h => by cases h; rfl, by decide, by decide, by decide⟩
/-- What the rules of the blocks ask of their inputs: sound 1 and 0, an unsound bead, an edge, a latch that stands. -/
theorem wit_block_inputs (age : Nat) (h : age = 1) (t : Timer) (ht : t = { elapsed := 4, running := true, done := false }) :
    isTT age sound1 = true ∧ isTT age sound0 = false ∧ isSound0 sound0 = true ∧ isSound paritySub = false ∧
    isTT age (setAge sound1 2) = false ∧ validEdge age sound0 sound1 = true ∧ validEdge age sound1 sound1 = false ∧
    (timerRun t true 5).done = true ∧ (timerRun t true 6).done = false ∧ beadV sound1 = true ∧ beadV sound0 = false := by
  subst h ht; decide
/-- Two mode contacts of which one is on, and both; a door at CLOSEMAX; a speed at SPEED; offsets of both pairs of a door. -/
theorem wit_block_forms (x y : Nat → Byte) (hx : x = fun k => if k < 2 then sound1 else sound0) (hy : y = fun _ => sound1) :
    (∃ i, i < 2 ∧ (isSound (x (2 * i)) && beadV (x (2 * i)) && isSound (x (2 * i + 1)) && beadV (x (2 * i + 1))) = true ∧
      ∀ j, j < 2 → j ≠ i → isSound0 (x (2 * j)) = true ∧ isSound0 (x (2 * j + 1)) = true) ∧
    (¬ ∃ i, i < 2 ∧ ∀ j, j < 2 → j ≠ i → isSound0 (y (2 * j)) = true) ∧ (tabFind [(1, ((0 : Int), (0 : Int)))] 1).isSome = true ∧
    (tabFind ([] : Tab (Int × Int)) 1).isSome = false ∧ pairOf (paramT tyQPAIR [0, 0, 1]) = some 0 ∧
    (paramT tyESTOP [3]).ty = tyESTOP ∧ op.mbx.delivered = none := by
  subst hx hy; decide
/-- The import of connection 7, with a copy that both lanes have accepted and without one. -/
theorem wit_block_import (s : State) (a : Accepted) (ha : a = { conn := 7, seq := 1, frame := 0, beads := [sound1], port := 0 })
    (hs : s = { op with lane := op.lane.map fun l => { l with accepted := [a] } }) :
    ((imports (cfgT 0)).map fun k => k.connId).Nodup ∧ importT ∈ imports (cfgT 0) ∧ 2 ∈ importInsts (cfgT 0) importT.connId ∧
    deliverable s 7 = some a ∧ deliverable op 7 = none := by subst ha hs; decide

/-! ## Witnesses: phases C and H, clocks -/

/-- The set of a crust without power, behind a barrier that waits or of a stopped lane is lost; one frame is late by a stopped clock. -/
theorem wit_frame_lost (s u v : State) (hs : s = crustAs fun x => { x with logicPower := false })
    (hu : u = crustAs fun x => { x with resync := true })
    (hv : v = { op with lane := ⟨{ op.lane.a with stopped := true }, op.lane.b⟩ }) : frameLost (envC false) op .a = false ∧
    frameLost (envC false) op .b = true ∧ frameLost (envC false) s .a = true ∧ frameLost (envC false) u .a = true ∧
    frameLost (envC false) v .a = true ∧ isLate (envC false) v .a = true ∧ isLate (envC false) op .a = false ∧
    frameLost (envC false) (laneGone op) .a = false := by subst hs hu hv; decide
/-- One bit of the digest, and one pair that one lane alone retires. -/
theorem wit_phase_c_differs (s u : State) (e : PhaseCEnv) (hs : s = phased .c op) (he : e = { envC false with digestUpset := ⟨1, 0⟩ })
    (hu : u = phased .c { op with lane := ⟨{ op.lane.a with beads := [(2, sound1)] }, { op.lane.b with beads := [(2, sound1)] }⟩ }) :
    compareOuts e s (laneOut s false s.lane.a) (laneOut s false s.lane.b) = .all ∧ s.core.mode ≠ .boot ∧ s.core.mode ≠ .maintain ∧
    compareOuts (envC false) u (laneOut u false u.lane.a) (laneOut u false u.lane.b) = .agree := by
  subst hs he hu; decide +kernel
theorem wit_mode_decides (s u : State) (hs : s = phased .c { asked op 7 with core := { (phased .c op).core with fatal := [0x50] } })
    (hu : u = phased .c (testHold (asked op 7))) : s.core.tickOn = true ∧ s.core.phase = .c ∧ s.host.sampled = some 7 ∧
    s.host.rewritten = false ∧ s.core.outcomes = [] ∧ faultComing s = true ∧ identityBroken (envC false) s = false ∧
    u.core.phase = .c ∧ u.test.hold = true ∧ faultComing u = false ∧ u.host.sampled = some 7 := by subst hs hu; decide
/-- Slices 511 and 512; a failed slice in MAINTAIN and in the last frame of the proving period. -/
def slicing (s : State) (n : Nat) : State := { s with lane := s.lane.map fun l => { l with slice := n } }
theorem wit_phase_h_faults (s : State) (hs : s = phased .h { proving with core := { proving.core with modeNext := some (.operate, .request) } }) :
    runsSlice (slicing op 511) .a = true ∧ (slicing op 511).lane.a.slice < 512 ∧ 512 ≤ (slicing op 512).lane.a.slice ∧
    (envH .restoreMismatch).slice.a = .restoreMismatch ∧ (envH .eccDouble).slice.a ≠ .pass ∧ (envH .incomplete).slice.a = .incomplete ∧
    s.core.mode = .boot ∧ s.core.modeNext = some (.operate, .request) ∧ runsSlice s .a = true ∧ s.core.phase = .h ∧
    maint.core.mode = .maintain ∧ maint.core.phase = .h ∧ runsSlice maint .a = true ∧ 0 ∈ drivenPairs (cfgT 0).params := by
  subst hs; decide
theorem wit_crossings (s : State) (hs : s = phased .s { op with core := { op.core with clockStop := true } }) : s.core.tickOn = true ∧
    s.core.phase = .s ∧ s.core.clockStop = true ∧ State.reset.core.inReset = true ∧ op.core.inReset = false ∧
    ([Side.b].any (laneRuns op)) = true ∧ ([Side.a].any (laneRuns (laneGone op))) = false := by subst hs; decide

/-! ## Witnesses: frames that pass on, ports and topology -/

/-- A worker with both ports UP. -/
def between : State := modPort worker .p1 fun q => { q with st := .up }
def loaded (s : State) (f : PortSt → PortSt) : State := modPort s .p1 f
/-- A SAFE and a BULK frame of station 5 for station 3. -/
def passing (c : BitVec 4) : Frame := frameT c 5 3 [1]
def sending : PortSt → PortSt := fun q => { q with tx := some (begun worker (passing clsSafe)) }

/-- A frame of 208 units passes on from the start of its span to its end; 3 and 4 frames wait, 15 and 16. -/
theorem wit_relay (q : PortSt) (hq : q = portOf between .p1) : relays between .p0 (passing clsSafe) = true ∧
    relays between .p0 (passing clsBulk) = true ∧ isProof clsSafe = false ∧ (passing clsSafe).cls ≠ clsTick ∧ (passing clsSafe).dst ≠ 0xFF#8 ∧
    q.st = .up ∧ q.tx = none ∧ between.fab.gap = false ∧ isCutThrough clsSafe = true ∧ isCutThrough clsBulk = false ∧
    spanHolds 2 (cutStart (atOff between 5048) (passing clsSafe)) (passing clsSafe) = true ∧
    spanHolds 2 (cutStart (atOff between 5047) (passing clsSafe)) (passing clsSafe) = false ∧
    (portOf (loaded between sending) .p1).tx ≠ none ∧
    (portOf (loaded between fun q => { q with cut := List.replicate 3 (passing clsSafe) }) .p1).cut.length < 4 ∧
    4 ≤ (portOf (loaded between fun q => { q with cut := List.replicate 4 (passing clsSafe) }) .p1).cut.length ∧
    (portOf (loaded between fun q => { q with sf := List.replicate 15 (passing clsBulk) }) .p1).sf.length < 16 ∧
    16 ≤ (portOf (loaded between fun q => { q with sf := List.replicate 16 (passing clsBulk) }) .p1).sf.length := by
  subst hq; decide
/-- The relayed frame arrives whole. -/
theorem wit_relay_frame (x : Taken) (hx : x = takeGroups ((framed (frameBytes (passing clsSafe))).drop 1)) : x.symbol = false ∧
    x.ending = .good ∧ linkCrcOk x.bytes = true ∧ frameKnown x.bytes = true ∧ relays between .p0 (parseFrame x.bytes) = true ∧
    isCutThrough (parseFrame x.bytes).cls = true := by subst hx; decide +kernel
/-- A frame asked for again in phase H, over a free transmitter and over one that sends. -/
theorem wit_hopnak_starts (s u : State) (hs : s = keeps (sentT false)) (hu : u = mapPort s fun q => { q with tx := none }) :
    (portOf u .p0).tx = none ∧ (portOf u .p0).st = .up ∧ u.fab.gap = false ∧ (portOf u .p0).retries = [] ∧
    mayStart (atOff u 50250) (sentT false).frame = true ∧ (portOf s .p0).tx.isSome = true ∧
    (portOf u .p0).cut = [] ∧ (portOf u .p0).own = [] ∧ (portOf u .p0).sf = [] ∧
    bestOf (atOff u 50250) (waiting (portOf u .p0)) = none := by subst hs hu; decide

/-- A BREAK that waits for the other port's relock; the two orders in which both ports go DOWN. -/
theorem wit_break_waits (s u : State) (hs : s = { loaded between (fun q => { q with relocking := true }) with fab := { (loaded between (fun q => { q with relocking := true })).fab with breakDue := some .p0 } })
    (hu : u = modPort s .p0 fun q => { q with st := .standby }) : (portOf s .p1).st = .up ∧ (portOf s .p1).relocking = true ∧
    s.fab.breakDue = some PortId.p1.other ∧ s.fab.breakDue ≠ some PortId.p0.other ∧ (portOf u .p0).st = .standby ∧ isManager s = false ∧
    (portOf between PortId.p0.other).relocking = false ∧ between.fab.breakDue ≠ some PortId.p0.other ∧
    manager.fab.cabled = none := by subst hs hu; decide
/-- Round trips that give 0 and 200 ns, which are kept, and 201 ns, which is not. -/
theorem wit_delay (r : Nat) (hr : r = Config.ownLatency + Config.loopLatency) : linkDelay r ≤ 200 ∧ linkDelay (r + 400) ≤ 200 ∧
    200 < linkDelay (r + 402) := by subst hr; simp [linkDelay]; omega
theorem wit_gap_at_work (s u : State) (hs : s = { between with core := { between.core with frameNo := 256 } })
    (hu : u = { manager with fab := { manager.fab with gap := true, topoGap := some (Topo.none) } }) : s.core.tickOn = true ∧
    s.core.frameNo.toNat % 256 = 0 ∧ s.fab.gap = false ∧ bypassClosed s = false ∧ mayJoin s = false ∧
    (∀ p, ¬ ((portOf s p).st = .up ∧ (portOf s p).relocking = true)) ∧ u.fab.gap = true ∧ u.fab.topoGap.isSome = true ∧
    outputsOff .boot = true ∧ outputsOff .operate = false := by
  subst hs hu; exact ⟨rfl, by decide, rfl, by decide, by decide, fun p => by cases p <;> decide, rfl, rfl, by decide, by decide⟩

/-- A REPORT over the P1 branch whose station lies beyond the tail, or at it; a second claimant while the holder's admission stands. -/
theorem wit_report_tail (s u : State) (f : Frame) (hf : f = frameT clsDisc 0xFE 0 (reportT 1))
    (hs : s = { manager with fab := { manager.fab with inbox := [(.p1, f)] } })
    (hu : u = { s with fab := { s.fab with topo := { Topo.none with p1Tail := 1 } } }) :
    activeCfg s = some (cfgT 2) ∧ planOf s = some planT ∧ Waits s (isDisc 0x02) .p1 f ∧ (PortId.p1 != p1Port s) = false ∧
    judgeReport (taken s .p1 f) (cfgT 2) planT (parseReport f) false = .inl 1 ∧
    judgeReport (taken u .p1 f) (cfgT 2) planT (parseReport f) false = .inl 1 ∧
    (s.fab.topoTick.getD s.fab.topo).p1Tail.toNat < 1 % 256 ∧ 1 % 256 ≤ (u.fab.topoTick.getD u.fab.topo).p1Tail.toNat ∧
    heldByOther (held manager) 1 (parseReport f) true = true ∧ heldByOther manager 1 (parseReport f) true = false ∧
    manager.fab.topoGap = none ∧ branchPorts manager = [.p1] := by subst hf; subst hs; subst hu; unfold Waits; decide
/-- The ends of a line and of a healed ring, one of which has not reported. -/
theorem wit_ready (t : Topo) (r : State → List (Byte × Byte) → State) (ht : t = { healed := true, p1Tail := 1, p0Tail := 2 })
    (hr : r = fun s l => { s with fab := { s.fab with ready := l } }) : allReady (r manager [(1, 1)]) = false ∧
    allReady (r manager [(0, 1)]) = true ∧
    allReady (r { manager with fab := { manager.fab with topo := t } } [(1, 1)]) = false ∧
    allReady (r { manager with fab := { manager.fab with topo := t } } [(1, 1), (2, 0)]) = true ∧
    ({ manager with fab := { manager.fab with topoGap := some t } } : State).fab.topoGap.isSome = true := by subst ht hr; decide
/-- A TICK at a worker with both ports UP: it passes on at once, or waits with three others. -/
theorem wit_tick_passes (f : Frame) (hf : f = frameT clsTick 0 0xFF [9, 0, 0, 0, 2, 5, 0, 0, 0, 0, 0, 0]) :
    f.payload.length = 12 ∧ relays between .p0 f = true ∧ (portOf between .p1).st = .up ∧ (portOf between .p1).tx = none ∧
    spanHolds 2 (cutStart (atOff between 600) (tickCopy (portOf between .p0) f 100)) (tickCopy (portOf between .p0) f 100) = true ∧
    (portOf (loaded between sending) .p1).tx ≠ none ∧ (portOf (loaded between sending) .p1).cut.length < 4 ∧
    ownStation between = some 1 := by subst hf; decide
theorem wit_sync_frames (s : State) (hs : s = syncAs between .loss id) : s.fab.sync = .loss ∧ (0 : W32) ≠ u32At [9, 0, 0, 0] 0 ∧
    syncBit worker = true ∧ worker.fab.sync = .inSync := by subst hs; decide

/-! ## Witnesses: remote commands, CAN FD -/

/-- An entry whose request waits at its port, one whose SEG 0 was lost, and replies with another CMD or TAG. -/
theorem wit_remote_waits (s u : State) (e : QEntry) (he : e = { entryT (.slot 0) 0x00 [] (.sent false 0 none) with target := 1 })
    (hu : u = awaiting manager [e] 66)
    (hs : s = modPort u .p1 fun q => { q with own := [{ frameT clsMbx 0 1 ([0x04] ++ zeros 12) with hop := 0 }] }) :
    sentEntry u false 0 = some e ∧ e.st = .sent false 0 none ∧ e.taken = 0 ∧ seg0Waits u false 0 = false ∧ seg0Waits s false 0 = true ∧
    boundFrames u e.cmd + 64 ≤ (u.core.frameNo - e.taken).toNat ∧ byteAt ([0x0C, 1] ++ zeros 11) 1 ≠ (sentTo 0).cmd ∧
    byteAt ([0x0C, 0, 1] ++ zeros 10) 2 ≠ (sentTo 0).tag ∧ sentEntry manager false 0 = none := by
  subst he; subst hu; subst hs; decide

/-- Tunnel segments of a request under way that wait, one of which has won the bus; a slot posted before its last segment. -/
theorem wit_tunnel_gone (s u : State) (hs : s = canAs fun c => { c with asm := [(0, { nextSeg := 1, bytes := [] })], txq := [{ canTxT false with data := [0x01] }, canTxT true] })
    (hu : u = slotAs 7 .posted) : (tabFind s.can.asm 0).isSome = true ∧ canUp s.can = true ∧ hearthLive s = true ∧
    (s.can.txq.filter fun x => x.safe.isNone && ((byteAt x.data 0) >>> 4).setWidth 2 == (0 : BitVec 2) && !x.won).length = 1 ∧
    (op.can.txq.filter fun x => x.safe.isNone && ((byteAt x.data 0) >>> 4).setWidth 2 == (0 : BitVec 2) && !x.won).length = 0 ∧
    slotState u 7 = .posted ∧ (∀ k, k < 8 → slotState op k ≠ .posted) ∧ queueFull (takeSlots 8 u) = false ∧
    entryOf (takeSlots 8 u) (.can 0) = none := by subst hs hu; decide +kernel
/-- Two frames wait, of which the lower identifier ends; a bus-off ends an aborted frame that had won. -/
theorem wit_can_lowest (s u : State) (hs : s = canAs fun c => { c with txq := [canTxT false, { canTxT false with ident := 0x43F }] })
    (hu : u = canAs fun c => { c with txq := [{ canTxT true with aborted := true }] }) :
    (s.can.txq.find? fun t => t.won) = none ∧ lowestCan s.can.txq = some { canTxT false with ident := 0x43F } ∧ canUp u.can = true ∧
    (u.can.txq.filter fun x => x.won && x.aborted).length = 1 ∧ canUp (canAs fun c => { c with busOff := true }).can = false := by
  subst hs hu; decide
/-- A copy over the fabric whose connection has been taken in this frame; one whose form is wrong. -/
theorem wit_safe_second (s : State) (hs : s = safeIn (copyT 1 goodCode)) (m : SafeMsg) (hm : m = parseSafe copyCan (codeLen importCan)) :
    (parseSafe (copyT 1 goodCode) (codeLen importT)).conn ∈ ({ s.lane.a with seenCopies := [7] } : LaneSt).seenCopies ∧
    s.lane.a.seenCopies = [] ∧ ({ m with nb := 2 } : SafeMsg).nb ≠ importCan.beads ∧
    safeCode (onCan worker) importCan .a m.body ≠ some [0, 0, 0, 0] := by subst hs hm; decide +kernel

/-! ## Witnesses: further conditions of inputs, outputs and the host port -/

/-- Input 0 without a change, with one whose DEBOUNCE of 3 is over at 30 us to the unit, and one unit before. -/
theorem wit_settle (s : State) (hs : s = inAs 0 fun i => { i with raw := true, pend := some (at0 100) }) :
    (inOf op.crust.a 0).pend = none ∧ (inputDebounce (entT 0) : Int) ≤ unitsBetween s (at0 100) (stampAt s 3100) ∧
    unitsBetween s (at0 100) (stampAt s 3099) < (inputDebounce (entT 0) : Int) ∧ (inOf s.crust.a 0).raw ≠ (inOf s.crust.a 0).deb := by
  subst hs; decide
/-- A rise that a pulse interrupts goes on from where it began; outside the mask it begins anew. -/
theorem wit_resumed (s : State) (i : InSt) (hs : s = op)
    (hi : i = { InSt.init with raw := false, riseHeld := some (at0 50), maskFrom := some (at0 100), maskUntil := some (at0 700) }) :
    resumedRise s (entT 0) i true (at0 650) = some (at0 50) ∧ resumedRise s (entT 0) i true (at0 800) = none ∧
    beginsChange s (entT 0) i true (at0 650) = false ∧ beginsChange s (entT 0) i true (at0 800) = true := by subst hs hi; decide
/-- A reference input of quadrature pair 0 of crust A. -/
theorem wit_reference (m : List (List Byte)) (hm : m = [[0x02, 0x00, 2, 0, 3, 0, 1, 0, 0, 0, 0, 0, 0], [0x03, 0x00, 0, 0, 0, 0x00, 1, 0]]) :
    0 ∈ refPairs m .a 0 ∧ 1 ∉ refPairs m .a 0 := by subst hm; decide
/-- The supply went bad in this frame; the source's slot is over but a retry is due; two retries are due from two sources. -/
theorem wit_retry (s : State) (hs : s = atFrame15 (srcAs (fun z => { z with pulseAt := some (at0 0) })
      fun i => { i with retry := [(0, 14), (1, 14)] })) : slotOf s ≠ sourceSlot src0 ∧ retryDue s src0.num (inOf s.crust.a 0) = true ∧
    (inOf s.crust.a 0).retry.filter (fun e => e.1 != src0.num) = [(1, 14)] ∧
    supplyBad { s.crust.a with lockoutSince := true } = true ∧ (srcOf s.crust.a 1).pulsed = false := by subst hs; decide
/-- The phases of crust B's pair: an edge within its FILTER of the other one, at it, and one unit above. -/
theorem wit_edges_together (s u : State) (r : Stamp) (hr : r = at0 100)
    (hs : s = { op with crust := { op.crust with b := modQuad op.crust.b 0 fun q => { q with lastRef := some (r, true) } } })
    (hu : u = { op with crust := { op.crust with b := modIn op.crust.b 0 fun i => { i with overrate := true } } }) :
    inputFilter (entT 5) ≤ inputFilter (entT 5) ∧ inputFilter (entT 5) < inputFilter (entT 5) + 1 ∧
    (quadOf s.crust.b 0).lastRef = some (r, true) ∧ (unitsBetween s r (at0 (100 + BitVec.ofNat 20 (inputFilter (entT 5))))).natAbs ≤ inputFilter (entT 5) ∧
    inputFilter (entT 5) < (unitsBetween s r (at0 (101 + BitVec.ofNat 20 (inputFilter (entT 5))))).natAbs ∧
    (quadOf op.crust.b 0).lastRef = none ∧ op.mbx.learn = none ∧ (inOf u.crust.b 0).overrate = true ∧
    (inOf op.crust.b 0).overrate = false := by subst hr; subst hs; subst hu; decide
/-- A conversion and a stall while the core is in reset; a set that has come in this frame. -/
theorem wit_in_reset (s : State) (hs : s = crustAs fun x => { x with staged := some [], sinceFrame := 9 }) :
    State.reset.core.inReset = true ∧ op.core.inReset = false ∧ op.crust.a.logicPower = true ∧ s.crust.a.staged.isSome = true ∧
    10 * (0 + 1) < 9 * silenceFrames (crustMap s .a) .a := by subst hs; decide
/-- The SPI lands are Z in reset and without VDD33. -/
theorem wit_port_live (s : State) (hs : s = { op with core := { op.core with vddGood := false } }) : portLive op = true ∧
    portLive State.reset = false ∧ portLive s = false ∧ s.core.inReset = false := by subst hs; decide
/-- The entries of a heartbeat lost: an activation agreed on and one that is not, a self-test that has reached the lanes. -/
theorem wit_heartbeat (via : Via) : (switching op true).mbx.switch = some (switchT true) ∧ (switchT true).agreed = true ∧
    (switchT false).agreed = false ∧ (testing via .maintain).test.hold = true ∧ op.test.learned = false ∧ op.test.holdNext = false ∧
    op.test.hold = false ∧ op.host.hearth = true := ⟨rfl, rfl, rfl, rfl, rfl, rfl, rfl, rfl⟩

/-! ## Witnesses: further conditions of the mailbox -/

/-- LIFECYCLE_SET that its mode refuses has used the nonce; so has a KEY_LOAD under a key. -/
theorem wit_gate_nonce (s : State) (hs : s = lifeAs op true true) (e : QEntry)
    (he : e = entryT (.slot 0) 0x77 ([4, 0, 0, 0] ++ zeros 32) .waiting) :
    nextToStart { s with mbx := { s.mbx with queue := [e] } } (.slot 0) 0x77 e ∧ modeGate s.core.mode 0x77 e.payload = false ∧
    lifeGate s.nv.life 0x77 = true ∧ s.nv.lifeKey.isSome = true ∧ s.mbx.nonce.isSome = true := by
  subst hs he; exact ⟨by unfold nextToStart; decide, by decide, by decide, rfl, rfl⟩
/-- A reply whose command owes host bits and a force. -/
theorem wit_reply_owes (s : State) (e : QEntry) (he : e = entryT (.slot 7) 0x04 [] (.replied 0 []))
    (hs : s = { awaiting op [e] 0 with mbx := { (awaiting op [e] 0).mbx with owed := [(.slot 7, .bits 1 3), (.slot 7, .chan 0 .restore), (.slot 0, .chan 1 .restore)] } }) :
    hearthLive s = true ∧ entryOf s (.slot 7) = some e ∧ owedTo s.mbx (.slot 7) = [.bits 1 3, .chan 0 .restore] ∧
    (paid s.mbx (owedTo s.mbx (.slot 7))).chanOps = [(0, .restore)] ∧
    (paid s.mbx (owedTo s.mbx (.slot 7))).hostBitsNext = some (1, 3) ∧ (s.mbx.owed.filter fun o => o.1 != .slot 7).length = 1 := by
  subst he; subst hs; decide
/-- A block of lane A whose rerun fails too, one that passes it, and one whose rerun a lockout keeps from running. -/
theorem wit_blocks_end (w : LockWindow) (bad : RunResult) (hb : bad = { goodRun 1 with pass := false }) (hw : w = op.test.lockouts) :
    (1 ∈ askedBlocks 1) ∧ blockLanes 1 ≠ [] ∧ blockEnd w [{ run1 1 [] with first := bad, rerun := bad }] 1 = .permanent ∧
    blockEnd w [{ run1 1 [] with first := bad }] 1 = .transient ∧ blockEnd w [] 1 = .passed ∧
    bothInService maint = true ∧ bothInService (laneGone maint) = false := by subst hb hw; decide
theorem wit_quote_disabled (s : State) (hs : s = { op with meas := { op.meas with disabled := true } }) (via : Via) :
    s.meas.disabled = true ∧ Starts (ask s via 0x41 (zeros 32)) via 0x41 (zeros 32) := by
  subst hs; exact ⟨rfl, starts_ask _ _ _ _ (by decide)⟩
/-- Lane A's 32 spare rows, of which 31 are used. -/
theorem wit_fuses (s : State) (hs : s = { op with nv := { op.nv with life := .manufacture, fuseRows := ⟨(List.range 31).map fun k => BitVec.ofNat 16 k, []⟩ } }) :
    s.nv.life = .manufacture ∧ portLive s = true ∧ s.nv.fuseRows.a.length + [(31 : W16)].length ≤ 32 ∧
    ¬ s.nv.fuseRows.a.length + [(31 : W16), 32].length ≤ 32 ∧ (31 : W16) ∉ s.nv.fuseRows.a ∧ op.nv.life ≠ .manufacture := by
  subst hs; decide
/-- No page is open, page 0 is the first; in SHUTDOWN the last page closes while the run waits for it. -/
theorem wit_crumb_page (s u : State) (hs : s = { op with jrn := { op.jrn with buf := [zeros 32] } })
    (hu : u = { writing (atMode .shutdown 0) [] 126 with test := { op.test with shutdown := 1 } }) : s.nv.openPage = none ∧
    (∃ s1, choosePage s = some (0, s1)) ∧ s.jrn.buf = zeros 32 :: [] ∧ u.jrn.ended = ⟨[], []⟩ ∧ u.core.mode = .shutdown ∧
    u.test.shutdown = 1 ∧ u.nv.openPage = some 12287 := by
  subst hs hu; exact ⟨rfl, ⟨_, rfl⟩, rfl, rfl, rfl, rfl, rfl⟩
/-- A jump of FRAME_NO within the epoch; a cycle of 59,999 ms and of 60 s at 1 ms a frame. -/
theorem wit_times (s : State) (hs : s = { op with stat := { op.stat with jumped := true } }) : s.stat.jumped = true ∧
    op.stat.jumped = false ∧ framesOfMs op 60000 = 60000 ∧
    ((atFrame (doors op true) 59999).core.frameNo - cycleT.start).toNat < framesOfMs (atFrame (doors op true) 59999) 60000 ∧
    framesOfMs (atFrame (doors op true) 60000) 60000 ≤ ((atFrame (doors op true) 60000).core.frameNo - cycleT.start).toNat := by
  subst hs; decide +kernel
theorem wit_learn_retired (s : State) (hs : s = laneGone (learning config (capsT 0))) : bothInService s = false ∧
    s.mbx.learn = some (runT (capsT 0)) ∧ bothInService (learning config (capsT 0)) = true ∧ missingCycle (runT (capsT 0)) = none := by
  subst hs; decide
/-- A run of DOORPOS_LEARN that another one ends, and a loaf without a pair. -/
theorem wit_learn_again (via : Via) (s : State) (r : LearnRun) (hr : r = { runT ⟨[], []⟩ with via := .slot 1 })
    (hv : via = .slot 0) (hs : s = { ask config via 0x72 [1, 0x40, 2] with mbx := { (ask config via 0x72 [1, 0x40, 2]).mbx with learn := some r } }) :
    s.mbx.learn = some r ∧ r.via ≠ via ∧ pairCodeA 2 = false ∧ quadOfLoaf config 3 = none ∧ activeCfg State.reset = none := by
  subst hr hv; subst hs; exact ⟨rfl, by decide, by decide, by decide, rfl⟩

/-- A chip that gives its INFO and not its answer, one of another UID, and one that stays unproven. -/
theorem wit_chip_unproven (s : State) (hs : s = { wearing with nv := { wearing.nv with actUid := [(0, zeros 8)], actUnproven := [0] } }) :
    0 ∈ s.nv.actUnproven ∧ advanceDue s 0 = false ∧ tabGet [] s.nv.actUid 0 ≠ [] ∧ tabGet [] s.nv.actUid 0 ≠ List.replicate 8 1 ∧
    tabGet [] op.nv.actUid 0 = [] ∧ chipEntries op = [(0, entT 10)] ∧ chipKey wearing (entT 10) = some cmacKey ∧
    ([ChipReply.failed (some (zeros 8, 5))].getD 0 .absent = .failed (some (zeros 8, 5))) ∧ ([] : List ChipReply).getD 0 .absent = .absent ∧
    (255 < 256) ∧ ¬ ((chipOf wearing 0).pending < 256) := by subst hs; decide
theorem wit_recovery_pulses (s : State) (hs : s = { scanning with act := { scanning.act with recoverDue := true } }) :
    busUsable s = true ∧ s.act.recoverDue = true ∧ (1 ≤ 1 ∧ 1 ≤ 27) ∧ (1 ≤ 27 ∧ 27 ≤ 27) ∧ 27 < 28 ∧ s.act.scanVia = [.slot 0] := by
  subst hs; decide

end Sys2Proof.Tests
end

section
/-! SUPPORT. What the fault of a lane does when it is found late in a frame (R36, R37): which parts of the state it touches, which
fields of a lane and of a crust it leaves alone, and that it takes the staged pairs back. -/

namespace Sys2Proof

theorem Two.at_set {α : Type} (p : Two α) (l k : Side) (x : α) : (p.set l x).at k = if k = l then x else p.at k := by
  cases l <;> cases k <;> rfl

@[simp] theorem Two.at_set_same {α : Type} (p : Two α) (l : Side) (x : α) : (p.set l x).at l = x := by
  cases l <;> rfl

@[simp] theorem Two.at_map {α β : Type} (f : α → β) (p : Two α) (l : Side) : (p.map f).at l = f (p.at l) := by
  cases l <;> rfl

end Sys2Proof

namespace Sys2Proof.Claims

open Sys2Proof.Machine

/-! ## What rests on `kept` -/

theorem sameStore_of_kept {s t : State} (h : kept t = kept s) : SameStore s t :=
  ⟨congrArg Kept.journal h, congrArg Kept.openPage h, congrArg Kept.mem h, congrArg Kept.hostwd h, congrArg Kept.life h,
    congrArg Kept.pending h⟩

theorem sameClock_of_kept {s t : State} (h : kept t = kept s) : SameClock s t :=
  ⟨congrArg Kept.frameNo h, congrArg Kept.tickOn h, congrArg Kept.mode h, congrArg Kept.inReset h,
    congrArg Kept.statFrame h, congrArg Kept.statGen h, congrArg Kept.latched h⟩

theorem SameStore.trans {s t u : State} (h : SameStore s t) (k : SameStore t u) : SameStore s u := by
  obtain ⟨h1, h2, h3, h4, h5, h6⟩ := h
  obtain ⟨k1, k2, k3, k4, k5, k6⟩ := k
  exact ⟨k1.trans h1, k2.trans h2, k3.trans h3, k4.trans h4, k5.trans h5, k6.trans h6⟩

theorem SameClock.trans {s t u : State} (h : SameClock s t) (k : SameClock t u) : SameClock s u := by
  obtain ⟨h1, h2, h3, h4, h5, h6, h7⟩ := h
  obtain ⟨k1, k2, k3, k4, k5, k6, k7⟩ := k
  exact ⟨k1.trans h1, k2.trans h2, k3.trans h3, k4.trans h4, k5.trans h5, k6.trans h6, k7.trans h7⟩

end Sys2Proof.Claims

namespace Sys2Proof.Machine

open Sys2Proof.Claims

/-! ## Pairs staged off after all -/

/-- Taking a pair back changes the lane's staging records and the state of the pair's block only. -/
theorem unstagePair_eq (cfg : LoafCfg) (x : LaneSt) (p : Nat) :
    unstagePair cfg x p = { x with pairs := (unstagePair cfg x p).pairs, blk := (unstagePair cfg x p).blk } := by
  unfold unstagePair
  split
  · rfl
  · dsimp only
    split <;> rfl

theorem pairRecOf_modPair (x : LaneSt) (p q : Nat) (f : PairRec → PairRec) :
    pairRecOf (modPair x p f) q = if q = p then f (pairRecOf x p) else pairRecOf x q :=
  tabGet_mod PairRec.init x.pairs p q f

/-- Exactly the pair taken back is staged off, where the loaf drives it. -/
theorem unstagePair_staged (cfg : LoafCfg) (x : LaneSt) (p q : Nat) :
    (pairRecOf (unstagePair cfg x p) q).staged =
      ((pairRecOf x q).staged && !(decide (q = p) && (pairBlock cfg.params p).isSome)) := by
  unfold unstagePair
  split
  · next h => simp [h]
  · next k r h =>
    have hoff : ∀ f : PairRec → PairRec, (f (pairRecOf x p)).staged = false →
        (pairRecOf (modPair x p f) q).staged = ((pairRecOf x q).staged && !decide (q = p)) := by
      intro f hf
      rw [pairRecOf_modPair]
      by_cases hq : q = p <;> simp [hq, hf]
    rw [h, Option.isSome_some, Bool.and_true]
    dsimp only
    split
    · exact hoff (fun q => { q with staged := false, ownLeg := false }) rfl
    · next hs => exact hoff _ (by simpa using hs)

theorem foldl_unstagePair_eq (cfg : LoafCfg) (ps : List Nat) (x : LaneSt) :
    ps.foldl (unstagePair cfg) x =
      { x with pairs := (ps.foldl (unstagePair cfg) x).pairs, blk := (ps.foldl (unstagePair cfg) x).blk } := by
  induction ps generalizing x with
  | nil => rfl
  | cons p ps ih =>
    rw [List.foldl_cons, ih, unstagePair_eq]

theorem foldl_unstagePair_staged (cfg : LoafCfg) (ps : List Nat) (x : LaneSt) (q : Nat) :
    (pairRecOf (ps.foldl (unstagePair cfg) x) q).staged =
      ((pairRecOf x q).staged && !(decide (q ∈ ps) && (pairBlock cfg.params q).isSome)) := by
  induction ps generalizing x with
  | nil => simp
  | cons p ps ih =>
    rw [List.foldl_cons, ih, unstagePair_staged]
    by_cases hq : q = p
    · subst hq
      cases (pairRecOf x q).staged <;> cases (pairBlock cfg.params q).isSome <;> simp
    · simp [hq]

theorem unstageLane_eq (rail : Bool) (x : LaneSt) :
    unstageLane rail x = { x with pairs := (unstageLane rail x).pairs, blk := (unstageLane rail x).blk } := by
  unfold unstageLane
  split
  · rfl
  · exact foldl_unstagePair_eq _ _ _

/-- A pair that is off stays off. -/
theorem unstageLane_off (rail : Bool) (x : LaneSt) (q : Nat) (h : (pairRecOf x q).staged = false) :
    (pairRecOf (unstageLane rail x) q).staged = false := by
  unfold unstageLane
  split
  · exact h
  · rw [foldl_unstagePair_staged, h, Bool.false_and]

theorem mem_faultPairs (rail : Bool) (cfg : LoafCfg) (q : Nat) :
    q ∈ faultPairs rail cfg ↔ q ∈ drivenPairs cfg.params ∧ (rail = true ∨ q < 16) := by
  simp [faultPairs]

theorem pairBlock_of_driven {ps : List ParamRec} {q : Nat} (h : q ∈ drivenPairs ps) : (pairBlock ps q).isSome = true :=
  (List.mem_filter.1 h).2

theorem unstageLane_driven (rail : Bool) (x : LaneSt) (cfg : LoafCfg) (q : Nat) (hc : x.cfg = some cfg)
    (hq : q ∈ faultPairs rail cfg) : (pairRecOf (unstageLane rail x) q).staged = false := by
  unfold unstageLane
  rw [hc]
  dsimp only
  rw [foldl_unstagePair_staged, pairBlock_of_driven ((mem_faultPairs rail cfg q).1 hq).1]
  simp [hq]

/-- Without an active loaf neither lane has pairs to take back, so the lanes always change so. -/
theorem unstage_lane (rail : Bool) (s : State) : (unstage rail s).lane = s.lane.map (unstageLane rail) := by
  unfold unstage
  split
  · next h =>
    have hnone : s.lane.a.cfg = none ∧ s.lane.b.cfg = none := by
      unfold activeCfg otherCfg at h
      split at h
      · cases h
      · next ha => exact ⟨ha, h⟩
    simp only [Two.map, unstageLane, hnone.1, hnone.2]
  · rfl

theorem unstage_eq (rail : Bool) (s : State) :
    unstage rail s = { s with crust := (unstage rail s).crust, lane := (unstage rail s).lane } := by
  unfold unstage
  split <;> rfl

/-- A crust loses nothing but legs of the set staged to it, and none gets a set. -/
theorem unstage_crust (rail : Bool) (s : State) (c : Side) :
    ∃ f : Tab Bool → Tab Bool, (unstage rail s).crust.at c =
      { s.crust.at c with staged := (s.crust.at c).staged.map f } := by
  unfold unstage
  split
  · exact ⟨id, by rw [Option.map_id]; rfl⟩
  · cases c <;> exact ⟨_, rfl⟩

/-! ## The fault of a lane -/

/-- The frame's outputs are staged already (R36, R37). -/
def outputsStaged (s : State) : Prop := s.core.phase = .h ∨ s.core.phase = .g

/-- The proving period has ended and OPERATE is due at the next tick (R79). -/
def operateDue (s : State) : Prop := s.core.mode = .boot ∧ s.core.modeNext = some (.operate, .request)

/-- What a lane fault takes back: nothing, OPERATE with every output, or in MAINTAIN every pair. -/
theorem laneFault_cases (s : State) (r : Rep) :
    (laneFault s r = disturb (laneReport s r) ∧ (outputsStaged s → ¬ operateDue s ∧ s.core.mode ≠ .maintain)) ∨
    (laneFault s r = modLanes (unstage true (disturb (laneReport s r))) (fun l => { l with contrib := host0 }) ∧ operateDue s) ∨
    (laneFault s r = unstage false (disturb (laneReport s r)) ∧ s.core.mode = .maintain) := by
  unfold laneFault outputsStaged operateDue
  dsimp only
  split
  · next h =>
    simp only [Bool.and_eq_true, bne_iff_ne] at h
    exact .inl ⟨rfl, fun k => (k.elim h.1 h.2).elim⟩
  split
  · next h => exact .inr (.inl ⟨rfl, by simpa using h⟩)
  split
  · next h => exact .inr (.inr ⟨rfl, by simpa using h⟩)
  · next h k => exact .inl ⟨rfl, fun _ => ⟨by simpa using h, by simpa using k⟩⟩

/-- A lane fault writes two marks of the core, the crusts and the lanes. -/
theorem laneFault_eq (s : State) (r : Rep) :
    laneFault s r = { s with core := (disturb s).core, crust := (laneFault s r).crust, lane := (laneFault s r).lane } := by
  rcases laneFault_cases s r with ⟨h, -⟩ | ⟨h, -⟩ | ⟨h, -⟩ <;> rw [h]
  · rfl
  · rw [unstage_eq]; rfl
  · rw [unstage_eq]; rfl

theorem laneFault_core (s : State) (r : Rep) : (laneFault s r).core = (disturb s).core := by
  rw [laneFault_eq]

/-- A crust loses nothing but legs of the set staged to it, and none gets a set. -/
theorem laneFault_crust (s : State) (r : Rep) (c : Side) :
    ∃ f : Tab Bool → Tab Bool, (laneFault s r).crust.at c =
      { s.crust.at c with staged := (s.crust.at c).staged.map f } := by
  rcases laneFault_cases s r with ⟨h, -⟩ | ⟨h, -⟩ | ⟨h, -⟩ <;> rw [h]
  · exact ⟨id, by rw [Option.map_id]; rfl⟩
  · exact unstage_crust true (disturb (laneReport s r)) c
  · exact unstage_crust false (disturb (laneReport s r)) c

/-- Both lanes count the report, and nothing else of a lane changes but what is staged. -/
theorem laneFault_lane (s : State) (r : Rep) (k : Side) :
    (laneFault s r).lane.at k = { s.lane.at k with
      reps := (s.lane.at k).reps ++ [r], pairs := ((laneFault s r).lane.at k).pairs, blk := ((laneFault s r).lane.at k).blk
      contrib := ((laneFault s r).lane.at k).contrib } := by
  have hrep : (disturb (laneReport s r)).lane.at k = { s.lane.at k with reps := (s.lane.at k).reps ++ [r] } :=
    Two.at_map _ _ _
  rcases laneFault_cases s r with ⟨h, -⟩ | ⟨h, -⟩ | ⟨h, -⟩ <;> rw [h]
  · rw [hrep]
  · rw [modLanes_lane, unstage_lane, Two.at_map, Two.at_map, hrep, unstageLane_eq]
  · rw [unstage_lane, Two.at_map, hrep, unstageLane_eq]

end Sys2Proof.Machine
end

section
/-! SUPPORT. A lane fault found in a frame, as the statements name it (`FaultFound`): every lane fault is one, and what comes after
in the frame leaves it one. -/

namespace Sys2Proof.Machine

open Sys2Proof.Claims

/-- From `s` to `t` nothing that a lane fault took off or took back is put on again, and a crust loses at most staged legs. -/
structure StaysOff (s t : State) : Prop where
  disturbed : s.core.disturbed = true → t.core.disturbed = true
  crust : ∀ c, t.crust.at c = { s.crust.at c with staged := (t.crust.at c).staged }
  modeNext : s.core.modeNext = none → t.core.modeNext = none
  pairs : ∀ l p, (pairRecOf (s.lane.at l) p).staged = false → (pairRecOf (t.lane.at l) p).staged = false
  contrib : ∀ l, (s.lane.at l).contrib = host0 → (t.lane.at l).contrib = host0

theorem StaysOff.trans {s t u : State} (h : StaysOff s t) (k : StaysOff t u) : StaysOff s u where
  disturbed := fun e => k.disturbed (h.disturbed e)
  crust := fun c => by rw [k.crust, h.crust]
  modeNext := fun e => k.modeNext (h.modeNext e)
  pairs := fun l p e => k.pairs l p (h.pairs l p e)
  contrib := fun l e => k.contrib l (h.contrib l e)

/-- A step that leaves the crusts, the core, the staging records and the contributions alone. -/
theorem StaysOff.of_same {s t : State} (hcore : t.core = s.core) (hcrust : t.crust = s.crust)
    (hpairs : ∀ l, (t.lane.at l).pairs = (s.lane.at l).pairs) (hcontrib : ∀ l, (t.lane.at l).contrib = (s.lane.at l).contrib) :
    StaysOff s t where
  disturbed := fun e => by rw [hcore, e]
  crust := fun c => by rw [hcrust]
  modeNext := fun e => by rw [hcore, e]
  pairs := fun l p e => by
    have hrec : pairRecOf (t.lane.at l) p = pairRecOf (s.lane.at l) p := congrArg (tabGet PairRec.init · p) (hpairs l)
    rw [hrec, e]
  contrib := fun l e => by rw [hcontrib, e]

/-- A change of one lane that leaves its staging records and its contribution alone. -/
theorem StaysOff.modLane (s : State) (l : Side) (f : LaneSt → LaneSt) (hpairs : ∀ x, (f x).pairs = x.pairs)
    (hcontrib : ∀ x, (f x).contrib = x.contrib) : StaysOff s (modLane s l f) := by
  refine .of_same rfl rfl (fun k => ?_) fun k => ?_ <;> rw [modLane_lane, Two.at_set] <;> split
  · next h => rw [hpairs, h]
  · rfl
  · next h => rw [hcontrib, h]
  · rfl

theorem disturb_modeNext_none {s : State} (h : s.core.modeNext = none) : (disturb s).core.modeNext = none := by
  simp [disturb, h]

theorem disturb_modeNext_due {s : State} (h : operateDue s) : (disturb s).core.modeNext = none := by
  simp [disturb, h.1, h.2]

theorem staysOff_laneFault (s : State) (r : Rep) : StaysOff s (laneFault s r) where
  disturbed := fun _ => by rw [laneFault_core]; rfl
  crust := fun c => by
    obtain ⟨f, h⟩ := laneFault_crust s r c
    rw [h]
  modeNext := fun e => by rw [laneFault_core, disturb_modeNext_none e]
  pairs := fun l p e => by
    rcases laneFault_cases s r with ⟨h, -⟩ | ⟨h, -⟩ | ⟨h, -⟩ <;> rw [h]
    · cases l <;> exact e
    · rw [modLanes_lane, unstage_lane, Two.at_map, Two.at_map]
      exact unstageLane_off true _ p (by cases l <;> exact e)
    · rw [unstage_lane, Two.at_map]
      exact unstageLane_off false _ p (by cases l <;> exact e)
  contrib := fun l e => by
    rcases laneFault_cases s r with ⟨h, -⟩ | ⟨h, -⟩ | ⟨h, -⟩ <;> rw [h]
    · cases l <;> exact e
    · rw [modLanes_lane, Two.at_map]
    · rw [unstage_lane, Two.at_map, unstageLane_eq]
      cases l <;> exact e

/-- Once the outputs are staged, a fault in MAINTAIN takes the pairs off. -/
theorem laneFault_maintain {s : State} (r : Rep) (hst : outputsStaged s) (hm : s.core.mode = .maintain) {l : Side} {cfg : LoafCfg}
    {p : Nat} (hc : (s.lane.at l).cfg = some cfg) (hp : p ∈ drivenPairs cfg.params) (h16 : p < 16) :
    (pairRecOf ((laneFault s r).lane.at l) p).staged = false := by
  rcases laneFault_cases s r with ⟨-, h⟩ | ⟨-, h⟩ | ⟨h, -⟩
  · exact absurd hm (h hst).2
  · rw [h.1] at hm; cases hm
  · rw [h, unstage_lane, Two.at_map]
    exact unstageLane_driven false _ cfg p (by cases l <;> exact hc) ((mem_faultPairs _ _ _).2 ⟨hp, .inr h16⟩)

/-- Once the outputs are staged, a fault with OPERATE due takes every pair off and the contribution back. -/
theorem laneFault_operateDue {s : State} (r : Rep) (hst : outputsStaged s) (hd : operateDue s) {l : Side} {cfg : LoafCfg}
    {p : Nat} (hc : (s.lane.at l).cfg = some cfg) (hp : p ∈ drivenPairs cfg.params) :
    (pairRecOf ((laneFault s r).lane.at l) p).staged = false ∧ ((laneFault s r).lane.at l).contrib = host0 := by
  rcases laneFault_cases s r with ⟨-, h⟩ | ⟨h, -⟩ | ⟨-, h⟩
  · exact absurd hd (h hst).1
  · rw [h, modLanes_lane, unstage_lane, Two.at_map, Two.at_map]
    exact ⟨unstageLane_driven true _ cfg p (by cases l <;> exact hc) ((mem_faultPairs _ _ _).2 ⟨hp, .inl rfl⟩), rfl⟩
  · rw [hd.1] at h; cases h

theorem faultFound_laneFault (s : State) (r : Rep) : FaultFound s (laneFault s r) := by
  refine ⟨by rw [laneFault_core]; rfl, (staysOff_laneFault s r).crust, fun hm hn => ?_,
    fun hst l cfg p hc hp => ⟨fun hm h16 => ?_, fun hm hn => ?_⟩⟩
  · rw [laneFault_core, disturb_modeNext_due ⟨hm, hn⟩]
  · exact laneFault_maintain r hst hm hc hp h16
  · exact laneFault_operateDue r hst ⟨hm, hn⟩ hc hp

/-- A fault found stays found in what follows it. -/
theorem faultFound_staysOff {s t u : State} (h : FaultFound s t) (k : StaysOff t u) : FaultFound s u := by
  obtain ⟨hdist, hcrust, hnext, hpairs⟩ := h
  refine ⟨k.disturbed hdist, fun c => by rw [k.crust, hcrust], fun hm hn => k.modeNext (hnext hm hn),
    fun hst l cfg p hc hp => ?_⟩
  obtain ⟨hmaint, hdue⟩ := hpairs hst l cfg p hc hp
  exact ⟨fun hm h16 => k.pairs l p (hmaint hm h16), fun hm hn => ⟨k.pairs l p (hdue hm hn).1, k.contrib l (hdue hm hn).2⟩⟩

/-- What a fault is judged by: crusts, mode, the mode due, the loaf of each lane, and that outputs are staged. A step before it that
leaves these alone may be counted in. -/
theorem faultFound_of_before {s u t : State} (hcrust : u.crust = s.crust) (hmode : u.core.mode = s.core.mode)
    (hnext : u.core.modeNext = s.core.modeNext) (hst : outputsStaged s → outputsStaged u)
    (hcfg : ∀ l, (u.lane.at l).cfg = (s.lane.at l).cfg) (h : FaultFound u t) : FaultFound s t := by
  obtain ⟨k1, k2, k3, k4⟩ := h
  rw [hcrust] at k2
  rw [hmode, hnext] at k3 k4
  exact ⟨k1, k2, k3, fun hs l cfg p hc => k4 (hst hs) l cfg p ((hcfg l).trans hc)⟩

end Sys2Proof.Machine
end


section
/-! SUPPORT. The outcome of an in-service slice (R422, R424, R259): what it changes of the state, of the lane that ran it, and of
the other. -/

namespace Sys2Proof.Machine

open Sys2Proof.Claims

/-- A slice was run and found a fault: neither passed nor cut short. -/
def sliceFound (s : State) (l : Side) (r : SliceResult) : Prop := runsSlice s l = true ∧ r ≠ .pass ∧ r ≠ .incomplete

/-- The report of a failed slice: transient, and permanent when its rerun fails too (R259). -/
def failedRep (l : Side) (x : LaneSt) : Rep :=
  { chan := chanLane l, code := if x.sliceFailed then 0x41#8 else 0x40#8, permanent := x.sliceFailed }

/-- The slice counts as failed, where `failed`. -/
def markFailed (failed : Bool) (x : LaneSt) : LaneSt := { x with sliceFailed := x.sliceFailed || failed }

/-- The lane is late in the next frame, where `late`. -/
def markLate (late : Bool) (x : LaneSt) : LaneSt := { x with forcedLate := x.forcedLate || late }

/-- The fault that a slice of lane `l` found: reported, with the marks that its outcome asks for. -/
def sliceFault (s : State) (l : Side) (rep : Rep) (failed late : Bool) : State :=
  modLane (laneFault (modLane s l (markFailed failed)) rep) l (markLate late)

/-! ## One equation for each outcome -/

theorem sliceFails_eq (s : State) (l : Side) :
    sliceFails s l = laneFault (modLane s l (markFailed true)) (failedRep l (s.lane.at l)) := by
  have hmark : markFailed true = fun x => { x with sliceFailed := true } := by funext x; rw [markFailed, Bool.or_true]
  rw [sliceFails, failedRep, hmark]
  cases (s.lane.at l).sliceFailed <;> rfl

theorem lateNext_eq (s : State) (l : Side) : lateNext s l = modLane s l (markLate true) := by
  have hmark : markLate true = fun x => { x with forcedLate := true } := by funext x; rw [markLate, Bool.or_true]
  rw [lateNext, hmark]

theorem modLane_markFailed_false (s : State) (l : Side) : modLane s l (markFailed false) = s := by
  rw [modLane, markFailed, Bool.or_false]
  cases l <;> rfl

theorem modLane_markLate_false (s : State) (l : Side) : modLane s l (markLate false) = s := by
  rw [modLane, markLate, Bool.or_false]
  cases l <;> rfl

section
variable {s : State} {l : Side}

theorem sliceResult_idle {r : SliceResult} (h : runsSlice s l = false) : sliceResult s l r = s := by simp [sliceResult, h]

theorem sliceResult_incomplete : sliceResult s l .incomplete = s := by simp [sliceResult]

theorem sliceResult_pass (h : runsSlice s l = true) : sliceResult s l .pass = modLane s l nextSlice := by
  simp [sliceResult, h]

theorem sliceResult_fail (h : runsSlice s l = true) :
    sliceResult s l .fail = sliceFault s l (failedRep l (s.lane.at l)) true false := by
  simp [sliceResult, h, sliceFails_eq, sliceFault, modLane_markLate_false]

theorem sliceResult_restoreMismatch (h : runsSlice s l = true) :
    sliceResult s l .restoreMismatch = sliceFault s l (failedRep l (s.lane.at l)) true true := by
  simp [sliceResult, h, sliceFails_eq, lateNext_eq, sliceFault]

theorem sliceResult_eccDouble_memory (h : runsSlice s l = true) (hm : (s.lane.at l).slice < 512) :
    sliceResult s l .eccDouble = sliceFault s l (transient (chanLane l) anEccDouble) false true := by
  simp [sliceResult, h, hm, lateNext_eq, sliceFault, modLane_markFailed_false]

theorem sliceResult_eccDouble_other (h : runsSlice s l = true) (hm : 512 ≤ (s.lane.at l).slice) :
    sliceResult s l .eccDouble = sliceFault s l (failedRep l (s.lane.at l)) true false := by
  simp [sliceResult, h, Nat.not_lt.2 hm, sliceFails_eq, sliceFault, modLane_markLate_false]

end

/-- What a slice's outcome can be: nothing, a move to the next slice, or a fault. -/
theorem sliceResult_cases (s : State) (l : Side) (r : SliceResult) :
    (¬ sliceFound s l r ∧ (sliceResult s l r = s ∨ sliceResult s l r = modLane s l nextSlice)) ∨
    (sliceFound s l r ∧ ∃ rep failed late, sliceResult s l r = sliceFault s l rep failed late) := by
  unfold sliceFound
  cases h : runsSlice s l with
  | false => exact .inl ⟨by simp, .inl (sliceResult_idle h)⟩
  | true =>
    cases r with
    | pass => exact .inl ⟨by simp, .inr (sliceResult_pass h)⟩
    | incomplete => exact .inl ⟨by simp, .inl sliceResult_incomplete⟩
    | fail => exact .inr ⟨by simp, _, _, _, sliceResult_fail h⟩
    | restoreMismatch => exact .inr ⟨by simp, _, _, _, sliceResult_restoreMismatch h⟩
    | eccDouble =>
      rcases Nat.lt_or_ge (s.lane.at l).slice 512 with hm | hm
      · exact .inr ⟨by simp, _, _, _, sliceResult_eccDouble_memory h hm⟩
      · exact .inr ⟨by simp, _, _, _, sliceResult_eccDouble_other h hm⟩

/-! ## The rest of the state -/

/-- A slice's outcome writes two marks of the core, the crusts and the lanes. -/
theorem sliceResult_eq (s : State) (l : Side) (r : SliceResult) :
    sliceResult s l r = { s with
      core := { s.core with disturbed := (sliceResult s l r).core.disturbed, modeNext := (sliceResult s l r).core.modeNext }
      crust := (sliceResult s l r).crust, lane := (sliceResult s l r).lane } := by
  rcases sliceResult_cases s l r with ⟨-, h | h⟩ | ⟨-, rep, failed, late, h⟩ <;> rw [h]
  · rfl
  · rw [sliceFault, laneFault_eq]; rfl

theorem sameStore_sliceResult (s : State) (l : Side) (r : SliceResult) : SameStore s (sliceResult s l r) := by
  rw [sliceResult_eq]
  exact ⟨rfl, rfl, rfl, rfl, rfl, rfl⟩

theorem sameClock_sliceResult (s : State) (l : Side) (r : SliceResult) : SameClock s (sliceResult s l r) := by
  rw [sliceResult_eq]
  exact ⟨rfl, rfl, rfl, rfl, rfl, rfl, rfl⟩

theorem sliceResult_phase (s : State) (l : Side) (r : SliceResult) : (sliceResult s l r).core.phase = s.core.phase := by
  rw [sliceResult_eq]

theorem sliceResult_off (s : State) (l : Side) (r : SliceResult) : (sliceResult s l r).core.off = s.core.off := by
  rw [sliceResult_eq]

theorem sliceResult_calm {s : State} {l : Side} {r : SliceResult} (h : ¬ sliceFound s l r) :
    (sliceResult s l r).core = s.core ∧ (sliceResult s l r).crust = s.crust := by
  rcases sliceResult_cases s l r with ⟨-, e | e⟩ | ⟨k, -⟩
  · rw [e]; exact ⟨rfl, rfl⟩
  · rw [e]; exact ⟨rfl, rfl⟩
  · exact absurd k h

theorem staysOff_markFailed (s : State) (l : Side) (failed : Bool) : StaysOff s (modLane s l (markFailed failed)) :=
  .modLane s l _ (fun _ => rfl) fun _ => rfl

theorem staysOff_markLate (s : State) (l : Side) (late : Bool) : StaysOff s (modLane s l (markLate late)) :=
  .modLane s l _ (fun _ => rfl) fun _ => rfl

theorem staysOff_sliceFault (s : State) (l : Side) (rep : Rep) (failed late : Bool) :
    StaysOff s (sliceFault s l rep failed late) :=
  ((staysOff_markFailed s l failed).trans (staysOff_laneFault _ rep)).trans (staysOff_markLate _ l late)

theorem faultFound_sliceFault (s : State) (l : Side) (rep : Rep) (failed late : Bool) :
    FaultFound s (sliceFault s l rep failed late) := by
  refine faultFound_staysOff (t := laneFault (modLane s l (markFailed failed)) rep) ?_ (staysOff_markLate _ l late)
  refine faultFound_of_before (u := modLane s l (markFailed failed)) rfl rfl rfl id (fun k => ?_) (faultFound_laneFault _ rep)
  rw [modLane_lane, Two.at_set]
  split
  · next hk => rw [hk]; rfl
  · rfl

theorem faultFound_sliceResult {s : State} {l : Side} {r : SliceResult} (h : sliceFound s l r) :
    FaultFound s (sliceResult s l r) := by
  rcases sliceResult_cases s l r with ⟨k, -⟩ | ⟨-, rep, failed, late, e⟩
  · exact absurd h k
  · rw [e]
    exact faultFound_sliceFault s l rep failed late

theorem staysOff_sliceResult (s : State) (l : Side) (r : SliceResult) : StaysOff s (sliceResult s l r) := by
  rcases sliceResult_cases s l r with ⟨-, h | h⟩ | ⟨-, rep, failed, late, h⟩ <;> rw [h]
  · exact .of_same rfl rfl (fun _ => rfl) fun _ => rfl
  · exact .modLane s l _ (fun _ => rfl) fun _ => rfl
  · exact staysOff_sliceFault s l rep failed late

/-! ## The lanes -/

/-- The lane that found the fault. -/
theorem sliceFault_lane_same (s : State) (l : Side) (rep : Rep) (failed late : Bool) :
    ∃ y : LaneSt, (sliceFault s l rep failed late).lane.at l = { s.lane.at l with
      sliceFailed := (s.lane.at l).sliceFailed || failed, forcedLate := (s.lane.at l).forcedLate || late
      reps := (s.lane.at l).reps ++ [rep], pairs := y.pairs, blk := y.blk, contrib := y.contrib } := by
  rw [sliceFault, modLane_lane, Two.at_set_same, laneFault_lane, modLane_lane, Two.at_set_same]
  exact ⟨_, rfl⟩

/-- The other lane. -/
theorem sliceFault_lane_other (s : State) {l k : Side} (hk : k ≠ l) (rep : Rep) (failed late : Bool) :
    ∃ y : LaneSt, (sliceFault s l rep failed late).lane.at k = { s.lane.at k with
      reps := (s.lane.at k).reps ++ [rep], pairs := y.pairs, blk := y.blk, contrib := y.contrib } := by
  rw [sliceFault, modLane_lane, Two.at_set, if_neg hk, laneFault_lane, modLane_lane, Two.at_set, if_neg hk]
  exact ⟨_, rfl⟩

/-- What decides whether a lane runs its slices, and its loaf, are as before. -/
theorem sliceResult_lane_service (s : State) (l k : Side) (r : SliceResult) :
    ((sliceResult s l r).lane.at k).retired = (s.lane.at k).retired ∧
    ((sliceResult s l r).lane.at k).stopped = (s.lane.at k).stopped ∧
    ((sliceResult s l r).lane.at k).cfg = (s.lane.at k).cfg := by
  rcases sliceResult_cases s l r with ⟨-, h | h⟩ | ⟨-, rep, failed, late, h⟩ <;> rw [h]
  · exact ⟨rfl, rfl, rfl⟩
  · cases l <;> cases k <;> exact ⟨rfl, rfl, rfl⟩
  · by_cases hk : k = l
    · subst hk
      obtain ⟨y, e⟩ := sliceFault_lane_same s k rep failed late
      rw [e]; exact ⟨rfl, rfl, rfl⟩
    · obtain ⟨y, e⟩ := sliceFault_lane_other s hk rep failed late
      rw [e]; exact ⟨rfl, rfl, rfl⟩

theorem runsSlice_sliceResult (s : State) (l k : Side) (r : SliceResult) :
    runsSlice (sliceResult s l r) k = runsSlice s k := by
  obtain ⟨hret, hstop, hcfg⟩ := sliceResult_lane_service s l k r
  have hwas : wasLate (sliceResult s l r) k = wasLate s k := by
    rw [sliceResult_eq]; cases k <;> rfl
  have htest : (sliceResult s l r).test = s.test := by rw [sliceResult_eq]
  rw [runsSlice, runsSlice, laneRuns, laneRuns, hret, hstop, hcfg, htest, hwas]

/-- From `x` to `y` nothing has become of a lane's slice, and no report of it is lost. -/
structure SameSlice (x y : LaneSt) : Prop where
  slice : y.slice = x.slice
  failed : y.sliceFailed = x.sliceFailed
  late : y.forcedLate = x.forcedLate
  reps : x.reps ⊆ y.reps

theorem SameSlice.refl (x : LaneSt) : SameSlice x x := ⟨rfl, rfl, rfl, List.Subset.refl _⟩

theorem SameSlice.trans {x y z : LaneSt} (h : SameSlice x y) (k : SameSlice y z) : SameSlice x z :=
  ⟨k.slice.trans h.slice, k.failed.trans h.failed, k.late.trans h.late, fun _ hr => k.reps (h.reps hr)⟩

theorem sameSlice_sliceResult_other (s : State) {l k : Side} (hk : k ≠ l) (r : SliceResult) :
    SameSlice (s.lane.at k) ((sliceResult s l r).lane.at k) := by
  rcases sliceResult_cases s l r with ⟨-, h | h⟩ | ⟨-, rep, failed, late, h⟩ <;> rw [h]
  · exact .refl _
  · rw [modLane_lane, Two.at_set, if_neg hk]
    exact .refl _
  · obtain ⟨y, e⟩ := sliceFault_lane_other s hk rep failed late
    rw [e]
    exact ⟨rfl, rfl, rfl, List.subset_append_left _ _⟩

theorem failedRep_of_same {l : Side} {x y : LaneSt} (h : SameSlice x y) : failedRep l y = failedRep l x := by
  rw [failedRep, failedRep, h.failed]

end Sys2Proof.Machine
end

section
/-! O16: PHASE_H and SLICE_OVERRUN (R92, R100, R422). The frame passes into G, each lane in turn takes the outcome of its slice, and
the indicator port follows, which touches neither crusts nor slices. -/

namespace Sys2Proof.Machine

open Sys2Proof.Claims

theorem exec_phaseH (env : PhaseHEnv) (s : State) : exec (.phaseH env) s = execPhaseH env s := rfl

theorem exec_sliceOverrun (l : Side) (s : State) : exec (.sliceOverrun l) s = execSliceOverrun l s := rfl

/-! ## The indicator port -/

/-- Of the lanes the indicator port writes the records of channels only. -/
theorem indicatorH_lane (stuck : Bool) (s : State) (k : Side) :
    (indicatorH stuck s).lane.at k =
      { s.lane.at k with chans := ((indicatorH stuck s).lane.at k).chans } := by
  unfold indicatorH indFrame strobe
  dsimp only
  cases k <;> (repeat' split) <;> rfl

theorem indicatorH_core (stuck : Bool) (s : State) : (indicatorH stuck s).core = s.core := by
  unfold indicatorH indFrame strobe
  dsimp only
  (repeat' split) <;> rfl

theorem indicatorH_crust (stuck : Bool) (s : State) : (indicatorH stuck s).crust = s.crust :=
  congrArg Kept.crust (kept_indicatorH stuck s)

theorem staysOff_indicatorH (stuck : Bool) (s : State) : StaysOff s (indicatorH stuck s) :=
  .of_same (indicatorH_core stuck s) (indicatorH_crust stuck s) (fun k => by rw [indicatorH_lane]) fun k => by rw [indicatorH_lane]

theorem sameSlice_indicatorH (stuck : Bool) (s : State) (k : Side) : SameSlice (s.lane.at k) ((indicatorH stuck s).lane.at k) := by
  rw [indicatorH_lane]
  exact ⟨rfl, rfl, rfl, List.Subset.refl _⟩

/-! ## The stages of phase H -/

/-- The frame has passed into G, and the errors corrected in the slices are counted. -/
def phaseHStart (env : PhaseHEnv) (s : State) : State := countEcc (toPhase s .g (startG s.core.tfCode)) env.corrected

/-- Lane A has taken the outcome of its slice. -/
def phaseHSliceA (env : PhaseHEnv) (s : State) : State := sliceResult (phaseHStart env s) .a env.slice.a

/-- Both lanes have. -/
def phaseHSlices (env : PhaseHEnv) (s : State) : State := sliceResult (phaseHSliceA env s) .b env.slice.b

def phaseHEnd (env : PhaseHEnv) (s : State) : State := indicatorH env.strobeStuck (phaseHSlices env s)

section
variable (env : PhaseHEnv) (s : State)

theorem runs_phaseH (ht : s.core.tickOn = true) (hp : s.core.phase = .h) : Runs (.phaseH env) s (phaseHEnd env s) := by
  rw [Runs, exec_phaseH, execPhaseH, ht, hp]
  rfl

theorem runsSlice_phaseHStart (l : Side) : runsSlice (phaseHStart env s) l = runsSlice s l := by cases l <;> rfl

theorem runsSlice_phaseHSliceA (l : Side) : runsSlice (phaseHSliceA env s) l = runsSlice s l :=
  (runsSlice_sliceResult _ _ _ _).trans (runsSlice_phaseHStart env s l)

theorem sliceFound_phaseHStart (l : Side) (r : SliceResult) : sliceFound (phaseHStart env s) l r ↔ sliceFound s l r := by
  rw [sliceFound, sliceFound, runsSlice_phaseHStart]

theorem sliceFound_phaseHSliceA (l : Side) (r : SliceResult) : sliceFound (phaseHSliceA env s) l r ↔ sliceFound s l r := by
  rw [sliceFound, sliceFound, runsSlice_phaseHSliceA]

theorem phaseHEnd_core : (phaseHEnd env s).core = (phaseHSlices env s).core := indicatorH_core _ _

theorem phaseHEnd_phase : (phaseHEnd env s).core.phase = .g := by
  rw [phaseHEnd_core, phaseHSlices, sliceResult_phase, phaseHSliceA, sliceResult_phase]
  rfl

theorem phaseHEnd_off : (phaseHEnd env s).core.off = BitVec.ofNat 20 (startG s.core.tfCode) := by
  rw [phaseHEnd_core, phaseHSlices, sliceResult_off, phaseHSliceA, sliceResult_off]
  rfl

theorem sameStore_phaseHEnd : SameStore s (phaseHEnd env s) :=
  ((sameStore_sliceResult (phaseHStart env s) .a _).trans (sameStore_sliceResult (phaseHSliceA env s) .b _)).trans
    (sameStore_of_kept (kept_indicatorH _ _))

theorem sameClock_phaseHEnd : SameClock s (phaseHEnd env s) :=
  ((sameClock_sliceResult (phaseHStart env s) .a _).trans (sameClock_sliceResult (phaseHSliceA env s) .b _)).trans
    (sameClock_of_kept (kept_indicatorH _ _))

/-! ## Faults found in the phase -/

theorem phaseHSliceA_calm (h : ¬ sliceFound s .a env.slice.a) :
    (phaseHSliceA env s).core = (phaseHStart env s).core ∧ (phaseHSliceA env s).crust = s.crust :=
  sliceResult_calm (mt (sliceFound_phaseHStart env s .a _).1 h)

/-- Without a fault the crusts and the proving period are undisturbed. -/
theorem phaseHEnd_calm (h : ∀ l, ¬ sliceFound s l (env.slice.at l)) :
    (phaseHEnd env s).crust = s.crust ∧ (phaseHEnd env s).core.disturbed = s.core.disturbed := by
  obtain ⟨hcoreA, hcrustA⟩ := phaseHSliceA_calm env s (h .a)
  have hB : ¬ sliceFound (phaseHSliceA env s) .b env.slice.b := mt (sliceFound_phaseHSliceA env s .b _).1 (h .b)
  have hcore : (phaseHEnd env s).core = (phaseHStart env s).core :=
    ((phaseHEnd_core env s).trans (sliceResult_calm hB).1).trans hcoreA
  exact ⟨((indicatorH_crust _ _).trans (sliceResult_calm hB).2).trans hcrustA, by rw [hcore]; rfl⟩

/-- A fault of either lane counts: what the other lane's slice and the indicator port do after it leaves it found. -/
theorem faultFound_phaseHEnd {l : Side} (h : sliceFound s l (env.slice.at l)) : FaultFound s (phaseHEnd env s) := by
  refine faultFound_staysOff (t := phaseHSlices env s) ?_ (staysOff_indicatorH _ _)
  by_cases hA : sliceFound s .a env.slice.a
  · have hfound := faultFound_sliceResult ((sliceFound_phaseHStart env s .a _).2 hA)
    refine faultFound_staysOff (t := phaseHSliceA env s) ?_ (staysOff_sliceResult _ _ _)
    exact faultFound_of_before (u := phaseHStart env s) rfl rfl rfl (fun _ => .inr rfl) (fun _ => rfl) hfound
  · have hB : sliceFound s .b env.slice.b := by
      cases l with
      | a => exact absurd h hA
      | b => exact h
    obtain ⟨hcore, hcrust⟩ := phaseHSliceA_calm env s hA
    have hfound := faultFound_sliceResult ((sliceFound_phaseHSliceA env s .b _).2 hB)
    exact faultFound_of_before (u := phaseHSliceA env s) hcrust (by rw [hcore]; rfl) (by rw [hcore]; rfl)
      (fun _ => .inr (by rw [hcore]; rfl)) (fun k => (sliceResult_lane_service _ .a k _).2.2) hfound

/-! ## The lanes -/

/-- Of all that the phase does, the outcome of a lane's own slice alone decides what becomes of that slice. -/
theorem phaseHEnd_lane (l : Side) : ∃ u, runsSlice u l = runsSlice s l ∧ SameSlice (s.lane.at l) (u.lane.at l) ∧
    SameSlice ((sliceResult u l (env.slice.at l)).lane.at l) ((phaseHEnd env s).lane.at l) := by
  cases l with
  | a =>
    exact ⟨phaseHStart env s, runsSlice_phaseHStart env s .a, .refl _,
      (sameSlice_sliceResult_other (phaseHSliceA env s) (l := .b) (by decide) _).trans (sameSlice_indicatorH _ _ .a)⟩
  | b =>
    exact ⟨phaseHSliceA env s, runsSlice_phaseHSliceA env s .b,
      sameSlice_sliceResult_other (phaseHStart env s) (l := .a) (by decide) _, sameSlice_indicatorH _ _ .b⟩

/-- A lane that runs no slice, or did not end it, is where it was. -/
theorem phaseHEnd_lane_idle {l : Side} (h : runsSlice s l = false ∨ env.slice.at l = .incomplete) :
    SameSlice (s.lane.at l) ((phaseHEnd env s).lane.at l) := by
  obtain ⟨u, hu, hin, hout⟩ := phaseHEnd_lane env s l
  have hidle : sliceResult u l (env.slice.at l) = u := by
    rcases h with h | h
    · exact sliceResult_idle (hu.trans h)
    · rw [h, sliceResult_incomplete]
  rw [hidle] at hout
  exact hin.trans hout

theorem phaseHEnd_lane_pass {l : Side} (h : runsSlice s l = true) (hr : env.slice.at l = .pass) :
    ((phaseHEnd env s).lane.at l).slice = ((s.lane.at l).slice + 1) % 1024 ∧
    ((phaseHEnd env s).lane.at l).sliceFailed = false := by
  obtain ⟨u, hu, hin, hout⟩ := phaseHEnd_lane env s l
  rw [hr, sliceResult_pass (hu.trans h), modLane_lane, Two.at_set_same] at hout
  exact ⟨by rw [hout.slice, nextSlice, hin.slice], hout.failed⟩

/-- Where the outcome is a fault, wherever in the phase the lane's turn comes, the fault's report and marks are there at the end. -/
theorem phaseHEnd_lane_fault {l : Side} {rep : Rep} {failed late : Bool}
    (h : ∀ u, runsSlice u l = runsSlice s l → SameSlice (s.lane.at l) (u.lane.at l) →
      sliceResult u l (env.slice.at l) = sliceFault u l rep failed late) :
    ((phaseHEnd env s).lane.at l).slice = (s.lane.at l).slice ∧
    ((phaseHEnd env s).lane.at l).sliceFailed = ((s.lane.at l).sliceFailed || failed) ∧
    rep ∈ ((phaseHEnd env s).lane.at l).reps ∧
    ((phaseHEnd env s).lane.at l).forcedLate = ((s.lane.at l).forcedLate || late) := by
  obtain ⟨u, hu, hin, hout⟩ := phaseHEnd_lane env s l
  obtain ⟨z, hz⟩ := sliceFault_lane_same u l rep failed late
  rw [h u hu hin, hz] at hout
  exact ⟨hout.slice.trans hin.slice, by rw [hout.failed, ← hin.failed], hout.reps (List.mem_append_right _ List.mem_cons_self),
    by rw [hout.late, ← hin.late]⟩

theorem runs_phaseH_idle (h : s.core.tickOn = false ∨ s.core.phase ≠ .h) : Runs (.phaseH env) s s := by
  rw [Runs, exec_phaseH, execPhaseH, if_pos]
  rcases h with h | h <;> simp [h]

end

/-! ## SLICE_OVERRUN -/

section
variable {s : State} {l : Side}

theorem runs_sliceOverrun (ht : s.core.tickOn = true) (hr : runsSlice s l = true) :
    Runs (.sliceOverrun l) s (laneFault s (transient (chanLane l) anSliceOverrun)) := by
  rw [Runs, exec_sliceOverrun, execSliceOverrun, ht, hr]
  rfl

theorem runs_sliceOverrun_idle (h : s.core.tickOn = false ∨ runsSlice s l = false) : Runs (.sliceOverrun l) s s := by
  rw [Runs, exec_sliceOverrun, execSliceOverrun, if_neg]
  rcases h with h | h <;> simp [h]

end

theorem sameStore_laneFault (s : State) (r : Rep) : SameStore s (laneFault s r) := by
  rw [laneFault_eq]
  exact ⟨rfl, rfl, rfl, rfl, rfl, rfl⟩

/-- Settles O16: phase H is the slice of lane A, that of lane B and the indicator port in turn; a fault that one of them finds is a
lane fault, which what follows leaves found. -/
theorem phaseHRunsSlices : Obligations.PhaseHRunsSlices := by
  unfold Obligations.PhaseHRunsSlices
  refine ⟨runs_phaseH_idle, fun env s ht hp => ⟨phaseHEnd env s, runs_phaseH env s ht hp, sameStore_phaseHEnd env s,
    sameClock_phaseHEnd env s, phaseHEnd_phase env s, phaseHEnd_off env s, fun h => phaseHEnd_calm env s fun l hl => ?_,
    fun ⟨l, hr, hpass, hinc⟩ => faultFound_phaseHEnd env s (l := l) ⟨hr, hpass, hinc⟩, ?_⟩,
    fun l s => ⟨fun ht hr => ?_, runs_sliceOverrun_idle⟩⟩
  · exact (h l hl.1).elim hl.2.1 hl.2.2
  · rintro l before after rep failed rfl rfl rfl rfl
    refine ⟨fun h => ?_, fun h => ⟨phaseHEnd_lane_pass env s h, fun e => ?_, fun e => ?_, fun e hm => ?_, fun e hm => ?_⟩⟩
    · have hsame := phaseHEnd_lane_idle env s h
      exact ⟨hsame.slice, hsame.failed, hsame.late⟩
    · obtain ⟨hslice, hfailed, hmem, hlate⟩ := phaseHEnd_lane_fault env s fun u hu hin => by
        rw [e, sliceResult_fail (hu.trans h), failedRep_of_same hin]
      exact ⟨hslice, by rw [hfailed, Bool.or_true], hmem, by rw [hlate, Bool.or_false]⟩
    · obtain ⟨hslice, hfailed, hmem, hlate⟩ := phaseHEnd_lane_fault env s fun u hu hin => by
        rw [e, sliceResult_restoreMismatch (hu.trans h), failedRep_of_same hin]
      exact ⟨hslice, by rw [hfailed, Bool.or_true], hmem, by rw [hlate, Bool.or_true]⟩
    · obtain ⟨hslice, hfailed, hmem, hlate⟩ := phaseHEnd_lane_fault env s fun u hu hin => by
        rw [e, sliceResult_eccDouble_memory (hu.trans h) (by rw [hin.slice]; exact hm)]
      exact ⟨hslice, by rw [hfailed, Bool.or_false], hmem, by rw [hlate, Bool.or_true]⟩
    · obtain ⟨hslice, hfailed, hmem, -⟩ := phaseHEnd_lane_fault env s fun u hu hin => by
        rw [e, sliceResult_eccDouble_other (hu.trans h) (by rw [hin.slice]; exact hm), failedRep_of_same hin]
      exact ⟨hslice, by rw [hfailed, Bool.or_true], hmem⟩
  · refine ⟨_, runs_sliceOverrun ht hr, faultFound_laneFault _ _, sameStore_laneFault _ _,
      by rw [laneFault_core]; rfl, fun k => ?_⟩
    rw [laneFault_lane]
    exact ⟨rfl, rfl, rfl⟩

end Sys2Proof.Machine
end

section
/-! SUPPORT. The core through phase S (R91, R480): of the core's marks the phase adds fatal faults only, but for the clocks' own. -/

namespace Sys2Proof.Machine

open Sys2Proof.Claims

theorem foldl_core {α : Type} (f : State → α → State) (h : ∀ s x, (f s x).core = s.core) (l : List α) (s : State) :
    (l.foldl f s).core = s.core := by
  induction l generalizing s with
  | nil => rfl
  | cons x r ih => rw [List.foldl_cons, ih, h]

@[simp] theorem pushCrumb_core (s : State) (c : List Byte) : (pushCrumb s c).core = s.core := by
  unfold pushCrumb
  (repeat' split) <;> rfl

@[simp] theorem crumb_core (s : State) (kind : Byte) (chan : Nat) (code : Byte) (body : List Byte) :
    (crumb s kind chan code body).core = s.core := pushCrumb_core _ _

/-! ## Fatal faults (R261, R268) -/

/-- From `s` to `t` no fatal fault is forgotten, and the mark of a stopped clock stands as it did. -/
structure FatalKept (s t : State) : Prop where
  clockStop : t.core.clockStop = s.core.clockStop
  fatal : s.core.fatal ⊆ t.core.fatal

theorem FatalKept.of_core {s t : State} (h : t.core = s.core) : FatalKept s t :=
  ⟨by rw [h], by rw [h]; exact List.Subset.refl _⟩

theorem FatalKept.trans {s t u : State} (h : FatalKept s t) (k : FatalKept t u) : FatalKept s u :=
  ⟨k.clockStop.trans h.clockStop, fun _ hx => k.fatal (h.fatal hx)⟩

/-- A fatal fault writes the list of fatal faults only, and each code once. -/
theorem fatalFault_core (s : State) (code : Byte) :
    (fatalFault s code).core = { s.core with
      fatal := if s.core.fatal.contains code then s.core.fatal else s.core.fatal ++ [code] } := by
  unfold fatalFault
  split
  · rfl
  · exact crumb_core _ _ _ _ _

theorem fatalKept_fatalFault (s : State) (code : Byte) : FatalKept s (fatalFault s code) := by
  refine ⟨by rw [fatalFault_core], ?_⟩
  rw [fatalFault_core]
  dsimp only
  split
  · exact List.Subset.refl _
  · exact List.subset_append_left _ _

theorem mem_fatalFault (s : State) (code : Byte) : code ∈ (fatalFault s code).core.fatal := by
  rw [fatalFault_core]
  dsimp only
  split
  · next h => exact List.contains_iff_mem.1 h
  · exact List.mem_append_right _ List.mem_cons_self

theorem fatalKept_rangeFault (s : State) : FatalKept s (rangeFault s) := by
  unfold rangeFault
  split
  · exact .of_core rfl
  · exact fatalKept_fatalFault _ _

/-! ## The steps of phase S -/

theorem endBlanking_core (s : State) (leg : LegId) (lim : Bool) : (endBlanking s leg lim).core = s.core := by
  unfold endBlanking
  dsimp only
  split <;> rfl

theorem endPullIn_core (s : State) (pair : Nat) : (endPullIn s pair).core = s.core := by
  unfold endPullIn
  dsimp only
  split <;> rfl

theorem endTimes_core (s : State) : (endTimes s).core = s.core := by
  unfold endTimes
  dsimp only
  rw [foldl_core _ endPullIn_core, foldl_core _ fun s n => endBlanking_core s ⟨.b, n⟩ false,
    foldl_core _ fun s n => endBlanking_core s ⟨.a, n⟩ false]

theorem hearthDeliver_core (s : State) : (hearthDeliver s).core = s.core := by
  unfold hearthDeliver
  split
  · rfl
  · exact foldl_core applyChanOp (fun _ _ => rfl) _ _

/-- The report of a stopped clock has become a fatal fault. -/
theorem stopEnters_core {s : State} (h : s.core.clockStop = true) :
    0x51#8 ∈ (stopEnters s).core.fatal ∧ (stopEnters s).core.clockStop = false := by
  rw [stopEnters, if_pos h]
  exact ⟨mem_fatalFault _ _, by rw [fatalFault_core]⟩

theorem fatalKept_clockStopEnters (s : State) : FatalKept (stopEnters s) (clockStopEnters s) := by
  unfold clockStopEnters
  dsimp only
  split
  · exact FatalKept.trans (t := { stopEnters s with core := { (stopEnters s).core with rangeDue := false } })
      ⟨rfl, List.Subset.refl _⟩ (fatalKept_rangeFault _)
  · exact .of_core rfl

theorem refuseSwitch_core (s : State) (w : PendingSwitch) : (refuseSwitch s w).core = s.core := by
  unfold refuseSwitch
  dsimp only
  split <;> exact crumb_core _ _ _ _ _

theorem agreeSwitch_core (env : PhaseSEnv) (s : State) : (agreeSwitch env s).core = s.core := by
  unfold agreeSwitch
  split
  · rfl
  · split
    · rfl
    · exact refuseSwitch_core _ _

theorem hostParity_core (env : PhaseSEnv) (s : State) : (hostParity env s).core = s.core := by
  unfold hostParity
  split <;> rfl

theorem cycleEdges_core (s : State) (c : Side) (x : Snap) : (cycleEdges s c x).core = s.core := by
  unfold cycleEdges
  dsimp only
  split <;> rfl

theorem useSnapshot_core (cfg : LoafCfg) (s : State) (c : Side) : (useSnapshot cfg s c).core = s.core := by
  unfold useSnapshot countOverflow
  dsimp only
  rw [modEpoch_core, cycleEdges_core, modLane_core, modLane_core, foldl_core _ laneReport_core]

theorem takeSnapshot_core (env : PhaseSEnv) (s : State) (c : Side) : (takeSnapshot env s c).core = s.core := by
  unfold takeSnapshot
  split
  · rfl
  split
  · rfl
  split
  · rfl
  · exact useSnapshot_core _ _ _

/-- Only the loss of both crusts is a fatal fault of the snapshots (R261). -/
theorem fatalKept_takeSnapshots (env : PhaseSEnv) (s : State) : FatalKept s (takeSnapshots env s) := by
  unfold takeSnapshots
  split
  · exact fatalKept_fatalFault _ _
  · exact .of_core ((takeSnapshot_core _ _ _).trans (takeSnapshot_core _ _ _))

theorem parityReps_core (env : PhaseSEnv) (s : State) : (parityReps env s).core = s.core := by
  unfold parityReps
  refine foldl_core _ (fun u h => ?_) _ _
  rfl

theorem pairShort_core (cfg : LoafCfg) (s : State) (p : Nat) : (pairShort cfg s p).core = s.core := by
  unfold pairShort
  split
  · rfl
  · exact foldl_core _ (fun u n => laneReport_core u (permanent n anPairshort)) _ _

theorem findShorts_core (env : PhaseSEnv) (s : State) : (findShorts env s).core = s.core := by
  unfold findShorts
  split
  · split
    · exact foldl_core _ (pairShort_core _) _ _
    · rfl
  · rfl

theorem fatalKept_exchangeInputs (env : PhaseSEnv) (s : State) : FatalKept s (exchangeInputs env s) := by
  have hparity : ∀ u : State, (findShorts env (parityReps env u)).core = u.core := fun u =>
    (findShorts_core env _).trans (parityReps_core env u)
  unfold exchangeInputs
  dsimp only
  split
  all_goals
    refine FatalKept.trans (.of_core ?_) ((fatalKept_takeSnapshots env _).trans (.of_core (hparity _)))
    exact hostParity_core env s

end Sys2Proof.Machine
end

section
/-! SUPPORT. A port's transmitter (R287, R294): what starting a frame leaves alone. -/

namespace Sys2Proof

theorem PortId.ne_other : (p : PortId) → p ≠ p.other
  | .p0 => nofun
  | .p1 => nofun

end Sys2Proof

namespace Sys2Proof.Machine

theorem portOf_modPort (s : State) (p k : PortId) (f : PortSt → PortSt) :
    portOf (modPort s p f) k = if k = p then f (portOf s p) else portOf s k := by
  cases p <;> cases k <;> rfl

/-- Sending SEG 0 of a request marks its queue entry, and changes nothing else. -/
theorem markSent_eq (s : State) (f : Frame) :
    markSent s f = { s with mbx := { s.mbx with queue := (markSent s f).mbx.queue } } := by
  unfold markSent
  split <;> rfl

/-- A transmitter starts nothing, or one waiting frame, which leaves the port's queues; a hop retry counts. -/
theorem pump_cases (s : State) (p : PortId) :
    pump s p = s ∨ ∃ u g f, pump s p = modPort (markSent u g) p f ∧ (u = s ∨ u = countRetry s) ∧
      ∀ q : PortSt, q.cut = [] → (f q).cut = [] := by
  unfold pump
  dsimp only
  split
  · exact .inl rfl
  split
  · exact .inl rfl
  · next r _ _ =>
    refine .inr ⟨_, r.frame, _, rfl, ?_, fun q hq => ?_⟩
    · split
      · exact .inr rfl
      · exact .inl rfl
    · dsimp only
      rw [hq, dropFrame, List.erase_nil, ite_self]

/-- Starting a frame writes the ports, the marks of queue entries and the live count of retries. -/
theorem pump_eq (s : State) (p : PortId) :
    pump s p = { s with
      fab := { s.fab with ports := (pump s p).fab.ports }, mbx := { s.mbx with queue := (pump s p).mbx.queue }
      stat := { s.stat with live := (pump s p).stat.live } } := by
  rcases pump_cases s p with h | ⟨u, g, f, h, hu | hu, -⟩ <;> rw [h]
  · rw [markSent_eq, hu]; rfl
  · rw [markSent_eq, hu]; rfl

theorem portOf_markSent (s : State) (g : Frame) (k : PortId) : portOf (markSent s g) k = portOf s k := by
  rw [markSent_eq]; rfl

theorem pump_port (s : State) (p : PortId) : ∃ f : PortSt → PortSt, (∀ q, q.cut = [] → (f q).cut = []) ∧
    ∀ k, portOf (pump s p) k = if k = p then f (portOf s p) else portOf s k := by
  rcases pump_cases s p with h | ⟨u, g, f, h, hu, hf⟩ <;> rw [h]
  · refine ⟨fun q => q, fun _ hq => hq, fun k => ?_⟩
    split
    · next hk => rw [hk]
    · rfl
  · have hport : ∀ k, portOf (markSent u g) k = portOf s k := fun k => by
      rw [portOf_markSent]
      rcases hu with rfl | rfl <;> rfl
    exact ⟨f, hf, fun k => by rw [portOf_modPort, hport, hport]⟩

end Sys2Proof.Machine
end

section
/-! O17: the clocks and the crossings (R479, R480, R485, R488). -/

namespace Sys2Proof.Machine

open Sys2Proof.Claims

/-! ## CLOCK_GATE_CLOSE and CLOCK_STOP -/

section
variable {s : State}

theorem exec_clockGateClose (l : Side) (n : Nat) (s : State) :
    exec (.clockGateClose l n) s = execClockGateClose l n s := rfl

theorem runs_clockGateClose {l : Side} (n : Nat) (ht : s.core.tickOn = true) (hl : laneLive s l = true) :
    Runs (.clockGateClose l n) s (modLane s l fun x => { x with gate := some n }) := by
  rw [Runs, exec_clockGateClose, execClockGateClose, ht, hl]
  rfl

theorem runs_clockGateClose_idle {l : Side} (n : Nat) (h : s.core.tickOn = false ∨ laneLive s l = false) :
    Runs (.clockGateClose l n) s s := by
  rw [Runs, exec_clockGateClose, execClockGateClose, if_neg]
  rcases h with h | h <;> simp [h]

theorem exec_clockStop (k : WatchedClock) (s : State) : exec (.clockStop k) s = execClockStop k s := rfl

theorem stopLane_eq (k : WatchedClock) (s : State) : stopLane k s = { s with lane := (stopLane k s).lane } := by
  unfold stopLane
  split <;> rfl

/-- The lane whose own clock has stopped stands, and the other is as before. -/
theorem stopLane_lane (k : WatchedClock) (s : State) (l : Side) :
    (stopLane k s).lane.at l =
      { s.lane.at l with stopped := (s.lane.at l).stopped || laneOfClock k == some l } := by
  unfold stopLane
  split
  · next m h =>
    rw [h, modLane_lane, Two.at_set]
    by_cases hl : l = m
    · subst hl; simp
    · have hne : (some m == some l) = false := by simpa using Ne.symm hl
      rw [if_neg hl, hne, Bool.or_false]
  · next h => rw [h]; simp

/-- The state in which CLOCK_STOP leaves a core out of reset. -/
def clockStopped (k : WatchedClock) (s : State) : State :=
  { s with core := { s.core with clockStop := s.core.clockStop || (watchers k).any (laneRuns s) }, lane := (stopLane k s).lane }

theorem runs_clockStop_reset (k : WatchedClock) (h : s.core.inReset = true) : Runs (.clockStop k) s s := by
  rw [Runs, exec_clockStop, execClockStop, if_pos h]

theorem runs_clockStop (k : WatchedClock) (h : s.core.inReset = false) : Runs (.clockStop k) s (clockStopped k s) := by
  rw [Runs, exec_clockStop, execClockStop, h, clockStopped]
  cases hw : (watchers k).any (laneRuns s) with
  | true => rw [Bool.or_true, stopLane_eq]; rfl
  | false => rw [Bool.or_false, stopLane_eq]; rfl

/-! ## The report of a stopped clock enters in phase S -/

theorem exec_phaseS (env : PhaseSEnv) (s : State) : exec (.phaseS env) s = execPhaseS env s := rfl

/-- The stages of phase S, with the exchange where no test holds it (R420). -/
def phaseSEnd (env : PhaseSEnv) (s : State) : State :=
  let s1 := agreeSwitch env (clockStopEnters (hearthDeliver (toPhase (endTimes s) .x (endS s.core.tfCode))))
  if s.test.hold then s1 else exchangeInputs env s1

theorem runs_phaseS (env : PhaseSEnv) (ht : s.core.tickOn = true) (hp : s.core.phase = .s) :
    Runs (.phaseS env) s (phaseSEnd env s) := by
  rw [Runs, exec_phaseS, execPhaseS, ht, hp]
  rfl

/-- After the report has entered, phase S forgets no fatal fault. -/
theorem fatalKept_phaseSEnd (env : PhaseSEnv) (s : State) :
    FatalKept (stopEnters (hearthDeliver (toPhase (endTimes s) .x (endS s.core.tfCode)))) (phaseSEnd env s) := by
  refine (fatalKept_clockStopEnters _).trans (FatalKept.trans (.of_core (agreeSwitch_core env _)) ?_)
  unfold phaseSEnd
  dsimp only
  split
  · exact .of_core rfl
  · exact fatalKept_exchangeInputs env _

theorem phaseSEnd_clockStop (env : PhaseSEnv) (h : s.core.clockStop = true) :
    0x51#8 ∈ (phaseSEnd env s).core.fatal ∧ (phaseSEnd env s).core.clockStop = false := by
  have hin : (hearthDeliver (toPhase (endTimes s) .x (endS s.core.tfCode))).core.clockStop = true := by
    rw [hearthDeliver_core, toPhase, endTimes_core, h]
  obtain ⟨hmem, hoff⟩ := stopEnters_core hin
  have hkept := fatalKept_phaseSEnd env s
  exact ⟨hkept.fatal hmem, hkept.clockStop.trans hoff⟩

/-! ## FIFO_RESYNC -/

theorem exec_fifoResync (f : FifoId) (s : State) : exec (.fifoResync f) s = execFifoResync f s := rfl

/-- A barrier FIFO that takes data again: the output set in it is lost, and in phase S the snapshot. -/
def resynced (s : State) (x : CrustSt) : CrustSt :=
  { x with staged := none, resync := false, snapLost := x.snapLost || snapInFlight s }

theorem runs_fifoResync_lost {c : Side} (hs : (s.crust.at c).staged.isSome = true) (hl : laneLive s c = true) :
    Runs (.fifoResync (.barrier c)) s
      (laneFault (onCrust s c (resynced s (s.crust.at c))) (transient (chanLane c) anCrustlink)) := by
  rw [Runs, exec_fifoResync, execFifoResync]
  rw [hs, hl]
  rfl

theorem runs_fifoResync_empty {c : Side} (h : (s.crust.at c).staged = none ∨ laneLive s c = false) :
    Runs (.fifoResync (.barrier c)) s (onCrust s c (resynced s (s.crust.at c))) := by
  rw [Runs, exec_fifoResync, execFifoResync]
  rw [if_neg]
  · rfl
  · rcases h with h | h <;> simp [h]

theorem runs_fifoResync_fabric (p : PortId) : Runs (.fifoResync (.fabric p)) s (dropReceived s p) := rfl

end

theorem sameStore_onCrust (s : State) (c : Side) (y : CrustSt) : SameStore s (onCrust s c y) := ⟨rfl, rfl, rfl, rfl, rfl, rfl⟩

/-- No output set comes back to a crust through a lane fault. -/
theorem laneFault_crust_unstaged {s : State} (r : Rep) {c : Side} (h : (s.crust.at c).staged = none) :
    (laneFault s r).crust.at c = s.crust.at c := by
  obtain ⟨f, e⟩ := laneFault_crust s r c
  rw [e, h, Option.map_none, ← h]

theorem kept_dropReceived (s : State) (p : PortId) : kept (dropReceived s p) = kept s := by
  rw [dropReceived, kept_pump, kept_modPort]; rfl

/-- The other port loses what passes on, and then may start a frame of its own; this port keeps all. -/
theorem dropReceived_port (s : State) (p : PortId) : ∃ f : PortSt → PortSt, (∀ q, q.cut = [] → (f q).cut = []) ∧
    ∀ k, portOf (dropReceived s p) k = if k = p.other then f (cutForwarded (portOf s p.other)) else portOf s k := by
  obtain ⟨f, hf, hport⟩ := pump_port (modPort { s with fab := { s.fab with inbox := s.fab.inbox.filter fun e => e.1 != p } }
    p.other cutForwarded) p.other
  refine ⟨f, hf, fun k => ?_⟩
  rw [dropReceived, hport, portOf_modPort, portOf_modPort, if_pos rfl]
  split
  · rfl
  · rfl

/-- The receive FIFO of a fabric port loses what it holds for the module and for the other port. -/
theorem dropReceived_fabric (s : State) (p : PortId) :
    OnlyFabricAndJournal s (dropReceived s p) ∧ (portOf (dropReceived s p) p.other).cut = [] ∧
      portOf (dropReceived s p) p = portOf s p ∧ (dropReceived s p).fab.inbox = s.fab.inbox.filter fun e => e.1 != p := by
  obtain ⟨f, hf, hport⟩ := dropReceived_port s p
  refine ⟨⟨?_, sameStore_of_kept (kept_dropReceived s p), sameClock_of_kept (kept_dropReceived s p)⟩, ?_, ?_, ?_⟩
  · rw [dropReceived, pump_eq]; rfl
  · rw [hport, if_pos rfl]; exact hf _ rfl
  · rw [hport, if_neg p.ne_other]
  · rw [dropReceived, pump_eq]; rfl

/-- Settles O17: a stopped clock's report stands until phase S takes it in, where no later stage of the phase forgets a fatal fault;
a resynced barrier FIFO has lost its set before the fault that counts it, and a resynced fabric FIFO its frames before the
transmitter goes on. -/
theorem clocksAndCrossings : Obligations.ClocksAndCrossings := by
  unfold Obligations.ClocksAndCrossings
  intro s
  refine ⟨fun l n => runs_clockGateClose n, fun l n => runs_clockGateClose_idle n, runs_clockStop_reset, ?_,
    fun env ht hp h => ⟨_, runs_phaseS env ht hp, phaseSEnd_clockStop env h⟩, ?_,
    fun p => ⟨_, runs_fifoResync_fabric p, dropReceived_fabric s p⟩⟩
  · rintro k seen own hreset rfl rfl
    refine ⟨_, runs_clockStop k hreset, rfl, ?_, fun l => ?_⟩
    · cases k <;> rfl
    · rw [clockStopped, stopLane_lane]
      cases k <;> rfl
  · rintro c y rfl
    refine ⟨fun hs hl => ⟨_, runs_fifoResync_lost hs hl, faultFound_laneFault _ _, ?_, ?_, fun l => ?_⟩, runs_fifoResync_empty⟩
    · exact (laneFault_crust_unstaged _ (by rw [onCrust, Two.at_set_same]; rfl)).trans (Two.at_set_same _ _ _)
    · exact (sameStore_onCrust s c _).trans (sameStore_laneFault _ _)
    · rw [laneFault_lane]; rfl

end Sys2Proof.Machine
end

section
/-! SUPPORT. The invariant (R41, R49, R64, R352, R437) through the commands: what it looks at, and an outcome that keeps it. -/

namespace Sys2Proof.Machine

/-- The pieces of state that the invariant looks at. -/
structure Guarded where
  crust : Two CrustSt
  journal : Tab Byte
  openPage : Option Nat
  mem : Tab Byte
  skip : List Nat
  hostwd : Byte
  inReset : Bool
  starting : Bool
  mode : Mode
  modeNext : Option (Mode × ModeWhy)
  tickOn : Bool

/-- The invariant does not look at the clock of the frame, the lifecycle, the statistics and the queue of commands. -/
def Kept.guarded (k : Kept) : Guarded :=
  ⟨k.crust, k.journal, k.openPage, k.mem, k.skip, k.hostwd, k.inReset, k.starting, k.mode, k.modeNext, k.tickOn⟩

theorem inv_eq_guarded (s : State) : s.inv = (let g := (kept s).guarded
    quiet g.crust.a && quiet g.crust.b && Memory.wf g.journal && Memory.wf g.mem && writerOk g.openPage g.skip &&
    (g.hostwd &&& 0xE0#8) == 0 && modeOk (g.inReset || g.starting) g.tickOn g.mode g.modeNext) := rfl

/-- A change of nothing that the invariant looks at keeps it. -/
theorem inv_of_guarded {s t : State} (h : (kept t).guarded = (kept s).guarded) (hs : s.inv = true) : t.inv = true := by
  rw [inv_eq_guarded, h, ← inv_eq_guarded, hs]

theorem inv_ite {a b : State} (c : Prop) [Decidable c] (ha : a.inv = true) (hb : b.inv = true) :
    (if c then a else b).inv = true := by
  split
  · exact ha
  · exact hb

theorem inv_whileLive {s t : State} (hs : s.inv = true) (ht : t.inv = true) : (whileLive s t).inv = true := inv_ite _ ht hs

/-! ## Outcomes -/

/-- An outcome whose next state, if there is one, has the invariant. -/
def KeepsInv (o : Host.Outcome State Fault Refusal) : Prop := ∀ t, o = .next t → t.inv = true

theorem KeepsInv.next {t : State} (h : t.inv = true) : KeepsInv (.next t) := fun u e => by
  cases e
  exact h

theorem KeepsInv.fault (r : Fault) : KeepsInv (.fault r) := fun _ e => by cases e

theorem KeepsInv.ite {a b : Host.Outcome State Fault Refusal} (c : Prop) [Decidable c] (ha : KeepsInv a) (hb : KeepsInv b) :
    KeepsInv (if c then a else b) := by
  split
  · exact ha
  · exact hb

/-- A mailbox command keeps the invariant where its own effect does: an answer from the gates touches the queue alone. -/
theorem keepsInv_runCmd {s : State} (hs : s.inv = true) (cmd : Byte) (via : Via) (body : QEntry → State)
    (hb : ∀ e, (body e).inv = true) : KeepsInv (runCmd cmd via s body) := by
  unfold runCmd
  split
  · exact .next hs
  · next e _ =>
    split
    · exact .next (inv_of_kept (kept_replyErr _ _ _ _) hs)
    · exact .next (hb e)

theorem keepsInv_runCmd_of_kept {s : State} (hs : s.inv = true) {cmd : Byte} {via : Via} {body : QEntry → State}
    (hb : ∀ e, kept (body e) = kept s) : KeepsInv (runCmd cmd via s body) :=
  keepsInv_runCmd hs cmd via body fun e => inv_of_kept (hb e) hs

end Sys2Proof.Machine
end

section
/-! SUPPORT. The invariant under the supplies of a crust (R41, R49, R60). -/

namespace Sys2Proof.Machine

/-- A crust that is quiet stays so when a supply condition clears: it may drive after that, or its legs are off. -/
theorem quiet_of_clear {x y : CrustSt} (hx : quiet x = true) (hl : y.legs = x.legs)
    (h : crustPowered x = true → crustPowered y = true) : quiet y = true := by
  rcases (quiet_iff x).1 hx with hp | ho
  · exact (quiet_iff y).2 (.inl (h hp))
  · refine quiet_of_legsOff ?_
    rw [legsOff_iff] at ho ⊢
    rw [hl]
    exact ho

theorem inv_busMode (before : State) {s : State} (hs : s.inv = true) : (busMode before s).inv = true :=
  inv_of_kept (kept_busMode before s) hs

theorem inv_noteLockout {s : State} (hs : s.inv = true) (c : Side) (on : Bool) : (noteLockout s c on).inv = true :=
  inv_of_kept rfl hs

/-- The handshake renewed, or refused to the lane, once a lockout has cleared. -/
theorem inv_renewAfterLockout {s : State} (hs : s.inv = true) (c : Side) (ok : Bool) :
    (renewAfterLockout s c ok).inv = true := by
  unfold renewAfterLockout
  dsimp only
  split
  · exact hs
  split
  · exact inv_handshake hs c
  · exact inv_of_kept (kept_laneReport _ _) (inv_tame hs c (Tame.of_same fun _ => ⟨rfl, rfl, rfl, rfl⟩))

theorem keepsInv_execRstnLow {s : State} (hs : s.inv = true) (w : Nat) : KeepsInv (execRstnLow w s) := by
  have hdrawn : ({ s with drawn := s.drawn + 1 } : State).inv = true := inv_of_kept rfl hs
  exact .ite _ (.next hs) (.ite _ (.next (inv_coreReset hs _)) (.next (inv_ite _ (inv_coreReset hdrawn _) hdrawn)))

theorem keepsInv_execCrustLogicPowerLoss {s : State} (hs : s.inv = true) (c : Side) :
    KeepsInv (execCrustLogicPowerLoss c s) :=
  .next (inv_busMode s (inv_modCrust hs c _ (quiet_open _ _ rfl)))

theorem keepsInv_execCrustLogicPowerReturn {s : State} (hs : s.inv = true) (c : Side) :
    KeepsInv (execCrustLogicPowerReturn c s) :=
  .next (inv_ite _ hs (inv_busMode s (inv_modCrust hs c _ (quiet_of_legsOff rfl))))

theorem keepsInv_execLPlusUndervoltage {s : State} (hs : s.inv = true) (c : Side) : KeepsInv (execLPlusUndervoltage c s) :=
  .next (inv_tame hs c (Tame.of_same fun _ => ⟨rfl, rfl, rfl, rfl⟩))

theorem keepsInv_execLPlusUndervoltageCleared {s : State} (hs : s.inv = true) (c : Side) :
    KeepsInv (execLPlusUndervoltageCleared c s) :=
  .next (inv_ite _ hs (inv_tame hs c (Tame.of_same fun _ => ⟨rfl, rfl, rfl, rfl⟩)))

theorem keepsInv_execLPlusLockout {s : State} (hs : s.inv = true) (c : Side) : KeepsInv (execLPlusLockout c s) :=
  .next (inv_busMode s (inv_modCrust (inv_noteLockout hs c true) c _ (quiet_open _ _ rfl)))

theorem keepsInv_execOvervoltageLockout {s : State} (hs : s.inv = true) (c : Side) : KeepsInv (execOvervoltageLockout c s) :=
  .next (inv_modCrust hs c _ (quiet_open _ _ rfl))

theorem keepsInv_execLPlusLockoutCleared {s : State} (hs : s.inv = true) (c : Side) (ok : Bool) :
    KeepsInv (execLPlusLockoutCleared c ok s) := by
  refine .next (inv_ite _ (inv_busMode s (inv_renewAfterLockout (inv_modCrust (inv_noteLockout hs c false) c _ ?_) c ok)) hs)
  exact quiet_of_clear (quiet_at hs c) rfl fun h => by simp_all [crustPowered, noteLockout]

theorem keepsInv_execOvervoltageCleared {s : State} (hs : s.inv = true) (c : Side) (ok : Bool) :
    KeepsInv (execOvervoltageCleared c ok s) := by
  refine .next (inv_ite _ (inv_renewAfterLockout (inv_modCrust hs c _ ?_) c ok) hs)
  exact quiet_of_clear (quiet_at hs c) rfl fun h => by simp_all [crustPowered]

end Sys2Proof.Machine
end

section
/-! SUPPORT. The invariant through the start-up (R76-R78, R84, R85, R402-R406): from the release of reset to the end of step 5 the
module is in BOOT with no mode due, and what follows leaves no mode due either. -/

namespace Sys2Proof.Machine

/-- Out of reset, past no start-up that waits for the first tick, with the invariant and no mode due. -/
structure Released (s : State) : Prop where
  inv : s.inv = true
  inReset : s.core.inReset = false
  startUp : s.core.startUp.isSome = false
  modeNext : s.core.modeNext = none

theorem Released.of_core {s t : State} (h : Released s) (hc : t.core = s.core) (hi : t.inv = true) : Released t :=
  ⟨hi, by rw [hc, h.inReset], by rw [hc, h.startUp], by rw [hc, h.modeNext]⟩

theorem Released.of_guarded {s t : State} (h : Released s) (hg : (kept t).guarded = (kept s).guarded) : Released t :=
  ⟨inv_of_guarded hg h.inv, (congrArg Guarded.inReset hg).trans h.inReset, (congrArg Guarded.starting hg).trans h.startUp,
    (congrArg Guarded.modeNext hg).trans h.modeNext⟩

theorem Released.of_kept {s t : State} (h : Released s) (hk : kept t = kept s) : Released t :=
  h.of_guarded (congrArg Kept.guarded hk)

/-- With no mode due the module may enter any mode, and its tick may run. -/
theorem Released.enter {s t : State} (h : Released s) (m : Mode) (on : Bool)
    (hk : (kept t).guarded = { (kept s).guarded with mode := m, tickOn := on }) : Released t := by
  refine ⟨?_, (congrArg Guarded.inReset hk).trans h.inReset, (congrArg Guarded.starting hk).trans h.startUp,
    (congrArg Guarded.modeNext hk).trans h.modeNext⟩
  have hs := (inv_iff s).1 h.inv
  have hmode : modeOk (s.core.inReset || s.core.startUp.isSome) on m s.core.modeNext = true := by
    rw [h.inReset, h.startUp, h.modeNext]
    rfl
  have k : ({ s with core := { s.core with mode := m, tickOn := on } } : State).inv = true :=
    inv_of (k := { kept s with mode := m, tickOn := on }) rfl { hs with mode := hmode }
  exact inv_of_guarded hk k

theorem Released.stopInSafeHold {s : State} (h : Released s) : Released (Machine.stopInSafeHold s) :=
  h.enter .safeHold s.core.tickOn (congrArg Kept.guarded (kept_stopInSafeHold s))

/-! ## Steps 1 to 3 -/

theorem markBad_core (s : State) (p : Nat) : (markBad s p).core = s.core := by
  unfold markBad
  split
  · rfl
  · exact crumb_core _ _ _ _ _

theorem scanPages_core (s : State) (runs : List BlockRun) (set : List Nat) : (scanPages s runs set).core = s.core := by
  unfold scanPages
  split
  · exact foldl_core _ (fun s (p : W16) => markBad_core s p.toNat) _ s
  · rfl

theorem extendAll_core (s : State) (l : List (Nat × List Byte)) : (extendAll s l).core = s.core := by
  refine foldl_core _ (fun s e => ?_) l s
  unfold extendM
  split <;> rfl

theorem kept_bootCrumb (s : State) (quick : Bool) : kept (bootCrumb s quick) = kept s := kept_crumb _ _ _ _ _

theorem kept_resetCrumb (s : State) : kept (resetCrumb s) = kept s := by
  unfold resetCrumb
  split
  · split
    · rfl
    · exact kept_crumb _ _ _ _ _
  · rfl

theorem resetCrumb_core (s : State) : (resetCrumb s).core = s.core := by
  unfold resetCrumb
  split
  · split
    · rfl
    · exact crumb_core _ _ _ _ _
  · rfl

theorem canApply_core (s : State) : (canApply s).core = s.core := by
  unfold canApply
  split <;> rfl

theorem startHearth_core (s : State) (env : BootEnv) (quick : Bool) : (startHearth s env quick).core = s.core := by
  unfold startHearth bootCrumb
  rw [scanPages_core, resetCrumb_core, crumb_core, canApply_core]
  rfl

theorem inv_startHearth {s : State} (hs : s.inv = true) (env : BootEnv) (quick : Bool) :
    (startHearth s env quick).inv = true := by
  refine inv_scanPages (inv_of_kept ?_ hs) _ _
  rw [kept_resetCrumb, kept_bootCrumb, kept_canApply, kept_hearthStart]

theorem Released.startHearth {s : State} (h : Released s) (env : BootEnv) (quick : Bool) :
    Released (Machine.startHearth s env quick) := h.of_core (startHearth_core s env quick) (inv_startHearth h.inv env quick)

/-- Step 3 ends in SAFE_HOLD, or waits in BOOT for the first tick. -/
theorem inv_step3 {s : State} (h : Released s) (hm : s.core.mode = .boot) (ht : s.core.tickOn = false) (env : BootEnv)
    (quick : Bool) : (step3 s env quick).inv = true := by
  unfold step3
  split
  · refine (Released.stopInSafeHold (.of_kept ?_ (kept_markRest _ _))).inv
    split
    · exact (h.of_kept (kept_extendAll s _)).startHearth env quick
    · exact h.of_kept (kept_extendAll s _)
  · have hstart : Released (startHearth (extendAll s (step3Values s.nv)) env quick) :=
      (h.of_kept (kept_extendAll s _)).startHearth env quick
    dsimp only
    split
    · exact (Released.stopInSafeHold (hstart.of_kept (kept_markRest _ _))).inv
    · refine inv_of (k := { kept (startHearth (extendAll s (step3Values s.nv)) env quick) with starting := true }) rfl
        { (inv_iff _).1 hstart.inv with mode := ?_ }
      have hcore := (startHearth_core (extendAll s (step3Values s.nv)) env quick).trans (extendAll_core s _)
      show modeOk _ (startHearth (extendAll s (step3Values s.nv)) env quick).core.tickOn
        (startHearth (extendAll s (step3Values s.nv)) env quick).core.mode
        (startHearth (extendAll s (step3Values s.nv)) env quick).core.modeNext = true
      rw [hcore, hm, ht, h.modeNext]
      simp [modeOk]

theorem quiet_powerCrust {x : CrustSt} (hx : quiet x = true) : quiet (powerCrust x) = true :=
  quiet_of_clear hx rfl fun h => by simp_all [crustPowered, powerCrust]

/-- The core out of reset: what a reset left in BOOT may go on. -/
theorem released_of_reset {s t : State} (hs : s.inv = true) (hr : s.core.inReset = true) (hcrust : t.crust = s.crust ∨
    t.crust = s.crust.map powerCrust)
    (hk : (kept t).guarded = { (kept s).guarded with crust := t.crust, inReset := false, starting := false }) :
    Released t ∧ t.core.mode = .boot ∧ t.core.tickOn = false := by
  obtain ⟨htick, hmode, hnext⟩ := inv_inReset hs hr
  have h := (inv_iff s).1 hs
  have hq : quiet t.crust.a = true ∧ quiet t.crust.b = true := by
    rcases hcrust with e | e <;> rw [e]
    · exact ⟨h.a, h.b⟩
    · exact ⟨quiet_powerCrust h.a, quiet_powerCrust h.b⟩
  have hi : ({ s with crust := t.crust, core := { s.core with inReset := false, startUp := none } } : State).inv = true :=
    inv_of (k := { kept s with crust := t.crust, inReset := false, starting := false }) rfl
      { h with a := hq.1, b := hq.2, mode := by rw [show (kept s).modeNext = none from hnext]; rfl }
  exact ⟨⟨inv_of_guarded (hk.trans rfl) hi, congrArg Guarded.inReset hk, congrArg Guarded.starting hk,
    (congrArg Guarded.modeNext hk).trans hnext⟩, (congrArg Guarded.mode hk).trans hmode,
    (congrArg Guarded.tickOn hk).trans htick⟩

theorem kept_bootRepair (s : State) (quick : Bool) (runs : List BlockRun) : kept (bootRepair s quick runs) = kept s := by
  unfold bootRepair
  dsimp only
  split <;> rfl

theorem bootRepair_crust (s : State) (quick : Bool) (runs : List BlockRun) : (bootRepair s quick runs).crust = s.crust :=
  congrArg Kept.crust (kept_bootRepair s quick runs)

theorem restoreLanes_core (s : State) (quick : Bool) : (restoreLanes s quick).core = s.core := by
  unfold restoreLanes
  split <;> rfl

/-- Step 1 is over: the core is out of reset, and step 2 has left the results of its run. -/
def afterStep2 (s : State) (env : BootEnv) : State :=
  let quick := tokenValid (advanceBoot s.nv)
  let s1 := { s with
    nv := { advanceBoot s.nv with token := none }
    core := { s.core with inReset := false, vddGood := true, startUp := none }
    crust := if s.core.vddGood then s.crust else s.crust.map powerCrust }
  bootRepair { s1 with
    drawn := s1.drawn + 1
    test := { s1.test with source := 1, results := (bootSet quick).map (blockResult s1 (bootWindow s1) env.runs) } } quick env.runs

theorem startUp_eq (s : State) (env : BootEnv) : startUp s env =
    (let quick := tokenValid (advanceBoot s.nv)
     if bootTestOk (afterStep2 s env) quick env.runs then step3 (restoreLanes (afterStep2 s env) quick) env quick
     else stopInSafeHold (markRest (afterStep2 s env) 0)) := rfl

theorem kept_afterStep2 (s : State) (env : BootEnv) : kept (afterStep2 s env) =
    { kept s with crust := (afterStep2 s env).crust, inReset := false, starting := false,
                  life := (kept (afterStep2 s env)).life } := by
  unfold afterStep2
  rw [bootRepair_crust, kept_bootRepair]
  unfold advanceBoot
  dsimp only
  split <;> rfl

theorem afterStep2_crust (s : State) (env : BootEnv) : (afterStep2 s env).crust = s.crust ∨
    (afterStep2 s env).crust = s.crust.map powerCrust := by
  unfold afterStep2
  rw [bootRepair_crust]
  by_cases hv : s.core.vddGood = true
  · exact .inl (if_pos hv)
  · exact .inr (if_neg hv)

theorem inv_startUp {s : State} (hs : s.inv = true) (hr : s.core.inReset = true) (env : BootEnv) :
    (startUp s env).inv = true := by
  obtain ⟨hrel, hmode, htick⟩ := released_of_reset hs hr (afterStep2_crust s env)
    (congrArg Kept.guarded (kept_afterStep2 s env))
  rw [startUp_eq]
  dsimp only
  split
  · refine inv_step3 (hrel.of_kept (kept_restoreLanes _ _)) ?_ ?_ env _
    · rw [restoreLanes_core, hmode]
    · rw [restoreLanes_core, htick]
  · exact (Released.stopInSafeHold (hrel.of_kept (kept_markRest _ _))).inv

theorem keepsInv_execResetRelease {s : State} (hs : s.inv = true) (env : BootEnv) : KeepsInv (execResetRelease env s) := by
  unfold execResetRelease
  split
  · next h => exact .next (inv_startUp hs h env)
  · exact .next hs

/-! ## Steps 4 and 5, with the first tick -/

theorem Tame.bootCrust : Tame Machine.bootCrust := fun x =>
  ⟨rfl, rfl, rfl, fun hl => (legsOff_iff _).2
    (tabMap_all (fun l : LegSt => l.cmd = false) LegSt.off x.legs
      (fun _ l => { l with anomaly := 0, holdNow := false, holdNext := false }) ((legsOff_iff _).1 hl) fun _ _ h => h)⟩

theorem Released.bootHandshake {s : State} (h : Released s) (lost : Bool) (c : Side) :
    Released (Machine.bootHandshake lost s c) := by
  unfold Machine.bootHandshake
  split
  · exact h
  split
  · exact h.of_core rfl (inv_tame (inv_handshake (inv_tame h.inv c Tame.bootCrust) c) c
      (Tame.of_same fun _ => ⟨rfl, rfl, rfl, rfl⟩))
  · exact h.of_kept (kept_retireAtOnce _ _ _)

theorem Released.endOfStep5 {s : State} (h : Released s) (asked : Bool) : Released (Machine.endOfStep5 s asked) := by
  rcases kept_endOfStep5 s asked with e | ⟨m, -, e⟩
  · exact h.of_kept e
  · exact h.enter m s.core.tickOn (congrArg Kept.guarded e)

theorem kept_duplicateManager (s : State) : kept (duplicateManager s) = kept s := by
  unfold duplicateManager
  rw [kept_fabricCrumb]
  rfl

theorem guarded_heardAtBoot (env : BootEnv) (s : State) : (kept (heardAtBoot env s)).guarded = (kept s).guarded := by
  unfold heardAtBoot
  dsimp only
  split
  · rfl
  split
  · rw [kept_duplicateManager]
    rfl
  · rfl

/-- Step 4 is over: MSTATE, the offsets of the analog inputs, and the loaf in both lanes where it verifies. -/
def afterStep4 (s : State) (env : BootEnv) : State :=
  let s1 := setMstate (extendM s 4 (step4Value s.nv)) 0x02#8
  let s2 := modLanes s1 fun l => { l with offsets := bootOffsets s1.nv }
  match activeImage s2.nv with
  | some i => if (lanesVerify s2.nv env.identityUpset i).isNone then installLoaf s2 (loafCfg i .a) (loafCfg i .b) else s2
  | none => s2

/-- The tick runs, and what the listen-through has heard counts (R77). -/
def firstTick (s : State) (env : BootEnv) : State :=
  heardAtBoot env { afterStep4 s env with core := { (afterStep4 s env).core with
    tickOn := true
    tfCode := match activeCfg (afterStep4 s env) with
      | some cfg => cfg.tfCode
      | none => (afterStep4 s env).core.tfCode } }

/-- The lane of this crust serves, and its crust does not answer (R78). -/
def lostAtBoot (s : State) (env : BootEnv) (c : Side) : Bool :=
  laneLive (firstTick s env) c && (3 ≤ env.handshakeFails.at c || !((firstTick s env).crust.at c).logicPower)

theorem steps4and5_eq (s : State) (env : BootEnv) : steps4and5 s env =
    (let lost := lostAtBoot s env
     let s5 := if lost .a && lost .b then fatalFault (firstTick s env) ftBothCrusts else firstTick s env
     syncIrq s (endOfStep5 (bootHandshake (lost .b) (bootHandshake (lost .a) s5 .a) .b) (configureAsked s env))) := rfl

theorem kept_afterStep4 (s : State) (env : BootEnv) : kept (afterStep4 s env) = kept s := by
  have h1 : kept (setMstate (extendM s 4 (step4Value s.nv)) 0x02#8) = kept s := by rw [kept_setMstate, kept_extendM]
  unfold afterStep4
  dsimp only
  split
  · split
    · exact h1
    · exact h1
  · exact h1

theorem Released.firstTick {s : State} (h : Released s) (env : BootEnv) : Released (Machine.firstTick s env) :=
  (h.enter s.core.mode true (congrArg (fun k : Kept => { k.guarded with tickOn := true }) (kept_afterStep4 s env))).of_guarded
    (guarded_heardAtBoot env _)

theorem inv_steps4and5 {s : State} (h : Released s) (env : BootEnv) : (steps4and5 s env).inv = true := by
  have h5 : Released (if lostAtBoot s env .a && lostAtBoot s env .b then fatalFault (firstTick s env) ftBothCrusts
      else firstTick s env) := by
    split
    · exact (h.firstTick env).of_kept (kept_fatalFault _ _)
    · exact h.firstTick env
  rw [steps4and5_eq]
  exact inv_of_kept (kept_syncIrq _ _) (((h5.bootHandshake _ _).bootHandshake _ _).endOfStep5 _).inv

/-- A core that waits for its first tick is in BOOT with no mode due. -/
theorem inv_finishStart {s : State} (hs : s.inv = true) : (finishStart s).inv = true := by
  unfold finishStart
  split
  · next env h =>
    have hr : s.core.inReset = false := by
      cases e : s.core.inReset
      · rfl
      · simp [e] at h
    have hu : s.core.startUp = some env := by simpa [hr] using h
    have hm := inv_modeOk hs
    have hnext : s.core.modeNext = none := by
      simp only [modeOk, hr, hu, Option.isSome_some, Bool.false_or, Bool.not_true, Bool.and_eq_true, Option.isNone_iff_eq_none] at hm
      exact hm.1.2
    have hi : ({ s with core := { s.core with startUp := none } } : State).inv = true :=
      inv_of (k := { kept s with starting := false }) rfl { (inv_iff s).1 hs with
        mode := by rw [show (kept s).inReset = false from hr, show (kept s).modeNext = none from hnext]; rfl }
    exact inv_steps4and5 ⟨hi, hr, rfl, hnext⟩ env
  · exact hs

end Sys2Proof.Machine
end

section
/-! SUPPORT. The invariant through the field inputs (R184-R207): whatever a crust does with its inputs, sources and readings is tame. -/

namespace Sys2Proof.Machine

/-- A property of states that neither a change of what the invariant does not look at nor a tame change of a crust can end. -/
structure Closed (P : State → Prop) : Prop where
  guarded : ∀ {s t}, (kept t).guarded = (kept s).guarded → P s → P t
  tame : ∀ {s} (c : Side) {f : CrustSt → CrustSt}, Tame f → P s → P (modCrust s c f)

theorem closed_inv : Closed fun s => s.inv = true where
  guarded h hs := inv_of_guarded h hs
  tame c _ hf hs := inv_tame hs c hf

theorem pred_ite {P : State → Prop} {a b : State} (c : Prop) [Decidable c] (ha : P a) (hb : P b) : P (if c then a else b) := by
  split
  · exact ha
  · exact hb

theorem Closed.foldl {P : State → Prop} {α : Type} {f : State → α → State} (h : ∀ s a, P s → P (f s a)) (l : List α)
    {s : State} (hs : P s) : P (l.foldl f s) := by
  induction l generalizing s with
  | nil => exact hs
  | cons a r ih => exact ih (h s a hs)

theorem inv_setOff {s : State} (hs : s.inv = true) (t : BitVec 20) : (setOff s t).inv = true := inv_of_guarded rfl hs

/-! ## Levels and references -/

theorem Closed.referenceEdge {P : State → Prop} (h : Closed P) (c : Side) (p : Nat) (rising : Bool) {s : State} (hs : P s) :
    P (referenceEdge s c p rising) := by
  unfold Machine.referenceEdge
  dsimp only
  split
  · split
    · refine pred_ite _ (h.guarded ?_
        (h.tame c (Tame.modQuad p fun q => { q with lastRef := q.refAt.map fun r => (r, false) }) hs)) hs
      rfl
    · refine pred_ite _ (h.tame c (fun x => ?_) hs) hs
      split
      · exact (Tame.modIn _ _).comp (Tame.modQuad _ _) x
      · exact Tame.modQuad _ _ x
  · exact hs

theorem Closed.acceptLevel {P : State → Prop} (h : Closed P) (c : Side) (n : Nat) (e : List Byte) (p now : Stamp) {s : State}
    (hs : P s) : P (acceptLevel s c n e p now) :=
  Closed.foldl (fun _ q k => h.referenceEdge c q _ k) _ (h.tame c (Tame.modIn n _) hs)

theorem Closed.settleInput {P : State → Prop} (h : Closed P) (now : Stamp) (c : Side) (n : Nat) {s : State} (hs : P s) :
    P (settleInput now c s n) := by
  unfold Machine.settleInput
  dsimp only
  split
  · split
    · exact h.acceptLevel _ _ _ _ _ hs
    · exact hs
  · exact hs

theorem Closed.settleCrust {P : State → Prop} (h : Closed P) (now : Stamp) (c : Side) {s : State} (hs : P s) :
    P (settleCrust now s c) := Closed.foldl (fun _ n k => h.settleInput now c n k) _ hs

theorem Tame.captureRefs (m : List (List Byte)) (c : Side) (n : Nat) (now : Stamp) : Tame (Machine.captureRefs m c n now) :=
  Tame.foldl _ (fun _ => Tame.modQuad _ _) _

theorem inv_rawChange {s : State} (hs : s.inv = true) (c : Side) (n : Nat) (level : Bool) (now : Stamp) :
    (rawChange s c n level now).inv = true := by
  have capture : ∀ (b : Bool) (m : List (List Byte)), Tame fun x => if b then captureRefs m c n now x else x :=
    fun b m => Tame.ite (fun _ => b) (Tame.captureRefs m c n now) Tame.id
  unfold rawChange
  dsimp only
  split
  · exact hs
  split
  · exact inv_tame hs c (Tame.modIn n _)
  split
  · exact inv_tame hs c (Tame.modIn n _)
  split
  · exact closed_inv.acceptLevel _ _ _ _ _ (inv_tame hs c ((capture _ _).comp (Tame.modIn n _)))
  · exact inv_tame hs c ((capture _ _).comp (Tame.modIn n _))

theorem keepsInv_execRawInputChange {s : State} (hs : s.inv = true) (ch : InChan) (level : Bool) (t : BitVec 20) :
    KeepsInv (execRawInputChange ch level t s) :=
  .next (inv_rawChange (closed_inv.settleInput _ _ _ (inv_setOff hs t)) _ _ _ _)

theorem keepsInv_execDebounceExpiry {s : State} (hs : s.inv = true) (ch : InChan) (t : BitVec 20) :
    KeepsInv (execDebounceExpiry ch t s) := by
  have hu := closed_inv.settleInput (stampAt s t) ch.crust ch.num.val hs
  unfold execDebounceExpiry
  dsimp only
  split
  · split
    · exact .next (closed_inv.acceptLevel _ _ _ _ _ (inv_setOff hu t))
    · exact .next hu
  · exact .next hu

/-! ## Test pulses -/

theorem inv_startPulse {s : State} (hs : s.inv = true) (src : SrcId) : (startPulse s src).inv = true :=
  inv_tame (inv_setOff hs _) _ ((Tame.foldl _ (fun _ => Tame.modIn _ _) _).comp (Tame.modSrc _ _))

theorem keepsInv_execTestPulse {s : State} (hs : s.inv = true) (src : SrcId) : KeepsInv (execTestPulse src s) :=
  .next (inv_ite _ (inv_startPulse hs src) hs)

theorem keepsInv_execRetryPulse {s : State} (hs : s.inv = true) (src : SrcId) : KeepsInv (execRetryPulse src s) :=
  .next (inv_ite _ (inv_startPulse hs src) hs)

theorem keepsInv_execPulseTestSample {s : State} (hs : s.inv = true) (src : SrcId) (sample maskEnd : BitVec 24) (mv : Nat) :
    KeepsInv (execPulseTestSample src sample maskEnd mv s) := by
  unfold execPulseTestSample
  dsimp only
  split
  · exact .next hs
  · refine .next (inv_tame (inv_setOff hs _) _ fun x => ?_)
    split
    · exact (Tame.foldl _ (fun _ => Tame.modIn _ _) _).comp (Tame.modSrc _ _) x
    · exact (Tame.foldl _ (fun _ => Tame.modIn _ _) _).comp (Tame.modSrc _ _) x

theorem keepsInv_execThresholdCheck {s : State} (hs : s.inv = true) (c : Side) (pass0 pass1 : Bool) :
    KeepsInv (execThresholdCheck c pass0 pass1 s) := by
  have one : ∀ (m : List (List Byte)) (n : Nat) (pass : Bool), Tame fun x =>
      if modeOfInput m (chanIn c n) = 0#8 then x
      else modIn x n fun i => if pass then { i with sinceThreshold := 0 } else i.report anThreshold := fun m n pass x => by
    dsimp only
    split
    · exact Tame.id x
    · exact Tame.modIn _ _ x
  exact .ite _ (.next hs) (.next (inv_tame (inv_setOff hs _) c ((one _ _ pass1).comp (one _ _ pass0))))

theorem keepsInv_execSrcOvercurrent {s : State} (hs : s.inv = true) (src : SrcId) : KeepsInv (execSrcOvercurrent src s) :=
  .next (inv_ite _ (inv_tame hs _ (Tame.modSrc _ _)) hs)

theorem keepsInv_execOssdPulseTimeout {s : State} (hs : s.inv = true) (ch : InChan) (t : BitVec 20) :
    KeepsInv (execOssdPulseTimeout ch t s) := by
  unfold execOssdPulseTimeout
  dsimp only
  split
  · exact .ite _ (.next (inv_tame (inv_setOff hs t) _ (Tame.modIn _ _))) (.next hs)
  · exact .next hs

/-! ## Counters and analog inputs -/

theorem kept_recaptureLearn (s : State) (c : Side) (p filter : Nat) (now : Stamp) (moved : Int) :
    kept (recaptureLearn s c p filter now moved) = kept s := by
  unfold recaptureLearn
  split
  · exact (kept_ite _ _ _).trans (ite_self _)
  · rfl

theorem Tame.illegalEdge (s : State) (n o p : Nat) (level : Bool) (now : Stamp) :
    Tame (Machine.illegalEdge s n o p level now) :=
  (Tame.modIn _ _).comp ((Tame.modQuad _ _).comp ((Tame.modIn _ _).comp (Tame.modIn _ _)))

theorem tame_ite {f g : CrustSt → CrustSt} (c : Prop) [Decidable c] (hf : Tame f) (hg : Tame g) : Tame (if c then f else g) := by
  split
  · exact hf
  · exact hg

theorem Tame.phaseEdge (s : State) (n o p : Nat) (up level : Bool) (dirhyst filter : Nat) (now : Stamp) :
    Tame (Machine.phaseEdge s n o p up level dirhyst filter now) := fun x => by
  unfold Machine.phaseEdge
  dsimp only
  split
  · exact Tame.modIn _ _ x
  · exact (Tame.modQuad _ _).comp (Tame.modIn _ _) x

theorem keepsInv_execCounterEdge {s : State} (hs : s.inv = true) (ch : InChan) (level : Bool) (edge : HeldEdge) (t : BitVec 20) :
    KeepsInv (execCounterEdge ch level edge t s) := by
  unfold execCounterEdge
  dsimp only
  split
  · exact .next hs
  refine .ite _ (.next hs) (.ite _ (.next (inv_tame (inv_setOff hs t) _ (Tame.modIn _ _))) (.ite _ ?_ (.next hs)))
  split
  · refine .next (inv_tame (inv_ite _ (inv_setOff hs t) (inv_of_kept (kept_recaptureLearn _ _ _ _ _ _) (inv_setOff hs t))) _
      (tame_ite _ (Tame.illegalEdge _ _ _ _ _ _) (Tame.phaseEdge _ _ _ _ _ _ _ _ _)))
  · exact .next hs

theorem keepsInv_execFrequencyTimeout {s : State} (hs : s.inv = true) (ch : InChan) : KeepsInv (execFrequencyTimeout ch s) := by
  unfold execFrequencyTimeout
  dsimp only
  split
  · exact .ite _ (.next (inv_tame hs _ (Tame.modIn _ _))) (.next hs)
  · exact .next hs

theorem keepsInv_execAnalogConversion {s : State} (hs : s.inv = true) (ch : AnaId) (mv : Nat) (reference : Option Bool) :
    KeepsInv (execAnalogConversion ch mv reference s) := by
  have hread : Tame fun x =>
      let y := modAna x ch.num.val fun a =>
        { a with mv := mv, seq := a.seq + 1, fresh := true, stalled := false,
                 bad := a.bad || analogBeyond (crustMap s ch.crust) ch.crust ch.num.val mv }
      match (if 12 ≤ slotOf s then reference else none) with
      | some true => { y with sinceReference := 0 }
      | some false => (List.range 4).foldl (fun y k => modAna y k fun a => a.report anReference) y
      | none => y := fun x => by
    dsimp only
    split
    · exact Tame.of_same (f := fun x => { modAna x ch.num.val _ with sinceReference := 0 }) (fun _ => ⟨rfl, rfl, rfl, rfl⟩) x
    · exact (Tame.foldl _ (fun _ => Tame.modAna _ _) _).comp (Tame.modAna _ _) x
    · exact Tame.modAna _ _ x
  refine .ite _ (.next hs) (.next ?_)
  have h1 := inv_tame hs ch.crust hread
  exact inv_ite _ (inv_of_guarded rfl (inv_ite _ (inv_of_kept (kept_countAnalogOver _ 1) h1) h1))
    (inv_ite _ (inv_of_kept (kept_countAnalogOver _ 1) h1) h1)

theorem keepsInv_execStall {s : State} (hs : s.inv = true) (ch : AnaId) : KeepsInv (execStall ch s) :=
  .next (inv_ite _ (inv_tame hs _ (Tame.modAna _ _)) hs)

end Sys2Proof.Machine
end

section
/-! SUPPORT. The invariant through the field outputs (R212-R238, R425): between two commits a crust switches legs off alone, and
silence closes a leg only where the crust may drive. -/

namespace Sys2Proof.Machine

theorem Tame.readLeg (ps : List ParamRec) (c : Side) (conducts : BitVec 17) (n : Nat) :
    Tame fun x => Machine.readLeg ps c conducts x n := fun x => by
  unfold Machine.readLeg
  dsimp only
  split
  · exact Tame.id x
  · exact Tame.reportLeg _ _ _ _ x

theorem keepsInv_execLegReadback {s : State} (hs : s.inv = true) (c : Side) (conducts : BitVec 17) :
    KeepsInv (execLegReadback c conducts s) :=
  .ite _ (.next (inv_tame (inv_setOff hs _) c (Tame.foldl _ (fun n => Tame.readLeg _ c conducts n) _))) (.next hs)

theorem Tame.probeResult (ps : List ParamRec) (c : Side) (ns : List Nat) (pair : Nat) (both landOk : Bool) (legMa : Nat) :
    Tame (Machine.probeResult ps c ns pair both landOk legMa) := fun x => by
  unfold Machine.probeResult
  dsimp only
  split
  · exact (Tame.modLegs _ (fun l => { l with holdNext := true }) fun _ h => h).comp (Tame.reportLeg _ _ _ _) x
  split
  · exact Tame.reportLeg _ _ _ _ x
  · exact Tame.of_same (f := fun x => { x with probePass := nodupInsert x.probePass pair }) (fun _ => ⟨rfl, rfl, rfl, rfl⟩) x

theorem keepsInv_execHighSideProbe {s : State} (hs : s.inv = true) (pair : Fin 17) (landMv legMa : Nat) :
    KeepsInv (execHighSideProbe pair landMv legMa s) := by
  unfold execHighSideProbe
  dsimp only
  split
  · exact .next hs
  · exact .ite _ (.next (inv_tame (inv_setOff hs _) _ (Tame.probeResult _ _ _ _ _ _ _))) (.next hs)

theorem keepsInv_execLowSideProbe {s : State} (hs : s.inv = true) (pair : Fin 17) (landMv groupMa : Nat) :
    KeepsInv (execLowSideProbe pair landMv groupMa s) := by
  unfold execLowSideProbe
  dsimp only
  split
  · exact .next hs
  · exact .ite _ (.next (inv_tame (inv_setOff hs _) _ (Tame.probeResult _ _ _ _ _ _ _))) (.next hs)

theorem keepsInv_execDarkPulse {s : State} (hs : s.inv = true) (leg : LegId) (seenOpen conductsAgain : Bool) :
    KeepsInv (execDarkPulse leg seenOpen conductsAgain s) := by
  unfold execDarkPulse
  dsimp only
  split
  · exact .next hs
  · refine .ite _ (.next (inv_tame (inv_setOff hs _) _ fun x => ?_)) (.next hs)
    split
    · exact Tame.reportLeg _ _ _ _ x
    split
    · exact Tame.reportLeg _ _ _ _ x
    · exact Tame.id x

theorem inv_sampleCrust {s : State} (hs : s.inv = true) (c : Side) (r : LandReading) (hot : Nat → Bool) :
    (sampleCrust s c r hot).inv = true := inv_ite _ hs (inv_tame hs c (Tame.of_same fun _ => ⟨rfl, rfl, rfl, rfl⟩))

theorem keepsInv_execLandSample {s : State} (hs : s.inv = true) (hi lo : LandReading) : KeepsInv (execLandSample hi lo s) :=
  .next (inv_ite _ (inv_sampleCrust (inv_sampleCrust (inv_setOff hs _) _ _ _) _ _ _) hs)

theorem inv_tripLeg {s : State} (hs : s.inv = true) (leg : LegId) : (tripLeg s leg).inv = true :=
  inv_tame hs _ ((Tame.reportLeg _ _ _ _).comp
    (Tame.modLegs _ (fun l => { l with tripped := true, blanking := false, blankLeft := 0 }) fun _ h => h))

theorem inv_endBlanking {s : State} (hs : s.inv = true) (leg : LegId) (lim : Bool) : (endBlanking s leg lim).inv = true := by
  have h1 := inv_tame hs leg.crust (Tame.modLeg leg.num.val (fun l => { l with blanking := false }) fun _ h => h)
  exact inv_ite _ (inv_tripLeg h1 leg) h1

theorem keepsInv_execBlankingEnd {s : State} (hs : s.inv = true) (leg : LegId) (lim : Bool) :
    KeepsInv (execBlankingEnd leg lim s) := .next (inv_ite _ (inv_endBlanking hs leg lim) hs)

theorem keepsInv_execOvercurrent {s : State} (hs : s.inv = true) (leg : LegId) : KeepsInv (execOvercurrent leg s) :=
  .next (inv_ite _ (inv_tripLeg hs leg) hs)

theorem keepsInv_execThermal {s : State} (hs : s.inv = true) (leg : LegId) : KeepsInv (execThermal leg s) := by
  refine .ite _ (.next (inv_tame hs _ fun x => ?_)) (.next hs)
  split
  · exact Tame.modLeg _ (fun l => { l with thermal := true }) (fun _ h => h) x
  · exact (Tame.reportLeg _ _ _ _).comp (Tame.modLeg _ (fun l => { l with thermal := true, tripped := l.cmd }) fun _ h => h) x

theorem keepsInv_execThermalReclose {s : State} (hs : s.inv = true) (leg : LegId) : KeepsInv (execThermalReclose leg s) :=
  .next (inv_tame hs _ (Tame.modLeg _ (fun l => { l with thermal := false }) fun _ h => h))

theorem inv_endPullIn {s : State} (hs : s.inv = true) (pair : Nat) : (endPullIn s pair).inv = true :=
  inv_ite _ (inv_tame hs _ (Tame.modDrive _ _)) hs

theorem keepsInv_execPullInLevelSample {s : State} (hs : s.inv = true) (pair : Fin 16) (ma : Nat) :
    KeepsInv (execPullInLevelSample pair ma s) := .next (inv_ite _ (inv_tame hs _ (Tame.modDrive _ _)) hs)

theorem keepsInv_execStuckdrive {s : State} (hs : s.inv = true) (c : Side) (pair : Fin 16) : KeepsInv (execStuckdrive c pair s) := by
  unfold execStuckdrive
  dsimp only
  split
  · refine .ite _ (.next (inv_tame hs c (Tame.comp (f := fun z => { z with stuck := nodupInsert z.stuck pair.val })
      (Tame.of_same fun _ => ⟨rfl, rfl, rfl, rfl⟩) ((Tame.modDrive _ _).comp ((Tame.reportLeg _ _ _ _).comp
        (Tame.modLegs _ (fun l => { l with tripped := true, blanking := false, blankLeft := 0 }) fun _ h => h)))))) (.next hs)
  · exact .next hs

theorem keepsInv_execFiringHistoryBin {s : State} (hs : s.inv = true) : KeepsInv (execFiringHistoryBin s) :=
  .next (inv_ite _ (inv_tame hs _ (Tame.of_same fun _ => ⟨rfl, rfl, rfl, rfl⟩)) hs)

theorem quiet_silence (x : CrustSt) (m : List (List Byte)) (c : Side) (hp : x.logicPower = true) (hx : quiet x = true) :
    quiet { x with
      silent := true, staged := none
      legs := tabEach LegSt.off x.legs 17 (silenceLeg (x.lockout || x.overvolt) m c)
      drives := tabMap DriveSt.init x.drives fun _ d => { d with stage := 0, ticksLeft := 0, level := none } } = true := by
  rcases (quiet_iff x).1 hx with ho | hl
  · exact (quiet_iff _).2 (.inl ho)
  by_cases hd : (x.lockout || x.overvolt) = true
  · exact quiet_of_legsOff ((legsOff_iff _).2 (legsOff_silence _ m c _ hd ((legsOff_iff x).1 hl)))
  · refine (quiet_iff _).2 (.inl ?_)
    simpa [crustPowered, hp] using hd

theorem keepsInv_execSilenceTimeout {s : State} (hs : s.inv = true) (c : Side) : KeepsInv (execSilenceTimeout c s) := by
  unfold execSilenceTimeout
  dsimp only
  split
  · next h =>
    simp only [Bool.and_eq_true] at h
    obtain ⟨⟨⟨-, hp⟩, -⟩, -⟩ := h
    exact .next (inv_modCrust hs c _ (quiet_silence _ _ _ hp (quiet_at hs c)))
  · exact .next hs

theorem keepsInv_execCurrentSenseCheck {s : State} (hs : s.inv = true) (c : Side) (zeroMa refMa : Vector Nat 5) :
    KeepsInv (execCurrentSenseCheck c zeroMa refMa s) := by
  refine .ite _ (.next (inv_tame hs c (Tame.foldl _ (fun e => ?_) _))) (.next hs)
  exact Tame.modLeg e.1 _ fun _ h => h

end Sys2Proof.Machine
end

section
/-! SUPPORT. The invariant through a tick (R64, R95, R150, R222). -/

namespace Sys2Proof.Machine

/-- The tick runs, so the core is out of reset and its start-up is over (`inv_ticking`, `inv_started`). -/
def Running (s : State) : Prop := s.inv = true ∧ s.core.tickOn = true

theorem closed_running : Closed Running where
  guarded h := fun ⟨hi, ht⟩ => ⟨inv_of_guarded h hi, (congrArg Guarded.tickOn h).trans ht⟩
  tame c _ hf := fun ⟨hi, ht⟩ => ⟨inv_tame hi c hf, ht⟩

theorem Running.of_kept {s t : State} (h : Running s) (hk : kept t = kept s) : Running t :=
  closed_running.guarded (congrArg Kept.guarded hk) h

theorem Running.modCrust {s : State} (h : Running s) (c : Side) (f : CrustSt → CrustSt)
    (hf : quiet (f (s.crust.at c)) = true) : Running (modCrust s c f) := ⟨inv_modCrust h.1 c f hf, h.2⟩

theorem Running.crustTick {s : State} (h : Running s) (env : TickEnv) (c : Side) : Running (crustTick env s c) := by
  unfold Machine.crustTick
  dsimp only
  split
  · exact h.modCrust c _ ((Tame.of_same (f := fun x => { x with snap := Snap.empty }) fun _ => ⟨rfl, rfl, rfl, rfl⟩).quiet
      (quiet_at h.1 c))
  · refine h.modCrust c _ ?_
    split
    · exact quiet_openCrust _
    · refine quiet_commit _ _ _ ((Tame.drivesTick.comp (Tame.startFrame _)).quiet ?_)
      exact (Tame.comp (f := fun x => { x with snap := _ }) (Tame.of_same fun _ => ⟨rfl, rfl, rfl, rfl⟩)
        (Tame.judgeAtTick s c _ _)).quiet (quiet_at h.1 c)

/-- The slot record names the new loaf, and no switch waits any more. -/
def switchedRecord (s : State) (w : PendingSwitch) : State :=
  { s with
    nv := setSlot (writeRecord (match activeSlot s.nv with
      | some k => if k = w.slot then s.nv else setSlot s.nv k .valid
      | none => s.nv) (some w.slot)) w.slot .active
    mbx := { s.mbx with switch := none } }

/-- Both lanes have the new loaf, and the crusts have shaken hands anew (R150). -/
def switchedLanes (s : State) (w : PendingSwitch) : State :=
  renewHandshakes (installLoaf (clearIsolations
    (modPort (modPort (abortCanSafe (switchedRecord s w)) .p0 cancelSafe) .p1 cancelSafe)) w.cfgA w.cfgB)

theorem kept_switchedRecord (s : State) (w : PendingSwitch) : kept (switchedRecord s w) = kept s := by
  unfold switchedRecord
  split
  · split <;> rfl
  · rfl

theorem inv_switchedLanes {s : State} (hs : s.inv = true) (w : PendingSwitch) : (switchedLanes s w).inv = true := by
  refine inv_renewHandshakes (inv_of_kept ?_ hs)
  rw [kept_installLoaf, kept_clearIsolations, kept_modPort, kept_modPort, kept_abortCanSafe, kept_switchedRecord]

theorem kept_switchLoaf (s : State) (w : PendingSwitch) : kept (switchLoaf s w) = kept (switchedLanes s w) := by
  unfold switchLoaf
  dsimp only
  rw [kept_busMode, kept_indMode]
  have hend : ∀ (x : Option Via) (s5 : State), kept (match x with
      | some v => replyOk s5 v (padTo 8 w.cfgA.loafId)
      | none => s5) = kept s5 := fun x s5 => by
    cases x
    · rfl
    · exact kept_replyOk _ _ _
  refine (hend _ _).trans ?_
  rw [kept_crumb, kept_measEvent, kept_ite, kept_leaveFabric]
  exact ite_self _

theorem inv_switchLoaf {s : State} (hs : s.inv = true) (w : PendingSwitch) : (switchLoaf s w).inv = true :=
  inv_of_kept (kept_switchLoaf s w) (inv_switchedLanes hs w)

theorem inv_takeSwitch {s : State} (hs : s.inv = true) : (takeSwitch s).inv = true := by
  unfold takeSwitch
  split
  · exact inv_ite _ (inv_switchLoaf hs _) hs
  · exact hs

theorem inv_setSources {s : State} (hs : s.inv = true) (c : Side) : (setSources s c).inv = true :=
  inv_tame hs c (Tame.of_same fun _ => ⟨rfl, rfl, rfl, rfl⟩)

theorem Running.changeMode {s : State} (h : Running s) : (changeMode s).inv = true :=
  inv_changeMode h.1 (inv_ticking h.1 h.2) (inv_started h.1 h.2)

theorem Running.nextFrame {s : State} (h : Running s) : Running (nextFrame s) :=
  closed_running.guarded (by rw [kept_nextFrame]; rfl) h

theorem Running.latchFrame {s : State} (h : Running s) (n : W32) : Running (latchFrame s n) :=
  closed_running.guarded (by rw [kept_latchFrame]; rfl) h

theorem Running.dueAtTick {s : State} (h : Running s) : Running (takeRetiring (flushCycles (holdTick (dropTest s)))) :=
  h.of_kept (by rw [kept_takeRetiring, kept_flushCycles, kept_holdTick, kept_dropTest])

/-- What takes effect at a tick once the mode has changed. -/
theorem inv_afterMode {s : State} (hs : s.inv = true) (env : TickEnv) (tf : Byte) :
    (sendTick (fabricTick (setSources (setSources (sampleModeReq (intervalCheck env tf (intervalCheck env tf
      (provingTick (takeReadmits (takeOffsets (takeSwitch s)))) .a) .b)) .a) .b))).inv = true := by
  refine inv_of_kept (by rw [kept_sendTick, kept_fabricTick]) (inv_setSources (inv_setSources ?_ .a) .b)
  refine inv_of_kept ?_ (inv_takeSwitch hs)
  rw [kept_sampleModeReq, kept_intervalCheck, kept_intervalCheck, kept_provingTick, kept_takeReadmits, kept_takeOffsets]

theorem inv_safen {s : State} (hs : s.inv = true) (b : Bool) :
    ({ s with core := { s.core with safen := b } } : State).inv = true := inv_of_guarded rfl hs

theorem inv_tickAll {s : State} (h : Running s) (env : TickEnv) : (tickAll env s).inv = true := by
  have hcrust := ((closed_running.settleCrust { frame := s.core.frameNo + 1, off := 0 } .b
    (closed_running.settleCrust { frame := s.core.frameNo + 1, off := 0 } .a h)).crustTick env .a).crustTick env .b
  have hdone := inv_afterMode (hcrust.nextFrame.latchFrame s.core.frameNo).dueAtTick.changeMode env s.core.tfCode
  exact inv_of_kept (kept_syncIrq _ _) (inv_safen hdone _)

theorem keepsInv_execTick {s : State} (hs : s.inv = true) (env : TickEnv) : KeepsInv (execTick env s) := by
  unfold execTick
  dsimp only
  split
  · next h =>
    simp only [Bool.and_eq_true] at h
    exact .next (inv_tickAll ⟨inv_finishStart hs, h.1⟩ env)
  · exact .next (inv_finishStart hs)

end Sys2Proof.Machine
end

section
/-! SUPPORT. The invariant through the phases of a frame (R64, R67, R88, R91, R98, R259, R260). -/

namespace Sys2Proof.Machine

theorem inv_toPhase {s : State} (hs : s.inv = true) (p : Phase) (t : Nat) : (toPhase s p t).inv = true := inv_of_guarded rfl hs

theorem Running.toPhase {s : State} (h : Running s) (p : Phase) (t : Nat) : Running (toPhase s p t) :=
  ⟨inv_toPhase h.1 p t, h.2⟩

/-- The mode due at the next tick of a core that runs may be any that R64 allows. -/
theorem Running.due {s t : State} (h : Running s) (n : Option (Mode × ModeWhy)) (hk : kept t = { kept s with modeNext := n })
    (hn : ∀ m w, n = some (m, w) → modeEdge s.core.mode m = true) : Running t := by
  refine ⟨inv_modeNext h.1 t n hk ?_, (congrArg Kept.tickOn hk).trans h.2⟩
  rw [inv_ticking h.1 h.2, inv_started h.1 h.2]
  exact modeOk_running _ _ _ hn

theorem Running.undue {s t : State} (h : Running s) (hk : kept t = kept s ∨ kept t = { kept s with modeNext := none }) :
    Running t := by
  rcases hk with e | e
  · exact h.of_kept e
  · exact h.due none e fun _ _ k => by cases k

/-! ## Phases S, E and H -/

theorem inv_endTimes {s : State} (hs : s.inv = true) : (endTimes s).inv = true :=
  inv_foldl _ (fun _ p k => inv_endPullIn k p) _ (inv_foldl _ (fun _ n k => inv_endBlanking k ⟨.b, n⟩ false) _
    (inv_foldl _ (fun _ n k => inv_endBlanking k ⟨.a, n⟩ false) _ hs))

theorem kept_refuseSwitch (s : State) (w : PendingSwitch) : kept (refuseSwitch s w) = kept s := by
  unfold refuseSwitch
  dsimp only
  split
  · rw [kept_replyErr, kept_crumb]
    rfl
  · exact kept_crumb _ _ _ _ _

theorem kept_agreeSwitch (env : PhaseSEnv) (s : State) : kept (agreeSwitch env s) = kept s := by
  unfold agreeSwitch
  split
  · rfl
  split
  · rfl
  · exact kept_refuseSwitch _ _

theorem keepsInv_execPhaseS {s : State} (hs : s.inv = true) (env : PhaseSEnv) : KeepsInv (execPhaseS env s) := by
  have hagree : (agreeSwitch env (clockStopEnters (hearthDeliver (toPhase (endTimes s) .x (endS s.core.tfCode))))).inv = true :=
    inv_of_kept (by rw [kept_agreeSwitch, kept_clockStopEnters, kept_hearthDeliver]) (inv_toPhase (inv_endTimes hs) _ _)
  exact .ite _ (.next hs) (.next (inv_ite _ hagree (inv_exchangeInputs env hagree)))

theorem keepsInv_execPhaseE {s : State} (hs : s.inv = true) (env : PhaseEEnv) : KeepsInv (execPhaseE env s) := by
  have h0 := inv_toPhase hs .c (endE s.core.tfCode)
  refine .ite _ (.next hs) (.ite _ (.next (inv_of_kept ?_ h0)) (.next (inv_of_kept ?_ h0)))
  · rw [kept_clockCheck, kept_clockCheck, kept_ageAll]
  · rw [kept_modLive, kept_tallyUpdate, kept_clockCheck, kept_clockCheck, kept_evalFaults, kept_evalFaults, kept_countEcc,
      kept_evaluate, kept_evaluate, kept_deliverAll]

theorem keepsInv_execPhaseH {s : State} (hs : s.inv = true) (env : PhaseHEnv) : KeepsInv (execPhaseH env s) :=
  .ite _ (.next hs) (.next (inv_of_kept (kept_indicatorH _ _) (inv_sliceResult (inv_sliceResult
    (inv_of_kept (kept_countEcc _ _) (inv_toPhase hs _ _)) _ _) _ _)))

theorem keepsInv_execSliceOverrun {s : State} (hs : s.inv = true) (l : Side) : KeepsInv (execSliceOverrun l s) :=
  .next (inv_ite _ (inv_laneFault hs _) hs)

/-! ## Phase C -/

/-- A request or a lost permit makes a mode due that R64 allows. -/
theorem Running.evaluateMode {s : State} (h : Running s) (deaf : Bool) : Running (evaluateMode deaf s) := by
  rcases kept_evaluateMode deaf s with e | ⟨hm, e⟩ | ⟨v, m, hv, e⟩
  · exact h.of_kept e
  · refine h.due _ e fun m w k => ?_
    cases k
    rw [hm]
    rfl
  · refine h.due _ e fun m' w k => ?_
    cases k
    exact requestTarget_edge s v m hv

theorem kept_decideForce (s : State) (e : QEntry) : kept (decideForce s e) = kept s := by
  unfold decideForce
  split
  · rfl
  split
  · exact kept_replyErr _ _ _ _
  · rw [kept_replyOk, kept_oweChanOp]

theorem kept_decideForces (s : State) : kept (decideForces s) = kept s := kept_foldl _ kept_decideForce _ _

theorem inv_stageCrust {s : State} (hs : s.inv = true) (env : PhaseCEnv) (c : Side) : (stageCrust env s c).inv = true := by
  unfold stageCrust
  dsimp only
  split
  · exact inv_tame hs c (Tame.of_same fun _ => ⟨rfl, rfl, rfl, rfl⟩)
  split
  · exact inv_tame hs c (Tame.of_same fun _ => ⟨rfl, rfl, rfl, rfl⟩)
  · exact inv_of_kept (kept_laneReport _ _) hs

/-- What a disagreement (`c` fails) and a lane fault found in the frame (`d`) make of the mode that is due. -/
theorem Running.judged {s : State} (h : Running s) (env : PhaseCEnv) (c d : Prop) [Decidable c] [Decidable d] :
    Running (if d then disturb (if c then s else disagreement env s) else if c then s else disagreement env s) := by
  have hc := pred_ite c h (h.undue (kept_disagreement env s))
  exact pred_ite d (hc.undue (kept_disturb _)) hc

theorem inv_setLanes {s : State} (hs : s.inv = true) (l : Two LaneSt) : ({ s with lane := l } : State).inv = true :=
  inv_of_guarded rfl hs

theorem Running.compareAndStage {s : State} (h : Running s) (env : PhaseCEnv) (before : State) (laneFault late : Bool) :
    (compareAndStage env before laneFault late s).inv = true :=
  inv_stageCrust (inv_stageCrust (inv_setLanes (h.judged env _ _).1 _) env .a) env .b

theorem Running.liveFrame {s : State} (h : Running s) (env : PhaseCEnv) : (liveFrame env s).inv = true := by
  have h1 : Running (if anyLate env s then lateFrame env s else applyOutcomes s) :=
    pred_ite _ (h.undue (kept_lateFrame env s)) (h.of_kept (kept_applyOutcomes s))
  have h2 := pred_ite (identityBroken env (if anyLate env s then lateFrame env s else applyOutcomes s) = true)
    (h1.of_kept (kept_fatalFault _ ftLoafIdentity)) h1
  refine inv_of_kept (kept_postVector _ _ _) (inv_of_kept (kept_beginHold _) ?_)
  exact ((h2.evaluateMode (anyLate env s)).of_kept (kept_decideForces _)).compareAndStage env s _ _

theorem Running.heldFrame {s : State} (h : Running s) : (heldFrame s).inv = true := by
  have h0 : Running { s with core := { s.core with outcomes := [] } } := closed_running.guarded rfl h
  exact inv_of_guarded rfl ((h0.evaluateMode true).of_kept (kept_decideForces _)).1

theorem keepsInv_execPhaseC {s : State} (hs : s.inv = true) (env : PhaseCEnv) : KeepsInv (execPhaseC env s) := by
  unfold execPhaseC
  split
  · exact .next hs
  · next h =>
    have ht : s.core.tickOn = true := by simp_all
    have h0 : Running (toPhase s .h (endC s.core.tfCode)) := Running.toPhase ⟨hs, ht⟩ _ _
    exact .next (inv_ite _ h0.heldFrame (h0.liveFrame env))

theorem keepsInv_execProvingPeriodEnd {s : State} (hs : s.inv = true) : KeepsInv (execProvingPeriodEnd s) := by
  unfold execProvingPeriodEnd
  split
  · next h =>
    have hmet : provingMet s = true := by simp_all
    have hboot : s.core.tickOn = true ∧ s.core.mode = .boot := by
      unfold provingMet at hmet
      split at hmet
      · cases hmet
      · simp_all
    refine .next (Running.due ⟨hs, hboot.1⟩ (some (.operate, .request)) rfl fun m w k => ?_).1
    cases k
    rw [hboot.2]
    rfl
  · exact .next hs

/-! ## Clocks and FIFOs -/

theorem kept_stopLane (k : WatchedClock) (s : State) : kept (stopLane k s) = kept s := by
  unfold stopLane
  split <;> rfl

theorem keepsInv_execClockStop {s : State} (hs : s.inv = true) (k : WatchedClock) : KeepsInv (execClockStop k s) := by
  have h := inv_of_kept (kept_stopLane k s) hs
  exact .next (inv_ite _ hs (inv_ite _ (inv_of_guarded rfl h) h))

theorem keepsInv_execFifoResync {s : State} (hs : s.inv = true) (f : FifoId) : KeepsInv (execFifoResync f s) := by
  cases f with
  | fabric p => exact .next (inv_of_kept (kept_dropReceived s p) hs)
  | barrier c =>
    have ht := inv_tame hs c (f := fun x => { x with staged := none, resync := false, snapLost := x.snapLost || snapInFlight s })
      (Tame.of_same fun _ => ⟨rfl, rfl, rfl, rfl⟩)
    exact .next (inv_ite _ (inv_laneFault ht _) ht)

theorem keepsInv_execWindowXOpen {s : State} (hs : s.inv = true) : KeepsInv (execWindowXOpen s) := by
  refine .ite _ (.next hs) (.next (inv_of_guarded ?_ hs))
  rw [kept_pumpBoth, kept_modLanes, kept_releaseAll, kept_startChains]
  rfl

theorem keepsInv_execWindowXEnd {s : State} (hs : s.inv = true) : KeepsInv (execWindowXEnd s) := by
  refine .ite _ (.next hs) (.next (inv_of_guarded ?_ hs))
  rw [kept_pumpBoth]
  split
  · rw [kept_ite, kept_judgeLane, kept_judgeLane, ite_self]
    rfl
  · rfl

end Sys2Proof.Machine
end

section
/-! SUPPORT. The invariant through the fabric and CAN FD (R280-R319, R339, R365, R385-R387): receptions, discovery, breaks and tunnels
touch neither crusts, journal, slots nor mode. -/

namespace Sys2Proof.Machine

theorem kept_ite_of {a b s : State} (c : Prop) [Decidable c] (ha : kept a = kept s) (hb : kept b = kept s) :
    kept (if c then a else b) = kept s := pred_ite (P := fun t => kept t = kept s) c ha hb

/-- What a command that takes a frame from the inbox does: the frame is gone, and nothing else is touched yet. -/
theorem kept_takeInbox {s s1 : State} {fits : PortId → Frame → Bool} {p : PortId} {f : Frame}
    (h : takeInbox s fits = some (p, f, s1)) : kept s1 = kept s := by
  unfold takeInbox at h
  split at h
  · cases h
    rfl
  · cases h

theorem kept_takeInbox_if {s s1 : State} {c : Prop} [Decidable c] {fits : PortId → Frame → Bool} {p : PortId} {f : Frame}
    (h : (if c then takeInbox s fits else none) = some (p, f, s1)) : kept s1 = kept s := by
  split at h
  · exact kept_takeInbox h
  · cases h

/-! ## Receptions -/

theorem kept_idleSymbols (s : State) (p : PortId) (idle : List CodeGroup) : kept (idleSymbols s p idle) = kept s :=
  kept_ite_of _ ((kept_countLinkErr _).trans (kept_portAnomaly _ _ _)) rfl

theorem kept_abortCopy (s : State) (p : PortId) (b : List Byte) : kept (abortCopy s p b) = kept s :=
  kept_ite_of _ (kept_modPort _ _ _) rfl

theorem kept_failFrame (s : State) (p : PortId) (x : Taken) : kept (failFrame s p x) = kept s := by
  unfold failFrame
  rw [kept_abortCopy, kept_modPort, kept_countLinkErr, kept_portAnomaly]

theorem kept_takeFrame (s : State) (p : PortId) (x : Taken) (earlier : Bool) (t : BitVec 20) :
    kept (takeFrame s p x earlier t) = kept s := by
  unfold takeFrame
  dsimp only
  split
  · exact kept_ite_of _ (kept_toInbox _ _ _) rfl
  · exact kept_ite_of _ rfl (kept_ite_of _ (kept_failFrame _ _ _) (kept_ite_of _ rfl (kept_routeFrame _ _ _ _)))
  · rfl

theorem keepsInv_execFabricFrameReceive {s : State} (hs : s.inv = true) (p : PortId) (idle groups : List CodeGroup)
    (earlier : Bool) (t : BitVec 20) : KeepsInv (execFabricFrameReceive p idle groups earlier t s) := by
  have h0 := inv_setOff hs t
  have h1 : (if (portOf (setOff s t) p).st = .up then idleSymbols (setOff s t) p idle else setOff s t).inv = true :=
    inv_ite _ (inv_of_kept (kept_idleSymbols _ _ _) h0) h0
  refine .ite _ (.next hs) (.next ?_)
  split
  · exact inv_of_kept (kept_takeFrame _ _ _ _ _) h1
  · exact h1

theorem keepsInv_execFabricFrameTransmitEnd {s : State} (hs : s.inv = true) (p : PortId) (t : BitVec 20) :
    KeepsInv (execFabricFrameTransmitEnd p t s) := by
  unfold execFabricFrameTransmitEnd
  split
  · exact .next hs
  · refine .next (inv_of_kept ?_ (inv_setOff hs t))
    rw [kept_pump]
    exact kept_ite_of _ ((kept_modLive _ _).trans (kept_ite_of _ rfl rfl)) (kept_ite_of _ rfl rfl)

/-! ## Breaks and locks -/

theorem kept_restoreIfReady (s : State) : kept (restoreIfReady s) = kept s :=
  kept_ite_of _ (by rw [kept_fabricCrumb, kept_sendOut]; rfl) rfl

theorem kept_noteReady (s : State) (station port : Byte) : kept (noteReady s station port) = kept s :=
  (kept_restoreIfReady _).trans rfl

theorem kept_ownBreak (s : State) (p : PortId) : kept (ownBreak s p) = kept s :=
  kept_ite_of _ (kept_healBreak _ _ _ _) (kept_ite_of _ (kept_healTo _ _ _ _ _) rfl)

theorem kept_extendBranch (s : State) (k : Byte) (p0Branch : Bool) : kept (extendBranch s k p0Branch) = kept s :=
  kept_ite_of _ (kept_ite_of _ (kept_changeTopo _ _) rfl) (kept_ite_of _ (kept_changeTopo _ _) rfl)

theorem kept_breakUnadmitted (s : State) (p : PortId) (hop port : Byte) : kept (breakUnadmitted s p hop port) = kept s :=
  kept_ite_of _ (kept_healBreak _ _ _ _) rfl

theorem kept_sendBreak (s : State) (p : PortId) : kept (sendBreak s p) = kept s := kept_discUp _ _ _ _

theorem kept_portDown (s : State) (p : PortId) : kept (portDown s p) = kept s :=
  kept_ite_of _ (kept_ownBreak _ _) (kept_ite_of _ rfl (kept_ite_of _ rfl (kept_sendBreak _ _)))

theorem kept_breakReleased (s : State) (p : PortId) : kept (breakReleased s p) = kept s :=
  kept_ite_of _ ((kept_sendBreak _ _).trans rfl) rfl

theorem kept_relocked (s : State) (p : PortId) (quiet : Bool) : kept (relocked s p quiet) = kept s :=
  kept_ite_of _ (kept_breakReleased _ _) ((kept_consequence _ _ _).trans (kept_breakReleased _ _))

theorem kept_noteCable (s : State) (p : PortId) : kept (noteCable s p) = kept s := kept_ite_of _ rfl rfl

theorem keepsInv_execReceiverLock {s : State} (hs : s.inv = true) (p : PortId) : KeepsInv (execReceiverLock p s) := by
  unfold execReceiverLock
  dsimp only
  split
  · exact .next (inv_of_kept (by rw [kept_reportReady, kept_modPort, kept_noteCable]) hs)
  · exact .next (inv_of_kept (kept_ite_of _ ((kept_relocked _ _ _).trans (kept_modPort _ _ _)) rfl) hs)
  · exact .next (inv_of_kept (kept_modPort _ _ _) hs)
  · exact .next hs

theorem keepsInv_execLockLoss {s : State} (hs : s.inv = true) (p : PortId) : KeepsInv (execLockLoss p s) := by
  unfold execLockLoss
  split
  · exact .next (inv_of_kept (kept_ite_of _ rfl (kept_modPort _ _ _)) hs)
  · exact .next (inv_of_kept ((kept_portDown _ _).trans (kept_modPort _ _ _)) hs)
  · exact .next hs

theorem keepsInv_execRelockTimeout {s : State} (hs : s.inv = true) (p : PortId) : KeepsInv (execRelockTimeout p s) :=
  .ite _ (.next (inv_of_kept ((kept_portDown _ _).trans ((kept_modPort _ _ _).trans
    (kept_ite_of _ rfl (kept_portAnomaly _ _ _)))) hs)) (.next hs)

/-! ## Join gaps -/

theorem kept_joinBreaks (s : State) : kept (joinBreaks s) = kept s := by
  have one : ∀ (s : State) (p : PortId), kept (if (portOf s p).st != .down then s
      else if isManager s then ownBreak s p
      else if (portOf s p.other).st == .up then sendBreak s p
      else s) = kept s := fun s p =>
    kept_ite_of _ rfl (kept_ite_of _ (kept_ownBreak _ _) (kept_ite_of _ (kept_sendBreak _ _) rfl))
  exact (one _ .p1).trans (one s .p0)

theorem kept_gapRelocked (before : State) (env : JoinEnv) (s : State) (p : PortId) :
    kept (gapRelocked before env s p) = kept s := kept_ite_of _ (kept_relocked _ _ _) rfl

theorem keepsInv_execJoinGap {s : State} (hs : s.inv = true) (env : JoinEnv) : KeepsInv (execJoinGap env s) := by
  have h1 : (setOff { s with fab := { s.fab with gap := true } } (BitVec.ofNat 20 (gapStart s.core.tfCode))).inv = true :=
    inv_of_guarded rfl hs
  refine .ite _ (.ite _ (.next h1) (.next (inv_of_kept ?_ h1))) (.next hs)
  refine kept_ite_of _ ?_ ?_
  · rw [kept_syncIrq, kept_joinBreaks]
    rfl
  · rw [kept_gapRelocked, kept_gapRelocked, kept_modPort, kept_modPort]

theorem keepsInv_execJoinGapEnd {s : State} (hs : s.inv = true) : KeepsInv (execJoinGapEnd s) := by
  refine .ite _ (.next (inv_of_kept (kept_pumpBoth _) (inv_setOff (inv_of_kept ?_ hs) _))) (.next hs)
  split <;> rfl

/-! ## Discovery -/

theorem kept_sendTopo (s : State) : kept (sendTopo s) = kept s := kept_ite_of _ rfl (kept_sendOut _ _ _ _ _)

theorem kept_recordRefusal (s : State) (k : Nat) (r : Report) (m : Member) : kept (recordRefusal s k r m) = kept s :=
  kept_ite_of _ rfl (kept_recordMember _ _ _)

theorem kept_takeReport (s : State) (cfg : LoafCfg) (plan : Plan) (p : PortId) (f : Frame) :
    kept (takeReport s cfg plan p f) = kept s := by
  unfold takeReport
  dsimp only
  split
  · rw [kept_sendOut, kept_extendBranch, kept_fabricCrumb, kept_recordMember]
  · rw [kept_sendOut, kept_fabricCrumb, kept_recordRefusal]

theorem keepsInv_execCall {s : State} (hs : s.inv = true) : KeepsInv (execCall s) := by
  unfold execCall
  split
  · exact .next hs
  split
  · exact .next (inv_of_kept (kept_ite_of _ rfl ((kept_sendTopo _).trans (kept_sendOut _ _ _ _ _))) hs)
  split
  · exact .next hs
  · next h =>
    have h1 := inv_of_kept (kept_takeInbox h) hs
    exact .next (inv_of_kept ((kept_sendOut _ _ _ _ _).trans rfl) h1)

theorem keepsInv_execReport {s : State} (hs : s.inv = true) : KeepsInv (execReport s) := by
  unfold execReport
  split
  · next h => exact .next (inv_of_kept ((kept_takeReport _ _ _ _ _).trans (kept_takeInbox_if h)) hs)
  · exact .next hs

theorem keepsInv_execAdmitMsg {s : State} (hs : s.inv = true) : KeepsInv (execAdmitMsg s) := by
  unfold execAdmitMsg
  split
  · next h =>
    have h1 := inv_of_kept (kept_takeInbox_if h) hs
    exact .next (inv_of_kept rfl h1)
  · exact .next hs

theorem keepsInv_execRefuse {s : State} (hs : s.inv = true) : KeepsInv (execRefuse s) := by
  unfold execRefuse
  split
  · next h =>
    have h1 := inv_of_kept (kept_takeInbox_if h) hs
    exact .next (inv_of_kept rfl h1)
  · exact .next hs

theorem keepsInv_execBreakMsg {s : State} (hs : s.inv = true) : KeepsInv (execBreakMsg s) := by
  refine .ite _ ?_ (.next hs)
  split
  · next h =>
    have h1 := inv_of_kept (kept_takeInbox_if h) hs
    exact .next (inv_ite _ (inv_of_kept (kept_breakUnadmitted _ _ _ _) h1) (inv_of_kept (kept_healBreak _ _ _ _) h1))
  · exact .next hs

theorem keepsInv_execTopo {s : State} (hs : s.inv = true) : KeepsInv (execTopo s) := by
  refine .ite _ (.next (inv_ite _ hs (inv_of_kept (kept_sendTopo s) hs))) ?_
  split
  · next h =>
    have h1 := inv_of_kept (kept_takeInbox_if h) hs
    exact .next (inv_ite _ (inv_of_kept rfl h1) (inv_of_kept rfl h1))
  · exact .next hs

theorem keepsInv_execLinkready {s : State} (hs : s.inv = true) : KeepsInv (execLinkready s) := by
  unfold execLinkready
  split
  · next h => exact .next (inv_of_kept ((kept_noteReady _ _ _).trans (kept_takeInbox_if h)) hs)
  · exact .next hs

/-! ## TICK and sync -/

/-- A worker takes the frame number from a TICK, and nothing else that the invariant looks at. -/
theorem guarded_hearTick (s : State) (p : PortId) (f : Frame) (err : Int) :
    (kept (hearTick s p f err)).guarded = (kept s).guarded := by
  rw [kept_hearTick]
  rfl

theorem guarded_followTick (s : State) (p : PortId) (f : Frame) (err : Int) :
    (kept (followTick s p f err)).guarded = (kept s).guarded := by
  rw [kept_followTick]
  split <;> rfl

theorem keepsInv_execTickReceive {s : State} (hs : s.inv = true) (arrivalNs : Int) (residenceNs : Nat) :
    KeepsInv (execTickReceive arrivalNs residenceNs s) := by
  unfold execTickReceive
  split
  · next p f s1 _ h =>
    have h1 := inv_of_kept (kept_takeInbox h) hs
    have h2 := inv_of_kept (kept_forwardTick s1 p f residenceNs) h1
    exact .ite _ (.next (inv_ite _ h1 (inv_of_kept (kept_duplicateManager _) h1)))
      (.ite _ (.next (inv_ite _ (inv_of_guarded (guarded_hearTick _ _ _ _) h1) h1))
        (.next (inv_ite _ (inv_of_kept (kept_syncIrq _ _) (inv_of_guarded (guarded_followTick _ _ _ _) h2)) h2)))
  · exact .next hs

theorem keepsInv_execTickMissing {s : State} (hs : s.inv = true) : KeepsInv (execTickMissing s) :=
  .ite _ (.next (inv_of_kept (kept_ite_of _ rfl (kept_ite_of _ rfl (kept_syncIrq _ _))) hs)) (.next hs)

theorem kept_loseSync (s : State) : kept (loseSync s) = kept s := rfl

theorem keepsInv_execSyncLoss {s : State} (hs : s.inv = true) : KeepsInv (execSyncLoss s) :=
  .next (inv_of_kept (kept_ite_of _ ((kept_syncIrq _ _).trans (kept_loseSync s)) rfl) hs)

/-! ## Connections, streams and images -/

theorem keepsInv_execSafeCopyReceive {s : State} (hs : s.inv = true) : KeepsInv (execSafeCopyReceive s) := by
  unfold execSafeCopyReceive
  split
  · next h =>
    have h1 := inv_of_kept (kept_takeInbox h) hs
    refine .ite _ (.next h1) ?_
    split
    · exact .next (inv_ite _ (inv_of_kept (kept_fabricCopy _ _ _ _ _) h1) h1)
    · exact .next (inv_of_kept (kept_countSafedisc _) h1)
  · exact .next hs

theorem keepsInv_execBulkReceive {s : State} (hs : s.inv = true) : KeepsInv (execBulkReceive s) := by
  unfold execBulkReceive
  split
  · next h =>
    have h1 := inv_of_kept (kept_takeInbox h) hs
    exact .next (inv_ite _ (inv_of_kept (kept_takeAck _ _ _ _) h1) (inv_of_kept (kept_takeData _ _ _ _ _) h1))
  · exact .next hs

theorem kept_addSegment (s : State) (key : Nat) (b : List Byte) : kept (addSegment s key b).2 = kept s := by
  have h1 : ∀ c : Bool, kept (if c then countMbxDiscarded s else s) = kept s :=
    fun _ => kept_ite_of _ (kept_countMbxDiscarded s) rfl
  unfold addSegment
  dsimp only
  split
  · exact (kept_countMbxDiscarded _).trans (h1 _)
  split
  · exact (kept_countMbxDiscarded _).trans (h1 _)
  split
  · exact h1 _
  · exact h1 _

theorem keepsInv_execRemoteRequestReceive {s : State} (hs : s.inv = true) : KeepsInv (execRemoteRequestReceive s) := by
  refine .ite _ (.next hs) ?_
  split
  · exact .next hs
  · next f s1 h =>
    have h2 := inv_of_kept ((kept_addSegment s1 (segKey f.payload) f.payload).trans (kept_takeInbox h)) hs
    dsimp only
    split
    · next b s2 e =>
      rw [e] at h2
      exact .next (inv_of_kept (kept_remoteRequest _ _ _ _) h2)
    · next s2 e =>
      rw [e] at h2
      exact .next h2

theorem keepsInv_execRemoteReplyReceive {s : State} (hs : s.inv = true) : KeepsInv (execRemoteReplyReceive s) := by
  refine .ite _ (.next hs) ?_
  split
  · exact .next hs
  · next f s1 h =>
    have h2 := inv_of_kept ((kept_addSegment s1 (16 * f.src.toNat + 8 + segKey f.payload) f.payload).trans
      (kept_takeInbox h)) hs
    dsimp only
    split
    · next b s2 e =>
      rw [e] at h2
      split
      · exact .next (inv_ite _ (inv_of_kept (kept_setQ _ _ _) h2) (inv_of_kept (kept_countLateReply _) h2))
      · exact .next (inv_of_kept (kept_countLateReply _) h2)
    · next s2 e =>
      rw [e] at h2
      exact .next h2

/-! ## CAN FD -/

theorem keepsInv_execCanTunnelSegment {s : State} (hs : s.inv = true) (e : CanSegment) :
    KeepsInv (execCanTunnelSegment e s) := by
  have h1 : ∀ (c : Bool) (idx : BitVec 2), (if c then discardTunnel s idx else s).inv = true :=
    fun _ _ => inv_ite _ (inv_of_kept (kept_discardTunnel _ _) hs) hs
  refine .ite _ (.next hs) ?_
  dsimp only
  split
  · exact .next (inv_of_kept (kept_discardTunnel _ _) (h1 _ _))
  · exact .ite _ (.next (inv_of_kept (kept_discardTunnel _ _) (h1 _ _)))
      (.ite _ (.next (inv_of_kept ((kept_tunnelRequest _ _ _ _).trans (kept_dropCanAsm _ _)) (h1 _ _)))
        (.next (inv_of_kept rfl (h1 _ _))))

theorem keepsInv_execCanTransmitEnd {s : State} (hs : s.inv = true) (ok : Bool) : KeepsInv (execCanTransmitEnd ok s) := by
  unfold execCanTransmitEnd
  split
  · exact .next hs
  · refine .next (inv_of_kept (kept_canStart _) (inv_of_kept ?_ hs))
    split <;> rfl

theorem keepsInv_execCanErrorPassive {s : State} (hs : s.inv = true) : KeepsInv (execCanErrorPassive s) :=
  .next (inv_of_kept (kept_ite_of _ ((kept_setIrq1 _ _).trans (kept_crumb _ _ _ _ _)) rfl) hs)

theorem keepsInv_execCanBusOff {s : State} (hs : s.inv = true) : KeepsInv (execCanBusOff s) :=
  .next (inv_of_kept (kept_ite_of _ ((kept_setIrq1 _ _).trans (kept_crumb _ _ _ _ _)) rfl) hs)

theorem keepsInv_execCanBusOffRecovery {s : State} (hs : s.inv = true) : KeepsInv (execCanBusOffRecovery s) :=
  .next (inv_of_kept (kept_ite_of _ (kept_canStart _) rfl) hs)

end Sys2Proof.Machine
end

section
/-! SUPPORT. The invariant through the host port and the self-test (R349-R360, R376, R378, R399, R420, R437). -/

namespace Sys2Proof.Machine

/-! ## The register window -/

theorem kept_readByte (s : State) (a : Nat) : kept (readByte s a).2 = kept s := by
  unfold readByte
  split
  · rfl
  · split <;> rfl

theorem kept_readData (b : List Byte) (n i : Nat) (s : State) : kept (readData b n i s).2 = kept s := by
  induction n generalizing i s with
  | zero => rfl
  | succ n ih =>
    unfold readData
    dsimp only
    rw [ih, kept_snoopByte]
    split
    · exact kept_readByte _ _
    · rfl

theorem inv_commitBytes {s : State} (hs : s.inv = true) (l : List (Nat × Byte)) :
    (l.foldl (fun s e => commitByte s e.1 e.2) s).inv = true := 
  inv_foldl (fun s (e : Nat × Byte) => commitByte s e.1 e.2) (fun _ e h => inv_commitByte h e.1 e.2) l hs

theorem keepsInv_execSpiWrite {s : State} (hs : s.inv = true) (sdi : List Byte) (oddBits : Bool) :
    KeepsInv (execSpiWrite sdi oddBits s) := by
  have h3 : ∀ (access crc : Bool) (sdo : List Byte),
      (if crc then crcFault (if access then accessError (spiBegin s sdo) else spiBegin s sdo)
        else if access then accessError (spiBegin s sdo) else spiBegin s sdo).inv = true := fun access crc sdo => by
    have h2 := inv_ite (access = true) (inv_of_kept (kept_accessError (spiBegin s sdo)) (inv_of_kept (kept_spiBegin s sdo) hs))
      (inv_of_kept (kept_spiBegin s sdo) hs)
    exact inv_ite _ (inv_of_kept (kept_crcFault _) h2) h2
  exact .ite _ (.next hs) (.next (inv_ite _ (h3 _ _ _) (inv_commitBytes (h3 _ _ _) _)))

theorem keepsInv_execSpiRead {s : State} (hs : s.inv = true) (sdi : List Byte) (oddBits : Bool) :
    KeepsInv (execSpiRead sdi oddBits s) := by
  have h1 := inv_of_kept (kept_spiBegin s []) hs
  have h2 : ∀ (c : Bool) (n : Nat),
      (if c then (zeros n, crcFault (spiBegin s [])) else readData sdi n 0 (spiBegin s [])).2.inv = true := fun c n => by
    split
    · exact inv_of_kept (kept_crcFault _) h1
    · exact inv_of_kept (kept_readData _ _ _ _) h1
  exact .ite _ (.next hs) (.next (inv_of_kept rfl (inv_ite _ (inv_of_kept (kept_accessError _) (h2 _ _)) (h2 _ _))))

theorem keepsInv_execRegisterWrite {s : State} (hs : s.inv = true) (addr : BitVec 12) (v : Byte) :
    KeepsInv (execRegisterWrite addr v s) := .next (inv_whileLive hs (inv_ite _ (inv_commitByte hs _ v) hs))

theorem keepsInv_execSlotWrite {s : State} (hs : s.inv = true) (addr : BitVec 11) (v : Byte) :
    KeepsInv (execSlotWrite addr v s) :=
  .next (inv_whileLive hs (inv_ite _ (inv_writeSlot hs _ v) (inv_of_kept (kept_accessError _) hs)))

theorem keepsInv_execMbxPost {s : State} (hs : s.inv = true) (mask : Byte) : KeepsInv (execMbxPost mask s) :=
  .next (inv_whileLive hs (inv_of_kept (kept_foldl _ kept_postBit _ _) hs))

theorem keepsInv_execMbxAck {s : State} (hs : s.inv = true) (mask : Byte) : KeepsInv (execMbxAck mask s) :=
  .next (inv_whileLive hs (inv_of_kept (kept_foldl _ kept_ackBit _ _) hs))

theorem keepsInv_execHostWatchdogExpiry {s : State} (hs : s.inv = true) : KeepsInv (execHostWatchdogExpiry s) := by
  unfold execHostWatchdogExpiry
  split
  · exact .next hs
  · exact .next (inv_of_kept (kept_ite_of _ ((kept_crumb _ _ _ _ _).trans rfl) rfl) hs)

theorem keepsInv_execHearthHeartbeatLoss {s : State} (hs : s.inv = true) : KeepsInv (execHearthHeartbeatLoss s) := by
  have ht : kept (loseCommands { s with host := { s.host with hearth := false } }) = kept s := rfl
  exact .next (inv_of_kept (kept_ite_of _ rfl (kept_ite_of _ ((kept_syncIrq _ _).trans ((kept_leaveFabric _).trans ht)) ht)) hs)

/-! ## Replies -/

theorem payOne_mem (m : MbxSt) (o : Owed) : (payOne m o).mem = m.mem := by
  cases o <;> rfl

theorem payAll_mem (l : List (Via × Owed)) (m : MbxSt) : (l.foldl (fun m e => payOne m e.2) m).mem = m.mem := by
  induction l generalizing m with
  | nil => rfl
  | cons e r ih => exact (ih _).trans (payOne_mem m e.2)

theorem kept_modMbx {s : State} {f : MbxSt → MbxSt} (h : (f s.mbx).mem = s.mbx.mem) : kept (modMbx s f) = kept s := by
  unfold modMbx
  rw [kept_mk, h]
  rfl

theorem kept_payOwed (s : State) (via : Via) : kept (payOwed s via) = kept s := kept_modMbx (payAll_mem _ _)

theorem keepsInv_execCommandReply {s : State} (hs : s.inv = true) (via : Via) : KeepsInv (execCommandReply via s) := by
  unfold execCommandReply
  split
  · exact .next hs
  split
  · exact .next (inv_ite _ (inv_deliverReply (inv_of_kept ((kept_payOwed _ _).trans (kept_modMbx rfl)) hs) _ _) hs)
  · exact .next hs

theorem keepsInv_execCrumbWrite {s : State} (hs : s.inv = true) : KeepsInv (execCrumbWrite s) :=
  .ite _ (.fault _) (.next (inv_ite _ (inv_closeAtEnd (inv_writeHead hs)) hs))

/-! ## The lifecycle and the production test -/

theorem inv_changeLife {s : State} (hs : s.inv = true) (new : Lifecycle) : (changeLife s new).inv = true :=
  inv_of_guarded (by rw [kept_changeLife]; rfl) hs

theorem inv_authorise {s : State} (hs : s.inv = true) (via : Via) (n : Option (List Byte)) (cmd : Byte)
    (before tag : List Byte) (body : State → State) (hb : (body s).inv = true) :
    (authorise s via n cmd before tag body).inv = true := by
  unfold authorise
  split
  · exact inv_of_kept (kept_replyErr _ _ _ _) hs
  · exact inv_of_kept (kept_replyErr _ _ _ _) hs
  · exact inv_ite _ hb (inv_of_kept (kept_replyErr _ _ _ _) hs)

theorem inv_badParam {s : State} (hs : s.inv = true) (via : Via) (i : Nat) : (badParam s via i).inv = true :=
  inv_of_kept (kept_badParam _ _ _) hs

theorem keepsInv_execKeyLoad {s : State} (hs : s.inv = true) (via : Via) : KeepsInv (execKeyLoad via s) := by
  have h1 := inv_of_kept (kept_spendNonce 0x75 (keyTagged s) via s) hs
  refine keepsInv_runCmd h1 _ _ _ fun e => ?_
  have hstore : ∀ (kind : Byte) (slot : Nat) (key : List Byte),
      (replyOk (storeKey (spendNonce 0x75 (keyTagged s) via s) kind slot key) via []).inv = true :=
    fun kind slot key => inv_of_kept ((kept_replyOk _ _ _).trans (kept_storeKey _ _ _ _)) h1
  exact inv_ite _ (inv_badParam h1 _ _) (inv_ite _ (inv_badParam h1 _ _) (inv_ite _ (inv_badParam h1 _ _)
    (inv_ite _ (inv_badParam h1 _ _) (inv_ite _ (inv_authorise h1 _ _ _ _ _ _ (hstore _ _ _)) (hstore _ _ _)))))

theorem keepsInv_execLifecycleSet {s : State} (hs : s.inv = true) (via : Via) : KeepsInv (execLifecycleSet via s) := by
  have h1 := inv_of_kept (kept_spendNonce 0x77 (fun _ => true) via s) hs
  refine keepsInv_runCmd h1 _ _ _ fun e => inv_ite _ (inv_badParam h1 _ _) ?_
  split
  · exact inv_badParam h1 _ _
  · exact inv_ite _ (inv_of_kept (kept_replyErr _ _ _ _) h1) (inv_ite _ (inv_badParam h1 _ _)
      (inv_authorise h1 _ _ _ _ _ _ (inv_of_kept (kept_replyOk _ _ _) (inv_changeLife h1 _))))

theorem kept_generateKey (s : State) : kept (generateKey s) = kept s := kept_ite_of _ rfl rfl

theorem keepsInv_execProductionTestEnd {s : State} (hs : s.inv = true) : KeepsInv (execProductionTestEnd s) :=
  .next (inv_ite _ (inv_changeLife (inv_of_kept (kept_generateKey s) hs) _) hs)

theorem keepsInv_execFuseRepair {s : State} (hs : s.inv = true) (rows : Two (List W16)) (spareBlocks : List W32) :
    KeepsInv (execFuseRepair rows spareBlocks s) := .next (inv_ite _ (inv_whileLive hs (inv_of_kept rfl hs)) hs)

/-! ## The self-test -/

theorem inv_runBlock {s : State} (hs : s.inv = true) (source : Byte) (w : LockWindow) (runs : List BlockRun) (b : Nat) :
    (runBlock source w runs s b).inv = true :=
  inv_ite _ hs (inv_of_kept (kept_reinitBlock _ _) (inv_scanPages (inv_of_kept (kept_blockOutcome _ _ _ _ _) hs) _ _))

theorem inv_runUntil {s : State} (hs : s.inv = true) (source : Byte) (w : LockWindow) (runs : List BlockRun) (l : List Nat) :
    (runUntil source w runs l s).1.inv = true := by
  induction l generalizing s with
  | nil => exact hs
  | cons b r ih =>
    have ht := inv_runBlock hs source w runs b
    unfold runUntil
    dsimp only
    split
    · exact ih ht
    · exact ht

theorem inv_testHandshake {s : State} (hs : s.inv = true) (ok : Two Bool) (c : Side) : (testHandshake ok s c).inv = true :=
  inv_ite _ hs (inv_ite _ (inv_handshake hs c) (inv_of_kept (kept_laneReport _ _)
    (inv_tame hs c (Tame.of_same fun _ => ⟨rfl, rfl, rfl, rfl⟩))))

theorem inv_endTest {s : State} (hs : s.inv = true) (env : HoldEndEnv) : (endTest s env).inv = true := by
  have h1 : ({ modLanes s reloadLane with test := { s.test with asked := none, holdNext := false } } : State).inv = true :=
    inv_of_kept rfl hs
  exact inv_testHandshake (inv_testHandshake (inv_ite _ h1 (inv_of_kept (kept_fatalFault _ _) h1)) _ _) _ _

theorem kept_replyAfterHold (s : State) (via : Option Via) (status : Byte) (payload : List Byte) :
    kept (replyAfterHold s via status payload) = kept s := by
  cases via
  · rfl
  · exact kept_setQ _ _ _

theorem inv_abortTest {s : State} (hs : s.inv = true) (via : Option Via) (env : HoldEndEnv) (detail : Nat) :
    (abortTest s via env detail).inv = true := inv_of_kept (kept_replyAfterHold _ _ _ _) (inv_endTest hs env)

theorem kept_softRepair (s : State) (runs : List BlockRun) (set : List Nat) : kept (softRepair s runs set) = kept s := rfl

theorem inv_completeTest {s : State} (hs : s.inv = true) (via : Option Via) (b : Byte) (runs : List BlockRun) (env : HoldEndEnv) :
    (completeTest s via b runs env).inv = true := by
  have hu := inv_runUntil (s := { clearReps s with drawn := s.drawn + 1 }) (inv_of_kept rfl hs) 0x02 s.test.lockouts runs
    (askedBlocks b)
  have h1 : ∀ r, ({ (runUntil 0x02 s.test.lockouts runs (askedBlocks b) { clearReps s with drawn := s.drawn + 1 }).1 with
      test := r } : State).inv = true := fun r => inv_of_kept rfl hu
  exact inv_ite _ (inv_of_kept (kept_replyAfterHold _ _ _ _) (inv_endTest (inv_of_kept (kept_softRepair _ _ _) (h1 _)) env))
    (inv_abortTest (h1 _) _ _ _)

theorem keepsInv_execCommandSelftestComplete {s : State} (hs : s.inv = true) (runs : List BlockRun) (env : HoldEndEnv) :
    KeepsInv (execCommandSelftestComplete runs env s) := by
  have hc := inv_of_kept (kept_clearReps s) hs
  unfold execCommandSelftestComplete
  split
  · exact .next (inv_ite _ hs (inv_ite _ (inv_abortTest hc _ _ _) (inv_ite _ (inv_abortTest hc _ _ _)
      (inv_completeTest hs _ _ _ _))))
  · exact .next hs

theorem inv_finishShutdown {s : State} (hs : s.inv = true) (runs : List BlockRun) : (finishShutdown s runs).inv = true := by
  have h1 := inv_foldl (runBlock 0x03 s.test.lockouts runs) (fun _ b h => inv_runBlock h _ _ _ b) setCommand
    (s := { s with drawn := s.drawn + 1 }) (inv_of_kept rfl hs)
  exact inv_of_kept rfl (inv_of_kept (kept_softRepair _ runs setCommand) h1)

theorem keepsInv_execShutdownSelftestComplete {s : State} (hs : s.inv = true) (runs : List BlockRun) :
    KeepsInv (execShutdownSelftestComplete runs s) := .next (inv_ite _ (inv_finishShutdown hs runs) hs)

end Sys2Proof.Machine
end

section
/-! SUPPORT. The invariant through the mailbox commands (R389-R394): they answer, and what they change lies outside the invariant. -/

namespace Sys2Proof.Machine

theorem keepsInv_execModeSet {s : State} (hs : s.inv = true) (via : Via) : KeepsInv (execModeSet via s) :=
  keepsInv_runCmd_of_kept hs fun e => by simp [kept_ite]

theorem keepsInv_execMaintHold {s : State} (hs : s.inv = true) (via : Via) : KeepsInv (execMaintHold via s) :=
  keepsInv_runCmd_of_kept hs fun e => by simp [kept_ite]

theorem kept_oweBits (s : State) (via : Via) (v mask : BitVec 64) :
    kept (modMbx s fun m => { m with owed := m.owed ++ [(via, .bits v mask)] }) = kept s := kept_modMbx rfl

theorem keepsInv_execLoafWrite {s : State} (hs : s.inv = true) (w : LoafWriteOp) : KeepsInv (execLoafWrite w s) :=
  keepsInv_runCmd_of_kept hs fun e => by simp [kept_ite]

theorem keepsInv_execLoafActivate {s : State} (hs : s.inv = true) (via : Via) : KeepsInv (execLoafActivate via s) :=
  keepsInv_runCmd_of_kept hs fun e => by
    dsimp only
    refine kept_ite_of _ (kept_badParam _ _ _) (kept_ite_of _ (kept_replyErr _ _ _ _) ?_)
    split
    · rw [kept_replyErr, kept_loafCrumb]
    · exact kept_beginSwitch _ _ _ _

theorem keepsInv_execChanForce {s : State} (hs : s.inv = true) (via : Via) : KeepsInv (execChanForce via s) :=
  keepsInv_runCmd_of_kept hs fun e => by simp [kept_ite, kept_decideForce]

theorem keepsInv_execSelftestRun {s : State} (hs : s.inv = true) (via : Via) : KeepsInv (execSelftestRun via s) :=
  keepsInv_runCmd_of_kept hs fun _ =>
    kept_ite_of _ (kept_badParam _ _ _) (kept_ite_of _ (kept_replyErr _ _ _ _) (kept_setQ s via .running))

theorem keepsInv_execQuote {s : State} (hs : s.inv = true) (via : Via) : KeepsInv (execQuote via s) :=
  keepsInv_runCmd_of_kept hs fun e => by
    split
    · exact kept_replyErr _ _ _ _
    · exact (kept_replyOk _ _ _).trans rfl

theorem keepsInv_execJrnOpen {s : State} (hs : s.inv = true) (via : Via) : KeepsInv (execJrnOpen via s) :=
  keepsInv_runCmd_of_kept hs fun e => by
    dsimp only
    refine kept_ite_of _ (kept_badParam _ _ _) (kept_ite_of _ (kept_badParam _ _ _) ?_)
    split
    · exact kept_badParam _ _ _
    · exact kept_replyErr _ _ _ _
    · rw [kept_replyOk, kept_setSession]

theorem keepsInv_execJrnRead {s : State} (hs : s.inv = true) (via : Via) : KeepsInv (execJrnRead via s) :=
  keepsInv_runCmd_of_kept hs fun e => by
    dsimp only
    refine kept_ite_of _ (kept_badParam _ _ _) ?_
    split
    · exact kept_replyErr _ _ _ _
    · exact kept_ite_of _ (kept_readChunk _ _ _ _) ((kept_replyErr _ _ _ _).trans (kept_restartSession _ _ _))

theorem keepsInv_execFabConn {s : State} (hs : s.inv = true) (via : Via) : KeepsInv (execFabConn via s) :=
  keepsInv_runCmd_of_kept hs fun e => by
    dsimp only
    refine kept_ite_of _ (kept_badParam _ _ _) (kept_ite_of _ (kept_badParam _ _ _) ?_)
    split
    · exact kept_replyOk _ _ _
    · exact kept_badParam _ _ _

theorem keepsInv_execCanConfig {s : State} (hs : s.inv = true) (via : Via) : KeepsInv (execCanConfig via s) :=
  keepsInv_runCmd_of_kept hs fun _ =>
    kept_ite_of _ (kept_badParam _ _ _) (kept_ite_of _ (kept_badParam _ _ _) (kept_ite_of _ (kept_badParam _ _ _)
      (kept_ite_of _ (kept_badParam _ _ _) ((kept_replyOk _ _ _).trans rfl))))

theorem keepsInv_execDoorposLearn {s : State} (hs : s.inv = true) (via : Via) : KeepsInv (execDoorposLearn via s) :=
  keepsInv_runCmd_of_kept hs fun _ =>
    kept_ite_of _ (kept_badParam _ _ _) (kept_ite_of _ (kept_badParam _ _ _) (kept_ite_of _ (kept_badParam _ _ _)
      ((kept_modMbx rfl).trans ((kept_setQ _ _ _).trans (kept_endLearn _ _ _)))))

theorem keepsInv_execLearningRunEnd {s : State} (hs : s.inv = true) (why : LearnEnd) : KeepsInv (execLearningRunEnd why s) := by
  unfold execLearningRunEnd
  split
  · exact .next hs
  refine .next (inv_of_kept (kept_ite_of _ (kept_endLearn _ _ _) ?_) hs)
  split
  · exact kept_endLearn _ _ _
  · exact kept_endLearn _ _ _
  · split
    · exact kept_endLearn _ _ _
    · exact kept_finishLearn _ _

theorem keepsInv_execDoorposConfirm {s : State} (hs : s.inv = true) (via : Via) : KeepsInv (execDoorposConfirm via s) :=
  keepsInv_runCmd_of_kept hs fun e => by
    dsimp only
    refine kept_ite_of _ (kept_badParam _ _ _) (kept_ite_of _ (kept_badParam _ _ _) ?_)
    split
    · rw [kept_replyOk, kept_confirmOffsets]
    · exact kept_replyErr _ _ _ _

/-! ## The actuator bus and the remaining commands -/

theorem keepsInv_execBusScan {s : State} (hs : s.inv = true) (replies : List ChipReply) : KeepsInv (execBusScan replies s) :=
  .next (inv_of_kept (kept_ite_of _ ((kept_endScan _ _).trans (kept_foldl _ (fun _ _ => kept_scanChip _ _ _ _) _ _)) rfl) hs)

theorem keepsInv_execBusRecovery {s : State} (hs : s.inv = true) (releasedAt : Option Nat) :
    KeepsInv (execBusRecovery releasedAt s) := by
  refine .next (inv_of_kept (kept_ite_of _ rfl ?_) hs)
  split
  · exact kept_ite_of _ (kept_busRecovered _ _) (kept_busStuck _)
  · exact kept_busStuck _

theorem keepsInv_execWearAdvance {s : State} (hs : s.inv = true) (idx : Fin 8) (reply : ChipReply) :
    KeepsInv (execWearAdvance idx reply s) := by
  unfold execWearAdvance
  split
  · exact .next (inv_of_kept (kept_ite_of _ (kept_advanceChip _ _ _ _) rfl) hs)
  · exact .next hs

theorem keepsInv_execConnTimeout {s : State} (hs : s.inv = true) (conn : W16) : KeepsInv (execConnTimeout conn s) := by
  unfold execConnTimeout
  split
  · exact .next hs
  split
  · exact .next hs
  · exact .next (inv_of_kept (kept_ite_of _ (kept_timeOut _ _ _) rfl) hs)

theorem keepsInv_execHopnakReceive {s : State} (hs : s.inv = true) (p : PortId) (cls : BitVec 4) (seq : Byte) (t : BitVec 20) :
    KeepsInv (execHopnakReceive p cls seq t s) := by
  unfold execHopnakReceive
  dsimp only
  split
  · exact .ite _ (.next (inv_of_kept ((kept_pump _ _).trans (kept_modPort _ _ _)) (inv_setOff hs t))) (.next hs)
  · exact .next hs

theorem kept_failStream (s : State) (x : Stream) : kept (failStream s x) = kept s := rfl

theorem keepsInv_execBulkResendTimeout {s : State} (hs : s.inv = true) (peer stream : Byte) :
    KeepsInv (execBulkResendTimeout peer stream s) := by
  unfold execBulkResendTimeout
  split
  · exact .next (inv_of_kept (kept_ite_of _ rfl (kept_ite_of _ (kept_failStream _ _)
      ((kept_resendAll _ _).trans (kept_setStream _ _ _ _)))) hs)
  · exact .next hs

theorem keepsInv_execRemoteDeadline {s : State} (hs : s.inv = true) (path : Bool) (idx : BitVec 2) :
    KeepsInv (execRemoteDeadline path idx s) := by
  unfold execRemoteDeadline
  split
  · exact .next (inv_of_kept (kept_ite_of _ (kept_replyErr _ _ _ _) rfl) hs)
  · exact .next hs

theorem keepsInv_execCanSafeReceive {s : State} (hs : s.inv = true) (f : CanFrame) : KeepsInv (execCanSafeReceive f s) := by
  refine .ite _ (.next hs) ?_
  split
  · exact .next hs
  refine .ite _ (.next hs) (.ite _ (.next (inv_of_kept (kept_countSafedisc s) hs)) ?_)
  split
  · exact .next (inv_of_kept (kept_ite_of _ (kept_canCopy _ _ _ _) rfl) hs)
  · exact .next (inv_of_kept (kept_countSafedisc s) hs)

theorem keepsInv_execPatternCompose {s : State} (hs : s.inv = true) : KeepsInv (execPatternCompose s) := by
  unfold execPatternCompose
  split
  · exact .next (inv_of_kept (kept_ite_of _ rfl rfl) hs)
  · exact .next hs

theorem keepsInv_execStrobeWatchdog {s : State} (hs : s.inv = true) : KeepsInv (execStrobeWatchdog s) :=
  .next (inv_of_kept (kept_ite_of _ ((kept_foundReport _ _).trans ((kept_setIrq0 _ _).trans (kept_strobeEnd _))) rfl) hs)

theorem keepsInv_execProbationEnd {s : State} (hs : s.inv = true) (ch : Byte) : KeepsInv (execProbationEnd ch s) := by
  unfold execProbationEnd
  dsimp only
  split
  · exact .next (inv_of_kept (kept_ite_of _ (kept_endProbation _ _) rfl) hs)
  · exact .next hs

theorem keepsInv_execCycleStart {s : State} (hs : s.inv = true) (door : Fin 2) : KeepsInv (execCycleStart door s) :=
  .next (inv_of_kept (kept_ite_of _ ((kept_setCycle _ _ _).trans (kept_endCycle _ _ _ _)) rfl) hs)

end Sys2Proof.Machine
end

section
/-! SUPPORT. Every command keeps the invariant: a row for each command of the dispatch. -/

namespace Sys2Proof.Machine

theorem keepsInv_exec {s : State} (hs : s.inv = true) : ∀ c : Instr, KeepsInv (exec c s)
  | .vdd33BrownOut _ => .next (inv_powerLoss hs _)
  | .rstnLow widthNs => keepsInv_execRstnLow hs widthNs
  | .internalReset => .next (inv_coreReset hs _)
  | .resetRelease env => keepsInv_execResetRelease hs env
  | .crustLogicPowerLoss c => keepsInv_execCrustLogicPowerLoss hs c
  | .lPlusUndervoltage c => keepsInv_execLPlusUndervoltage hs c
  | .lPlusUndervoltageCleared c => keepsInv_execLPlusUndervoltageCleared hs c
  | .lPlusLockout c => keepsInv_execLPlusLockout hs c
  | .lPlusLockoutCleared c handshakeOk => keepsInv_execLPlusLockoutCleared hs c handshakeOk
  | .overvoltageLockout c => keepsInv_execOvervoltageLockout hs c
  | .overvoltageCleared c handshakeOk => keepsInv_execOvervoltageCleared hs c handshakeOk
  | .tick env => keepsInv_execTick hs env
  | .phaseS env => keepsInv_execPhaseS hs env
  | .windowXOpen => keepsInv_execWindowXOpen hs
  | .windowXEnd => keepsInv_execWindowXEnd hs
  | .connTimeout conn => keepsInv_execConnTimeout hs conn
  | .phaseE env => keepsInv_execPhaseE hs env
  | .phaseC env => keepsInv_execPhaseC hs env
  | .phaseH env => keepsInv_execPhaseH hs env
  | .sliceOverrun lane => keepsInv_execSliceOverrun hs lane
  | .provingPeriodEnd => keepsInv_execProvingPeriodEnd hs
  | .shutdownSelftestComplete runs => keepsInv_execShutdownSelftestComplete hs runs
  | .clockGateClose _ _ => .next (inv_of_kept (kept_ite_of _ (kept_modLane _ _ _) rfl) hs)
  | .clockStop clk => keepsInv_execClockStop hs clk
  | .fifoResync f => keepsInv_execFifoResync hs f
  | .receiverLock p => keepsInv_execReceiverLock hs p
  | .lockLoss p => keepsInv_execLockLoss hs p
  | .relockTimeout p => keepsInv_execRelockTimeout hs p
  | .fabricFrameReceive p idle groups earlier t => keepsInv_execFabricFrameReceive hs p idle groups earlier t
  | .hopnakReceive p cls seq t => keepsInv_execHopnakReceive hs p cls seq t
  | .joinGap env => keepsInv_execJoinGap hs env
  | .joinGapEnd => keepsInv_execJoinGapEnd hs
  | .call => keepsInv_execCall hs
  | .report => keepsInv_execReport hs
  | .admitMsg => keepsInv_execAdmitMsg hs
  | .refuse => keepsInv_execRefuse hs
  | .breakMsg => keepsInv_execBreakMsg hs
  | .topo => keepsInv_execTopo hs
  | .linkready => keepsInv_execLinkready hs
  | .tickReceive arrivalNs residenceNs => keepsInv_execTickReceive hs arrivalNs residenceNs
  | .tickMissing => keepsInv_execTickMissing hs
  | .syncLoss => keepsInv_execSyncLoss hs
  | .syncProvingEnd => .next (inv_of_kept (kept_ite_of _ (kept_markRejoined _) rfl) hs)
  | .managerListenExpiry => .next (inv_of_kept (kept_ite_of _ rfl rfl) hs)
  | .safeCopyReceive => keepsInv_execSafeCopyReceive hs
  | .bulkReceive => keepsInv_execBulkReceive hs
  | .bulkResendTimeout peer stream => keepsInv_execBulkResendTimeout hs peer stream
  | .remoteRequestReceive => keepsInv_execRemoteRequestReceive hs
  | .remoteReplyReceive => keepsInv_execRemoteReplyReceive hs
  | .remoteDeadline path idx => keepsInv_execRemoteDeadline hs path idx
  | .canSafeReceive f => keepsInv_execCanSafeReceive hs f
  | .canTunnelSegment e => keepsInv_execCanTunnelSegment hs e
  | .canTunnelTimeout _ => .next (inv_of_kept (kept_ite_of _ (kept_discardTunnel _ _) rfl) hs)
  | .canTransmitEnd ok => keepsInv_execCanTransmitEnd hs ok
  | .canErrorPassive => keepsInv_execCanErrorPassive hs
  | .canBusOff => keepsInv_execCanBusOff hs
  | .canBusOffRecovery => keepsInv_execCanBusOffRecovery hs
  | .rawInputChange ch level t => keepsInv_execRawInputChange hs ch level t
  | .debounceExpiry ch t => keepsInv_execDebounceExpiry hs ch t
  | .testPulse src => keepsInv_execTestPulse hs src
  | .pulseTestSample src sample maskEnd readbackMv => keepsInv_execPulseTestSample hs src sample maskEnd readbackMv
  | .retryPulse src => keepsInv_execRetryPulse hs src
  | .thresholdCheck c pass0 pass1 => keepsInv_execThresholdCheck hs c pass0 pass1
  | .srcOvercurrent src => keepsInv_execSrcOvercurrent hs src
  | .ossdPulseTimeout ch t => keepsInv_execOssdPulseTimeout hs ch t
  | .counterEdge ch level edge t => keepsInv_execCounterEdge hs ch level edge t
  | .frequencyTimeout ch => keepsInv_execFrequencyTimeout hs ch
  | .analogConversion ch mv reference => keepsInv_execAnalogConversion hs ch mv reference
  | .stall ch => keepsInv_execStall hs ch
  | .legReadback c conducts => keepsInv_execLegReadback hs c conducts
  | .highSideProbe pair landMv legMa => keepsInv_execHighSideProbe hs pair landMv legMa
  | .lowSideProbe pair landMv groupMa => keepsInv_execLowSideProbe hs pair landMv groupMa
  | .darkPulse leg seenOpen conductsAgain => keepsInv_execDarkPulse hs leg seenOpen conductsAgain
  | .landSample hi lo => keepsInv_execLandSample hs hi lo
  | .blankingEnd leg limitActive => keepsInv_execBlankingEnd hs leg limitActive
  | .overcurrent leg => keepsInv_execOvercurrent hs leg
  | .thermal leg => keepsInv_execThermal hs leg
  | .thermalReclose leg => keepsInv_execThermalReclose hs leg
  | .pullInEnd _ => .next (inv_endPullIn hs _)
  | .pullInLevelSample pair ma => keepsInv_execPullInLevelSample hs pair ma
  | .stuckdrive c pair => keepsInv_execStuckdrive hs c pair
  | .firingHistoryBin => keepsInv_execFiringHistoryBin hs
  | .silenceTimeout c => keepsInv_execSilenceTimeout hs c
  | .currentSenseCheck c zeroMa refMa => keepsInv_execCurrentSenseCheck hs c zeroMa refMa
  | .patternCompose => keepsInv_execPatternCompose hs
  | .strobeWatchdog => keepsInv_execStrobeWatchdog hs
  | .probationEnd ch => keepsInv_execProbationEnd hs ch
  | .hostWatchdogExpiry => keepsInv_execHostWatchdogExpiry hs
  | .hearthHeartbeatLoss => keepsInv_execHearthHeartbeatLoss hs
  | .hearthRestart => .next (inv_of_kept (kept_ite_of _ (kept_hearthStart _) rfl) hs)
  | .spiWrite sdi oddBits => keepsInv_execSpiWrite hs sdi oddBits
  | .spiRead sdi oddBits => keepsInv_execSpiRead hs sdi oddBits
  | .registerWrite addr v => keepsInv_execRegisterWrite hs addr v
  | .modeReqWrite _ => .next (inv_whileLive hs (inv_of_kept (kept_writeModeReq _ _) hs))
  | .slotWrite addr v => keepsInv_execSlotWrite hs addr v
  | .mbxPost mask => keepsInv_execMbxPost hs mask
  | .mbxAck mask => keepsInv_execMbxAck hs mask
  | .irqStatClear _ _ _ => .next (inv_whileLive hs (inv_of_kept (kept_clearIrq _ _ _ _) hs))
  | .hostwdWrite _ => .next (inv_whileLive hs (inv_writeHostwd hs _))
  | .spiCfgWrite _ => .next (inv_whileLive hs (inv_of_kept (kept_writeSpiCfg _ _) hs))
  | .crcInit _ => .next (inv_whileLive hs (inv_of_kept (kept_modUnit _ _ _) hs))
  | .crcGo _ => .next (inv_whileLive hs (inv_of_kept (kept_goUnit _ _) hs))
  | .crcnDataWrite _ _ => .next (inv_whileLive hs (inv_of_kept (kept_modUnit _ _ _) hs))
  | .crcnRunWrite _ _ _ => .next (inv_whileLive hs (inv_of_kept (kept_modUnit _ _ _) hs))
  | .oenOffWrite _ => .next (inv_whileLive hs (inv_of_kept (kept_writeIndCtl _ _) hs))
  | .indStatClear _ _ => .next (inv_whileLive hs (inv_of_kept (kept_clearInd _ _ _) hs))
  | .slotTake => .next (inv_of_kept (kept_takeSlot _) hs)
  | .commandReply via => keepsInv_execCommandReply hs via
  | .echo _ => keepsInv_runCmd_of_kept hs fun _ => kept_replyOk _ _ _
  | .identity _ => keepsInv_runCmd_of_kept hs fun _ => kept_replyOk _ _ _
  | .modeSet via => keepsInv_execModeSet hs via
  | .maintHold via => keepsInv_execMaintHold hs via
  | .hostbitSet _ => keepsInv_runCmd_of_kept hs fun _ => (kept_replyOk _ _ _).trans (kept_oweBits _ _ _ _)
  | .hostbitGet _ => keepsInv_runCmd_of_kept hs fun _ => kept_replyOk _ _ _
  | .loafWrite w => keepsInv_execLoafWrite hs w
  | .loafCheck _ => keepsInv_runCmd_of_kept hs fun _ => by simp [kept_ite]
  | .loafActivate via => keepsInv_execLoafActivate hs via
  | .loafInfo _ => keepsInv_runCmd_of_kept hs fun _ => by simp [kept_ite]
  | .loafErase _ => keepsInv_runCmd_of_kept hs fun _ => by simp [kept_ite]
  | .chanStatus _ => keepsInv_runCmd_of_kept hs fun _ => by simp [kept_ite]
  | .chanReadmit _ => keepsInv_runCmd_of_kept hs fun _ => by simp [kept_ite]
  | .chanIsolate _ => keepsInv_runCmd_of_kept hs fun _ => by simp [kept_ite]
  | .chanRestore _ => keepsInv_runCmd_of_kept hs fun _ => by simp [kept_ite]
  | .chanForce via => keepsInv_execChanForce hs via
  | .indStatus _ => keepsInv_runCmd_of_kept hs fun _ => kept_replyOk _ _ _
  | .selftestRun via => keepsInv_execSelftestRun hs via
  | .commandSelftestComplete runs env => keepsInv_execCommandSelftestComplete hs runs env
  | .selftestResult _ => keepsInv_runCmd_of_kept hs fun _ => kept_replyOk _ _ _
  | .shutdown _ => keepsInv_runCmd_of_kept hs fun _ => kept_requestMode _ _ _
  | .shutdownStatus _ => keepsInv_runCmd_of_kept hs fun _ => kept_replyOk _ _ _
  | .measRead _ => keepsInv_runCmd_of_kept hs fun _ => by simp [kept_ite]
  | .quote via => keepsInv_execQuote hs via
  | .certRead _ => keepsInv_runCmd_of_kept hs fun _ => by simp [kept_ite]
  | .jrnOpen via => keepsInv_execJrnOpen hs via
  | .jrnRead via => keepsInv_execJrnRead hs via
  | .jrnClose _ => keepsInv_runCmd_of_kept hs fun _ => by simp [kept_ite]
  | .jrnPin _ => keepsInv_runCmd_of_kept hs fun _ => by simp [kept_ite]
  | .jrnInfo _ => keepsInv_runCmd_of_kept hs fun _ => (kept_replyOk _ _ _).trans rfl
  | .statEpoch _ => keepsInv_runCmd_of_kept hs fun _ => kept_replyOk _ _ _
  | .fabStatus _ => keepsInv_runCmd_of_kept hs fun _ => kept_replyOk _ _ _
  | .fabMembers _ => keepsInv_runCmd_of_kept hs fun _ => by simp [kept_ite]
  | .fabConn via => keepsInv_execFabConn hs via
  | .timeGet _ _ => keepsInv_runCmd_of_kept hs fun _ => kept_replyOk _ _ _
  | .canConfig via => keepsInv_execCanConfig hs via
  | .doorposLearn via => keepsInv_execDoorposLearn hs via
  | .learningRunEnd why => keepsInv_execLearningRunEnd hs why
  | .doorposConfirm via => keepsInv_execDoorposConfirm hs via
  | .doorposRead _ => keepsInv_runCmd_of_kept hs fun _ => by simp [kept_ite]
  | .keyLoad via => keepsInv_execKeyLoad hs via
  | .nonceGet _ => keepsInv_runCmd_of_kept hs fun _ => (kept_replyOk _ _ _).trans rfl
  | .nonceExpiry => .next (inv_of_kept (kept_setNonce _ _) hs)
  | .lifecycleSet via => keepsInv_execLifecycleSet hs via
  | .actStatus _ => keepsInv_runCmd_of_kept hs fun _ => kept_replyOk _ _ _
  | .actScan _ => keepsInv_runCmd_of_kept hs fun _ => by simp [kept_ite]
  | .busScan replies => keepsInv_execBusScan hs replies
  | .chipTransactionFail _ => .next (inv_of_kept (kept_ite_of _ (kept_foundReport _ _) rfl) hs)
  | .wearAdvance idx reply => keepsInv_execWearAdvance hs idx reply
  | .busRecovery releasedAt => keepsInv_execBusRecovery hs releasedAt
  | .crumbWrite => keepsInv_execCrumbWrite hs
  | .pageHoldExpiry _ => .next (inv_of_kept (kept_ite_of _ rfl rfl) hs)
  | .sessionIdleClose _ => .next (inv_of_kept (kept_ite_of _ (kept_closeSession _ _) rfl) hs)
  | .epochEnd _ => .next (inv_of_kept (kept_ite_of _ (kept_latchEpoch _ _) rfl) hs)
  | .cycleStart door => keepsInv_execCycleStart hs door
  | .cycleEnd _ => .next (inv_of_kept (kept_ite_of _ (kept_endCycle _ _ _ _) rfl) hs)
  | .cycleTimeout _ => .next (inv_of_kept (kept_ite_of _ (kept_endCycle _ _ _ _) rfl) hs)
  | .crustLogicPowerReturn c => keepsInv_execCrustLogicPowerReturn hs c
  | .hearthHeartbeatReturn => .next (inv_of_kept (kept_ite_of _ (kept_freeSlots _) rfl) hs)
  | .productionTestEnd => keepsInv_execProductionTestEnd hs
  | .fuseRepair rows spareBlocks => keepsInv_execFuseRepair hs rows spareBlocks
  | .fabricFrameTransmitEnd p t => keepsInv_execFabricFrameTransmitEnd hs p t

end Sys2Proof.Machine
end

section
/-! The statements on the invariant: every step keeps it, and the state after reset has it. -/

namespace Sys2Proof.Machine

open Sys2Proof.Claims

/-- Settles O3, by one row for each command (`keepsInv_exec`); the command itself, taken from the queue, is nothing that the
invariant looks at. -/
theorem stepKeepsInvariant : Obligations.StepKeepsInvariant := by
  intro s t hs h
  unfold step at h
  split at h
  · cases h
    exact hs
  · next c rest _ => exact keepsInv_exec (s := { s with pending := rest }) hs c t h

/-- Settles O4, by evaluation: after reset every table is empty and the core is in BOOT with its tick still. -/
theorem resetHasInvariant : Obligations.ResetHasInvariant := by
  unfold Obligations.ResetHasInvariant
  decide

end Sys2Proof.Machine
end

section
/-! SUPPORT. What a core reset leaves (R49-R51, R85, R368, R486, R487): the state it begins anew from, as an equation, and the crusts
and lanes in it. -/

namespace Sys2Proof.Machine

open Sys2Proof.Claims

/-- The core at reset, out of the state in which the reset found it. -/
def resetState (s : State) (cause : ResetCause) : State :=
  { State.reset with
    pending := s.pending, nv := s.nv, drawn := s.drawn
    core := { CoreSt.reset with vddGood := s.core.vddGood, cause := cause, modeBefore := some s.core.mode }
    crust := s.crust.map killCrust
    lane := s.lane.map resetLane
    stat := { StatSt.reset with lastEpoch := { s.stat.epoch with isPartial := true }, egen := s.stat.egen + 1 } }

theorem coreReset_idle {s : State} (h : s.core.inReset = true) (cause : ResetCause) : coreReset s cause = s := if_pos h

theorem coreReset_running {s : State} (h : s.core.inReset = false) (cause : ResetCause) : coreReset s cause = resetState s cause :=
  if_neg (by rw [h]; exact Bool.false_ne_true)

/-- The state in which the removal of VDD33 leaves a block that ran (R85). -/
def unpowered (s : State) : State :=
  { resetState s .powerOn with
    core := { (resetState s .powerOn).core with vddGood := false, modeBefore := none }
    stat := StatSt.reset
    lane := (resetState s .powerOn).lane.map fun l => { l with powerCycled := true }
    crust := (resetState s .powerOn).crust.map fun x => { openCrust x with logicPower := false, drives := [] } }

theorem powerLoss_removed {s : State} (h : s.core.inReset = false) : powerLoss s true = unpowered s := by
  unfold powerLoss
  rw [coreReset_running h]
  rfl

theorem sourcesOff_of_srcs {x y : CrustSt} (h : y.srcs = (openCrust x).srcs) : sourcesOff y = true := by
  unfold sourcesOff
  rw [h, List.all_eq_true]
  intro e he
  obtain ⟨a, _, rfl⟩ := List.mem_map.1 (List.mem_filter.1 he).1
  rfl

theorem legsOff_of_legs {x y : CrustSt} (h : y.legs = (openCrust x).legs) : legsOff y = true := by
  have ho := (legsOff_iff _).1 (legsOff_openCrust x)
  rw [legsOff_iff, h]
  exact ho

/-- Every crust that an opening has passed over has its legs off and its sources undriven. -/
theorem allOpen_of_opened {t : State} (h : ∀ c, ∃ x, (t.crust.at c).legs = (openCrust x).legs ∧
    (t.crust.at c).srcs = (openCrust x).srcs) : allOpen t := by
  obtain ⟨x, hxl, hxs⟩ := h .a
  obtain ⟨y, hyl, hys⟩ := h .b
  exact ⟨legsOff_of_legs hxl, legsOff_of_legs hyl, sourcesOff_of_srcs hxs, sourcesOff_of_srcs hys⟩

theorem allOpen_resetState (s : State) (cause : ResetCause) : allOpen (resetState s cause) :=
  allOpen_of_opened fun c => ⟨s.crust.at c, by cases c <;> exact ⟨rfl, rfl⟩⟩

theorem allOpen_unpowered (s : State) : allOpen (unpowered s) :=
  allOpen_of_opened fun c => ⟨killCrust (s.crust.at c), by cases c <;> exact ⟨rfl, rfl⟩⟩

theorem coreAtReset_resetState (s : State) (cause : ResetCause) : coreAtReset (resetState s cause) :=
  ⟨rfl, rfl, rfl, rfl, rfl, rfl, rfl, rfl, rfl, rfl⟩

theorem coreAtReset_unpowered (s : State) : coreAtReset (unpowered s) := ⟨rfl, rfl, rfl, rfl, rfl, rfl, rfl, rfl, rfl, rfl⟩

/-- What a crust shows once the core has gone into reset: it waits for a handshake and keeps its inputs, counts, readings and supply
conditions; `power` says whether it has kept its logic power. -/
def CrustWaits (x y : CrustSt) (power : Bool) : Prop :=
  y.handshake = false ∧ y.resync = true ∧ y.staged = none ∧ y.logicPower = (x.logicPower && power) ∧
  y.undervolt = x.undervolt ∧ y.lockout = x.lockout ∧ y.overvolt = x.overvolt ∧ y.ins = x.ins ∧ y.quads = x.quads ∧ y.ana = x.ana

theorem crustWaits_killCrust (x : CrustSt) : CrustWaits x (killCrust x) true :=
  ⟨rfl, rfl, rfl, (Bool.and_true _).symm, rfl, rfl, rfl, rfl, rfl, rfl⟩

theorem crustWaits_unpowered (x : CrustSt) :
    CrustWaits x { openCrust (killCrust x) with logicPower := false, drives := [] } false :=
  ⟨rfl, rfl, rfl, (Bool.and_false _).symm, rfl, rfl, rfl, rfl, rfl, rfl⟩

/-! ## The four causes -/

/-- What O5 says of a reset by the command `c`. -/
def ResetBy (c : Instr) (s t : State) (k : ResetCause) : Prop :=
  t.core.cause = k ∧ coreAtReset t ∧ allOpen t ∧ t.nv = s.nv ∧ t.pending = s.pending ∧
  (c ≠ .vdd33BrownOut true → t.stat.lastEpoch = { s.stat.epoch with isPartial := true } ∧ t.stat.egen = s.stat.egen + 1) ∧
  (∀ x, CrustWaits (s.crust.at x) (t.crust.at x) (decide (c ≠ .vdd33BrownOut true))) ∧
  ∀ l, t.lane.at l = { LaneSt.reset with
    retired := (s.lane.at l).retired, powerCycled := (s.lane.at l).powerCycled || decide (c = .vdd33BrownOut true) }

/-- A reset that is no removal of VDD33: the supply of the core (`good`) alone may have changed beside it. -/
theorem resetBy_resetState {c : Instr} (hc : c ≠ .vdd33BrownOut true) (s : State) (k : ResetCause) (good : Bool) :
    ResetBy c s { resetState s k with core := { (resetState s k).core with vddGood := good } } k := by
  refine ⟨rfl, coreAtReset_resetState s k, allOpen_resetState s k, rfl, rfl, fun _ => ⟨rfl, rfl⟩, fun x => ?_, fun l => ?_⟩
  · rw [decide_eq_true hc]
    cases x <;> exact crustWaits_killCrust _
  · rw [decide_eq_false hc, Bool.or_false]
    cases l <;> rfl

theorem resetBy_unpowered (s : State) : ResetBy (.vdd33BrownOut true) s (unpowered s) .powerOn := by
  refine ⟨rfl, coreAtReset_unpowered s, allOpen_unpowered s, rfl, rfl, fun h => absurd rfl h, fun x => ?_, fun l => ?_⟩
  · rw [decide_eq_false fun h => h rfl]
    cases x <;> exact crustWaits_unpowered _
  · rw [decide_eq_true rfl, Bool.or_true]
    cases l <;> rfl

theorem runs_vdd33BrownOut_removed {s : State} (h : s.core.inReset = false) : Runs (.vdd33BrownOut true) s (unpowered s) :=
  congrArg Host.Outcome.next (powerLoss_removed h)

theorem runs_vdd33BrownOut_dip (s : State) : Runs (.vdd33BrownOut false) s
    { coreReset s .brownOut with core := { (coreReset s .brownOut).core with vddGood := false } } := rfl

theorem runs_internalReset (s : State) : Runs .internalReset s (coreReset s .internalCause) := rfl

theorem runs_rstnLow_long {w : Nat} (hw : 10000 ≤ w) (s : State) : Runs (.rstnLow w) s (coreReset s .rstn) := by
  show execRstnLow w s = _
  rw [execRstnLow, if_neg (by omega), if_pos hw]

theorem runs_rstnLow_short {w : Nat} (hw : w < 1000) (s : State) : Runs (.rstnLow w) s s := if_pos hw

/-- Between 1 us and 10 us the core is left as it is, or reset in full. -/
theorem runs_rstnLow_between {w : Nat} (h1 : 1000 ≤ w) (h2 : w < 10000) (s : State) : Runs (.rstnLow w) s
    (if Config.freeBit s.drawn then coreReset { s with drawn := s.drawn + 1 } .rstn else { s with drawn := s.drawn + 1 }) := by
  show execRstnLow w s = _
  rw [execRstnLow, if_neg (by omega), if_neg (by omega)]

/-- A reset of a core that runs, from any of its causes. -/
theorem exists_resetBy {c : Instr} {s : State} {k : ResetCause} (hs : s.core.inReset = false)
    (h : (c = .vdd33BrownOut true ∧ k = .powerOn) ∨ (c = .vdd33BrownOut false ∧ k = .brownOut) ∨
      (∃ w, 10000 ≤ w ∧ c = .rstnLow w ∧ k = .rstn) ∨ (c = .internalReset ∧ k = .internalCause)) :
    ∃ t, Runs c s t ∧ ResetBy c s t k := by
  rcases h with ⟨rfl, rfl⟩ | ⟨rfl, rfl⟩ | ⟨w, hw, rfl, rfl⟩ | ⟨rfl, rfl⟩
  · exact ⟨_, runs_vdd33BrownOut_removed hs, resetBy_unpowered s⟩
  · have hrun := runs_vdd33BrownOut_dip s
    rw [coreReset_running hs] at hrun
    exact ⟨_, hrun, resetBy_resetState (by simp) s _ false⟩
  · have hrun := runs_rstnLow_long hw s
    rw [coreReset_running hs] at hrun
    exact ⟨_, hrun, resetBy_resetState (by simp) s _ s.core.vddGood⟩
  · have hrun := runs_internalReset s
    rw [coreReset_running hs] at hrun
    exact ⟨_, hrun, resetBy_resetState (by simp) s _ s.core.vddGood⟩

/-- Settles O5: a reset of a core that runs leaves `resetState`, or `unpowered` where VDD33 goes away, and one of a core in reset
leaves everything as it is. -/
theorem coreResetOpensEverything : Obligations.CoreResetOpensEverything := by
  refine ⟨fun s hr => ⟨?_, fun w hw => ?_, ?_⟩, fun c s k hs h => ?_, fun w s hs => ⟨fun hw => runs_rstnLow_short hw s,
    fun h1 h2 => ⟨_, runs_rstnLow_between h1 h2 s, ?_⟩⟩⟩
  · have hrun := runs_internalReset s
    rwa [coreReset_idle hr] at hrun
  · have hrun := runs_rstnLow_long hw s
    rwa [coreReset_idle hr] at hrun
  · have hrun := runs_vdd33BrownOut_dip s
    rwa [coreReset_idle hr] at hrun
  · obtain ⟨t, hrun, hcause, hcore, hopen, hnv, hpending, hepoch, hcrust, hlane⟩ := exists_resetBy hs h
    exact ⟨t, hrun, hcause, hcore, hopen, hnv, hpending, hepoch, hcrust, hlane⟩
  · split
    · rw [coreReset_running (s := { s with drawn := s.drawn + 1 }) hs]
      exact .inr ⟨coreAtReset_resetState _ _, allOpen_resetState _ _⟩
    · exact .inl rfl

end Sys2Proof.Machine
end

section
/-! SUPPORT. A state against O7: a table of inputs that is not in canonical form (two entries under one key), which the model's type
of tables admits and the statement does not shut out. -/

namespace Sys2Proof.Machine

open Sys2Proof.Claims

/-- Crust A without logic power, its table of inputs listing input 0 twice: first with the raw level 0, then with 1. -/
def twiceListed : State :=
  onCrust { State.reset with core := { State.reset.core with vddGood := true } } .a
    { CrustSt.reset with
      logicPower := false
      ins := [(0, { InSt.init with count := 1 }), (0, { InSt.init with raw := true })] }

theorem twiceListed_raw : (inOf (twiceListed.crust.at .a) 0).raw = false := by decide

/-- The return of logic power resets the first entry to one that is not listed any more, and the second comes to light. -/
theorem powerReturn_twiceListed (t : State) (h : Runs (.crustLogicPowerReturn .a) twiceListed t) :
    (inOf (t.crust.at .a) 0).raw = true := by
  cases h
  decide

theorem busFollows_crust {s t u : State} (h : BusFollows s t u) : t.crust = u.crust := by
  obtain ⟨ht, -⟩ := h
  rw [ht]

/-- Refutes O7: "the raw levels of the inputs are as before" fails at the return of logic power for a table of inputs that lists a
key twice. -/
theorem not_crustSuppliesActOnTheirCrust : ¬ Obligations.CrustSuppliesActOnTheirCrust := by
  intro h
  obtain ⟨hcrust, -⟩ := h
  obtain ⟨-, hreturn, -⟩ := hcrust .a twiceListed
  obtain ⟨t, y, hrun, hbus, -, -, -, -, -, -, -, -, hins⟩ := hreturn rfl rfl
  have hy : t.crust.at .a = y := by
    rw [busFollows_crust hbus]
    rfl
  obtain ⟨hraw, -⟩ := hins 0
  rw [← hy, powerReturn_twiceListed t hrun, twiceListed_raw] at hraw
  exact absurd hraw (by decide)

end Sys2Proof.Machine
end

section
/-! SUPPORT. SPI transactions (R347-R351, R355): what a write leaves, which fields a read touches, and the bits of SPISTAT and STATUS. -/

namespace Sys2Proof.Machine

open Sys2Proof.Claims

/-! ## Bits packed into a byte -/

theorem byteOfBits_go_testBit (l : List Bool) (i : Nat) : (byteOfBits.go l).testBit i = l.getD i false := by
  induction l generalizing i with
  | nil => simp [byteOfBits.go]
  | cons b r ih =>
    cases i with
    | zero => cases b <;> simp [byteOfBits.go, natOfBool, Nat.testBit_zero]
    | succ i =>
      have h : (natOfBool b + 2 * byteOfBits.go r) / 2 = byteOfBits.go r := by cases b <;> simp [natOfBool, Nat.add_mul_div_left]
      rw [byteOfBits.go, Nat.testBit_succ, h, ih]
      rfl

theorem byteOfBits_getLsbD (l : List Bool) (i : Nat) (hi : i < 8) : (byteOfBits l).getLsbD i = l.getD i false := by
  rw [byteOfBits, BitVec.getLsbD_ofNat, byteOfBits_go_testBit, decide_eq_true hi, Bool.true_and]

/-! ## Writes -/

/-- What a write sends: the head, then 1s, as long as the transaction itself. -/
def writeSdo (s : State) (sdi : List Byte) : List Byte :=
  (spiHead s ++ List.replicate (sdi.length - 3) 0xFF#8).take sdi.length

theorem length_writeSdo (s : State) (sdi : List Byte) : (writeSdo s sdi).length = sdi.length := by
  have hhead : (spiHead s).length = 3 := rfl
  rw [writeSdo, List.length_take, List.length_append, List.length_replicate, hhead]
  omega

theorem spiWrite_other {sdi : List Byte} (odd : Bool) {s : State} (h : portLive s = false ∨ bitOf (byteAt sdi 0) 7 = true) :
    Runs (.spiWrite sdi odd) s s := if_pos (by rcases h with h | h <;> simp [h])

theorem spiWrite_faultless {sdi : List Byte} {odd : Bool} {s : State} (hp : portLive s = true)
    (hd : bitOf (byteAt sdi 0) 7 = false) (hf : writeFaults s sdi odd = (false, false)) :
    Runs (.spiWrite sdi odd) s ((spiData sdi).foldl (fun s e => commitByte s e.1 e.2) (spiBegin s (writeSdo s sdi))) := by
  show execSpiWrite sdi odd s = _
  rw [execSpiWrite, hf]
  simp [hp, hd, writeSdo]

theorem spiWrite_discarded {sdi : List Byte} {odd : Bool} {s : State} (hp : portLive s = true)
    (hd : bitOf (byteAt sdi 0) 7 = false) {access crc : Bool} (hf : writeFaults s sdi odd = (access, crc))
    (hany : (access || crc) = true) :
    Runs (.spiWrite sdi odd) s { s with host := { s.host with
      prevCrc := crc, prevAccess := access, sdo := writeSdo s sdi
      irqStat1 := s.host.irqStat1 ||| (if access then 0x02#8 else 0) ||| (if crc then 0x01#8 else 0) } } := by
  have hrun : execSpiWrite sdi odd s = .next (
      let s2 := if access then accessError (spiBegin s (writeSdo s sdi)) else spiBegin s (writeSdo s sdi)
      if crc then crcFault s2 else s2) := by
    rw [execSpiWrite, hf]
    simp [hp, hd, hany, writeSdo]
  refine hrun.trans (congrArg Host.Outcome.next ?_)
  cases access with
  | false =>
    cases crc with
    | false => exact absurd hany Bool.false_ne_true
    | true => simp [crcFault, spiBegin, setIrq1, byteBit, irqSpiCrc]
  | true =>
    cases crc with
    | false => simp [accessError, spiBegin, setIrq1, byteBit, irqSpiErr]
    | true => simp [accessError, crcFault, spiBegin, setIrq1, byteBit, irqSpiErr, irqSpiCrc]

/-! ## Reads -/

theorem spiRead_other {sdi : List Byte} (odd : Bool) {s : State} (h : portLive s = false ∨ bitOf (byteAt sdi 0) 7 = false) :
    Runs (.spiRead sdi odd) s s := if_pos (by rcases h with h | h <;> simp [h])

/-- A change of the host port alone. -/
def OnlyHost (s t : State) : Prop := t = { s with host := t.host }

theorem OnlyHost.refl (s : State) : OnlyHost s s := rfl

theorem OnlyHost.trans {s t u : State} (h : OnlyHost s t) (k : OnlyHost t u) : OnlyHost s u := by
  unfold OnlyHost at h k ⊢
  rw [k, h]

theorem onlyHost_ite {s a b : State} (c : Prop) [Decidable c] (ha : OnlyHost s a) (hb : OnlyHost s b) :
    OnlyHost s (if c then a else b) := pred_ite (P := OnlyHost s) c ha hb

theorem onlyHost_foldl {α : Type} {f : State → α → State} (h : ∀ s a, OnlyHost s (f s a)) (l : List α) (s : State) :
    OnlyHost s (l.foldl f s) := by
  induction l generalizing s with
  | nil => exact .refl s
  | cons a r ih => exact (h s a).trans (ih _)

theorem onlyHost_readByte (s : State) (a : Nat) : OnlyHost s (readByte s a).2 := by
  unfold readByte
  split
  · exact .refl s
  · split
    · exact rfl
    · exact .refl s

theorem onlyHost_modUnit (s : State) (n : Fin 4) (f : CrcUnit → CrcUnit) : OnlyHost s (modUnit s n f) := rfl

theorem onlyHost_accessError (s : State) : OnlyHost s (accessError s) := rfl

theorem onlyHost_snoopByte (s : State) (a : Nat) (v : Byte) : OnlyHost s (snoopByte s a v) :=
  onlyHost_ite _ (onlyHost_foldl (fun s _ => onlyHost_ite _ (onlyHost_modUnit _ _ _) (.refl s)) _ s) (.refl s)

theorem onlyHost_readData (b : List Byte) (n i : Nat) (s : State) : OnlyHost s (readData b n i s).2 := by
  induction n generalizing i s with
  | zero => exact .refl s
  | succ n ih =>
    have hread : OnlyHost s (if spiAddrOf b i ≤ 0xFFF then readByte s (spiAddrOf b i) else (0, s)).2 := by
      split
      · exact onlyHost_readByte s _
      · exact .refl s
    exact (hread.trans (onlyHost_snoopByte _ _ _)).trans (ih _ _)

/-- A read begins with SPISTAT, as it stands before the read. -/
theorem head_spiHead (s : State) (l : List Byte) {n : Nat} (hn : n ≠ 0) : ((spiHead s ++ l).take n).head? = some (spistat s) := by
  cases n with
  | zero => exact absurd rfl hn
  | succ n => rfl

theorem length_of_read {sdi : List Byte} (h : bitOf (byteAt sdi 0) 7 = true) : sdi.length ≠ 0 := by
  cases sdi with
  | nil => exact absurd h (by decide)
  | cons b r => simp

theorem spiRead_onlyHost {sdi : List Byte} (odd : Bool) {s : State} (hp : portLive s = true)
    (hd : bitOf (byteAt sdi 0) 7 = true) :
    ∃ t, Runs (.spiRead sdi odd) s t ∧ OnlyHost s t ∧ t.host.sdo.head? = some (spistat s) := by
  have hdata : ∀ (bad : Bool) (n : Nat),
      OnlyHost s (if bad then (zeros n, crcFault (spiBegin s [])) else readData sdi n 0 (spiBegin s [])).2 := fun bad n => by
    split
    · rfl
    · exact OnlyHost.trans (t := spiBegin s []) rfl (onlyHost_readData _ _ _ _)
  refine ⟨_, if_neg (by simp [hp, hd]), ?_, ?_⟩
  · exact OnlyHost.trans (onlyHost_ite _ ((hdata _ _).trans (onlyHost_accessError _)) (hdata _ _)) rfl
  · simp only [List.append_assoc]
    exact head_spiHead s _ (length_of_read hd)

theorem snoopByte_below {a : Nat} (h : a < 0x800) (s : State) (v : Byte) : snoopByte s a v = s := if_neg (by omega)

/-- One byte of data is one read of the window where it lies below the slots. -/
theorem readData_one {b : List Byte} {a : Nat} (ha : spiAddrOf b 0 = a) (hlow : a < 0x800) (s : State) :
    readData b 1 0 s = ([(readByte s a).1], (readByte s a).2) := by
  simp only [readData, ha, snoopByte_below hlow]
  rw [if_pos (by omega)]

theorem spiAddrOf_zero (b : List Byte) : spiAddrOf b 0 = (byteAt b 0).toNat % 16 * 256 + (byteAt b 1).toNat := by
  unfold spiAddrOf spiAddr
  split
  · rfl
  · exact Nat.add_zero _

/-- A read of one location below the slots, without CRC. -/
theorem spiRead_one {sdi : List Byte} {s : State} (hp : portLive s = true) (hc : s.host.crcEn = false)
    (hd : bitOf (byteAt sdi 0) 7 = true) (hl : sdi.length = 5) (hn : spiLen sdi = 1) {a : Nat} (ha : spiAddrOf sdi 0 = a)
    (hlow : a < 0x800) : Runs (.spiRead sdi false) s { (readByte (spiBegin s []) a).2 with
      host := { (readByte (spiBegin s []) a).2.host with sdo := spiHead s ++ [0x00, (readByte (spiBegin s []) a).1] } } := by
  have hpast : ¬ 0xFFF < spiAddrOf sdi 0 := by omega
  show execSpiRead sdi false s = _
  rw [execSpiRead, hp, hd, hc, hl, hn]
  simp only [show min 1 (5 - natOfBool false - 4) = 1 from rfl, Bool.false_and, Nat.sub_self, readData_one ha hlow, hpast,
    decide_false, Bool.and_false]
  rfl

/-! ## One location: its value, and the shadow of a multi-byte register -/

theorem readByte_single {a : Nat} (h : multiOf a = none) (s : State) : readByte s a = (liveByte s a, s) := by
  rw [readByte, h]

theorem readByte_lowest {a n : Nat} (h : multiOf a = some (a, n)) (s : State) :
    readByte s a = (byteAt ((List.range n).map fun i => liveByte s (a + i)) 0,
      { s with host := { s.host with
        readShadow := tabSet [] s.host.readShadow a ((List.range n).map fun i => liveByte s (a + i)) } }) := by
  rw [readByte, h]
  exact if_pos rfl

theorem readByte_higher {a base n : Nat} (h : multiOf a = some (base, n)) (hb : a ≠ base) (s : State) :
    readByte s a = (byteAt (tabGet [] s.host.readShadow base) (a - base), s) := by
  rw [readByte, h]
  exact if_neg hb

/-! ## SPISTAT and STATUS -/

theorem spistat_getLsbD_low (s : State) (i : Nat) (hi : i < 4) :
    (spistat s).getLsbD i = [s.host.prevCrc, s.host.prevAccess, irqAsserted s, s.host.hearth].getD i false := by
  have hmask : (0xA0#8).getLsbD i = false := by
    have : ∀ k < 4, (0xA0#8).getLsbD k = false := by decide
    exact this i hi
  rw [spistat, BitVec.getLsbD_or, hmask, Bool.or_false, byteOfBits_getLsbD _ _ (by omega)]

theorem spistat_high (s : State) : spistat s &&& 0xF0#8 = 0xA0#8 := by
  have h : ∀ a b c d, (byteOfBits [a, b, c, d] ||| 0xA0#8) &&& 0xF0#8 = 0xA0#8 := by decide
  exact h _ _ _ _

theorem byte_ne_zero_iff (v : Byte) : v ≠ 0 ↔ ∃ i, i < 8 ∧ v.getLsbD i = true := by
  constructor
  · intro h
    by_contra hc
    push Not at hc
    refine h (BitVec.eq_of_getLsbD_eq fun i hi => ?_)
    rw [Bool.eq_false_iff.2 (hc i hi)]
    exact BitVec.getLsbD_zero.symm
  · rintro ⟨i, -, hv⟩ rfl
    exact absurd (BitVec.getLsbD_zero.symm.trans hv) Bool.false_ne_true

/-- IRQN is asserted while an enabled flag stands (R45, R370). -/
theorem irqAsserted_iff {s : State} (hp : portLive s = true) : irqAsserted s = true ↔
    ∃ i, i < 8 ∧ ((s.host.irqStat0.getLsbD i && s.host.irqEn0.getLsbD i) = true ∨
      (s.host.irqStat1.getLsbD i && s.host.irqEn1.getLsbD i) = true) := by
  rw [irqAsserted, hp, Bool.true_and, bne_iff_ne, byte_ne_zero_iff]
  simp only [BitVec.getLsbD_or, BitVec.getLsbD_and, Bool.or_eq_true]

theorem liveByte_status (s : State) : liveByte s 0x10 = statusByte s := by
  have hserial : (padTo 8 s.nv.serial).length = 8 := by
    rw [padTo, List.length_take, List.length_append, zeros, List.length_replicate]
    omega
  show byteAt (lowBytes s) 0x10 = _
  simp [byteAt, lowBytes, hserial]

theorem statusByte_getLsbD (s : State) (i : Nat) (hi : i < 8) : (statusByte s).getLsbD i =
    [s.host.hearth, s.host.reqResult.getLsbD 0, s.host.reqResult.getLsbD 1, s.core.safen, s.lane.a.retired, s.lane.b.retired,
      syncBit s, s.core.lateLast.a || s.core.lateLast.b].getD i false := byteOfBits_getLsbD _ _ hi

theorem syncBit_iff (s : State) : syncBit s = true ↔
    s.core.tickOn = true ∧ (isWorker s = true → bypassClosed s = false ∧ s.fab.sync = .inSync) := by
  rw [syncBit]
  cases isWorker s <;> simp

/-- Settles O38, from what a write leaves without and with a fault, what one read byte sends, and the bits of the two status bytes. -/
theorem spiWriteCommitsWholeOrNotAtAll : Obligations.SpiWriteCommitsWholeOrNotAtAll := by
  refine ⟨fun sdi odd s hp hd => ⟨fun hf => ⟨_, length_writeSdo s sdi, spiWrite_faultless hp hd hf⟩,
      fun access crc hf hany => ⟨_, length_writeSdo s sdi, spiWrite_discarded hp hd hf hany⟩⟩,
    fun sdi odd s => ⟨spiWrite_other odd, spiRead_other odd, spiRead_onlyHost odd⟩,
    fun b0 b1 x y s hp hc hd a ha hlow => ?_⟩
  have hread := spiRead_one (sdi := [b0, b1, 0, x, y]) hp hc hd rfl rfl ((spiAddrOf_zero _).trans ha.symm) hlow
  refine ⟨fun hm => ?_, fun n hm => ?_, fun base n hm hb => ?_, ?_⟩
  · rw [readByte_single hm] at hread
    exact hread
  · rw [readByte_lowest hm] at hread
    exact hread
  · rw [readByte_higher hm hb] at hread
    exact hread
  · rintro st v rfl rfl
    rw [liveByte_status]
    exact ⟨spistat_getLsbD_low s 0 (by decide), spistat_getLsbD_low s 1 (by decide), spistat_getLsbD_low s 3 (by decide),
      spistat_high s, by rw [spistat_getLsbD_low s 2 (by decide)]; exact irqAsserted_iff hp,
      statusByte_getLsbD s 0 (by decide), statusByte_getLsbD s 1 (by decide), statusByte_getLsbD s 2 (by decide),
      statusByte_getLsbD s 3 (by decide), statusByte_getLsbD s 4 (by decide), statusByte_getLsbD s 5 (by decide),
      by rw [statusByte_getLsbD s 6 (by decide)]; exact syncBit_iff s, statusByte_getLsbD s 7 (by decide)⟩

end Sys2Proof.Machine
end
section
/-! SUPPORT. The lifecycle, the mode and the reset of the core (R64, R73) through the commands that leave them: all but the resets,
the start-up, the tick, LIFECYCLE_SET and the end of production test. -/

namespace Sys2Proof.Machine

/-- An outcome whose next state, if there is one, has the lifecycle, the mode and the reset of `s`. -/
def Stays (s : State) (o : Host.Outcome State Fault Refusal) : Prop := ∀ t, o = .next t → rest t = rest s

theorem Stays.next {s t : State} (h : rest t = rest s) : Stays s (.next t) := fun u e => by
  cases e
  exact h

theorem Stays.fault (s : State) (r : Fault) : Stays s (.fault r) := fun _ e => by cases e

theorem Stays.same (s : State) : Stays s (.next s) := .next rfl

theorem Stays.ite {s : State} {a b : Host.Outcome State Fault Refusal} (c : Prop) [Decidable c] (ha : Stays s a) (hb : Stays s b) :
    Stays s (if c then a else b) := by
  split
  · exact ha
  · exact hb

theorem Stays.of_kept {s t : State} (h : kept t = kept s) : Stays s (.next t) := .next (rest_of_kept h)

theorem rest_ite_of {a b s : State} (c : Prop) [Decidable c] (ha : rest a = rest s) (hb : rest b = rest s) :
    rest (if c then a else b) = rest s := pred_ite (P := fun t => rest t = rest s) c ha hb

/-- A mailbox command stays where its own effect does: an answer from the gates touches the queue alone. -/
theorem stays_runCmd {s u : State} (h : rest u = rest s) (cmd : Byte) (via : Via) {body : QEntry → State}
    (hb : ∀ e, rest (body e) = rest s) : Stays s (runCmd cmd via u body) := by
  unfold runCmd
  split
  · exact .next h
  · next e _ =>
    split
    · exact .next ((rest_of_kept (kept_replyErr _ _ _ _)).trans h)
    · exact .next (hb e)

theorem stays_command {s : State} {cmd : Byte} {via : Via} {body : QEntry → State} (hb : ∀ e, kept (body e) = kept s) :
    Stays s (runCmd cmd via s body) := stays_runCmd rfl cmd via fun e => rest_of_kept (hb e)

theorem rest_setOff (s : State) (t : BitVec 20) : rest (setOff s t) = rest s := rfl

/-! ## Supplies -/

theorem rest_busMode (before s : State) : rest (busMode before s) = rest s := rest_of_kept (kept_busMode before s)

theorem rest_renewAfterLockout (s : State) (c : Side) (ok : Bool) : rest (renewAfterLockout s c ok) = rest s := by
  unfold renewAfterLockout
  exact rest_ite_of _ rfl (rest_ite_of _ rfl rfl)

theorem stays_execLPlusLockoutCleared (s : State) (c : Side) (ok : Bool) : Stays s (execLPlusLockoutCleared c ok s) :=
  .next (rest_ite_of _ ((rest_busMode _ _).trans (rest_renewAfterLockout _ _ _)) rfl)

theorem stays_execOvervoltageCleared (s : State) (c : Side) (ok : Bool) : Stays s (execOvervoltageCleared c ok s) :=
  .next (rest_ite_of _ (rest_renewAfterLockout _ _ _) rfl)

/-! ## The phases of a frame -/

theorem rest_takeSnapshots (env : PhaseSEnv) (s : State) : rest (takeSnapshots env s) = rest s := by
  have one : ∀ (s : State) (c : Side), rest (takeSnapshot env s c) = rest s := fun s c => by
    rcases kept_takeSnapshot env s c with h | h
    · exact rest_of_kept h
    · exact rest_of_kept (s := loseSnapshot s c) h
  exact rest_ite_of _ (rest_of_kept (kept_fatalFault _ _)) ((one _ _).trans (one _ _))

theorem rest_exchangeInputs (env : PhaseSEnv) (s : State) : rest (exchangeInputs env s) = rest s := by
  obtain ⟨t, h1, h2⟩ := kept_exchangeInputs env s
  exact (rest_of_kept h2).trans ((rest_takeSnapshots env t).trans (rest_of_kept h1))

theorem rest_endBlanking (s : State) (leg : LegId) (lim : Bool) : rest (endBlanking s leg lim) = rest s := rest_ite_of _ rfl rfl

theorem rest_endPullIn (s : State) (pair : Nat) : rest (endPullIn s pair) = rest s := rest_ite_of _ rfl rfl

theorem rest_endTimes (s : State) : rest (endTimes s) = rest s := by
  unfold endTimes
  rw [rest_foldl _ (fun s p => rest_endPullIn s p), rest_foldl _ (fun s n => rest_endBlanking s ⟨.b, n⟩ false),
    rest_foldl _ (fun s n => rest_endBlanking s ⟨.a, n⟩ false)]

theorem stays_execPhaseS (s : State) (env : PhaseSEnv) : Stays s (execPhaseS env s) := by
  have h : rest (agreeSwitch env (clockStopEnters (hearthDeliver (toPhase (endTimes s) .x (endS s.core.tfCode))))) = rest s :=
    (rest_of_kept ((kept_agreeSwitch _ _).trans ((kept_clockStopEnters _).trans (kept_hearthDeliver _)))).trans (rest_endTimes s)
  exact .ite _ (.same s) (.next (rest_ite_of _ h ((rest_exchangeInputs _ _).trans h)))

theorem stays_execPhaseE (s : State) (env : PhaseEEnv) : Stays s (execPhaseE env s) := by
  refine .ite _ (.same s) (.ite _ (.next ((rest_of_kept ?_).trans (rfl : rest (toPhase s .c (endE s.core.tfCode)) = rest s)))
    (.next ((rest_of_kept ?_).trans (rfl : rest (toPhase s .c (endE s.core.tfCode)) = rest s))))
  · rw [kept_clockCheck, kept_clockCheck, kept_ageAll]
  · rw [kept_modLive, kept_tallyUpdate, kept_clockCheck, kept_clockCheck, kept_evalFaults, kept_evalFaults, kept_countEcc,
      kept_evaluate, kept_evaluate, kept_deliverAll]

theorem stays_execPhaseH (s : State) (env : PhaseHEnv) : Stays s (execPhaseH env s) :=
  .ite _ (.same s) (.next ((rest_of_kept (kept_indicatorH _ _)).trans ((rest_sliceResult _ _ _).trans
    ((rest_sliceResult _ _ _).trans ((rest_of_kept (kept_countEcc _ _)).trans rfl)))))

theorem stays_execSliceOverrun (s : State) (l : Side) : Stays s (execSliceOverrun l s) :=
  .next (rest_ite_of _ (rest_laneFault _ _) rfl)

/-- A mode due or no longer due is none of the three. -/
theorem rest_of_modeNext {s t : State} {n : Option (Mode × ModeWhy)} (h : kept t = { kept s with modeNext := n }) :
    rest t = rest s :=
  congrArg (fun k : Kept => (k.life, k.mode, k.inReset)) h

theorem rest_of_undue {s t : State} (h : kept t = kept s ∨ kept t = { kept s with modeNext := none }) : rest t = rest s :=
  h.elim rest_of_kept rest_of_modeNext

theorem rest_evaluateMode (deaf : Bool) (s : State) : rest (evaluateMode deaf s) = rest s := by
  rcases kept_evaluateMode deaf s with h | ⟨-, h⟩ | ⟨v, m, -, h⟩
  · exact rest_of_kept h
  · exact rest_of_modeNext h
  · exact rest_of_modeNext h

theorem rest_stageCrust (env : PhaseCEnv) (s : State) (c : Side) : rest (stageCrust env s c) = rest s := by
  unfold stageCrust
  exact rest_ite_of _ rfl (rest_ite_of _ rfl (rest_of_kept (kept_laneReport _ _)))

theorem rest_compareAndStage (env : PhaseCEnv) (before : State) (laneFault late : Bool) (s : State) :
    rest (compareAndStage env before laneFault late s) = rest s := by
  have h1 : ∀ (c d : Prop) [Decidable c] [Decidable d],
      rest (if d then disturb (if c then s else disagreement env s) else if c then s else disagreement env s) = rest s :=
    fun c d _ _ => by
      have hc : rest (if c then s else disagreement env s) = rest s := rest_ite_of c rfl (rest_of_undue (kept_disagreement env s))
      exact rest_ite_of d ((rest_of_undue (kept_disturb _)).trans hc) hc
  unfold compareAndStage
  exact (rest_stageCrust _ _ _).trans ((rest_stageCrust _ _ _).trans (h1 _ _))

theorem rest_liveFrame (env : PhaseCEnv) (s : State) : rest (liveFrame env s) = rest s := by
  have h1 : rest (if anyLate env s then lateFrame env s else applyOutcomes s) = rest s :=
    rest_ite_of _ (rest_of_undue (kept_lateFrame env s)) (rest_of_kept (kept_applyOutcomes s))
  unfold liveFrame
  refine (rest_of_kept (kept_postVector _ _ _)).trans ((rest_of_kept (kept_beginHold _)).trans ((rest_compareAndStage _ _ _ _ _).trans
    ((rest_of_kept (kept_decideForces _)).trans ((rest_evaluateMode _ _).trans (rest_ite_of _ ?_ h1)))))
  exact (rest_of_kept (kept_fatalFault _ _)).trans h1

theorem rest_heldFrame (s : State) : rest (heldFrame s) = rest s :=
  (rest_of_kept (kept_decideForces _)).trans (rest_evaluateMode _ _)

theorem stays_execPhaseC (s : State) (env : PhaseCEnv) : Stays s (execPhaseC env s) :=
  .ite _ (.same s) (.next (rest_ite_of _ (rest_heldFrame _) (rest_liveFrame _ _)))

theorem stays_execClockStop (s : State) (k : WatchedClock) : Stays s (execClockStop k s) :=
  have h := rest_of_kept (kept_stopLane k s)
  .next (rest_ite_of _ rfl (rest_ite_of _ h h))

theorem stays_execFifoResync (s : State) (f : FifoId) : Stays s (execFifoResync f s) := by
  cases f with
  | fabric p => exact .of_kept (kept_dropReceived s p)
  | barrier c => exact .next (rest_ite_of _ (rest_laneFault _ _) rfl)

theorem stays_execWindowXOpen (s : State) : Stays s (execWindowXOpen s) := by
  refine .ite _ (.same s) (.next ((rest_of_kept (kept_pumpBoth _)).trans ((rest_of_kept (kept_modLanes _ _)).trans
    ((rest_of_kept (kept_releaseAll _)).trans ((rest_of_kept (kept_startChains _)).trans rfl)))))

theorem stays_execWindowXEnd (s : State) : Stays s (execWindowXEnd s) := by
  refine .ite _ (.same s) (.next ((rest_of_kept (kept_pumpBoth _)).trans ?_))
  split
  · exact rest_ite_of _ ((rest_of_kept (kept_judgeLane _ _ _)).trans ((rest_of_kept (kept_judgeLane _ _ _)).trans rfl)) rfl
  · rfl

end Sys2Proof.Machine
end

section
/-! SUPPORT. The lifecycle, the mode and the reset of the core through the field inputs and outputs: a crust and its timing change,
and nothing else. -/

namespace Sys2Proof.Machine

/-! ## Inputs -/

theorem rest_referenceEdge (s : State) (c : Side) (p : Nat) (rising : Bool) : rest (referenceEdge s c p rising) = rest s := by
  unfold referenceEdge
  dsimp only
  split
  · split
    · exact rest_ite_of _ rfl rfl
    · exact rest_ite_of _ rfl rfl
  · rfl

theorem rest_acceptLevel (s : State) (c : Side) (n : Nat) (e : List Byte) (p now : Stamp) :
    rest (acceptLevel s c n e p now) = rest s := by
  unfold acceptLevel
  exact (rest_foldl _ (fun s q => rest_referenceEdge s c q _) _ _).trans rfl

theorem rest_settleInput (now : Stamp) (c : Side) (s : State) (n : Nat) : rest (settleInput now c s n) = rest s := by
  unfold settleInput
  dsimp only
  split
  · split
    · exact rest_acceptLevel _ _ _ _ _ _
    · rfl
  · rfl

theorem rest_rawChange (s : State) (c : Side) (n : Nat) (level : Bool) (now : Stamp) : rest (rawChange s c n level now) = rest s := by
  unfold rawChange
  dsimp only
  split
  · rfl
  split
  · rfl
  split
  · rfl
  split
  · exact (rest_acceptLevel _ _ _ _ _ _).trans rfl
  · rfl

theorem stays_execRawInputChange (s : State) (ch : InChan) (level : Bool) (t : BitVec 20) :
    Stays s (execRawInputChange ch level t s) :=
  .next ((rest_rawChange _ _ _ _ _).trans ((rest_settleInput _ _ _ _).trans rfl))

theorem stays_execDebounceExpiry (s : State) (ch : InChan) (t : BitVec 20) : Stays s (execDebounceExpiry ch t s) := by
  have hu := rest_settleInput (stampAt s t) ch.crust s ch.num.val
  unfold execDebounceExpiry
  dsimp only
  split
  · split
    · exact .next ((rest_acceptLevel _ _ _ _ _ _).trans (Eq.trans rfl hu))
    · exact .next hu
  · exact .next hu

theorem stays_execPulseTestSample (s : State) (src : SrcId) (sample maskEnd : BitVec 24) (mv : Nat) :
    Stays s (execPulseTestSample src sample maskEnd mv s) := by
  unfold execPulseTestSample
  dsimp only
  split
  · exact .same s
  · exact .next ((rest_modCrust _ _ _).trans (rest_setOff _ _))

theorem stays_execOssdPulseTimeout (s : State) (ch : InChan) (t : BitVec 20) : Stays s (execOssdPulseTimeout ch t s) := by
  unfold execOssdPulseTimeout
  dsimp only
  split
  · exact .ite _ (.next rfl) (.same s)
  · exact .same s

theorem stays_execCounterEdge (s : State) (ch : InChan) (level : Bool) (edge : HeldEdge) (t : BitVec 20) :
    Stays s (execCounterEdge ch level edge t s) := by
  unfold execCounterEdge
  dsimp only
  split
  · exact .same s
  refine .ite _ (.same s) (.ite _ (.next rfl) (.ite _ ?_ (.same s)))
  split
  · refine .next (Eq.trans (rest_modCrust _ _ _) (rest_ite_of _ rfl ((rest_of_kept (kept_recaptureLearn _ _ _ _ _ _)).trans rfl)))
  · exact .same s

theorem stays_execFrequencyTimeout (s : State) (ch : InChan) : Stays s (execFrequencyTimeout ch s) := by
  unfold execFrequencyTimeout
  dsimp only
  split
  · exact .ite _ (.next rfl) (.same s)
  · exact .same s

theorem stays_execAnalogConversion (s : State) (ch : AnaId) (mv : Nat) (reference : Option Bool) :
    Stays s (execAnalogConversion ch mv reference s) := by
  have h2 : ∀ (c : Prop) [Decidable c] (f : CrustSt → CrustSt),
      rest (if c then countAnalogOver (modCrust s ch.crust f) 1 else modCrust s ch.crust f) = rest s :=
    fun c _ f => rest_ite_of c rfl rfl
  exact .ite _ (.same s) (.next (rest_ite_of _ (h2 _ _) (h2 _ _)))

/-! ## Outputs -/

theorem stays_execHighSideProbe (s : State) (pair : Fin 17) (landMv legMa : Nat) :
    Stays s (execHighSideProbe pair landMv legMa s) := by
  unfold execHighSideProbe
  dsimp only
  split
  · exact .same s
  · exact .ite _ (.next rfl) (.same s)

theorem stays_execLowSideProbe (s : State) (pair : Fin 17) (landMv groupMa : Nat) :
    Stays s (execLowSideProbe pair landMv groupMa s) := by
  unfold execLowSideProbe
  dsimp only
  split
  · exact .same s
  · exact .ite _ (.next rfl) (.same s)

theorem stays_execDarkPulse (s : State) (leg : LegId) (seenOpen conductsAgain : Bool) :
    Stays s (execDarkPulse leg seenOpen conductsAgain s) := by
  unfold execDarkPulse
  dsimp only
  split
  · exact .same s
  · exact .ite _ (.next rfl) (.same s)

theorem rest_sampleCrust (s : State) (c : Side) (r : LandReading) (hot : Nat → Bool) : rest (sampleCrust s c r hot) = rest s :=
  rest_ite_of _ rfl rfl

theorem stays_execLandSample (s : State) (hi lo : LandReading) : Stays s (execLandSample hi lo s) :=
  .next (rest_ite_of _ ((rest_sampleCrust _ _ _ _).trans ((rest_sampleCrust _ _ _ _).trans rfl)) rfl)

theorem stays_execStuckdrive (s : State) (c : Side) (pair : Fin 16) : Stays s (execStuckdrive c pair s) := by
  unfold execStuckdrive
  dsimp only
  split
  · exact .ite _ (.next rfl) (.same s)
  · exact .same s

theorem stays_execSilenceTimeout (s : State) (c : Side) : Stays s (execSilenceTimeout c s) := by
  unfold execSilenceTimeout
  dsimp only
  split
  · exact .next rfl
  · exact .same s

end Sys2Proof.Machine
end

section
/-! SUPPORT. The lifecycle, the mode and the reset of the core through the fabric and CAN FD. -/

namespace Sys2Proof.Machine

theorem stays_execFabricFrameReceive (s : State) (p : PortId) (idle groups : List CodeGroup) (earlier : Bool) (t : BitVec 20) :
    Stays s (execFabricFrameReceive p idle groups earlier t s) := by
  have h : rest (if (portOf (setOff s t) p).st = .up then idleSymbols (setOff s t) p idle else setOff s t) = rest s :=
    rest_ite_of _ ((rest_of_kept (kept_idleSymbols _ _ _)).trans rfl) rfl
  refine .ite _ (.same s) (.next ?_)
  split
  · exact (rest_of_kept (kept_takeFrame _ _ _ _ _)).trans h
  · exact h

theorem stays_execFabricFrameTransmitEnd (s : State) (p : PortId) (t : BitVec 20) : Stays s (execFabricFrameTransmitEnd p t s) := by
  unfold execFabricFrameTransmitEnd
  split
  · exact .same s
  · have h2 : ∀ (c : Prop) [Decidable c] (f : PortSt → PortSt),
        rest (if c then countAbortLate (modPort (setOff s t) p f) else modPort (setOff s t) p f) = rest s :=
      fun c _ f => rest_ite_of c rfl rfl
    exact .next ((rest_of_kept (kept_pump _ _)).trans (rest_ite_of _ (h2 _ _) (h2 _ _)))

theorem stays_execReceiverLock (s : State) (p : PortId) : Stays s (execReceiverLock p s) := by
  unfold execReceiverLock
  dsimp only
  split
  · exact .of_kept ((kept_reportReady _ _).trans ((kept_modPort _ _ _).trans (kept_noteCable _ _)))
  · exact .of_kept (kept_ite_of _ ((kept_relocked _ _ _).trans (kept_modPort _ _ _)) rfl)
  · exact .of_kept (kept_modPort _ _ _)
  · exact .same s

theorem stays_execLockLoss (s : State) (p : PortId) : Stays s (execLockLoss p s) := by
  unfold execLockLoss
  split
  · exact .of_kept (kept_ite_of _ rfl (kept_modPort _ _ _))
  · exact .of_kept ((kept_portDown _ _).trans (kept_modPort _ _ _))
  · exact .same s

theorem stays_execRelockTimeout (s : State) (p : PortId) : Stays s (execRelockTimeout p s) :=
  .ite _ (.of_kept ((kept_portDown _ _).trans ((kept_modPort _ _ _).trans (kept_ite_of _ rfl (kept_portAnomaly _ _ _))))) (.same s)

theorem stays_execJoinGap (s : State) (env : JoinEnv) : Stays s (execJoinGap env s) := by
  refine .ite _ (.ite _ (.next rfl) (.next (rest_ite_of _ ?_ ?_))) (.same s)
  · exact (rest_of_kept ((kept_syncIrq _ _).trans (kept_joinBreaks _))).trans rfl
  · exact (rest_of_kept ((kept_gapRelocked _ _ _ _).trans (kept_gapRelocked _ _ _ _))).trans rfl

theorem stays_execJoinGapEnd (s : State) : Stays s (execJoinGapEnd s) := by
  refine .ite _ (.next ((rest_of_kept (kept_pumpBoth _)).trans ((rest_setOff _ _).trans ?_))) (.same s)
  split
  · rfl
  · rfl

theorem stays_execCall (s : State) : Stays s (execCall s) := by
  unfold execCall
  split
  · exact .same s
  split
  · exact .of_kept (kept_ite_of _ rfl ((kept_sendTopo _).trans (kept_sendOut _ _ _ _ _)))
  split
  · exact .same s
  · next h =>
    have h1 := rest_of_kept (kept_takeInbox h)
    exact .next ((rest_of_kept (kept_sendOut _ _ _ _ _)).trans h1)

theorem stays_execReport (s : State) : Stays s (execReport s) := by
  unfold execReport
  split
  · next h => exact .of_kept ((kept_takeReport _ _ _ _ _).trans (kept_takeInbox_if h))
  · exact .same s

theorem stays_execAdmitMsg (s : State) : Stays s (execAdmitMsg s) := by
  unfold execAdmitMsg
  split
  · next h =>
    have h1 := rest_of_kept (kept_takeInbox_if h)
    exact .next h1
  · exact .same s

theorem stays_execRefuse (s : State) : Stays s (execRefuse s) := by
  unfold execRefuse
  split
  · next h =>
    have h1 := rest_of_kept (kept_takeInbox_if h)
    exact .next h1
  · exact .same s

theorem stays_execBreakMsg (s : State) : Stays s (execBreakMsg s) := by
  refine .ite _ ?_ (.same s)
  split
  · next h =>
    have h1 := kept_takeInbox_if h
    exact .of_kept (kept_ite_of _ ((kept_breakUnadmitted _ _ _ _).trans h1) ((kept_healBreak _ _ _ _).trans h1))
  · exact .same s

theorem stays_execTopo (s : State) : Stays s (execTopo s) := by
  refine .ite _ (.of_kept (kept_ite_of _ rfl (kept_sendTopo s))) ?_
  split
  · next h =>
    have h1 := rest_of_kept (kept_takeInbox_if h)
    exact .next (rest_ite_of _ (h1) (h1))
  · exact .same s

theorem stays_execLinkready (s : State) : Stays s (execLinkready s) := by
  unfold execLinkready
  split
  · next h => exact .of_kept ((kept_noteReady _ _ _).trans (kept_takeInbox_if h))
  · exact .same s

theorem rest_followTick (s : State) (p : PortId) (f : Frame) (err : Int) : rest (followTick s p f err) = rest s := by
  have h := congrArg (fun k : Kept => (k.life, k.mode, k.inReset)) (kept_followTick s p f err)
  refine Eq.trans h ?_
  split <;> rfl

theorem stays_execTickReceive (s : State) (arrivalNs : Int) (residenceNs : Nat) : Stays s (execTickReceive arrivalNs residenceNs s) := by
  unfold execTickReceive
  split
  · next p f s1 _ h =>
    have h1 := rest_of_kept (kept_takeInbox h)
    have h2 := (rest_of_kept (kept_forwardTick s1 p f residenceNs)).trans h1
    exact .ite _ (.next (rest_ite_of _ h1 ((rest_of_kept (kept_duplicateManager _)).trans h1)))
      (.ite _ (.next (rest_ite_of _ (h1) h1))
        (.next (rest_ite_of _ ((rest_of_kept (kept_syncIrq _ _)).trans ((rest_followTick _ _ _ _).trans h2)) h2)))
  · exact .same s

theorem stays_execTickMissing (s : State) : Stays s (execTickMissing s) :=
  .ite _ (.of_kept (kept_ite_of _ rfl (kept_ite_of _ rfl (kept_syncIrq _ _)))) (.same s)

theorem stays_execSafeCopyReceive (s : State) : Stays s (execSafeCopyReceive s) := by
  unfold execSafeCopyReceive
  split
  · next h =>
    have h1 := kept_takeInbox h
    refine .ite _ (.of_kept h1) ?_
    split
    · exact .of_kept (kept_ite_of _ ((kept_fabricCopy _ _ _ _ _).trans h1) h1)
    · exact .of_kept ((kept_countSafedisc _).trans h1)
  · exact .same s

theorem stays_execBulkReceive (s : State) : Stays s (execBulkReceive s) := by
  unfold execBulkReceive
  split
  · next h =>
    have h1 := kept_takeInbox h
    exact .of_kept (kept_ite_of _ ((kept_takeAck _ _ _ _).trans h1) ((kept_takeData _ _ _ _ _).trans h1))
  · exact .same s

theorem stays_execRemoteRequestReceive (s : State) : Stays s (execRemoteRequestReceive s) := by
  refine .ite _ (.same s) ?_
  split
  · exact .same s
  · next f s1 h =>
    have h2 := (kept_addSegment s1 (segKey f.payload) f.payload).trans (kept_takeInbox h)
    dsimp only
    split
    · next e =>
      rw [e] at h2
      exact .of_kept ((kept_remoteRequest _ _ _ _).trans h2)
    · next e =>
      rw [e] at h2
      exact .of_kept h2

theorem stays_execRemoteReplyReceive (s : State) : Stays s (execRemoteReplyReceive s) := by
  refine .ite _ (.same s) ?_
  split
  · exact .same s
  · next f s1 h =>
    have h2 := (kept_addSegment s1 (16 * f.src.toNat + 8 + segKey f.payload) f.payload).trans (kept_takeInbox h)
    dsimp only
    split
    · next e =>
      rw [e] at h2
      split
      · exact .of_kept (kept_ite_of _ ((kept_setQ _ _ _).trans h2) ((kept_countLateReply _).trans h2))
      · exact .of_kept ((kept_countLateReply _).trans h2)
    · next e =>
      rw [e] at h2
      exact .of_kept h2

theorem stays_execCanTunnelSegment (s : State) (e : CanSegment) : Stays s (execCanTunnelSegment e s) := by
  have h1 : ∀ (c : Bool) (idx : BitVec 2), kept (if c then discardTunnel s idx else s) = kept s :=
    fun _ _ => kept_ite_of _ (kept_discardTunnel _ _) rfl
  refine .ite _ (.same s) ?_
  dsimp only
  split
  · exact .of_kept ((kept_discardTunnel _ _).trans (h1 _ _))
  · exact .ite _ (.of_kept ((kept_discardTunnel _ _).trans (h1 _ _)))
      (.ite _ (.of_kept ((kept_tunnelRequest _ _ _ _).trans ((kept_dropCanAsm _ _).trans (h1 _ _))))
        (.of_kept (Eq.trans rfl (h1 _ _))))

theorem stays_execCanTransmitEnd (s : State) (ok : Bool) : Stays s (execCanTransmitEnd ok s) := by
  unfold execCanTransmitEnd
  split
  · exact .same s
  · refine .next ((rest_of_kept (kept_canStart _)).trans ?_)
    split <;> rfl

theorem stays_execCanSafeReceive (s : State) (f : CanFrame) : Stays s (execCanSafeReceive f s) := by
  refine .ite _ (.same s) ?_
  split
  · exact .same s
  refine .ite _ (.same s) (.ite _ (.of_kept (kept_countSafedisc s)) ?_)
  split
  · exact .of_kept (kept_ite_of _ (kept_canCopy _ _ _ _) rfl)
  · exact .of_kept (kept_countSafedisc s)

theorem stays_execConnTimeout (s : State) (conn : W16) : Stays s (execConnTimeout conn s) := by
  unfold execConnTimeout
  split
  · exact .same s
  split
  · exact .same s
  · exact .of_kept (kept_ite_of _ (kept_timeOut _ _ _) rfl)

theorem stays_execHopnakReceive (s : State) (p : PortId) (cls : BitVec 4) (seq : Byte) (t : BitVec 20) :
    Stays s (execHopnakReceive p cls seq t s) := by
  unfold execHopnakReceive
  dsimp only
  split
  · exact .ite _ (.next ((rest_of_kept ((kept_pump _ _).trans (kept_modPort _ _ _))).trans rfl)) (.same s)
  · exact .same s

theorem stays_execBulkResendTimeout (s : State) (peer stream : Byte) : Stays s (execBulkResendTimeout peer stream s) := by
  unfold execBulkResendTimeout
  split
  · exact .of_kept (kept_ite_of _ rfl (kept_ite_of _ (kept_failStream _ _) ((kept_resendAll _ _).trans (kept_setStream _ _ _ _))))
  · exact .same s

theorem stays_execRemoteDeadline (s : State) (path : Bool) (idx : BitVec 2) : Stays s (execRemoteDeadline path idx s) := by
  unfold execRemoteDeadline
  split
  · exact .of_kept (kept_ite_of _ (kept_replyErr _ _ _ _) rfl)
  · exact .same s

end Sys2Proof.Machine
end

section
/-! SUPPORT. The lifecycle, the mode and the reset of the core through the host port, the mailbox, the self-test and the hearth. -/

namespace Sys2Proof.Machine

/-! ## The host port -/

theorem rest_whileLive {s t : State} (h : rest t = rest s) : rest (whileLive s t) = rest s := rest_ite_of _ h rfl

theorem rest_spiFault (s : State) (access crc : Bool) (sdo : List Byte) :
    rest (if crc then crcFault (if access then accessError (spiBegin s sdo) else spiBegin s sdo)
      else if access then accessError (spiBegin s sdo) else spiBegin s sdo) = rest s := by
  cases access <;> cases crc <;> rfl

theorem stays_execSpiWrite (s : State) (sdi : List Byte) (oddBits : Bool) : Stays s (execSpiWrite sdi oddBits s) :=
  .ite _ (.same s) (.next (rest_ite_of _ (rest_spiFault _ _ _ _)
    ((rest_foldl (fun s (e : Nat × Byte) => commitByte s e.1 e.2) (fun s e => rest_commitByte s e.1 e.2) _ _).trans
      (rest_spiFault _ _ _ _))))

theorem stays_execSpiRead (s : State) (sdi : List Byte) (oddBits : Bool) : Stays s (execSpiRead sdi oddBits s) := by
  have h2 : ∀ (c : Bool) (n : Nat),
      rest (if c then (zeros n, crcFault (spiBegin s [])) else readData sdi n 0 (spiBegin s [])).2 = rest s := fun c n => by
    split
    · rfl
    · exact rest_of_kept (kept_readData _ _ _ _)
  refine .ite _ (.same s) (.next (Eq.trans rfl (rest_ite_of _ (Eq.trans rfl (h2 _ _)) (h2 _ _))))

theorem stays_execRegisterWrite (s : State) (addr : BitVec 12) (v : Byte) : Stays s (execRegisterWrite addr v s) :=
  .next (rest_whileLive (rest_ite_of _ (rest_commitByte _ _ _) rfl))

theorem stays_execSlotWrite (s : State) (addr : BitVec 11) (v : Byte) : Stays s (execSlotWrite addr v s) :=
  .next (rest_whileLive (rest_ite_of _ (rest_writeSlot _ _ _) rfl))

theorem stays_execHostWatchdogExpiry (s : State) : Stays s (execHostWatchdogExpiry s) := by
  unfold execHostWatchdogExpiry
  split
  · exact .same s
  · exact .of_kept (kept_ite_of _ ((kept_crumb _ _ _ _ _).trans rfl) rfl)

theorem stays_execHearthHeartbeatLoss (s : State) : Stays s (execHearthHeartbeatLoss s) :=
  .of_kept (kept_ite_of _ rfl (kept_ite_of _ ((kept_syncIrq _ _).trans ((kept_leaveFabric _).trans rfl)) rfl))

theorem stays_execCommandReply (s : State) (via : Via) : Stays s (execCommandReply via s) := by
  unfold execCommandReply
  split
  · exact .same s
  split
  · exact .next (rest_ite_of _ ((rest_deliverReply _ _ _).trans ((rest_of_kept (kept_payOwed _ _)).trans rfl)) rfl)
  · exact .same s

theorem stays_execCrumbWrite (s : State) : Stays s (execCrumbWrite s) :=
  .ite _ (.fault s _) (.next (rest_ite_of _ ((rest_closeAtEnd _).trans (rest_writeHead _)) rfl))

/-! ## Keys -/

theorem kept_authorise {s : State} {via : Via} {n : Option (List Byte)} {cmd : Byte} {before tag : List Byte} {body : State → State}
    (hb : kept (body s) = kept s) : kept (authorise s via n cmd before tag body) = kept s := by
  unfold authorise
  split
  · exact kept_replyErr _ _ _ _
  · exact kept_replyErr _ _ _ _
  · exact kept_ite_of _ hb (kept_replyErr _ _ _ _)

theorem stays_execKeyLoad (s : State) (via : Via) : Stays s (execKeyLoad via s) := by
  have h1 := rest_of_kept (kept_spendNonce 0x75 (keyTagged s) via s)
  refine stays_runCmd h1 _ _ fun e => (rest_of_kept ?_).trans h1
  have hstore : ∀ (u : State) (kind : Byte) (slot : Nat) (key : List Byte),
      kept (replyOk (storeKey u kind slot key) via []) = kept u := fun u kind slot key =>
    (kept_replyOk _ _ _).trans (kept_storeKey _ _ _ _)
  exact kept_ite_of _ (kept_badParam _ _ _) (kept_ite_of _ (kept_badParam _ _ _) (kept_ite_of _ (kept_badParam _ _ _)
    (kept_ite_of _ (kept_badParam _ _ _) (kept_ite_of _ (kept_authorise (hstore _ _ _ _)) (hstore _ _ _ _)))))

/-! ## The self-test -/

theorem rest_runBlock (source : Byte) (w : LockWindow) (runs : List BlockRun) (s : State) (b : Nat) :
    rest (runBlock source w runs s b) = rest s :=
  rest_ite_of _ rfl ((rest_of_kept (kept_reinitBlock _ _)).trans ((rest_scanPages _ _ _).trans
    (rest_of_kept (kept_blockOutcome _ _ _ _ _))))

theorem rest_runUntil (source : Byte) (w : LockWindow) (runs : List BlockRun) (l : List Nat) (s : State) :
    rest (runUntil source w runs l s).1 = rest s := by
  induction l generalizing s with
  | nil => rfl
  | cons b r ih =>
    unfold runUntil
    dsimp only
    split
    · exact (ih _).trans (rest_runBlock _ _ _ _ _)
    · exact rest_runBlock _ _ _ _ _

theorem rest_testHandshake (ok : Two Bool) (s : State) (c : Side) : rest (testHandshake ok s c) = rest s :=
  rest_ite_of _ rfl (rest_ite_of _ rfl rfl)

theorem rest_endTest (s : State) (env : HoldEndEnv) : rest (endTest s env) = rest s := by
  unfold endTest
  exact (rest_testHandshake _ _ _).trans ((rest_testHandshake _ _ _).trans
    (rest_ite_of _ rfl ((rest_of_kept (kept_fatalFault _ _)).trans rfl)))

theorem rest_abortTest (s : State) (via : Option Via) (env : HoldEndEnv) (detail : Nat) : rest (abortTest s via env detail) = rest s :=
  (rest_of_kept (kept_replyAfterHold _ _ _ _)).trans (rest_endTest s env)

theorem rest_completeTest (s : State) (via : Option Via) (b : Byte) (runs : List BlockRun) (env : HoldEndEnv) :
    rest (completeTest s via b runs env) = rest s := by
  have hu := rest_runUntil 0x02 s.test.lockouts runs (askedBlocks b) { clearReps s with drawn := s.drawn + 1 }
  unfold completeTest
  exact rest_ite_of _ ((rest_of_kept (kept_replyAfterHold _ _ _ _)).trans ((rest_endTest _ _).trans (Eq.trans rfl hu)))
    ((rest_abortTest _ _ _ _).trans (Eq.trans rfl hu))

theorem stays_execCommandSelftestComplete (s : State) (runs : List BlockRun) (env : HoldEndEnv) :
    Stays s (execCommandSelftestComplete runs env s) := by
  have hc : rest (clearReps s) = rest s := rfl
  unfold execCommandSelftestComplete
  split
  · exact .next (rest_ite_of _ rfl (rest_ite_of _ ((rest_abortTest _ _ _ _).trans hc)
      (rest_ite_of _ ((rest_abortTest _ _ _ _).trans hc) (rest_completeTest _ _ _ _ _))))
  · exact .same s

theorem rest_finishShutdown (s : State) (runs : List BlockRun) : rest (finishShutdown s runs) = rest s :=
  Eq.trans rfl (rest_foldl (runBlock 0x03 s.test.lockouts runs) (fun u b => rest_runBlock 0x03 s.test.lockouts runs u b) setCommand
    { s with drawn := s.drawn + 1 })

theorem stays_execShutdownSelftestComplete (s : State) (runs : List BlockRun) : Stays s (execShutdownSelftestComplete runs s) :=
  .next (rest_ite_of _ (rest_finishShutdown _ _) rfl)

theorem stays_execProvingPeriodEnd (s : State) : Stays s (execProvingPeriodEnd s) := by
  unfold execProvingPeriodEnd
  split
  · exact .next rfl
  · exact .same s

/-! ## Mailbox commands with branches of their own -/

theorem stays_execLoafActivate (s : State) (via : Via) : Stays s (execLoafActivate via s) :=
  stays_command fun e => by
    dsimp only
    refine kept_ite_of _ (kept_badParam _ _ _) (kept_ite_of _ (kept_replyErr _ _ _ _) ?_)
    split
    · exact (kept_replyErr _ _ _ _).trans (kept_loafCrumb _ _ _ _)
    · exact kept_beginSwitch _ _ _ _

theorem stays_execQuote (s : State) (via : Via) : Stays s (execQuote via s) :=
  stays_command fun e => by
    split
    · exact kept_replyErr _ _ _ _
    · exact (kept_replyOk _ _ _).trans rfl

theorem stays_execJrnOpen (s : State) (via : Via) : Stays s (execJrnOpen via s) :=
  stays_command fun e => by
    dsimp only
    refine kept_ite_of _ (kept_badParam _ _ _) (kept_ite_of _ (kept_badParam _ _ _) ?_)
    split
    · exact kept_badParam _ _ _
    · exact kept_replyErr _ _ _ _
    · exact (kept_replyOk _ _ _).trans (kept_setSession _ _ _)

theorem stays_execJrnRead (s : State) (via : Via) : Stays s (execJrnRead via s) :=
  stays_command fun e => by
    dsimp only
    refine kept_ite_of _ (kept_badParam _ _ _) ?_
    split
    · exact kept_replyErr _ _ _ _
    · exact kept_ite_of _ (kept_readChunk _ _ _ _) ((kept_replyErr _ _ _ _).trans (kept_restartSession _ _ _))

theorem stays_execFabConn (s : State) (via : Via) : Stays s (execFabConn via s) :=
  stays_command fun e => by
    dsimp only
    refine kept_ite_of _ (kept_badParam _ _ _) (kept_ite_of _ (kept_badParam _ _ _) ?_)
    split
    · exact kept_replyOk _ _ _
    · exact kept_badParam _ _ _

theorem stays_execCanConfig (s : State) (via : Via) : Stays s (execCanConfig via s) :=
  stays_command fun _ => kept_ite_of _ (kept_badParam _ _ _) (kept_ite_of _ (kept_badParam _ _ _)
    (kept_ite_of _ (kept_badParam _ _ _) (kept_ite_of _ (kept_badParam _ _ _) ((kept_replyOk _ _ _).trans rfl))))

theorem stays_execDoorposLearn (s : State) (via : Via) : Stays s (execDoorposLearn via s) :=
  stays_command fun _ => kept_ite_of _ (kept_badParam _ _ _) (kept_ite_of _ (kept_badParam _ _ _)
    (kept_ite_of _ (kept_badParam _ _ _) ((kept_modMbx rfl).trans ((kept_setQ _ _ _).trans (kept_endLearn _ _ _)))))

theorem stays_execLearningRunEnd (s : State) (why : LearnEnd) : Stays s (execLearningRunEnd why s) := by
  unfold execLearningRunEnd
  split
  · exact .same s
  refine .of_kept (kept_ite_of _ (kept_endLearn _ _ _) ?_)
  split
  · exact kept_endLearn _ _ _
  · exact kept_endLearn _ _ _
  · split
    · exact kept_endLearn _ _ _
    · exact kept_finishLearn _ _

theorem stays_execDoorposConfirm (s : State) (via : Via) : Stays s (execDoorposConfirm via s) :=
  stays_command fun e => by
    dsimp only
    refine kept_ite_of _ (kept_badParam _ _ _) (kept_ite_of _ (kept_badParam _ _ _) ?_)
    split
    · exact (kept_replyOk _ _ _).trans (kept_confirmOffsets _ _ _ _ _)
    · exact kept_replyErr _ _ _ _

/-! ## The actuator bus, indicators and probation -/

theorem stays_execBusRecovery (s : State) (releasedAt : Option Nat) : Stays s (execBusRecovery releasedAt s) := by
  refine .of_kept (kept_ite_of _ rfl ?_)
  split
  · exact kept_ite_of _ (kept_busRecovered _ _) (kept_busStuck _)
  · exact kept_busStuck _

theorem stays_execWearAdvance (s : State) (idx : Fin 8) (reply : ChipReply) : Stays s (execWearAdvance idx reply s) := by
  unfold execWearAdvance
  split
  · exact .of_kept (kept_ite_of _ (kept_advanceChip _ _ _ _) rfl)
  · exact .same s

theorem stays_execPatternCompose (s : State) : Stays s (execPatternCompose s) := by
  unfold execPatternCompose
  split
  · exact .of_kept (kept_ite_of _ rfl rfl)
  · exact .same s

theorem stays_execProbationEnd (s : State) (ch : Byte) : Stays s (execProbationEnd ch s) := by
  unfold execProbationEnd
  dsimp only
  split
  · exact .of_kept (kept_ite_of _ (kept_endProbation _ _) rfl)
  · exact .same s

end Sys2Proof.Machine
end

section
/-! SUPPORT. Which commands may change the lifecycle, the mode or the reset of the core (R49-R51, R64, R73, R76): the resets, the
start-up, the tick, LIFECYCLE_SET and the end of production test; every other command leaves all three. -/

namespace Sys2Proof.Machine

/-- The commands that may change the lifecycle, the mode or the reset of the core. -/
def movesModule : Instr → Bool
  | .vdd33BrownOut _ => true
  | .rstnLow _ => true
  | .internalReset => true
  | .resetRelease _ => true
  | .tick _ => true
  | .lifecycleSet _ => true
  | .productionTestEnd => true
  | _ => false

theorem stays_exec (s : State) : ∀ c : Instr, movesModule c = false → Stays s (exec c s)
  | .vdd33BrownOut _, h => nomatch h
  | .rstnLow _, h => nomatch h
  | .internalReset, h => nomatch h
  | .resetRelease _, h => nomatch h
  | .tick _, h => nomatch h
  | .lifecycleSet _, h => nomatch h
  | .productionTestEnd, h => nomatch h
  | .crustLogicPowerLoss _, _ => .next ((rest_busMode _ _).trans rfl)
  | .crustLogicPowerReturn _, _ => .next (rest_ite_of _ rfl ((rest_busMode _ _).trans rfl))
  | .lPlusUndervoltage _, _ => .next rfl
  | .lPlusUndervoltageCleared _, _ => .next (rest_ite_of _ rfl rfl)
  | .lPlusLockout _, _ => .next ((rest_busMode _ _).trans rfl)
  | .lPlusLockoutCleared c ok, _ => stays_execLPlusLockoutCleared s c ok
  | .overvoltageLockout _, _ => .next rfl
  | .overvoltageCleared c ok, _ => stays_execOvervoltageCleared s c ok
  | .phaseS env, _ => stays_execPhaseS s env
  | .windowXOpen, _ => stays_execWindowXOpen s
  | .windowXEnd, _ => stays_execWindowXEnd s
  | .connTimeout conn, _ => stays_execConnTimeout s conn
  | .phaseE env, _ => stays_execPhaseE s env
  | .phaseC env, _ => stays_execPhaseC s env
  | .phaseH env, _ => stays_execPhaseH s env
  | .sliceOverrun lane, _ => stays_execSliceOverrun s lane
  | .provingPeriodEnd, _ => stays_execProvingPeriodEnd s
  | .shutdownSelftestComplete runs, _ => stays_execShutdownSelftestComplete s runs
  | .clockGateClose _ _, _ => .of_kept (kept_ite_of _ (kept_modLane _ _ _) rfl)
  | .clockStop clk, _ => stays_execClockStop s clk
  | .fifoResync f, _ => stays_execFifoResync s f
  | .receiverLock p, _ => stays_execReceiverLock s p
  | .lockLoss p, _ => stays_execLockLoss s p
  | .relockTimeout p, _ => stays_execRelockTimeout s p
  | .fabricFrameReceive p idle groups earlier t, _ => stays_execFabricFrameReceive s p idle groups earlier t
  | .fabricFrameTransmitEnd p t, _ => stays_execFabricFrameTransmitEnd s p t
  | .hopnakReceive p cls seq t, _ => stays_execHopnakReceive s p cls seq t
  | .joinGap env, _ => stays_execJoinGap s env
  | .joinGapEnd, _ => stays_execJoinGapEnd s
  | .call, _ => stays_execCall s
  | .report, _ => stays_execReport s
  | .admitMsg, _ => stays_execAdmitMsg s
  | .refuse, _ => stays_execRefuse s
  | .breakMsg, _ => stays_execBreakMsg s
  | .topo, _ => stays_execTopo s
  | .linkready, _ => stays_execLinkready s
  | .tickReceive arrivalNs residenceNs, _ => stays_execTickReceive s arrivalNs residenceNs
  | .tickMissing, _ => stays_execTickMissing s
  | .syncLoss, _ => .of_kept (kept_ite_of _ ((kept_syncIrq _ _).trans (kept_loseSync s)) rfl)
  | .syncProvingEnd, _ => .of_kept (kept_ite_of _ (kept_markRejoined _) rfl)
  | .managerListenExpiry, _ => .of_kept (kept_ite_of _ rfl rfl)
  | .safeCopyReceive, _ => stays_execSafeCopyReceive s
  | .bulkReceive, _ => stays_execBulkReceive s
  | .bulkResendTimeout peer stream, _ => stays_execBulkResendTimeout s peer stream
  | .remoteRequestReceive, _ => stays_execRemoteRequestReceive s
  | .remoteReplyReceive, _ => stays_execRemoteReplyReceive s
  | .remoteDeadline path idx, _ => stays_execRemoteDeadline s path idx
  | .canSafeReceive f, _ => stays_execCanSafeReceive s f
  | .canTunnelSegment e, _ => stays_execCanTunnelSegment s e
  | .canTunnelTimeout _, _ => .of_kept (kept_ite_of _ (kept_discardTunnel _ _) rfl)
  | .canTransmitEnd ok, _ => stays_execCanTransmitEnd s ok
  | .canErrorPassive, _ => .of_kept (kept_ite_of _ ((kept_setIrq1 _ _).trans (kept_crumb _ _ _ _ _)) rfl)
  | .canBusOff, _ => .of_kept (kept_ite_of _ ((kept_setIrq1 _ _).trans (kept_crumb _ _ _ _ _)) rfl)
  | .canBusOffRecovery, _ => .of_kept (kept_ite_of _ (kept_canStart _) rfl)
  | .rawInputChange ch level t, _ => stays_execRawInputChange s ch level t
  | .debounceExpiry ch t, _ => stays_execDebounceExpiry s ch t
  | .testPulse _, _ => .next (rest_ite_of _ rfl rfl)
  | .pulseTestSample src sample maskEnd readbackMv, _ => stays_execPulseTestSample s src sample maskEnd readbackMv
  | .retryPulse _, _ => .next (rest_ite_of _ rfl rfl)
  | .thresholdCheck _ _ _, _ => .ite _ (.same s) (.next ((rest_modCrust _ _ _).trans (rest_setOff _ _)))
  | .srcOvercurrent _, _ => .next (rest_ite_of _ rfl rfl)
  | .ossdPulseTimeout ch t, _ => stays_execOssdPulseTimeout s ch t
  | .counterEdge ch level edge t, _ => stays_execCounterEdge s ch level edge t
  | .frequencyTimeout ch, _ => stays_execFrequencyTimeout s ch
  | .analogConversion ch mv reference, _ => stays_execAnalogConversion s ch mv reference
  | .stall _, _ => .next (rest_ite_of _ rfl rfl)
  | .legReadback _ _, _ => .ite _ (.next ((rest_modCrust _ _ _).trans (rest_setOff _ _))) (.same s)
  | .highSideProbe pair landMv legMa, _ => stays_execHighSideProbe s pair landMv legMa
  | .lowSideProbe pair landMv groupMa, _ => stays_execLowSideProbe s pair landMv groupMa
  | .darkPulse leg seenOpen conductsAgain, _ => stays_execDarkPulse s leg seenOpen conductsAgain
  | .landSample hi lo, _ => stays_execLandSample s hi lo
  | .blankingEnd leg limitActive, _ => .next (rest_ite_of _ (rest_endBlanking s leg limitActive) rfl)
  | .overcurrent _, _ => .next (rest_ite_of _ rfl rfl)
  | .thermal _, _ => .ite _ (.next rfl) (.same s)
  | .thermalReclose _, _ => .next rfl
  | .pullInEnd _, _ => .next (rest_endPullIn _ _)
  | .pullInLevelSample _ _, _ => .next (rest_ite_of _ rfl rfl)
  | .stuckdrive c pair, _ => stays_execStuckdrive s c pair
  | .firingHistoryBin, _ => .next (rest_ite_of _ rfl rfl)
  | .silenceTimeout c, _ => stays_execSilenceTimeout s c
  | .currentSenseCheck _ _ _, _ => .ite _ (.next (rest_modCrust _ _ _)) (.same s)
  | .patternCompose, _ => stays_execPatternCompose s
  | .strobeWatchdog, _ => .of_kept (kept_ite_of _ ((kept_foundReport _ _).trans ((kept_setIrq0 _ _).trans (kept_strobeEnd _))) rfl)
  | .probationEnd ch, _ => stays_execProbationEnd s ch
  | .hostWatchdogExpiry, _ => stays_execHostWatchdogExpiry s
  | .hearthHeartbeatLoss, _ => stays_execHearthHeartbeatLoss s
  | .hearthHeartbeatReturn, _ => .of_kept (kept_ite_of _ (kept_freeSlots _) rfl)
  | .hearthRestart, _ => .of_kept (kept_ite_of _ (kept_hearthStart _) rfl)
  | .spiWrite sdi oddBits, _ => stays_execSpiWrite s sdi oddBits
  | .spiRead sdi oddBits, _ => stays_execSpiRead s sdi oddBits
  | .registerWrite addr v, _ => stays_execRegisterWrite s addr v
  | .modeReqWrite _, _ => .next (rest_whileLive (rest_of_kept (kept_writeModeReq _ _)))
  | .slotWrite addr v, _ => stays_execSlotWrite s addr v
  | .mbxPost _, _ => .next (rest_whileLive (rest_of_kept (kept_foldl _ kept_postBit _ _)))
  | .mbxAck _, _ => .next (rest_whileLive (rest_of_kept (kept_foldl _ kept_ackBit _ _)))
  | .irqStatClear _ _ _, _ => .next (rest_whileLive (rest_of_kept (kept_clearIrq _ _ _ _)))
  | .hostwdWrite _, _ => .next (rest_whileLive rfl)
  | .spiCfgWrite _, _ => .next (rest_whileLive (rest_of_kept (kept_writeSpiCfg _ _)))
  | .crcInit _, _ => .next (rest_whileLive (rest_of_kept (kept_modUnit _ _ _)))
  | .crcGo _, _ => .next (rest_whileLive (rest_of_kept (kept_goUnit _ _)))
  | .crcnDataWrite _ _, _ => .next (rest_whileLive (rest_of_kept (kept_modUnit _ _ _)))
  | .crcnRunWrite _ _ _, _ => .next (rest_whileLive (rest_of_kept (kept_modUnit _ _ _)))
  | .oenOffWrite _, _ => .next (rest_whileLive (rest_of_kept (kept_writeIndCtl _ _)))
  | .indStatClear _ _, _ => .next (rest_whileLive (rest_of_kept (kept_clearInd _ _ _)))
  | .slotTake, _ => .of_kept (kept_takeSlot _)
  | .commandReply via, _ => stays_execCommandReply s via
  | .echo _, _ => stays_command fun _ => kept_replyOk _ _ _
  | .identity _, _ => stays_command fun _ => kept_replyOk _ _ _
  | .modeSet _, _ => stays_command fun _ => by simp [kept_ite]
  | .maintHold _, _ => stays_command fun _ => by simp [kept_ite]
  | .hostbitSet _, _ => stays_command fun _ => (kept_replyOk _ _ _).trans (kept_oweBits _ _ _ _)
  | .hostbitGet _, _ => stays_command fun _ => kept_replyOk _ _ _
  | .loafWrite _, _ => stays_command fun _ => by simp [kept_ite]
  | .loafCheck _, _ => stays_command fun _ => by simp [kept_ite]
  | .loafActivate via, _ => stays_execLoafActivate s via
  | .loafInfo _, _ => stays_command fun _ => by simp [kept_ite]
  | .loafErase _, _ => stays_command fun _ => by simp [kept_ite]
  | .chanStatus _, _ => stays_command fun _ => by simp [kept_ite]
  | .chanReadmit _, _ => stays_command fun _ => by simp [kept_ite]
  | .chanIsolate _, _ => stays_command fun _ => by simp [kept_ite]
  | .chanRestore _, _ => stays_command fun _ => by simp [kept_ite]
  | .chanForce _, _ => stays_command fun _ => by simp [kept_ite, kept_decideForce]
  | .indStatus _, _ => stays_command fun _ => kept_replyOk _ _ _
  | .selftestRun via, _ => stays_command fun _ =>
      kept_ite_of _ (kept_badParam _ _ _) (kept_ite_of _ (kept_replyErr _ _ _ _) (kept_setQ s via .running))
  | .commandSelftestComplete runs env, _ => stays_execCommandSelftestComplete s runs env
  | .selftestResult _, _ => stays_command fun _ => kept_replyOk _ _ _
  | .shutdown _, _ => stays_command fun _ => kept_requestMode _ _ _
  | .shutdownStatus _, _ => stays_command fun _ => kept_replyOk _ _ _
  | .measRead _, _ => stays_command fun _ => by simp [kept_ite]
  | .quote via, _ => stays_execQuote s via
  | .certRead _, _ => stays_command fun _ => by simp [kept_ite]
  | .jrnOpen via, _ => stays_execJrnOpen s via
  | .jrnRead via, _ => stays_execJrnRead s via
  | .jrnClose _, _ => stays_command fun _ => by simp [kept_ite]
  | .jrnPin _, _ => stays_command fun _ => by simp [kept_ite]
  | .jrnInfo _, _ => stays_command fun _ => (kept_replyOk _ _ _).trans rfl
  | .statEpoch _, _ => stays_command fun _ => kept_replyOk _ _ _
  | .fabStatus _, _ => stays_command fun _ => kept_replyOk _ _ _
  | .fabMembers _, _ => stays_command fun _ => by simp [kept_ite]
  | .fabConn via, _ => stays_execFabConn s via
  | .timeGet _ _, _ => stays_command fun _ => kept_replyOk _ _ _
  | .canConfig via, _ => stays_execCanConfig s via
  | .doorposLearn via, _ => stays_execDoorposLearn s via
  | .learningRunEnd why, _ => stays_execLearningRunEnd s why
  | .doorposConfirm via, _ => stays_execDoorposConfirm s via
  | .doorposRead _, _ => stays_command fun _ => by simp [kept_ite]
  | .keyLoad via, _ => stays_execKeyLoad s via
  | .nonceGet _, _ => stays_command fun _ => (kept_replyOk _ _ _).trans rfl
  | .nonceExpiry, _ => .of_kept (kept_setNonce _ _)
  | .actStatus _, _ => stays_command fun _ => kept_replyOk _ _ _
  | .actScan _, _ => stays_command fun _ => by simp [kept_ite]
  | .busScan _, _ => .of_kept (kept_ite_of _ ((kept_endScan _ _).trans (kept_foldl _ (fun _ _ => kept_scanChip _ _ _ _) _ _)) rfl)
  | .chipTransactionFail _, _ => .of_kept (kept_ite_of _ (kept_foundReport _ _) rfl)
  | .wearAdvance idx reply, _ => stays_execWearAdvance s idx reply
  | .busRecovery releasedAt, _ => stays_execBusRecovery s releasedAt
  | .crumbWrite, _ => stays_execCrumbWrite s
  | .pageHoldExpiry _, _ => .of_kept (kept_ite_of _ rfl rfl)
  | .sessionIdleClose _, _ => .of_kept (kept_ite_of _ (kept_closeSession _ _) rfl)
  | .epochEnd _, _ => .of_kept (kept_ite_of _ (kept_latchEpoch _ _) rfl)
  | .cycleStart _, _ => .of_kept (kept_ite_of _ ((kept_setCycle _ _ _).trans (kept_endCycle _ _ _ _)) rfl)
  | .cycleEnd _, _ => .of_kept (kept_ite_of _ (kept_endCycle _ _ _ _) rfl)
  | .cycleTimeout _, _ => .of_kept (kept_ite_of _ (kept_endCycle _ _ _ _) rfl)
  | .fuseRepair _ _, _ => .next (rest_ite_of _ (rest_whileLive rfl) rfl)

end Sys2Proof.Machine
end

section
/-! SUPPORT. A tick in its stages (R95, R150, R222, R451), and what it makes of the pieces of state gathered in `kept`: the mode that is
due, the new frame with the counts of the one before, and the crusts. -/

namespace Sys2Proof.Machine

/-- What a crust keeps while its inputs settle: its supplies, its handshake, its legs and its staged set. -/
structure SameLegs (x y : CrustSt) : Prop where
  logicPower : y.logicPower = x.logicPower
  handshake : y.handshake = x.handshake
  resync : y.resync = x.resync
  lockout : y.lockout = x.lockout
  overvolt : y.overvolt = x.overvolt
  silent : y.silent = x.silent
  staged : y.staged = x.staged
  legs : y.legs = x.legs

theorem SameLegs.refl (x : CrustSt) : SameLegs x x := ⟨rfl, rfl, rfl, rfl, rfl, rfl, rfl, rfl⟩

theorem SameLegs.trans {x y z : CrustSt} (h : SameLegs x y) (k : SameLegs y z) : SameLegs x z :=
  ⟨k.logicPower.trans h.logicPower, k.handshake.trans h.handshake, k.resync.trans h.resync, k.lockout.trans h.lockout, k.overvolt.trans h.overvolt,
    k.silent.trans h.silent, k.staged.trans h.staged, k.legs.trans h.legs⟩

/-- Only the inputs of crust `c` and a learning run have changed (R187, R198). -/
structure Settles (c : Side) (s t : State) : Prop where
  eq : t = { s with crust := t.crust, mbx := { s.mbx with learn := t.mbx.learn } }
  other : ∀ k, k ≠ c → t.crust.at k = s.crust.at k
  own : SameLegs (s.crust.at c) (t.crust.at c)

theorem Settles.refl (c : Side) (s : State) : Settles c s s := ⟨rfl, fun _ _ => rfl, .refl _⟩

theorem Settles.trans {c : Side} {s t u : State} (h : Settles c s t) (k : Settles c t u) : Settles c s u where
  eq := by rw [k.eq, h.eq]
  other x hx := (k.other x hx).trans (h.other x hx)
  own := h.own.trans k.own

theorem crust_modCrust (s : State) (c k : Side) (f : CrustSt → CrustSt) :
    (modCrust s c f).crust.at k = if k = c then f (s.crust.at c) else s.crust.at k := Two.at_set _ _ _ _

theorem Settles.modCrust (s : State) (c : Side) {f : CrustSt → CrustSt} (hf : ∀ x, SameLegs x (f x)) :
    Settles c s (modCrust s c f) where
  eq := rfl
  other k hk := (crust_modCrust s c k f).trans (if_neg hk)
  own := by
    rw [crust_modCrust, if_pos rfl]
    exact hf _

theorem Settles.learn {c : Side} {s t : State} (h : Settles c s t) (l : Option LearnRun) :
    Settles c s { t with mbx := { s.mbx with learn := l } } where
  eq := by rw [h.eq]
  other := h.other
  own := h.own

theorem Settles.ite {c : Side} {s a b : State} (p : Prop) [Decidable p] (ha : Settles c s a) (hb : Settles c s b) :
    Settles c s (if p then a else b) := pred_ite (P := Settles c s) p ha hb

theorem settles_foldl {α : Type} {c : Side} {f : State → α → State} (h : ∀ s a, Settles c s (f s a)) (l : List α) (s : State) :
    Settles c s (l.foldl f s) := by
  induction l generalizing s with
  | nil => exact .refl c s
  | cons a r ih => exact (h s a).trans (ih _)

theorem settles_referenceEdge (s : State) (c : Side) (p : Nat) (rising : Bool) : Settles c s (referenceEdge s c p rising) := by
  have hq : ∀ (g : QuadSt → QuadSt) (x : CrustSt), SameLegs x (modQuad x p g) := fun _ _ => ⟨rfl, rfl, rfl, rfl, rfl, rfl, rfl, rfl⟩
  unfold referenceEdge
  dsimp only
  split
  · split
    · exact .ite _ ((Settles.modCrust s c (hq _)).learn _) (.refl c s)
    · refine .ite _ (.modCrust s c fun x => ?_) (.refl c s)
      split
      · exact ⟨rfl, rfl, rfl, rfl, rfl, rfl, rfl, rfl⟩
      · exact hq _ x
  · exact .refl c s

theorem settles_acceptLevel (s : State) (c : Side) (n : Nat) (e : List Byte) (p now : Stamp) :
    Settles c s (acceptLevel s c n e p now) := by
  unfold acceptLevel
  refine Settles.trans ?_ (settles_foldl (fun s p => settles_referenceEdge s c p _) _ _)
  exact .modCrust s c fun _ => ⟨rfl, rfl, rfl, rfl, rfl, rfl, rfl, rfl⟩

theorem settles_settleInput (now : Stamp) (c : Side) (s : State) (n : Nat) : Settles c s (settleInput now c s n) := by
  unfold settleInput
  dsimp only
  split
  · split
    · exact settles_acceptLevel _ _ _ _ _ _
    · exact .refl c s
  · exact .refl c s

theorem settles_settleCrust (now : Stamp) (s : State) (c : Side) : Settles c s (settleCrust now s c) :=
  settles_foldl (fun s n => settles_settleInput now c s n) _ _

/-! ## Stages -/

/-- The inputs whose debounce time has run out by the tick have settled (R187). -/
@[irreducible] def settledAtTick (s : State) : State :=
  settleCrust { frame := s.core.frameNo + 1, off := 0 } (settleCrust { frame := s.core.frameNo + 1, off := 0 } s .a) .b

/-- Both crusts have latched and committed (R95). -/
@[irreducible] def crustsTicked (env : TickEnv) (s : State) : State := crustTick env (crustTick env (settledAtTick s) .a) .b

/-- The counts are latched, and the new frame has begun (R112, R451). -/
@[irreducible] def frameBegun (env : TickEnv) (s : State) : State := latchFrame (nextFrame (crustsTicked env s)) s.core.frameNo

/-- What comes before the change of mode has taken effect. -/
@[irreducible] def tickDue (env : TickEnv) (s : State) : State := takeRetiring (flushCycles (holdTick (dropTest (frameBegun env s))))

/-- The mode has changed, and a loaf on which the lanes agree has been taken (R64, R150). -/
@[irreducible] def loafTaken (env : TickEnv) (s : State) : State := takeSwitch (changeMode (tickDue env s))

/-- Readmissions, offsets, the proving period and the interval of the ticks. -/
@[irreducible] def tickChecked (env : TickEnv) (s : State) : State :=
  intervalCheck env s.core.tfCode (intervalCheck env s.core.tfCode
    (provingTick (takeReadmits (takeOffsets (loafTaken env s)))) .a) .b

/-- The end of a tick, but for SAFEN. -/
@[irreducible] def tickEnd (env : TickEnv) (s : State) : State :=
  sendTick (fabricTick (setSources (setSources (sampleModeReq (tickChecked env s)) .a) .b))

theorem tickAll_eq (env : TickEnv) (s : State) : tickAll env s =
    syncIrq s { tickEnd env s with core := { (tickEnd env s).core with safen := safenLevel (tickEnd env s) } } := by
  unfold tickEnd tickChecked loafTaken tickDue frameBegun crustsTicked settledAtTick
  rfl

/-! ## What is kept -/

/-- Of the pieces gathered in `kept` the crusts alone have changed. -/
def CrustsOnly (s t : State) : Prop := kept t = { kept s with crust := t.crust }

theorem CrustsOnly.of_kept {s t : State} (h : kept t = kept s) : CrustsOnly s t := by
  have hc : t.crust = s.crust := congrArg Kept.crust h
  unfold CrustsOnly
  rw [h, hc]
  rfl

theorem CrustsOnly.trans {s t u : State} (h : CrustsOnly s t) (k : CrustsOnly t u) : CrustsOnly s u := by
  unfold CrustsOnly at *
  rw [k, h]

theorem CrustsOnly.modCrust (s : State) (c : Side) (f : CrustSt → CrustSt) : CrustsOnly s (modCrust s c f) := rfl

theorem CrustsOnly.ite {s a b : State} (c : Prop) [Decidable c] (ha : CrustsOnly s a) (hb : CrustsOnly s b) :
    CrustsOnly s (if c then a else b) := pred_ite (P := CrustsOnly s) c ha hb

theorem Settles.crustsOnly {c : Side} {s t : State} (h : Settles c s t) : CrustsOnly s t := by
  rw [h.eq]
  rfl

theorem crustsOnly_renewHandshakes (s : State) : CrustsOnly s (renewHandshakes s) := by
  have one : ∀ (s : State) (c : Side), CrustsOnly s (if laneLive s c && (s.crust.at c).logicPower then handshake s c else s) :=
    fun s c => .ite _ (.modCrust s c _) (.of_kept rfl)
  exact (one s .a).trans (one _ .b)

theorem crustsOnly_takeSwitch (s : State) : CrustsOnly s (takeSwitch s) := by
  unfold takeSwitch
  split
  · next w _ =>
    have h : CrustsOnly s (switchedLanes s w) := by
      refine CrustsOnly.trans (.of_kept ?_) (crustsOnly_renewHandshakes _)
      rw [kept_installLoaf, kept_clearIsolations, kept_modPort, kept_modPort, kept_abortCanSafe, kept_switchedRecord]
    exact .ite _ (h.trans (.of_kept (kept_switchLoaf s w))) (.of_kept rfl)
  · exact .of_kept rfl

/-- The crusts alone, and a learning run, change up to the latch of the counts. -/
theorem crustTick_eq (env : TickEnv) (s : State) (c : Side) : crustTick env s c = { s with crust := (crustTick env s c).crust } := by
  unfold crustTick
  dsimp only
  split <;> rfl

theorem crustsTicked_eq (env : TickEnv) (s : State) : crustsTicked env s =
    { s with crust := (crustsTicked env s).crust, mbx := { s.mbx with learn := (settledAtTick s).mbx.learn } } := by
  have h : settledAtTick s = { s with crust := (settledAtTick s).crust, mbx := { s.mbx with learn := (settledAtTick s).mbx.learn } } := by
    have h1 := (settles_settleCrust { frame := s.core.frameNo + 1, off := 0 } s .a).eq
    have h2 := (settles_settleCrust { frame := s.core.frameNo + 1, off := 0 }
      (settleCrust { frame := s.core.frameNo + 1, off := 0 } s .a) .b).eq
    unfold settledAtTick
    rw [h2, h1]
  unfold crustsTicked
  rw [crustTick_eq, crustTick_eq env (settledAtTick s), h]

/-- The new frame, with the counts of the one that ends latched. -/
theorem kept_frameBegun (env : TickEnv) (s : State) : kept (frameBegun env s) =
    { kept s with
      crust := (crustsTicked env s).crust, frameNo := s.core.frameNo + 1, off := 0, phase := .s
      statFrame := s.core.frameNo, statGen := s.stat.gen + 1, latched := s.stat.live } := by
  unfold frameBegun
  have h := crustsTicked_eq env s
  generalize crustsTicked env s = u at h
  rw [kept_latchFrame, kept_nextFrame, h]
  rfl

theorem kept_tickDue (env : TickEnv) (s : State) : kept (tickDue env s) = kept (frameBegun env s) := by
  unfold tickDue
  rw [kept_takeRetiring, kept_flushCycles, kept_holdTick, kept_dropTest]

/-- The mode that a tick leaves. -/
def modeAfterTick (env : TickEnv) (s : State) : Mode := ((nextMode (tickDue env s)).map (·.1)).getD s.core.mode

theorem kept_changedMode (env : TickEnv) (s : State) : kept (changeMode (tickDue env s)) =
    { kept (frameBegun env s) with mode := modeAfterTick env s, modeNext := none } := by
  have hm : (tickDue env s).core.mode = s.core.mode := by rw [mode_kept, kept_tickDue, kept_frameBegun, mode_kept s]
  rw [kept_changeMode, kept_tickDue, hm]
  rfl

theorem crustsOnly_tickAll (env : TickEnv) (s : State) : CrustsOnly (changeMode (tickDue env s)) (tickAll env s) := by
  have h1 : kept (tickChecked env s) = kept (loafTaken env s) := by
    unfold tickChecked
    rw [kept_intervalCheck, kept_intervalCheck, kept_provingTick, kept_takeReadmits, kept_takeOffsets]
  have hs : ∀ (u : State) (c : Side), CrustsOnly u (setSources u c) := fun u c => .modCrust u c _
  have h2 : CrustsOnly (tickChecked env s) (setSources (setSources (sampleModeReq (tickChecked env s)) .a) .b) :=
    (CrustsOnly.of_kept (kept_sampleModeReq _)).trans ((hs _ .a).trans (hs _ .b))
  have h3 : kept (tickEnd env s) = kept (setSources (setSources (sampleModeReq (tickChecked env s)) .a) .b) := by
    unfold tickEnd
    rw [kept_sendTick, kept_fabricTick]
  have h0 : CrustsOnly (changeMode (tickDue env s)) (loafTaken env s) := by
    unfold loafTaken
    exact crustsOnly_takeSwitch _
  rw [tickAll_eq]
  exact h0.trans ((CrustsOnly.of_kept h1).trans (h2.trans ((CrustsOnly.of_kept h3).trans
    (CrustsOnly.of_kept (kept_syncIrq _ _)))))

/-- What a tick does to the pieces gathered in `kept`. -/
theorem kept_tickAll (env : TickEnv) (s : State) : kept (tickAll env s) =
    { kept s with
      crust := (tickAll env s).crust, mode := modeAfterTick env s, modeNext := none, frameNo := s.core.frameNo + 1, off := 0
      phase := .s, statFrame := s.core.frameNo, statGen := s.stat.gen + 1, latched := s.stat.live } := by
  rw [crustsOnly_tickAll, kept_changedMode, kept_frameBegun]

/-- With the invariant a tick changes the mode, if at all, by a transition of R64. -/
theorem modeAfterTick_edge {s : State} (hs : s.inv = true) (ht : s.core.tickOn = true) (env : TickEnv) :
    modeAfterTick env s = s.core.mode ∨ modeEdge s.core.mode (modeAfterTick env s) = true := by
  have hdue : (tickDue env s).inv = true := by
    unfold tickDue frameBegun crustsTicked settledAtTick
    exact ((((closed_running.settleCrust _ .b (closed_running.settleCrust _ .a ⟨hs, ht⟩)).crustTick env .a).crustTick env
      .b).nextFrame.latchFrame s.core.frameNo).dueAtTick.1
  have hm : (tickDue env s).core.mode = s.core.mode := by rw [mode_kept, kept_tickDue, kept_frameBegun, mode_kept s]
  unfold modeAfterTick
  cases h : nextMode (tickDue env s) with
  | none => exact .inl rfl
  | some e => exact .inr (hm ▸ nextMode_edge hdue (m := e.1) (w := e.2) h)

/-- Where none was due, only a fault changes the mode. -/
theorem nextMode_fault {s : State} (h : s.core.modeNext = none) {m : Mode} {w : ModeWhy} (hn : nextMode s = some (m, w)) :
    m = .safeHold ∨ m = .degraded := by
  unfold nextMode at hn
  dsimp only at hn
  split at hn
  · cases hn
    exact .inl rfl
  split at hn
  · cases hn
    exact .inr rfl
  · rw [h] at hn
    cases hn

theorem modeAfterTick_undue {s : State} (h : s.core.modeNext = none) (env : TickEnv) :
    modeAfterTick env s = s.core.mode ∨ modeAfterTick env s = .safeHold ∨ modeAfterTick env s = .degraded := by
  have hn : (tickDue env s).core.modeNext = none := by rw [modeNext_kept, kept_tickDue, kept_frameBegun, ← h, modeNext_kept s]
  unfold modeAfterTick
  cases k : nextMode (tickDue env s) with
  | none => exact .inl rfl
  | some e => exact .inr (nextMode_fault hn (m := e.1) (w := e.2) k)

end Sys2Proof.Machine
end

section
/-! SUPPORT. The mode and the lifecycle through the start-up and the tick that ends it (R64, R76-R78). -/

namespace Sys2Proof.Machine

/-- The modes in which a start-up may end when it leaves BOOT (R64). -/
def startEnds (m : Mode) : Prop := m = .safeHold ∨ m = .degraded ∨ m = .configure

theorem startEnds.edge {m : Mode} (h : startEnds m) : modeEdge .boot m = true := by
  rcases h with rfl | rfl | rfl <;> rfl

theorem rest_of_mode {s t : State} {m : Mode} (h : kept t = { kept s with mode := m }) : rest t = (s.nv.life, m, s.core.inReset) :=
  congrArg (fun k : Kept => (k.life, k.mode, k.inReset)) h

/-! ## Steps 1 to 3 -/

theorem rest_startHearth (s : State) (env : BootEnv) (quick : Bool) : rest (startHearth s env quick) = rest s := by
  unfold startHearth
  rw [rest_scanPages]
  exact rest_of_kept (by rw [kept_resetCrumb, kept_bootCrumb, kept_canApply, kept_hearthStart])

theorem bootRepair_nv (s : State) (quick : Bool) (runs : List BlockRun) : (bootRepair s quick runs).nv = s.nv := by
  unfold bootRepair
  dsimp only
  split <;> rfl

theorem advanceBoot_life (n : NvSt) : (advanceBoot n).life = n.life := rfl

theorem rest_afterStep2 (s : State) (env : BootEnv) : rest (afterStep2 s env) = (s.nv.life, s.core.mode, false) := by
  have h := congrArg (fun k : Kept => (k.mode, k.inReset)) (kept_afterStep2 s env)
  have hlife : (afterStep2 s env).nv.life = s.nv.life := by
    unfold afterStep2
    rw [bootRepair_nv]
    rfl
  exact Prod.ext hlife h

theorem rest_stopInSafeHold (s : State) : rest (stopInSafeHold s) = (s.nv.life, .safeHold, s.core.inReset) :=
  rest_of_mode (kept_stopInSafeHold s)

/-- Step 3 leaves the mode, or ends in SAFE_HOLD. -/
theorem rest_step3 (s : State) (env : BootEnv) (quick : Bool) :
    rest (step3 s env quick) = rest s ∨ rest (step3 s env quick) = (s.nv.life, .safeHold, s.core.inReset) := by
  have stop : ∀ (u : State) (n : Nat), rest u = rest s →
      rest (stopInSafeHold (markRest u n)) = (s.nv.life, .safeHold, s.core.inReset) := fun u n h => by
    have hm := (rest_of_kept (kept_markRest u n)).trans h
    rw [rest_stopInSafeHold]
    exact congrArg (fun r : Lifecycle × Mode × Bool => (r.1, Mode.safeHold, r.2.2)) hm
  have start : ∀ l, rest (startHearth (extendAll s l) env quick) = rest s := fun l =>
    (rest_startHearth _ _ _).trans (rest_of_kept (kept_extendAll s l))
  unfold step3
  split
  · refine .inr (stop _ _ ?_)
    exact rest_ite_of _ (start _) (rest_of_kept (kept_extendAll s _))
  · dsimp only
    split
    · exact .inr (stop _ _ (start _))
    · exact .inl (start _)

/-- The start-up up to its third step keeps the lifecycle, and the mode unless it ends in SAFE_HOLD. -/
theorem startUp_rest (s : State) (env : BootEnv) : (startUp s env).nv.life = s.nv.life ∧
    ((startUp s env).core.mode = s.core.mode ∨ (startUp s env).core.mode = .safeHold) := by
  have h2 := rest_afterStep2 s env
  rw [startUp_eq]
  dsimp only
  split
  · have hl : rest (restoreLanes (afterStep2 s env) (tokenValid (advanceBoot s.nv))) = _ :=
      (rest_of_kept (kept_restoreLanes _ _)).trans h2
    rcases rest_step3 (restoreLanes (afterStep2 s env) (tokenValid (advanceBoot s.nv))) env (tokenValid (advanceBoot s.nv)) with e | e
    · rw [hl] at e
      exact ⟨congrArg (·.1) e, .inl (congrArg (·.2.1) e)⟩
    · exact ⟨(congrArg (·.1) e).trans (congrArg (·.1) hl), .inr (congrArg (·.2.1) e)⟩
  · have hm := (rest_of_kept (kept_markRest (afterStep2 s env) 0)).trans h2
    have e := rest_stopInSafeHold (markRest (afterStep2 s env) 0)
    exact ⟨(congrArg (·.1) e).trans (congrArg (·.1) hm), .inr (congrArg (·.2.1) e)⟩

/-! ## Steps 4 and 5 -/

theorem rest_heardAtBoot (env : BootEnv) (s : State) : rest (heardAtBoot env s) = rest s := by
  unfold heardAtBoot
  exact rest_ite_of _ rfl (rest_ite_of _ ((rest_of_kept (kept_duplicateManager _)).trans rfl) rfl)

theorem rest_firstTick (s : State) (env : BootEnv) : rest (firstTick s env) = rest s := by
  have h := rest_of_kept (kept_afterStep4 s env)
  exact (rest_heardAtBoot env _).trans h

theorem rest_bootHandshake (lost : Bool) (s : State) (c : Side) : rest (bootHandshake lost s c) = rest s :=
  rest_ite_of _ rfl (rest_ite_of _ rfl (rest_of_kept (kept_retireAtOnce _ _ _)))

theorem Released.steps4and5 {s : State} (h : Released s) (env : BootEnv) : Released (Machine.steps4and5 s env) := by
  have h5 : Released (if lostAtBoot s env .a && lostAtBoot s env .b then fatalFault (Machine.firstTick s env) ftBothCrusts
      else Machine.firstTick s env) :=
    pred_ite _ ((h.firstTick env).of_kept (kept_fatalFault _ _)) (h.firstTick env)
  rw [steps4and5_eq]
  exact (((h5.bootHandshake _ _).bootHandshake _ _).endOfStep5 _).of_kept (kept_syncIrq _ _)

theorem rest_steps4and5 (s : State) (env : BootEnv) : rest (steps4and5 s env) = rest s ∨
    ∃ m, startEnds m ∧ rest (steps4and5 s env) = (s.nv.life, m, s.core.inReset) := by
  have h5 : ∀ (c : Prop) [Decidable c] (x y : Bool), rest (bootHandshake y (bootHandshake x (if c then fatalFault (firstTick s env) ftBothCrusts
      else firstTick s env) .a) .b) = rest s := fun c _ x y =>
    (rest_bootHandshake _ _ _).trans ((rest_bootHandshake _ _ _).trans
      (rest_ite_of c ((rest_of_kept (kept_fatalFault _ _)).trans (rest_firstTick s env)) (rest_firstTick s env)))
  rw [steps4and5_eq]
  dsimp only
  rw [rest_of_kept (kept_syncIrq _ _)]
  have hb := h5 ((lostAtBoot s env .a && lostAtBoot s env .b) = true) (lostAtBoot s env .a) (lostAtBoot s env .b)
  rcases kept_endOfStep5 _ _ with e | ⟨m, hm, e⟩
  · exact .inl ((rest_of_kept e).trans hb)
  · refine .inr ⟨m, hm, (rest_of_mode e).trans ?_⟩
    exact congrArg (fun r : Lifecycle × Mode × Bool => (r.1, m, r.2.2)) hb

/-! ## The first tick -/

theorem finishStart_idle {s : State} (h : s.core.startUp = none ∨ s.core.inReset = true) : finishStart s = s := by
  unfold finishStart
  rcases h with h | h <;> simp [h]

theorem finishStart_waiting {s : State} {env : BootEnv} (hr : s.core.inReset = false) (h : s.core.startUp = some env) :
    finishStart s = steps4and5 { s with core := { s.core with startUp := none } } env := by
  unfold finishStart
  simp [hr, h]

/-- With the invariant, a core that waits for its first tick is in BOOT, released, with no mode due. -/
theorem released_waiting {s : State} (hs : s.inv = true) {env : BootEnv} (hr : s.core.inReset = false) (hu : s.core.startUp = some env) :
    Released { s with core := { s.core with startUp := none } } ∧ s.core.mode = .boot := by
  have hm := inv_modeOk hs
  simp only [modeOk, hr, hu, Option.isSome_some, Bool.false_or, Bool.not_true, Bool.and_eq_true, Option.isNone_iff_eq_none,
    beq_iff_eq] at hm
  obtain ⟨⟨⟨-, hboot⟩, hnext⟩, -⟩ := hm
  have hi : ({ s with core := { s.core with startUp := none } } : State).inv = true :=
    inv_of (k := { kept s with starting := false }) rfl { (inv_iff s).1 hs with
      mode := by rw [show (kept s).inReset = false from hr, show (kept s).modeNext = none from hnext]; rfl }
  exact ⟨⟨hi, hr, rfl, hnext⟩, hboot⟩

theorem rest_finishStart (s : State) : rest (finishStart s) = rest s ∨
    ∃ m, startEnds m ∧ rest (finishStart s) = (s.nv.life, m, s.core.inReset) := by
  cases hr : s.core.inReset with
  | true =>
    rw [finishStart_idle (.inr hr)]
    exact .inl rfl
  | false =>
    cases hu : s.core.startUp with
    | none =>
      rw [finishStart_idle (.inl hu)]
      exact .inl rfl
    | some env =>
      rw [finishStart_waiting hr hu, ← hr]
      exact rest_steps4and5 { s with core := { s.core with startUp := none } } env

theorem finishStart_life (s : State) : (finishStart s).nv.life = s.nv.life := by
  rcases rest_finishStart s with h | ⟨m, -, h⟩
  · exact congrArg (·.1) h
  · exact congrArg (·.1) h

theorem rest_tickAll (env : TickEnv) (s : State) : rest (tickAll env s) = (s.nv.life, modeAfterTick env s, s.core.inReset) :=
  congrArg (fun k : Kept => (k.life, k.mode, k.inReset)) (kept_tickAll env s)

/-- A tick, with the end of the start-up where one waits for it. -/
theorem runs_tick (env : TickEnv) (s : State) : exec (.tick env) s = .next
    (if (finishStart s).core.tickOn && (finishStart s).core.phase == .g then tickAll env (finishStart s) else finishStart s) := rfl

theorem tickAll_mode (env : TickEnv) (s : State) : (tickAll env s).core.mode = modeAfterTick env s :=
  congrArg (·.2.1) (rest_tickAll env s)

theorem tick_life {env : TickEnv} {s t : State} (h : exec (.tick env) s = .next t) : t.nv.life = s.nv.life := by
  cases (runs_tick env s).symm.trans h
  split
  · exact (congrArg (·.1) (rest_tickAll env (finishStart s))).trans (finishStart_life s)
  · exact finishStart_life s

/-- A tick changes the mode by a transition of R64: where it ends the start-up, by one out of BOOT. -/
theorem tick_mode {env : TickEnv} {s t : State} (hs : s.inv = true) (h : exec (.tick env) s = .next t) :
    t.core.mode = s.core.mode ∨ modeEdge s.core.mode t.core.mode = true := by
  cases (runs_tick env s).symm.trans h
  by_cases hw : s.core.startUp = none ∨ s.core.inReset = true
  · rw [finishStart_idle hw]
    split
    · next hg =>
      have ht : s.core.tickOn = true := (Bool.and_eq_true _ _ ▸ hg).1
      rw [tickAll_mode]
      exact modeAfterTick_edge hs ht env
    · exact .inl rfl
  · push Not at hw
    obtain ⟨henv, hr⟩ := hw
    obtain ⟨benv, hu⟩ := Option.ne_none_iff_exists'.1 henv
    have hr : s.core.inReset = false := by simpa using hr
    obtain ⟨hrel, hboot⟩ := released_waiting hs hr hu
    have hnext : (finishStart s).core.modeNext = none := by
      rw [finishStart_waiting hr hu]
      exact (hrel.steps4and5 benv).modeNext
    have hstart : (finishStart s).core.mode = .boot ∨ startEnds (finishStart s).core.mode := by
      rcases rest_finishStart s with e | ⟨m, hm, e⟩
      · exact .inl ((congrArg (·.2.1) e).trans hboot)
      · exact .inr ((congrArg (·.2.1) e : (finishStart s).core.mode = m) ▸ hm)
    have hfinal : ∀ m, m = .boot ∨ startEnds m → m = s.core.mode ∨ modeEdge s.core.mode m = true := fun m hm => by
      rw [hboot]
      exact hm.imp_right startEnds.edge
    refine hfinal _ ?_
    split
    · rw [tickAll_mode]
      rcases modeAfterTick_undue hnext env with e | e | e
      · exact e ▸ hstart
      · exact .inr (.inl e)
      · exact .inr (.inr (.inl e))
    · exact hstart

end Sys2Proof.Machine
end

section
/-! SUPPORT. A mailbox command that starts (R379-R382, R388): it is next in the queue and passes its gates, and then its own effect
follows; what a command leaves that uses a nonce (R395). -/

namespace Sys2Proof.Machine

open Sys2Proof.Claims

/-- The length that R379 asks of a command, as the statements give it: that of the table, and for a key that of its kind. -/
theorem badLength_none_iff (s : State) (e : QEntry) (r : CmdRow) (hr : cmdRow e.cmd = some r) : badLength s e r = none ↔
    (∀ n, keyLoadNeeds s e.cmd e.payload = some n → e.payload.length = n) ∧ r.lo ≤ e.payload.length ∧ e.payload.length ≤ r.hi := by
  by_cases hk : e.cmd = 0x75#8
  · rw [hk] at hr ⊢
    cases hr
    unfold badLength keyLoadNeeds keyLoadLen keyKind keyLength
    dsimp only
    by_cases h1 : byteAt e.payload 0 = 1
    · simp [h1, hk]
      omega
    by_cases h2 : byteAt e.payload 0 = 2
    · simp [h2, hk]
      omega
    by_cases h3 : byteAt e.payload 0 = 3
    · cases s.nv.lifeKey.isSome <;> simp [h3, hk] <;> omega
    · have h1' : byteAt e.payload 0 ≠ 1#8 := h1
      have h2' : byteAt e.payload 0 ≠ 2#8 := h2
      have h3' : byteAt e.payload 0 ≠ 3#8 := h3
      simp [h1', h2', h3', hk]
  · unfold badLength keyLoadNeeds
    simp [hk]

/-- The gates pass exactly where lifecycle, mode, length and header are right (R379). -/
theorem gate_none_iff (s : State) (e : QEntry) : gate s e = none ↔
    lifeGate s.nv.life e.cmd = true ∧ modeGate s.core.mode e.cmd e.payload = true ∧ e.badField = none ∧
    ∃ r, cmdRow e.cmd = some r ∧ badLength s e r = none := by
  unfold gate
  dsimp only
  cases lifeGate s.nv.life e.cmd with
  | false => simp
  | true =>
    cases modeGate s.core.mode e.cmd e.payload with
    | false => simp
    | true =>
      cases cmdRow e.cmd with
      | none => simp
      | some r =>
        cases hb : badLength s e r <;> cases hf : e.badField <;> simp [hb]

/-- A command starts exactly where its entry is the next one and passes its gates. -/
theorem starts_iff {s : State} {via : Via} {cmd : Byte} {p : List Byte} : Starts s via cmd p ↔
    ∃ e, startable s via cmd = some e ∧ gate s e = none ∧ e.payload = p := by
  constructor
  · rintro ⟨e, ⟨hl, he, hc, hw, ha, hh⟩, rfl, hf, hlife, hmode, hkey, r, hr, hlo, hhi⟩
    subst hc
    exact ⟨e, (startable_iff s via _ e).2 ⟨he, hl, rfl, hw, ha, hh⟩,
      (gate_none_iff s e).2 ⟨hlife, hmode, hf, r, hr, (badLength_none_iff s e r hr).2 ⟨hkey, hlo, hhi⟩⟩, rfl⟩
  · rintro ⟨e, hs, hg, rfl⟩
    obtain ⟨he, hl, hc, hw, ha, hh⟩ := (startable_iff s via cmd e).1 hs
    subst hc
    obtain ⟨hlife, hmode, hf, r, hr, hb⟩ := (gate_none_iff s e).1 hg
    obtain ⟨hkey, hlo, hhi⟩ := (badLength_none_iff s e r hr).1 hb
    exact ⟨e, ⟨hl, he, rfl, hw, ha, hh⟩, rfl, hf, hlife, hmode, hkey, r, hr, hlo, hhi⟩

/-- A command that starts has its own effect, on the entry that it works on. -/
theorem runs_of_starts {s : State} {via : Via} {cmd : Byte} {p : List Byte} (h : Starts s via cmd p) :
    ∃ e, e.payload = p ∧ entryOf s via = some e ∧ startable s via cmd = some e ∧
      ∀ body, runCmd cmd via s body = .next (body e) := by
  obtain ⟨e, hs, hg, hp⟩ := starts_iff.1 h
  exact ⟨e, hp, ((startable_iff s via cmd e).1 hs).1, hs, fun body => runCmd_next cmd via s body e hs hg⟩

theorem payload_length_of_starts {s : State} {via : Via} {cmd : Byte} {p : List Byte} (h : Starts s via cmd p) {r : CmdRow}
    (hr : cmdRow cmd = some r) : r.lo ≤ p.length ∧ p.length ≤ r.hi := by
  obtain ⟨e, -, -, -, -, -, -, r', hr', hlo, hhi⟩ := h
  cases hr.symm.trans hr'
  exact ⟨hlo, hhi⟩

/-! ## Answers -/

theorem entryNow_setQ (s : State) (via : Via) (st : QState) : EntryNow s (setQ s via st) via st :=
  ⟨rfl, entryOf_setQ s via st, fun v hv => entryOf_setQ_other s via v st hv, length_setQ s via st⟩

theorem answers_replyOk (s : State) (via : Via) (p : List Byte) : Answers s (replyOk s via p) via p := entryNow_setQ _ _ _

theorem denies_replyErr (s : State) (via : Via) (st : Byte) (d : Nat) : Denies s (replyErr s via st d) via st d := entryNow_setQ _ _ _

/-- A command that starts and answers with an error. -/
theorem denies_of_starts {s : State} {via : Via} {cmd : Byte} {p : List Byte} (h : Starts s via cmd p) {c : Instr}
    {body : QEntry → State} (hc : exec c s = runCmd cmd via s body) {st : Byte} {d : Nat}
    (hb : ∀ e, e.payload = p → body e = replyErr s via st d) : ∃ t, Runs c s t ∧ Denies s t via st d := by
  obtain ⟨e, hp, -, -, hrun⟩ := runs_of_starts h
  exact ⟨_, hc.trans ((hrun body).trans (congrArg _ (hb e hp))), denies_replyErr s via st d⟩

/-! ## Nonces -/

theorem unkeyed_eq (s : State) : setNonce s none = unkeyed s := rfl

/-- A nonce is nothing that the start of a command looks at. -/
theorem startable_unkeyed (s : State) (via : Via) (cmd : Byte) : startable (unkeyed s) via cmd = startable s via cmd := rfl

theorem starts_unkeyed {s : State} {via : Via} {cmd : Byte} {p : List Byte} : Starts (unkeyed s) via cmd p ↔ Starts s via cmd p :=
  Iff.rfl

theorem spendNonce_spent {s : State} {cmd : Byte} {via : Via} {uses : QEntry → Bool} {e : QEntry}
    (h : startable s via cmd = some e) (hu : uses e = true) : spendNonce cmd uses via s = unkeyed s := by
  unfold spendNonce
  rw [h]
  exact if_pos hu

theorem spendNonce_unused {s : State} {cmd : Byte} {via : Via} {uses : QEntry → Bool} {e : QEntry}
    (h : startable s via cmd = some e) (hu : uses e = false) : spendNonce cmd uses via s = s := by
  unfold spendNonce
  rw [h]
  exact if_neg (by simp [hu])

theorem spendNonce_idle {s : State} {cmd : Byte} {via : Via} {uses : QEntry → Bool} (h : startable s via cmd = none) :
    spendNonce cmd uses via s = s := by
  unfold spendNonce
  rw [h]

/-- The tag under the lifecycle key is that of the statements: over the nonce, the serial number, the command and its fields. -/
theorem authorise_key {s : State} {via : Via} {cmd : Byte} {before tag key nonce : List Byte} {body : State → State}
    (hk : s.nv.lifeKey = some key) : authorise s via (some nonce) cmd before tag body =
      if tag = hmacSha256 key (nonce ++ padTo 8 s.nv.serial ++ [cmd] ++ before) then body s else replyErr s via 0x08#8 0 := by
  unfold authorise
  rw [hk]
  rfl

theorem authorise_noNonce {s : State} {via : Via} {cmd : Byte} {before tag key : List Byte} {body : State → State}
    (hk : s.nv.lifeKey = some key) : authorise s via none cmd before tag body = replyErr s via 0x0A#8 0 := by
  unfold authorise
  rw [hk]
  rfl

end Sys2Proof.Machine
end

section
/-! SUPPORT. What moves the lifecycle (R73): an authorised LIFECYCLE_SET, and the end of production test. -/

namespace Sys2Proof.Machine

open Sys2Proof.Claims

theorem changeLife_life (s : State) (new : Lifecycle) : (changeLife s new).nv.life = new :=
  congrArg Kept.life (kept_changeLife s new)

theorem kept_life {s t : State} (h : kept t = kept s) : t.nv.life = s.nv.life := congrArg Kept.life h

/-- The effect of LIFECYCLE_SET on an entry that starts with nonce `n` (R73, R74, R395). -/
def lifecycleBody (s : State) (via : Via) (n : Option (List Byte)) (e : QEntry) : State :=
  let p := e.payload
  if byteAt p 1 ≠ 0 ∨ byteAt p 2 ≠ 0 ∨ byteAt p 3 ≠ 0 then
    badParam s via (if byteAt p 1 ≠ 0 then 1 else if byteAt p 2 ≠ 0 then 2 else 3)
  else match lifeOfCode (byteAt p 0) with
    | none => badParam s via 0
    | some new =>
      if s.nv.lifeKey.isNone then replyErr s via stNoKey 3
      else if !lifeMove s.nv.life new then badParam s via 0
      else authorise s via n 0x77 (p.take 4) (p.drop 4) fun s => replyOk (changeLife s new) via [new.code]

theorem exec_lifecycleSet (via : Via) (s : State) : exec (.lifecycleSet via) s =
    runCmd 0x77 via (spendNonce 0x77 (fun _ => true) via s)
      (lifecycleBody (spendNonce 0x77 (fun _ => true) via s) via s.mbx.nonce) := rfl

/-- The one branch of LIFECYCLE_SET that moves the lifecycle. -/
theorem lifecycleBody_life {s : State} {via : Via} {n : Option (List Byte)} {e : QEntry}
    (h : (lifecycleBody s via n e).nv.life ≠ s.nv.life) : ∃ new key nonce, lifeMove s.nv.life new = true ∧
      (lifecycleBody s via n e).nv.life = new ∧ s.nv.lifeKey = some key ∧ n = some nonce ∧
      e.payload.drop 4 = hmacSha256 key (nonce ++ padTo 8 s.nv.serial ++ [0x77#8] ++ e.payload.take 4) := by
  unfold lifecycleBody at h ⊢
  dsimp only at h ⊢
  split at h
  · exact absurd (kept_life (kept_badParam _ _ _)) h
  next hz =>
  split at h
  · exact absurd (kept_life (kept_badParam _ _ _)) h
  next new hnew =>
  split at h
  · exact absurd (kept_life (kept_replyErr _ _ _ _)) h
  next hkey =>
  split at h
  · exact absurd (kept_life (kept_badParam _ _ _)) h
  next hmove =>
  obtain ⟨key, hk⟩ := Option.ne_none_iff_exists'.1 (by simpa using hkey : s.nv.lifeKey ≠ none)
  cases n with
  | none =>
    rw [authorise_noNonce hk] at h
    exact absurd (kept_life (kept_replyErr _ _ _ _)) h
  | some nonce =>
    rw [authorise_key hk] at h
    split at h
    next htag =>
      refine ⟨new, key, nonce, by simpa using hmove, ?_, hk, rfl, htag⟩
      simp only [hz, hkey, hmove, if_false]
      rw [authorise_key hk, if_pos htag]
      exact (kept_life (kept_replyOk _ _ _)).trans (changeLife_life s new)
    next => exact absurd (kept_life (kept_replyErr _ _ _ _)) h

theorem lifeMove_cases {old new : Lifecycle} (h : lifeMove old new = true) :
    (old = .commission ∧ new = .field) ∨ (old = .field ∧ new = .commission) ∨
      ((old = .commission ∨ old = .field) ∧ new = .retired) := by
  cases old <;> cases new <;> simp [lifeMove] at h ⊢

/-- LIFECYCLE_SET moves the lifecycle only where it starts with a nonce in force and carries the right tag. -/
theorem lifecycleSet_life {via : Via} {s t : State} (h : Runs (.lifecycleSet via) s t) (hl : t.nv.life ≠ s.nv.life) :
    ∃ p key n, Starts s via 0x77#8 p ∧ s.nv.lifeKey = some key ∧ s.mbx.nonce = some n ∧
      p.drop 4 = hmacSha256 key (n ++ padTo 8 s.nv.serial ++ [0x77#8] ++ p.take 4) ∧ lifeMove s.nv.life t.nv.life = true := by
  have hrun := (exec_lifecycleSet via s).symm.trans h
  cases hs : startable s via 0x77#8 with
  | none =>
    have hsp : spendNonce 0x77 (fun _ => true) via s = s := spendNonce_idle hs
    rw [hsp] at hrun
    cases (runCmd_idle 0x77#8 via s _ hs).symm.trans hrun
    exact absurd rfl hl
  | some e =>
    have hsp : spendNonce 0x77 (fun _ => true) via s = unkeyed s := spendNonce_spent hs rfl
    rw [hsp] at hrun
    cases hg : gate s e with
    | some x =>
      cases (runCmd_denied 0x77#8 via (unkeyed s) _ e x.1 x.2 hs hg).symm.trans hrun
      exact absurd (kept_life (kept_replyErr _ _ _ _)) hl
    | none =>
      cases (runCmd_next 0x77#8 via (unkeyed s) _ e hs hg).symm.trans hrun
      obtain ⟨new, key, nonce, hmove, hnew, hk, hn, htag⟩ := lifecycleBody_life (s := unkeyed s) hl
      exact ⟨e.payload, key, nonce, starts_iff.2 ⟨e, hs, hg, rfl⟩, hk, hn, htag, hnew ▸ hmove⟩

theorem productionTestEnd_life {s t : State} (h : Runs .productionTestEnd s t) (hl : t.nv.life ≠ s.nv.life) :
    s.nv.life = .manufacture ∧ t.nv.life = .commission := by
  by_cases hm : s.nv.life = .manufacture
  · cases (show exec .productionTestEnd s = .next (changeLife (generateKey s) .commission) from
      congrArg _ (if_pos hm)).symm.trans h
    exact ⟨hm, changeLife_life _ _⟩
  · cases (show exec .productionTestEnd s = .next s from congrArg _ (if_neg hm)).symm.trans h
    exact absurd rfl hl

end Sys2Proof.Machine
end

section
/-! The statements on the moves of the module: the mode changes by R64's table or a reset (O48), the lifecycle as R73 allows (O49). -/

namespace Sys2Proof.Machine

open Sys2Proof.Claims

/-- A core reset leaves the lifecycle, and a core that was running in BOOT and in reset. -/
theorem coreReset_moves (s : State) (k : ResetCause) : (coreReset s k).nv.life = s.nv.life ∧
    ((coreReset s k).core.mode = s.core.mode ∨ ((coreReset s k).core.inReset = true ∧ (coreReset s k).core.mode = .boot)) := by
  unfold coreReset
  split
  · exact ⟨rfl, .inl rfl⟩
  · exact ⟨rfl, .inr ⟨rfl, rfl⟩⟩

theorem powerLoss_moves (s : State) (removed : Bool) : (powerLoss s removed).nv.life = s.nv.life ∧
    ((powerLoss s removed).core.mode = s.core.mode ∨
      ((powerLoss s removed).core.inReset = true ∧ (powerLoss s removed).core.mode = .boot)) := by
  have h := coreReset_moves s .brownOut
  cases removed
  · exact h
  · exact h

theorem rstnLow_moves {w : Nat} {s t : State} (h : exec (.rstnLow w) s = .next t) : t.nv.life = s.nv.life ∧
    (t.core.mode = s.core.mode ∨ (t.core.inReset = true ∧ t.core.mode = .boot)) := by
  by_cases h1 : w < 1000
  · cases (runs_rstnLow_short h1 s).symm.trans h
    exact ⟨rfl, .inl rfl⟩
  by_cases h2 : 10000 ≤ w
  · cases (runs_rstnLow_long h2 s).symm.trans h
    exact coreReset_moves s .rstn
  · cases (runs_rstnLow_between (by omega) (by omega) s).symm.trans h
    split
    · exact coreReset_moves { s with drawn := s.drawn + 1 } .rstn
    · exact ⟨rfl, .inl rfl⟩

theorem resetRelease_moves {env : BootEnv} {s t : State} (hs : s.inv = true) (h : exec (.resetRelease env) s = .next t) :
    t.core.mode = s.core.mode ∨ modeEdge s.core.mode t.core.mode = true := by
  cases (show exec (.resetRelease env) s = .next (if s.core.inReset then startUp s env else s) from rfl).symm.trans h
  split
  · next hr =>
    refine (startUp_rest s env).2.imp_right fun e => ?_
    rw [e, (inv_inReset hs hr).2.1]
    rfl
  · exact .inl rfl

theorem resetRelease_life {env : BootEnv} {s t : State} (h : exec (.resetRelease env) s = .next t) : t.nv.life = s.nv.life := by
  cases (show exec (.resetRelease env) s = .next (if s.core.inReset then startUp s env else s) from rfl).symm.trans h
  split
  · exact (startUp_rest s env).1
  · rfl

/-- The commands but the resets, the start-up and the tick leave the mode. -/
theorem lifecycleSet_mode {via : Via} {s t : State} (h : exec (.lifecycleSet via) s = .next t) : t.core.mode = s.core.mode := by
  have h1 := kept_spendNonce 0x77 (fun _ => true) via s
  have hl : ∀ (u : State) (new : Lifecycle), (replyOk (changeLife u new) via [new.code]).core.mode = u.core.mode := fun u new =>
    (congrArg Kept.mode (kept_replyOk _ _ _)).trans (congrArg Kept.mode (kept_changeLife u new))
  have hb : ∀ (u : State) (n : Option (List Byte)) (e : QEntry), (lifecycleBody u via n e).core.mode = u.core.mode := fun u n e => by
    unfold lifecycleBody authorise
    dsimp only
    repeat' split
    all_goals first
      | exact hl _ _
      | rfl
  rw [exec_lifecycleSet] at h
  unfold runCmd at h
  split at h
  · cases h
    exact congrArg Kept.mode h1
  · split at h
    · cases h
      exact congrArg Kept.mode ((kept_replyErr _ _ _ _).trans h1)
    · cases h
      exact (hb _ _ _).trans (congrArg Kept.mode h1)

theorem productionTestEnd_mode {s t : State} (h : exec .productionTestEnd s = .next t) : t.core.mode = s.core.mode := by
  cases (show exec .productionTestEnd s = .next (if s.nv.life = .manufacture then changeLife (generateKey s) .commission else s)
    from rfl).symm.trans h
  split
  · exact (congrArg Kept.mode (kept_changeLife _ _)).trans (congrArg Kept.mode (kept_generateKey s))
  · rfl

/-- The moves of the mode by one command. -/
theorem exec_mode {s t : State} (hs : s.inv = true) (c : Instr) (h : exec c s = .next t) :
    t.core.mode = s.core.mode ∨ modeEdge s.core.mode t.core.mode = true ∨ (t.core.inReset = true ∧ t.core.mode = .boot) := by
  by_cases hm : movesModule c = false
  · exact .inl (congrArg (·.2.1) (stays_exec s c hm t h))
  cases c with
  | vdd33BrownOut removed =>
    cases (show exec (.vdd33BrownOut removed) s = .next (powerLoss s removed) from rfl).symm.trans h
    exact (powerLoss_moves s removed).2.imp_right .inr
  | rstnLow w => exact (rstnLow_moves h).2.imp_right .inr
  | internalReset =>
    cases (runs_internalReset s).symm.trans h
    exact (coreReset_moves s _).2.imp_right .inr
  | resetRelease env => exact (resetRelease_moves hs h).imp_right .inl
  | tick env => exact (tick_mode hs h).imp_right .inl
  | lifecycleSet via => exact .inl (lifecycleSet_mode h)
  | productionTestEnd => exact .inl (productionTestEnd_mode h)
  | _ => exact absurd rfl hm

/-- Settles O48, by one command at a time (`exec_mode`): a reset leads into BOOT, RESET_RELEASE and the first tick out of it, and any
other tick to the mode that the invariant has found one transition away. -/
theorem modeChangesOnlyByTheTable : Obligations.ModeChangesOnlyByTheTable := by
  intro s t hs h
  unfold step at h
  split at h
  · cases h
    exact .inl rfl
  · next c rest _ => exact exec_mode (s := { s with pending := rest }) hs c h

/-- Settles O49, by one command at a time: but for LIFECYCLE_SET and the end of production test every command leaves the lifecycle. -/
theorem lifecycleMovesOnlyAsAllowed : Obligations.LifecycleMovesOnlyAsAllowed := by
  refine ⟨rfl, fun c s t h hl => ?_⟩
  by_cases hm : movesModule c = false
  · exact absurd (congrArg (·.1) (stays_exec s c hm t h)) hl
  cases c with
  | vdd33BrownOut removed =>
    cases (show exec (.vdd33BrownOut removed) s = .next (powerLoss s removed) from rfl).symm.trans h
    exact absurd (powerLoss_moves s removed).1 hl
  | rstnLow w => exact absurd (rstnLow_moves h).1 hl
  | internalReset =>
    cases (runs_internalReset s).symm.trans h
    exact absurd (coreReset_moves s _).1 hl
  | resetRelease env => exact absurd (resetRelease_life h) hl
  | tick env => exact absurd (tick_life h) hl
  | lifecycleSet via =>
    obtain ⟨p, key, n, hstarts, hkey, hnonce, htag, hmove⟩ := lifecycleSet_life h hl
    exact .inr ⟨⟨via, p, key, n, rfl, hstarts, hkey, hnonce, htag⟩, lifeMove_cases hmove⟩
  | productionTestEnd =>
    obtain ⟨hold, hnew⟩ := productionTestEnd_life h hl
    exact .inl ⟨rfl, hold, hnew⟩
  | _ => exact absurd rfl hm

end Sys2Proof.Machine
end

section
/-! SUPPORT. What a report leaves behind: crumbs, counts, measurements, interrupts and answers, and nothing else of the state. -/

namespace Sys2Proof.Machine

/-- Only crumbs, counts and measurements have changed. -/
def Noted (s t : State) : Prop :=
  t = { s with jrn := t.jrn, stat := { s.stat with live := t.stat.live, epoch := t.stat.epoch }, meas := t.meas }

theorem Noted.refl (s : State) : Noted s s := rfl

theorem Noted.trans {s t u : State} (h : Noted s t) (k : Noted t u) : Noted s u := by
  unfold Noted at *
  rw [k, h]

theorem Noted.ite {s a b : State} (c : Prop) [Decidable c] (ha : Noted s a) (hb : Noted s b) :
    Noted s (if c then a else b) := pred_ite (P := Noted s) c ha hb

theorem noted_modLive (s : State) (f : Counts → Counts) : Noted s (modLive s f) := rfl

theorem noted_pushCrumb (s : State) (c : List Byte) : Noted s (pushCrumb s c) := by
  unfold pushCrumb
  exact .ite _ (.refl s) (.ite _ rfl rfl)

theorem noted_crumb (s : State) (kind : Byte) (chan : Nat) (code : Byte) (body : List Byte) :
    Noted s (crumb s kind chan code body) := noted_pushCrumb _ _

theorem noted_extendM (s : State) (i : Nat) (v : List Byte) : Noted s (extendM s i v) := .ite _ (.refl s) rfl

theorem noted_measEvent (s : State) (ev : Byte) (subject detail : List Byte) : Noted s (measEvent s ev subject detail) := by
  unfold measEvent
  exact (Noted.trans (t := { s with meas := { s.meas with count := min (s.meas.count + 1) 0xFFFF } }) rfl
    (noted_extendM _ _ _)).trans (noted_pushCrumb _ _)

/-- Only crumbs, counts, measurements, IRQ_STAT0 and the entries of the mailbox queue have changed. -/
def Reported (s t : State) : Prop :=
  t = { s with
    host := { s.host with irqStat0 := t.host.irqStat0 }, mbx := { s.mbx with queue := t.mbx.queue }
    jrn := t.jrn, stat := { s.stat with live := t.stat.live, epoch := t.stat.epoch }, meas := t.meas }

theorem Reported.refl (s : State) : Reported s s := rfl

theorem Reported.trans {s t u : State} (h : Reported s t) (k : Reported t u) : Reported s u := by
  unfold Reported at *
  rw [k, h]

theorem Noted.reported {s t : State} (h : Noted s t) : Reported s t := by
  rw [h]
  rfl

theorem Reported.ite {s a b : State} (c : Prop) [Decidable c] (ha : Reported s a) (hb : Reported s b) :
    Reported s (if c then a else b) := pred_ite (P := Reported s) c ha hb

theorem Reported.foldl {α : Type} {f : State → α → State} (h : ∀ s x, Reported s (f s x)) (l : List α) (s : State) :
    Reported s (l.foldl f s) := by
  induction l generalizing s with
  | nil => exact .refl s
  | cons x r ih => exact (h s x).trans (ih _)

/-- A projection that does not see reports is the same after one. -/
theorem Reported.proj {s t : State} (h : Reported s t) {α : Type} (f : State → α)
    (hf : ∀ (i : Byte) (q : List QEntry) (j : JrnSt) (n : StatSt) (m : MeasSt), f { s with
      host := { s.host with irqStat0 := i }, mbx := { s.mbx with queue := q }, jrn := j, stat := n, meas := m } = f s) : f t = f s := by
  rw [h]
  exact hf _ _ _ _ _

theorem reported_setIrq0 (s : State) (i : Nat) : Reported s (setIrq0 s i) := rfl

theorem reported_setQ (s : State) (via : Via) (st : QState) : Reported s (setQ s via st) := rfl

theorem reported_replyErr (s : State) (via : Via) (st : Byte) (d : Nat) : Reported s (replyErr s via st d) := rfl

theorem reported_replyOk (s : State) (via : Via) (p : List Byte) : Reported s (replyOk s via p) := rfl

theorem reported_crumb (s : State) (kind : Byte) (chan : Nat) (code : Byte) (body : List Byte) :
    Reported s (crumb s kind chan code body) := (noted_crumb _ _ _ _ _).reported

theorem reported_journalOutcome (lanesOut : List Side) (s : State) (e : TallyEv) : Reported s (journalOutcome lanesOut s e) := by
  have h1 : Reported s (if e.permanent then s else countTrans s 1) := .ite _ (.refl s) rfl
  have h2 := h1.trans (.ite ((e.permanent || e.first) = true) (reported_crumb _ crAnomaly e.chan e.code [BitVec.ofNat 8 e.tally, byteOfBool e.permanent])
    (.refl _))
  have h3 := h2.trans (.ite (e.permanent = true) (reported_setIrq0 _ irqFault) (.refl _))
  have h4 := h3.trans (.ite (e.probFail = true) (reported_crumb _ crReadmit e.chan 0x03#8 []) (.refl _))
  exact h4.trans (.ite _ (.trans (reported_crumb _ _ _ _ _) (reported_setIrq0 _ _)) (.refl _))

end Sys2Proof.Machine
end

section
/-! SUPPORT. A mode request through phase C (R67-R69): what stands of it in the host's registers, and the fault that overtakes it. -/

namespace Sys2Proof.Machine

/-- MODE_REQ, REQ_RESULT, the sample of the last tick, and whether the register has been written again since. -/
def request (s : State) : Byte × BitVec 2 × Option Byte × Bool := (s.host.modeReq, s.host.reqResult, s.host.sampled, s.host.rewritten)

theorem request_host {s t : State} (h : t.host = s.host) : request t = request s := by
  unfold request
  rw [h]

theorem Reported.request {s t : State} (h : Reported s t) : request t = request s := h.proj Machine.request fun _ _ _ _ _ => rfl

/-- No fault of `s` that would take the module is forgotten in `t` (R69, R261). -/
structure Worsens (s t : State) : Prop where
  mode : t.core.mode = s.core.mode
  fatal : s.core.fatal ⊆ t.core.fatal
  retired : ∀ l, (s.lane.at l).retired = true → (t.lane.at l).retired = true

theorem Worsens.refl (s : State) : Worsens s s := ⟨rfl, List.Subset.refl _, fun _ h => h⟩

theorem Worsens.trans {s t u : State} (h : Worsens s t) (k : Worsens t u) : Worsens s u :=
  ⟨k.mode.trans h.mode, List.Subset.trans h.fatal k.fatal, fun l hl => k.retired l (h.retired l hl)⟩

theorem Worsens.ite {s a b : State} (c : Prop) [Decidable c] (ha : Worsens s a) (hb : Worsens s b) :
    Worsens s (if c then a else b) := pred_ite (P := Worsens s) c ha hb

theorem Worsens.foldl {α : Type} {f : State → α → State} (h : ∀ s x, Worsens s (f s x)) (l : List α) (s : State) :
    Worsens s (l.foldl f s) := by
  induction l generalizing s with
  | nil => exact .refl s
  | cons x r ih => exact (h s x).trans (ih _)

theorem Reported.worsens {s t : State} (h : Reported s t) : Worsens s t := by
  rw [h]
  exact ⟨rfl, List.Subset.refl _, fun _ h => h⟩

/-- Where both lanes serve in `t` they do in `s`. -/
theorem Worsens.bothInService {s t : State} (h : Worsens s t) (ht : bothInService t = true) : bothInService s = true := by
  have one : ∀ l, laneLive t l = true → laneLive s l = true := fun l hl => by
    unfold laneLive at *
    cases hr : (s.lane.at l).retired with
    | false => rfl
    | true => rw [h.retired l hr] at hl; exact hl
  obtain ⟨ha, hb⟩ := Bool.and_eq_true_iff.1 ht
  exact Bool.and_eq_true_iff.2 ⟨one .a ha, one .b hb⟩

/-- A fault takes the module: a fatal one outside SAFE_HOLD and SHUTDOWN, or the loss of a lane in a mode with two (R64). -/
theorem faultComing_iff (s : State) : faultComing s = true ↔
    (s.core.fatal ≠ [] ∧ s.core.mode ≠ .safeHold ∧ s.core.mode ≠ .shutdown) ∨
    (bothInService s = false ∧ (s.core.mode = .boot ∨ s.core.mode = .configure ∨ s.core.mode = .operate ∨ s.core.mode = .maintain)) := by
  have hb : bothInService { s with core := { s.core with modeNext := none } } = bothInService s := rfl
  unfold faultComing nextMode
  rw [hb]
  dsimp only
  by_cases h1 : (!s.core.fatal.isEmpty && s.core.mode != .safeHold && s.core.mode != .shutdown) = true
  · rw [if_pos h1]
    simp only [Bool.and_eq_true, Bool.not_eq_true', List.isEmpty_eq_false_iff, bne_iff_ne] at h1
    exact iff_of_true rfl (.inl ⟨h1.1.1, h1.1.2, h1.2⟩)
  · rw [if_neg h1]
    simp only [Bool.and_eq_true, Bool.not_eq_true', List.isEmpty_eq_false_iff, bne_iff_ne, and_assoc] at h1
    split
    · next h2 =>
      split at h2
      · next h3 =>
        simp only [Bool.and_eq_true, Bool.not_eq_true', Bool.or_eq_true, beq_iff_eq, or_assoc] at h3
        exact iff_of_true rfl (.inr h3)
      · cases h2
    · next h2 =>
      split at h2
      · cases h2
      · next h3 =>
        simp only [Bool.and_eq_true, Bool.not_eq_true', Bool.or_eq_true, beq_iff_eq, or_assoc] at h3
        exact iff_of_false (by decide) (not_or_intro h1 h3)

theorem Worsens.faultComing {s t : State} (h : Worsens s t) (hs : faultComing s = true) : faultComing t = true := by
  rw [faultComing_iff] at *
  rw [h.mode]
  refine hs.imp (fun ⟨hf, hm⟩ => ⟨fun e => hf (List.subset_nil.1 (e ▸ h.fatal)), hm⟩) fun ⟨hb, hm⟩ => ⟨?_, hm⟩
  cases ht : Machine.bothInService t with
  | false => rfl
  | true => rw [h.bothInService ht] at hb; exact hb

/-! ## What comes before the evaluation -/

theorem request_fatalFault (s : State) (code : Byte) : request (fatalFault s code) = request s := by
  unfold fatalFault
  split
  · rfl
  · exact ((reported_crumb _ _ _ _ _).trans (reported_setIrq0 _ _)).request.trans rfl

theorem worsens_fatalFault (s : State) (code : Byte) : Worsens s (fatalFault s code) where
  mode := by rw [fatalFault_core]
  fatal := (fatalKept_fatalFault s code).fatal
  retired l h := by
    unfold fatalFault
    split
    · exact h
    · exact ((reported_crumb _ _ _ _ _).trans (reported_setIrq0 _ _)).worsens.retired l h

theorem retireLane_report (s : State) (l : Side) (code : Byte) : request (retireLane s l code) = request s ∧
    Worsens s (retireLane s l code) := by
  unfold retireLane
  split
  · exact ⟨rfl, .refl s⟩
  · have hm : ∀ f : LaneSt → LaneSt, (∀ x, (f x).retired = true) → Worsens s (modLane s l f) := fun f hf =>
      ⟨rfl, List.Subset.refl _, fun k hk => by
        rw [modLane_lane, Two.at_set]
        split
        · exact hf _
        · exact hk⟩
    have hr : ∀ (u : State) (v : List Byte),
        Reported u (measEvent (setIrq0 (crumb u crRetire (chanLane l) code [0x02#8]) irqFault) 0x05 v []) := fun u v =>
      ((reported_crumb _ _ _ _ _).trans (reported_setIrq0 _ _)).trans (noted_measEvent _ _ _ _).reported
    dsimp only
    split
    · exact ⟨(request_fatalFault _ _).trans ((hr _ _).request.trans rfl),
        ((hm _ fun _ => rfl).trans (hr _ _).worsens).trans (worsens_fatalFault _ _)⟩
    · exact ⟨(hr _ _).request.trans rfl, (hm _ fun _ => rfl).trans (hr _ _).worsens⟩

theorem request_applyOutcome (s : State) (e : TallyEv) : request (applyOutcome s e) = request s := by
  unfold applyOutcome
  split
  · rfl
  · split
    · exact (retireLane_report _ _ _).1
    · rfl

theorem worsens_applyOutcome (s : State) (e : TallyEv) : Worsens s (applyOutcome s e) := by
  unfold applyOutcome
  split
  · exact .refl s
  · split
    · exact (retireLane_report _ _ _).2
    · exact ⟨rfl, List.Subset.refl _, fun _ h => h⟩

theorem request_foldl {α : Type} {f : State → α → State} (h : ∀ s x, request (f s x) = request s) (l : List α) (s : State) :
    request (l.foldl f s) = request s := by
  induction l generalizing s with
  | nil => rfl
  | cons x r ih => exact (ih _).trans (h s x)

theorem request_applyOutcomes (s : State) : request (applyOutcomes s) = request s := by
  have h : ∀ (es : List TallyEv) (lanesOut : List Side), request (es.foldl applyOutcome (es.foldl (journalOutcome lanesOut)
      { s with core := { s.core with outcomes := [] } })) = request s := fun es lanesOut =>
    (request_foldl request_applyOutcome _ _).trans ((request_foldl (fun s e => (reported_journalOutcome lanesOut s e).request) _ _).trans rfl)
  unfold applyOutcomes
  dsimp only
  split
  · exact h _ _
  · exact h _ _

theorem worsens_applyOutcomes (s : State) : Worsens s (applyOutcomes s) := by
  have h0 : Worsens s { s with core := { s.core with outcomes := [] } } := ⟨rfl, List.Subset.refl _, fun _ h => h⟩
  have h : ∀ (es : List TallyEv) (lanesOut : List Side), Worsens s (es.foldl applyOutcome (es.foldl (journalOutcome lanesOut)
      { s with core := { s.core with outcomes := [] } })) := fun es lanesOut =>
    h0.trans ((Worsens.foldl (fun s e => (reported_journalOutcome lanesOut s e).worsens) _ _).trans (.foldl worsens_applyOutcome _ _))
  unfold applyOutcomes
  dsimp only
  split
  · exact h _ _
  · exact (h _ _).trans ⟨rfl, List.Subset.refl _, fun _ h => h⟩

/-- Without an outcome of the tally, putting the outcomes into effect changes nothing. -/
theorem applyOutcomes_none {s : State} (h : s.core.outcomes = []) : applyOutcomes s = s := by
  obtain ⟨pend, core, nv, crust, lane, fab, host, mbx, can, ind, jrn, stat, act, meas, test, drawn⟩ := s
  cases core
  cases h
  rfl

theorem worsens_modLanes (s : State) {f : LaneSt → LaneSt} (hf : ∀ x, (f x).retired = x.retired) : Worsens s (modLanes s f) where
  mode := rfl
  fatal := List.Subset.refl _
  retired l h := by rw [modLanes_lane, Two.at_map, hf]; exact h

theorem worsens_disturb (s : State) : Worsens s (disturb s) := ⟨rfl, List.Subset.refl _, fun _ h => h⟩

theorem lateRep_report (env : PhaseCEnv) (s : State) (l : Side) : request (lateRep env s l) = request s ∧ Worsens s (lateRep env s l) := by
  unfold lateRep
  split
  · exact ⟨rfl, worsens_modLanes _ fun _ => rfl⟩
  · exact ⟨rfl, .refl s⟩

theorem takeBack_retired (x : LaneSt) : (takeBack x).retired = x.retired := by
  unfold takeBack
  split <;> rfl

theorem countEccRep_retired (n : Nat) (x : LaneSt) : (countEccRep n x).1.retired = x.retired := by
  unfold countEccRep
  dsimp only
  split <;> rfl

theorem countEccLane_retired (x : LaneSt) : (countEccLane x).1.retired = x.retired :=
  (countEccRep_retired _ _).trans (countEccRep_retired _ _)

theorem lateFrame_report (env : PhaseCEnv) (s : State) : request (lateFrame env s) = request s ∧ Worsens s (lateFrame env s) := by
  obtain ⟨ha, ka⟩ := lateRep_report env (modLanes s takeBack) .a
  obtain ⟨hb, kb⟩ := lateRep_report env (lateRep env (modLanes s takeBack) .a) .b
  have hc : Worsens (lateRep env (lateRep env (modLanes s takeBack) .a) .b)
      (countEccLate (lateRep env (lateRep env (modLanes s takeBack) .a) .b)) :=
    (worsens_modLanes _ countEccLane_retired).trans ⟨rfl, List.Subset.refl _, fun _ h => h⟩
  constructor
  · exact (request_applyOutcomes _).trans ((rfl : request (countEccLate _) = _).trans (hb.trans (ha.trans rfl)))
  · exact (worsens_modLanes s takeBack_retired).trans (ka.trans (kb.trans (hc.trans ((worsens_applyOutcomes _).trans
      ((worsens_disturb _).trans ⟨rfl, List.Subset.refl _, fun _ h => h⟩)))))

end Sys2Proof.Machine
end

section
/-! The decision of a sampled mode request in phase C, and the end of the proving period (O15). -/

namespace Sys2Proof.Machine

open Sys2Proof.Claims

/-! ## The evaluation -/

theorem evaluateMode_fault {s : State} (h : faultComing s = true) (deaf : Bool) : evaluateMode deaf s = keepRequest s := by
  unfold evaluateMode
  dsimp only
  rw [if_pos h]

theorem evaluateMode_deaf {s : State} (h : faultComing s = false) {v : Byte} (hv : s.host.sampled = some v) :
    evaluateMode true s = endRequest s none := by
  unfold evaluateMode
  simp [h, hv]

theorem evaluateMode_request {s : State} (h : faultComing s = false) (hl : permitLost s = false) {v : Byte}
    (hv : s.host.sampled = some v) : evaluateMode false s = endRequest s (requestTarget s v) := by
  unfold evaluateMode
  simp [h, hl, hv]

theorem reported_answerMode (target : Option Mode) (s : State) (e : QEntry) : Reported s (answerMode target s e) :=
  .ite _ (.refl s) (.ite _ (reported_replyOk _ _ _) (.ite _ (reported_replyOk _ _ _) (reported_replyErr _ _ _ _)))

/-- A request that was not written again ends: MODE_REQ at 0, and REQ_RESULT tells acceptance from refusal. -/
theorem request_endRequest {s : State} (h : s.host.rewritten = false) (target : Option Mode) :
    request (endRequest s target) = (0, if target.isSome then 1 else 2, none, false) := by
  have hr : (s.mbx.queue.foldl (answerMode target) s).host.rewritten = false :=
    (congrArg (fun r : Byte × BitVec 2 × Option Byte × Bool => r.2.2.2)
      (Reported.foldl (reported_answerMode target) s.mbx.queue s).request).trans h
  unfold endRequest
  dsimp only
  generalize s.mbx.queue.foldl (answerMode target) s = u at hr
  cases target <;> simp [request, setIrq0, hr]

theorem modeNext_endRequest (s : State) (target : Option Mode) :
    (endRequest s target).core.modeNext = (target.map fun m => (m, ModeWhy.request)).or s.core.modeNext :=
  congrArg Kept.modeNext (kept_endRequest s target)

/-- A request never leads to OPERATE: that comes at the end of the proving period (R79). -/
theorem requestTarget_ne_operate (s : State) (v : Byte) : requestTarget s v ≠ some .operate := by
  have pick : ∀ (c : Prop) [Decidable c] (m : Mode), m ≠ .operate → (if c then some m else none) ≠ some Mode.operate :=
    fun c _ m hm => by split <;> simp [hm]
  have hite : ∀ (c : Prop) [Decidable c] (a b : Option Mode), a ≠ some .operate → b ≠ some .operate →
      (if c then a else b) ≠ some .operate := fun c _ a b ha hb => by split <;> assumption
  exact hite _ _ _ (pick _ _ (by decide)) (hite _ _ _ (pick _ _ (by decide)) (hite _ _ _ (pick _ _ (by decide))
    (hite _ _ _ (pick _ _ (by decide)) (by decide))))

/-! ## What comes after the evaluation -/

/-- The request stands as decided, and of the mode that is due a fault takes nothing but the OPERATE of a proving period. -/
structure Decided (s t : State) : Prop where
  request : request t = request s
  mode : t.core.mode = s.core.mode
  modeNext : ¬ operateDue s → t.core.modeNext = s.core.modeNext

theorem Decided.of_kept {s t : State} (hr : Machine.request t = Machine.request s) (hk : kept t = kept s) : Decided s t :=
  ⟨hr, congrArg Kept.mode hk, fun _ => congrArg Kept.modeNext hk⟩

theorem Decided.refl (s : State) : Decided s s := .of_kept rfl rfl

theorem Decided.trans {s t u : State} (h : Decided s t) (k : Decided t u) : Decided s u where
  request := k.request.trans h.request
  mode := k.mode.trans h.mode
  modeNext hs := by
    have ht : ¬ operateDue t := fun d => hs ⟨h.mode ▸ d.1, h.modeNext hs ▸ d.2⟩
    exact (k.modeNext ht).trans (h.modeNext hs)

theorem Decided.ite {s a b : State} (c : Prop) [Decidable c] (ha : Decided s a) (hb : Decided s b) :
    Decided s (if c then a else b) := pred_ite (P := Decided s) c ha hb

theorem decided_disturb (s : State) : Decided s (disturb s) where
  request := rfl
  mode := rfl
  modeNext h := by
    have hc : (s.core.mode == .boot && s.core.modeNext == some (.operate, .request)) = false := by
      by_contra hd
      rw [Bool.not_eq_false, Bool.and_eq_true, beq_iff_eq, beq_iff_eq] at hd
      exact h hd
    unfold disturb
    rw [hc]
    rfl

theorem decided_laneReport (s : State) (r : Rep) : Decided s (laneReport s r) := .of_kept rfl rfl

theorem decided_disagreement (env : PhaseCEnv) (s : State) : Decided s (disagreement env s) :=
  .ite _ ((decided_disturb s).trans ((decided_laneReport _ _).trans (decided_laneReport _ _))) (decided_disturb s)

theorem decided_stageCrust (env : PhaseCEnv) (s : State) (c : Side) : Decided s (stageCrust env s c) :=
  .ite _ ⟨rfl, rfl, fun _ => rfl⟩ (.ite _ ⟨rfl, rfl, fun _ => rfl⟩ (decided_laneReport _ _))

/-- What a disagreement (`c` fails) and a lane fault found in the frame (`d`) leave of the request. -/
theorem decided_judged (env : PhaseCEnv) (s : State) (c d : Prop) [Decidable c] [Decidable d] :
    Decided s (if d then disturb (if c then s else disagreement env s) else if c then s else disagreement env s) := by
  have hc := Decided.ite c (.refl s) (decided_disagreement env s)
  exact .ite d (hc.trans (decided_disturb _)) hc

theorem decided_setLanes (s : State) (l : Two LaneSt) : Decided s { s with lane := l } := .of_kept rfl rfl

theorem decided_compareAndStage (env : PhaseCEnv) (before : State) (laneFault late : Bool) (s : State) :
    Decided s (compareAndStage env before laneFault late s) :=
  (decided_judged env s _ _).trans ((decided_setLanes _ _).trans ((decided_stageCrust env _ .a).trans (decided_stageCrust env _ .b)))

theorem request_decideForce (s : State) (e : QEntry) : request (decideForce s e) = request s := by
  unfold decideForce
  split
  · rfl
  · split
    · rfl
    · rfl

theorem decided_decideForces (s : State) : Decided s (decideForces s) :=
  .of_kept (request_foldl request_decideForce _ _) (kept_decideForces s)

theorem countPullIns_host (s : State) (cfg : LoafCfg) (pairs : List Nat) : (countPullIns s cfg pairs).host = s.host := by
  unfold countPullIns
  split <;> rfl

theorem takeVector_host (s : State) : (takeVector s).host = s.host := by
  unfold takeVector
  split
  · split
    · exact countPullIns_host _ _ _
    · rfl
  · rfl

theorem decided_postVector (env : PhaseCEnv) (before s : State) : Decided s (postVector env before s) :=
  .of_kept (request_host (takeVector_host _)) (kept_postVector env before s)

theorem decided_beginHold (s : State) : Decided s (beginHold s) := .ite _ (.of_kept rfl rfl) (.refl s)

/-! ## A whole phase C -/

theorem runs_phaseC {s : State} (env : PhaseCEnv) (ht : s.core.tickOn = true) (hp : s.core.phase = .c) : Runs (.phaseC env) s
    (if s.test.hold then heldFrame (toPhase s .h (endC s.core.tfCode)) else liveFrame env (toPhase s .h (endC s.core.tfCode))) := by
  refine (show exec (.phaseC env) s = _ from rfl).trans (if_neg ?_)
  rw [ht, hp]
  decide

/-- A frame in test hold puts no outcome into effect (R420). -/
def withoutOutcomes (s : State) : State := { s with core := { s.core with outcomes := [] } }

/-- What the evaluation decides stands at the end of a frame in test hold. -/
theorem decided_heldFrame (s : State) : Decided (evaluateMode true (withoutOutcomes s)) (heldFrame s) :=
  (decided_decideForces _).trans (.of_kept rfl rfl)

/-- The frame up to the evaluation of the request. -/
def beforeEvaluation (env : PhaseCEnv) (s : State) : State :=
  let s1 := if anyLate env s then lateFrame env s else applyOutcomes s
  if identityBroken env s1 then fatalFault s1 ftLoafIdentity else s1

/-- What the evaluation decides stands at the end of a frame. -/
theorem decided_liveFrame (env : PhaseCEnv) (s : State) :
    Decided (evaluateMode (anyLate env s) (beforeEvaluation env s)) (liveFrame env s) :=
  (decided_decideForces _).trans ((decided_compareAndStage _ _ _ _ _).trans ((decided_beginHold _).trans (decided_postVector _ _ _)))

theorem beforeEvaluation_report (env : PhaseCEnv) (s : State) : request (beforeEvaluation env s) = request s ∧
    Worsens s (beforeEvaluation env s) := by
  have h1 : request (if anyLate env s then lateFrame env s else applyOutcomes s) = request s ∧
      Worsens s (if anyLate env s then lateFrame env s else applyOutcomes s) :=
    pred_ite (P := fun t => request t = request s ∧ Worsens s t) _ (lateFrame_report env s)
      ⟨request_applyOutcomes s, worsens_applyOutcomes s⟩
  exact pred_ite (P := fun t => request t = request s ∧ Worsens s t) _
    ⟨(request_fatalFault _ _).trans h1.1, h1.2.trans (worsens_fatalFault _ _)⟩ h1

/-- On time, without outcomes of the tally and with one loaf in both lanes, the evaluation meets the frame as it was. -/
theorem beforeEvaluation_calm {env : PhaseCEnv} {s : State} (hl : anyLate env s = false) (ho : s.core.outcomes = [])
    (hi : identityBroken env s = false) : beforeEvaluation env s = s := by
  unfold beforeEvaluation
  simp [hl, applyOutcomes_none ho, hi]

/-- A request that a fault overtakes stays in MODE_REQ, no longer sampled. -/
theorem requestWaits {s t u : State} {deaf : Bool} (hf : faultComing t = true) (hr : request t = request s)
    (hd : Decided (evaluateMode deaf t) u) : u.host.modeReq = s.host.modeReq ∧ u.host.sampled = none := by
  have e := hd.request
  rw [evaluateMode_fault hf] at e
  exact ⟨(congrArg (·.1) e).trans (congrArg (·.1) hr), congrArg (·.2.2.1) e⟩

theorem heldFrame_waits {s : State} (hf : faultComing s = true) :
    (heldFrame s).host.modeReq = s.host.modeReq ∧ (heldFrame s).host.sampled = none :=
  requestWaits (t := withoutOutcomes s) hf rfl (decided_heldFrame s)

theorem liveFrame_waits (env : PhaseCEnv) {s : State} (hf : faultComing s = true) :
    (liveFrame env s).host.modeReq = s.host.modeReq ∧ (liveFrame env s).host.sampled = none := by
  obtain ⟨hr, hworse⟩ := beforeEvaluation_report env s
  exact requestWaits (hworse.faultComing hf) hr (decided_liveFrame env s)

/-- In test hold a request is refused (R420). -/
theorem heldFrame_refuses {s : State} {v : Byte} (hf : faultComing s = false) (hv : s.host.sampled = some v)
    (hw : s.host.rewritten = false) : (heldFrame s).core.modeNext = s.core.modeNext ∧ (heldFrame s).host.modeReq = 0 ∧
      (heldFrame s).host.reqResult = 2 ∧ (heldFrame s).host.sampled = none := by
  have he : evaluateMode true (withoutOutcomes s) = endRequest (withoutOutcomes s) none :=
    evaluateMode_deaf (s := withoutOutcomes s) hf hv
  have hr := (decided_heldFrame s).request
  rw [he, request_endRequest (s := withoutOutcomes s) hw] at hr
  refine ⟨?_, congrArg (·.1) hr, congrArg (·.2.1) hr, congrArg (·.2.2.1) hr⟩
  calc (heldFrame s).core.modeNext = (evaluateMode true (withoutOutcomes s)).core.modeNext :=
        congrArg Kept.modeNext (kept_decideForces _)
    _ = s.core.modeNext := by rw [he, modeNext_endRequest]; rfl

/-- With both lanes on time a request is answered as its target is, and an accepted one is due at the next tick. -/
theorem liveFrame_answers {env : PhaseCEnv} {s : State} {v : Byte} (hf : faultComing s = false) (hv : s.host.sampled = some v)
    (hw : s.host.rewritten = false) (hl : anyLate env s = false) (hp : permitLost s = false) (ho : s.core.outcomes = [])
    (hi : identityBroken env s = false) :
    request (liveFrame env s) = (0, if (requestTarget s v).isSome then 1 else 2, none, false) ∧
    (∀ m, requestTarget s v = some m → (liveFrame env s).core.modeNext = some (m, .request)) ∧
    (requestTarget s v = none → s.core.mode ≠ .boot → (liveFrame env s).core.modeNext = s.core.modeNext) := by
  have hd := decided_liveFrame env s
  have hmode : (endRequest s (requestTarget s v)).core.mode = s.core.mode := congrArg Kept.mode (kept_endRequest s _)
  have hnext := modeNext_endRequest s (requestTarget s v)
  rw [beforeEvaluation_calm hl ho hi, hl, evaluateMode_request hf hp hv] at hd
  refine ⟨hd.request.trans (request_endRequest hw _), fun m hm => ?_, fun hn hb => ?_⟩
  · rw [hm] at hd hnext
    refine (hd.modeNext fun h => requestTarget_ne_operate s v ?_).trans hnext
    rw [hm]
    exact congrArg (Option.map Prod.fst) (hnext.symm.trans h.2)
  · rw [hn] at hd hnext hmode
    exact (hd.modeNext fun h => hb (hmode.symm.trans h.1)).trans hnext

theorem provingMet_cases {s : State} (h : provingMet s = true) : s.core.mode = .boot ∧ 16 ≤ s.core.proving ∧
    s.core.disturbed = false ∧ bothInService s = true ∧ (s.nv.life = .commission ∨ s.nv.life = .field) := by
  unfold provingMet at h
  split at h
  · cases h
  · simp only [Bool.and_eq_true, Bool.or_eq_true, beq_iff_eq, decide_eq_true_eq, Bool.not_eq_true'] at h
    obtain ⟨⟨⟨⟨⟨⟨⟨⟨⟨⟨⟨-, hm⟩, -⟩, hp⟩, hd⟩, -⟩, hb⟩, -⟩, -⟩, -⟩, -⟩, hl⟩ := h
    exact ⟨hm, hp, hd, hb, hl⟩

/-- Settles O15: what the evaluation makes of the request stands to the end of the phase, whichever way the frame goes on. -/
theorem phaseCDecidesTheMode : Obligations.PhaseCDecidesTheMode := by
  refine ⟨fun env s v ht hp hv hw ho hi => ⟨_, runs_phaseC env ht hp, fun hf => ?_, fun hf hh => ?_, fun hf hh hl hperm => ?_⟩,
    fun s => ⟨fun hm hp => ⟨?_, provingMet_cases hm⟩, fun h => ?_⟩⟩
  · split
    · exact heldFrame_waits (s := toPhase s .h (endC s.core.tfCode)) hf
    · exact liveFrame_waits env (s := toPhase s .h (endC s.core.tfCode)) hf
  · rw [if_pos hh]
    exact heldFrame_refuses (s := toPhase s .h (endC s.core.tfCode)) hf hv hw
  · rw [if_neg (by simp [hh])]
    obtain ⟨hr, hsome, hnone⟩ := liveFrame_answers (env := env) (s := toPhase s .h (endC s.core.tfCode)) hf hv hw hl hperm ho hi
    refine ⟨congrArg (·.1) hr, congrArg (·.2.2.1) hr, ?_⟩
    have htarget : requestTarget (toPhase s .h (endC s.core.tfCode)) v = requestTarget s v := rfl
    rw [htarget] at hr hsome hnone
    split
    · next m hm => exact ⟨hsome m hm, (congrArg (·.2.1) hr).trans (by rw [hm]; rfl)⟩
    · next hm => exact ⟨hnone hm, (congrArg (·.2.1) hr).trans (by rw [hm]; rfl)⟩
  · exact congrArg _ (if_pos (by simp [hm, hp]))
  · refine congrArg _ (if_neg ?_)
    rcases h with h | h <;> simp [h]

end Sys2Proof.Machine
end

section
/-! SUPPORT. Keys, nonces, the lifecycle's commands and the rows of production (R73-R75, R395, R407, R426), one case at a time. -/

namespace Sys2Proof.Machine

open Sys2Proof.Claims

theorem Noted.exists {s t : State} (h : Noted s t) : ∃ j n m, t = { s with jrn := j, stat := n, meas := m } := ⟨_, _, _, h⟩

theorem entryOf_mbx {s t : State} (h : t.mbx = s.mbx) (via : Via) : entryOf t via = entryOf s via := by
  unfold entryOf
  rw [h]

theorem Noted.entryOf {s t : State} (h : Noted s t) (via : Via) : entryOf t via = entryOf s via := by
  obtain ⟨j, n, m, h⟩ := h.exists
  rw [h]
  rfl

/-- The state of the entry that a command has answered. -/
theorem state_replyOk {s : State} {via : Via} {e : QEntry} (h : entryOf s via = some e) (p : List Byte) :
    (entryOf (replyOk s via p) via).map (·.st) = some (.replied 0x00#8 p) := by
  unfold replyOk
  rw [entryOf_setQ, h]
  rfl

/-! ## NONCE_GET -/

theorem nonceGet_starts {s : State} {via : Via} {p : List Byte} (h : Starts s via 0x76#8 p) : ∃ t n, n.length = 16 ∧
    Runs (.nonceGet via) s t ∧ Answers { s with drawn := s.drawn + 1, mbx := { s.mbx with nonce := some n } } t via n := by
  obtain ⟨e, -, -, -, hrun⟩ := runs_of_starts h
  exact ⟨_, _, by simp, hrun _, answers_replyOk _ _ _⟩

/-! ## LIFECYCLE_SET -/

theorem lifecycleSet_starts {s : State} {via : Via} {p : List Byte} (h : Starts s via 0x77#8 p) : ∃ e, e.payload = p ∧
    entryOf s via = some e ∧ Runs (.lifecycleSet via) s (lifecycleBody (unkeyed s) via s.mbx.nonce e) := by
  obtain ⟨e, hs, hg, hp⟩ := starts_iff.1 h
  have hsp : spendNonce 0x77 (fun _ => true) via s = unkeyed s := spendNonce_spent hs rfl
  refine ⟨e, hp, ((startable_iff s via _ e).1 hs).1, (exec_lifecycleSet via s).trans ?_⟩
  rw [hsp]
  exact runCmd_next 0x77 via (unkeyed s) _ e hs hg

theorem lifecycleBody_reserved {s : State} {via : Via} {n : Option (List Byte)} {e : QEntry}
    (h : byteAt e.payload 1 ≠ 0 ∨ byteAt e.payload 2 ≠ 0 ∨ byteAt e.payload 3 ≠ 0) : lifecycleBody s via n e =
      badParam s via (if byteAt e.payload 1 ≠ 0 then 1 else if byteAt e.payload 2 ≠ 0 then 2 else 3) := if_pos h

/-- LIFECYCLE_SET with its reserved bytes at 0. -/
theorem lifecycleBody_plain {s : State} {via : Via} {n : Option (List Byte)} {e : QEntry}
    (h : bytesAt e.payload 1 3 = [0, 0, 0]) : lifecycleBody s via n e = match lifeOfCode (byteAt e.payload 0) with
      | none => badParam s via 0
      | some new =>
        if s.nv.lifeKey.isNone then replyErr s via stNoKey 3
        else if !lifeMove s.nv.life new then badParam s via 0
        else authorise s via n 0x77 (e.payload.take 4) (e.payload.drop 4) fun s => replyOk (changeLife s new) via [new.code] := by
  have hz : ¬ (byteAt e.payload 1 ≠ 0 ∨ byteAt e.payload 2 ≠ 0 ∨ byteAt e.payload 3 ≠ 0) := by
    rcases hp : e.payload with _ | ⟨a, _ | ⟨b, _ | ⟨c, _ | ⟨d, r⟩⟩⟩⟩ <;> rw [hp] at h <;> simp [bytesAt, byteAt] at h ⊢
    exact h
  exact (if_neg hz).trans rfl

/-- The state with the lifecycle moved, but for what is noted of it. -/
def lifeMoved (s : State) (new : Lifecycle) : State :=
  let s1 := modNv s fun n =>
    if new = .retired then { n with life := new, actKeys := [], lifeKey := none } else { n with life := new }
  { s1 with host := { s1.host with lifeReg := new.code } }

theorem noted_changeLife (s : State) (new : Lifecycle) : Noted (lifeMoved s new) (changeLife s new) := noted_measEvent _ _ _ _

theorem lifeMoved_nv (s : State) (new : Lifecycle) : (lifeMoved s new).nv.life = new ∧ (lifeMoved s new).nv.attKey = s.nv.attKey ∧
    (new = .retired → (lifeMoved s new).nv.actKeys = [] ∧ (lifeMoved s new).nv.lifeKey = none) := by
  unfold lifeMoved
  cases new <;> exact ⟨rfl, rfl, by simp⟩

/-- An authorised LIFECYCLE_SET makes its move, is answered, and changes nothing else (R75). -/
theorem lifecycle_moved {s : State} {via : Via} {e : QEntry} (he : entryOf s via = some e) (new : Lifecycle) {t : State}
    (ht : t = replyOk (changeLife (unkeyed s) new) via [new.code]) :
    t.nv.life = new ∧ t.host.lifeReg = new.code ∧ t.mbx.nonce = none ∧
      (entryOf t via).map (·.st) = some (.replied 0x00#8 [new.code]) ∧
      (new = .retired → t.nv.actKeys = [] ∧ t.nv.lifeKey = none) ∧ t.nv.attKey = s.nv.attKey ∧
      t = { s with nv := t.nv, mbx := t.mbx, host := { s.host with lifeReg := t.host.lifeReg }, meas := t.meas, jrn := t.jrn, stat := t.stat } := by
  have hn := noted_changeLife (unkeyed s) new
  have hentry : entryOf (changeLife (unkeyed s) new) via = some e := (hn.entryOf via).trans he
  have hreply := state_replyOk hentry [new.code]
  rw [← ht] at hreply
  obtain ⟨j, n, m, h⟩ := hn.exists
  rw [h] at ht
  obtain ⟨hlife, hatt, hkeys⟩ := lifeMoved_nv (unkeyed s) new
  subst ht
  exact ⟨hlife, rfl, rfl, hreply, hkeys, hatt, rfl⟩

/-! ## KEY_LOAD -/

/-- The effect of KEY_LOAD on an entry that starts with nonce `n` (R389, R395, R405). -/
def keyLoadBody (s : State) (via : Via) (n : Option (List Byte)) (e : QEntry) : State :=
  let p := e.payload
  let kind := byteAt p 0
  let slot := (byteAt p 1).toNat
  let key := bytesAt p 4 (keyLength kind)
  let store := fun (s : State) => replyOk (storeKey s kind slot key) via []
  if !keyKind kind then badParam s via 0
  else if keySlots kind ≤ slot then badParam s via 1
  else if (byteAt p 2).toNat ≠ keyLength kind then badParam s via 2
  else if byteAt p 3 ≠ 0 then badParam s via 3
  else if kind = 3 ∧ s.nv.lifeKey.isSome then authorise s via n 0x75 (p.take 36) (p.drop 36) store
  else store s

theorem exec_keyLoad (via : Via) (s : State) : exec (.keyLoad via) s =
    runCmd 0x75 via (spendNonce 0x75 (keyTagged s) via s) (keyLoadBody (spendNonce 0x75 (keyTagged s) via s) via s.mbx.nonce) := rfl

/-- A KEY_LOAD that starts uses the nonce up where it replaces the lifecycle key, and only there. -/
theorem keyLoad_starts {s : State} {via : Via} {p : List Byte} (h : Starts s via 0x75#8 p) : ∃ e, e.payload = p ∧
    entryOf s via = some e ∧ Runs (.keyLoad via) s
      (keyLoadBody (if byteAt p 0 = 3 ∧ s.nv.lifeKey.isSome = true then unkeyed s else s) via s.mbx.nonce e) := by
  obtain ⟨e, hs, hg, hp⟩ := starts_iff.1 h
  have hu : keyTagged s e = true ↔ byteAt p 0 = 3 ∧ s.nv.lifeKey.isSome = true := by
    unfold keyTagged
    rw [Bool.and_eq_true, beq_iff_eq, hp]
    rfl
  refine ⟨e, hp, ((startable_iff s via _ e).1 hs).1, (exec_keyLoad via s).trans ?_⟩
  split
  · next ht =>
    have hsp : spendNonce 0x75 (keyTagged s) via s = unkeyed s := spendNonce_spent hs (hu.2 ht)
    rw [hsp]
    exact runCmd_next 0x75 via (unkeyed s) _ e hs hg
  · next ht =>
    have hsp : spendNonce 0x75 (keyTagged s) via s = s := spendNonce_unused hs (Bool.eq_false_iff.2 fun k => ht (hu.1 k))
    rw [hsp]
    exact runCmd_next 0x75 via s _ e hs hg

section
variable {s : State} {via : Via} {n : Option (List Byte)} {e : QEntry}

theorem keyLoadBody_kind (h : keyKind (byteAt e.payload 0) = false) : keyLoadBody s via n e = badParam s via 0 := by
  unfold keyLoadBody
  dsimp only
  rw [h]
  rfl

theorem keyLoadBody_slot (hk : keyKind (byteAt e.payload 0) = true) (h : keySlots (byteAt e.payload 0) ≤ (byteAt e.payload 1).toNat) :
    keyLoadBody s via n e = badParam s via 1 := by
  unfold keyLoadBody
  dsimp only
  rw [hk, if_pos h]
  rfl

theorem keyLoadBody_length (hk : keyKind (byteAt e.payload 0) = true) (hs : (byteAt e.payload 1).toNat < keySlots (byteAt e.payload 0))
    (h : (byteAt e.payload 2).toNat ≠ keyLength (byteAt e.payload 0)) : keyLoadBody s via n e = badParam s via 2 := by
  unfold keyLoadBody
  dsimp only
  rw [hk, if_neg (by omega : ¬ keySlots (byteAt e.payload 0) ≤ (byteAt e.payload 1).toNat), if_pos h]
  rfl

theorem keyLoadBody_reserved (hk : keyKind (byteAt e.payload 0) = true)
    (hs : (byteAt e.payload 1).toNat < keySlots (byteAt e.payload 0)) (hl : (byteAt e.payload 2).toNat = keyLength (byteAt e.payload 0))
    (h : byteAt e.payload 3 ≠ 0) : keyLoadBody s via n e = badParam s via 3 := by
  unfold keyLoadBody
  dsimp only
  rw [hk, if_neg (by omega : ¬ keySlots (byteAt e.payload 0) ≤ (byteAt e.payload 1).toNat), if_neg (not_not_intro hl), if_pos h]
  rfl

/-- A KEY_LOAD whose fields are right. -/
theorem keyLoadBody_valid (hk : keyKind (byteAt e.payload 0) = true)
    (hs : (byteAt e.payload 1).toNat < keySlots (byteAt e.payload 0)) (hl : (byteAt e.payload 2).toNat = keyLength (byteAt e.payload 0))
    (hz : byteAt e.payload 3 = 0) : keyLoadBody s via n e =
      if byteAt e.payload 0 = 3 ∧ s.nv.lifeKey.isSome = true then
        authorise s via n 0x75 (e.payload.take 36) (e.payload.drop 36) fun s =>
          replyOk (storeKey s (byteAt e.payload 0) (byteAt e.payload 1).toNat (bytesAt e.payload 4 (keyLength (byteAt e.payload 0)))) via []
      else replyOk (storeKey s (byteAt e.payload 0) (byteAt e.payload 1).toNat
        (bytesAt e.payload 4 (keyLength (byteAt e.payload 0)))) via [] := by
  unfold keyLoadBody
  dsimp only
  rw [hk, if_neg (by omega : ¬ keySlots (byteAt e.payload 0) ≤ (byteAt e.payload 1).toNat), if_neg (not_not_intro hl),
    if_neg (not_not_intro hz)]
  rfl

end

/-- The keys with one more stored, by its kind. -/
def keysWith (n : NvSt) (kind : Byte) (slot : Nat) (key : List Byte) : NvSt :=
  if kind = 1 then { n with actKeys := tabPut n.actKeys slot key }
  else if kind = 2 then { n with safeKeys := tabPut n.safeKeys slot key }
  else { n with lifeKey := some key }

theorem noted_storeKey (s : State) (kind : Byte) (slot : Nat) (key : List Byte) :
    Noted { s with nv := keysWith s.nv kind slot key } (storeKey s kind slot key) := noted_measEvent _ _ _ _

/-- A KEY_LOAD that has stored its key changes the keys alone, but for its answer and what is noted of it. -/
theorem key_stored {s : State} {via : Via} {e : QEntry} (he : entryOf s via = some e) (kind : Byte) (slot : Nat) (key : List Byte) {t : State}
    (ht : t = replyOk (storeKey s kind slot key) via []) :
    (entryOf t via).map (·.st) = some (.replied 0x00#8 []) ∧ t.nv = keysWith s.nv kind slot key ∧ t.mbx.nonce = s.mbx.nonce ∧
      t = { s with nv := t.nv, mbx := { s.mbx with queue := t.mbx.queue }, meas := t.meas, jrn := t.jrn, stat := t.stat } := by
  have hn := noted_storeKey s kind slot key
  have hentry : entryOf (storeKey s kind slot key) via = some e := (hn.entryOf via).trans he
  have hreply := state_replyOk hentry []
  rw [← ht] at hreply
  obtain ⟨j, n, m, h⟩ := hn.exists
  rw [h] at ht
  subst ht
  exact ⟨hreply, rfl, rfl, rfl⟩

/-! ## Production -/

theorem generateKey_attKey (s : State) : (generateKey s).nv.attKey.isSome = true ∧
    (∀ k, s.nv.attKey = some k → (generateKey s).nv.attKey = some k ∧ (generateKey s).drawn = s.drawn) := by
  unfold generateKey
  split
  · next h => exact ⟨h, fun k hk => ⟨hk, rfl⟩⟩
  · next h => exact ⟨rfl, fun k hk => absurd (by rw [hk]; rfl) h⟩

theorem generateKey_eq (s : State) : generateKey s =
    { s with nv := { s.nv with attKey := (generateKey s).nv.attKey }, drawn := (generateKey s).drawn } := by
  unfold generateKey
  split <;> rfl

theorem eraseDups_length_le (l : List W16) : l.eraseDups.length ≤ l.length := by
  match l with
  | [] => rfl
  | a :: r =>
    have hle : (r.filter fun b => !b == a).length ≤ r.length := List.length_filter_le _ r
    have ih := eraseDups_length_le (r.filter fun b => !b == a)
    rw [List.eraseDups_cons, List.length_cons, List.length_cons]
    omega
termination_by l.length

theorem mem_burnRows {old new : List W16} {r : W16} (h : r ∈ burnRows old new) : r ∈ new ∧ r ∉ old := by
  have hf := List.mem_of_mem_take h
  rw [List.mem_filter, List.mem_eraseDups] at hf
  exact ⟨hf.1, by simpa using hf.2⟩

theorem length_burnRows_le (old new : List W16) (h : old.length ≤ 32) : old.length + (burnRows old new).length ≤ 32 := by
  have hle : (burnRows old new).length ≤ 32 - old.length := List.length_take_le _ _
  omega

/-- Where the spare rows are enough, every row asked for is replaced. -/
theorem burnRows_covers {old new : List W16} (h : old.length + new.length ≤ 32) : ∀ r ∈ new, r ∈ old ++ burnRows old new := by
  intro r hr
  rw [List.mem_append]
  by_cases ho : r ∈ old
  · exact .inl ho
  · refine .inr ?_
    have hle : (new.eraseDups.filter fun r => !old.contains r).length ≤ 32 - old.length := by
      have h1 := List.length_filter_le (fun r => !old.contains r) new.eraseDups
      have h2 := eraseDups_length_le new
      omega
    have hall : burnRows old new = new.eraseDups.filter fun r => !old.contains r := List.take_of_length_le hle
    rw [hall, List.mem_filter, List.mem_eraseDups]
    exact ⟨hr, by simpa using ho⟩

end Sys2Proof.Machine
end

section
/-! Keys, nonces, the lifecycle and production act as O54 says. -/

namespace Sys2Proof.Machine

open Sys2Proof.Claims

variable {via : Via} {s : State} {p : List Byte}

/-- A LIFECYCLE_SET that is denied, by what its effect comes to. -/
theorem lifecycleSet_denied (h : Starts s via 0x77#8 p) {st : Byte} {d : Nat}
    (hb : ∀ e, e.payload = p → lifecycleBody (unkeyed s) via s.mbx.nonce e = replyErr (unkeyed s) via st d) :
    ∃ t, Runs (.lifecycleSet via) s t ∧ Denies (unkeyed s) t via st d := by
  obtain ⟨e, hp, -, hrun⟩ := lifecycleSet_starts h
  exact ⟨_, hrun, by rw [hb e hp]; exact denies_replyErr _ _ _ _⟩

theorem keyLoad_denied (h : Starts s via 0x75#8 p) {u : State}
    (hu : (if byteAt p 0 = 3 ∧ s.nv.lifeKey.isSome = true then unkeyed s else s) = u) {st : Byte} {d : Nat}
    (hb : ∀ e, e.payload = p → keyLoadBody u via s.mbx.nonce e = replyErr u via st d) :
    ∃ t, Runs (.keyLoad via) s t ∧ Denies u t via st d := by
  obtain ⟨e, hp, -, hrun⟩ := keyLoad_starts h
  rw [hu] at hrun
  exact ⟨_, hrun, by rw [hb e hp]; exact denies_replyErr _ _ _ _⟩

/-- The fields of LIFECYCLE_SET are judged before key and nonce. -/
theorem lifecycleSet_fields (h : Starts s via 0x77#8 p) :
    (byteAt p 1 ≠ 0 → ∃ t, Runs (.lifecycleSet via) s t ∧ Denies (unkeyed s) t via 0x05#8 9) ∧
    (byteAt p 1 = 0 → byteAt p 2 ≠ 0 → ∃ t, Runs (.lifecycleSet via) s t ∧ Denies (unkeyed s) t via 0x05#8 10) ∧
    (byteAt p 1 = 0 → byteAt p 2 = 0 → byteAt p 3 ≠ 0 → ∃ t, Runs (.lifecycleSet via) s t ∧ Denies (unkeyed s) t via 0x05#8 11) ∧
    (bytesAt p 1 3 = [0, 0, 0] → lifeOfCode (byteAt p 0) = none →
      ∃ t, Runs (.lifecycleSet via) s t ∧ Denies (unkeyed s) t via 0x05#8 8) := by
  refine ⟨fun h1 => lifecycleSet_denied h fun e he => ?_, fun h1 h2 => lifecycleSet_denied h fun e he => ?_,
    fun h1 h2 h3 => lifecycleSet_denied h fun e he => ?_, fun hz hc => lifecycleSet_denied h fun e he => ?_⟩ <;> subst he
  · rw [lifecycleBody_reserved (.inl h1), if_pos h1]
    rfl
  · rw [lifecycleBody_reserved (.inr (.inl h2)), if_neg (not_not_intro h1), if_pos h2]
    rfl
  · rw [lifecycleBody_reserved (.inr (.inr h3)), if_neg (not_not_intro h1), if_neg (not_not_intro h2)]
    rfl
  · rw [lifecycleBody_plain hz, hc]
    rfl

/-- LIFECYCLE_SET to a lifecycle that exists: key, move, nonce and tag are judged in this order (R73, R395). -/
theorem lifecycleSet_judged (h : Starts s via 0x77#8 p) (hz : bytesAt p 1 3 = [0, 0, 0]) {new : Lifecycle}
    (hc : lifeOfCode (byteAt p 0) = some new) :
    (s.nv.lifeKey = none → ∃ t, Runs (.lifecycleSet via) s t ∧ Denies (unkeyed s) t via 0x09#8 3) ∧
    ∀ key, s.nv.lifeKey = some key →
    (lifeMove s.nv.life new = false → ∃ t, Runs (.lifecycleSet via) s t ∧ Denies (unkeyed s) t via 0x05#8 8) ∧
    (lifeMove s.nv.life new = true →
      (s.mbx.nonce = none → ∃ t, Runs (.lifecycleSet via) s t ∧ Denies s t via 0x0A#8 0) ∧
      (∀ n, s.mbx.nonce = some n →
        (p.drop 4 ≠ hmacSha256 key (n ++ padTo 8 s.nv.serial ++ [0x77#8] ++ p.take 4) →
          ∃ t, Runs (.lifecycleSet via) s t ∧ Denies (unkeyed s) t via 0x08#8 0) ∧
        (p.drop 4 = hmacSha256 key (n ++ padTo 8 s.nv.serial ++ [0x77#8] ++ p.take 4) →
          ∃ t, Runs (.lifecycleSet via) s t ∧ t = replyOk (changeLife (unkeyed s) new) via [new.code]))) := by
  have hplain : ∀ e, e.payload = p → lifecycleBody (unkeyed s) via s.mbx.nonce e =
      if s.nv.lifeKey.isNone then replyErr (unkeyed s) via stNoKey 3
      else if !lifeMove s.nv.life new then badParam (unkeyed s) via 0
      else authorise (unkeyed s) via s.mbx.nonce 0x77 (p.take 4) (p.drop 4) fun s => replyOk (changeLife s new) via [new.code] := by
    intro e he
    subst he
    rw [lifecycleBody_plain hz, hc]
    rfl
  refine ⟨fun hk => lifecycleSet_denied h fun e he => ?_, fun key hk => ⟨fun hm => lifecycleSet_denied h fun e he => ?_,
    fun hm => ?_⟩⟩
  · rw [hplain e he, hk]
    rfl
  · rw [hplain e he, hk, hm]
    rfl
  · have hgo : ∀ e, e.payload = p → lifecycleBody (unkeyed s) via s.mbx.nonce e = authorise (unkeyed s) via s.mbx.nonce 0x77
        (p.take 4) (p.drop 4) fun s => replyOk (changeLife s new) via [new.code] := fun e he => by
      rw [hplain e he, hk, hm]
      rfl
    have hk' : (unkeyed s).nv.lifeKey = some key := hk
    refine ⟨fun hn => ?_, fun n hn => ⟨fun ht => lifecycleSet_denied h fun e he => ?_, fun ht => ?_⟩⟩
    · obtain ⟨t, hrun, hd⟩ := lifecycleSet_denied h fun e he => by
        rw [hgo e he, hn]
        exact authorise_noNonce hk'
      have hs : unkeyed s = s := by
        unfold unkeyed
        rw [← hn]
      exact ⟨t, hrun, hs ▸ hd⟩
    · rw [hgo e he, hn, authorise_key hk']
      exact if_neg ht
    · obtain ⟨e, he, -, hrun⟩ := lifecycleSet_starts h
      refine ⟨_, hrun, ?_⟩
      rw [hgo e he, hn, authorise_key hk']
      exact if_pos ht

theorem keyKind_iff (k : Byte) : keyKind k = true ↔ k = 1 ∨ k = 2 ∨ k = 3 := by
  unfold keyKind
  rw [Bool.or_eq_true, Bool.or_eq_true, beq_iff_eq, beq_iff_eq, beq_iff_eq, or_assoc]
  rfl

/-- A KEY_LOAD without a tag whose fields are right stores its key. -/
theorem keyLoad_stores (h : Starts s via 0x75#8 p) (hk : keyKind (byteAt p 0) = true)
    (hs : (byteAt p 1).toNat < keySlots (byteAt p 0)) (hl : (byteAt p 2).toNat = keyLength (byteAt p 0)) (hz : byteAt p 3 = 0)
    (hu : ¬ (byteAt p 0 = 3 ∧ s.nv.lifeKey.isSome = true)) : ∃ t, Runs (.keyLoad via) s t ∧
      (entryOf t via).map (·.st) = some (.replied 0x00#8 []) ∧
      t.nv = keysWith s.nv (byteAt p 0) (byteAt p 1).toNat (bytesAt p 4 (keyLength (byteAt p 0))) ∧
      t = { s with nv := t.nv, mbx := { s.mbx with queue := t.mbx.queue }, meas := t.meas, jrn := t.jrn, stat := t.stat } := by
  obtain ⟨e, he, hentry, hrun⟩ := keyLoad_starts h
  subst he
  rw [if_neg hu, keyLoadBody_valid hk hs hl hz, if_neg hu] at hrun
  obtain ⟨hreply, hnv, -, heq⟩ := key_stored hentry _ _ _ rfl
  exact ⟨_, hrun, hreply, hnv, heq⟩

/-- An actuator key fills its slot and leaves the others. -/
theorem keyLoad_actuator (h : Starts s via 0x75#8 p) (hp : p.length = 36) (hk : byteAt p 0 = 1) (hs : (byteAt p 1).toNat < 8)
    (hl : byteAt p 2 = 32) (hz : byteAt p 3 = 0) : ∃ t, Runs (.keyLoad via) s t ∧ t.nv = { s.nv with actKeys := t.nv.actKeys } ∧
      (entryOf t via).map (·.st) = some (.replied 0x00#8 []) ∧
      ∀ k, tabFind t.nv.actKeys k = if k = (byteAt p 1).toNat then some (p.drop 4) else tabFind s.nv.actKeys k := by
  obtain ⟨t, hrun, hreply, hnv, -⟩ := keyLoad_stores h ((keyKind_iff _).2 (.inl hk)) (by rw [hk]; exact hs)
    (by rw [hk, hl]; rfl) hz (by rw [hk]; simp)
  have hkey : bytesAt p 4 (keyLength (byteAt p 0)) = p.drop 4 := by
    rw [hk]
    exact List.take_of_length_le (by rw [List.length_drop, hp]; decide)
  rw [hkey, hk] at hnv
  refine ⟨t, hrun, by rw [hnv]; rfl, hreply, fun k => ?_⟩
  rw [hnv]
  exact tabFind_put _ _ _ _

/-- A KEY_LOAD that no tag guards: its fields in order, and its key stored. -/
theorem keyLoad_plain (h : Starts s via 0x75#8 p) (hk : byteAt p 0 = 1 ∨ byteAt p 0 = 2 ∨ (byteAt p 0 = 3 ∧ s.nv.lifeKey = none)) :
    (keySlots (byteAt p 0) ≤ (byteAt p 1).toNat → ∃ t, Runs (.keyLoad via) s t ∧ Denies s t via 0x05#8 9) ∧
    ((byteAt p 1).toNat < keySlots (byteAt p 0) → (byteAt p 2).toNat ≠ keyLength (byteAt p 0) →
      ∃ t, Runs (.keyLoad via) s t ∧ Denies s t via 0x05#8 10) ∧
    ((byteAt p 1).toNat < keySlots (byteAt p 0) → (byteAt p 2).toNat = keyLength (byteAt p 0) → byteAt p 3 ≠ 0 →
      ∃ t, Runs (.keyLoad via) s t ∧ Denies s t via 0x05#8 11) ∧
    ((byteAt p 2).toNat = keyLength (byteAt p 0) → byteAt p 3 = 0 → (byteAt p 1).toNat < keySlots (byteAt p 0) →
      ∃ t, Runs (.keyLoad via) s t ∧ (entryOf t via).map (·.st) = some (.replied 0x00#8 []) ∧
        t.nv = keysWith s.nv (byteAt p 0) (byteAt p 1).toNat (bytesAt p 4 (keyLength (byteAt p 0))) ∧
        t = { s with nv := t.nv, mbx := { s.mbx with queue := t.mbx.queue }, meas := t.meas, jrn := t.jrn, stat := t.stat }) := by
  have hkind : keyKind (byteAt p 0) = true := (keyKind_iff _).2 (hk.imp_right fun h => h.imp_right And.left)
  have hu : ¬ (byteAt p 0 = 3 ∧ s.nv.lifeKey.isSome = true) := by
    rintro ⟨h3, hs⟩
    rcases hk with h1 | h2 | ⟨-, hn⟩
    · rw [h1] at h3
      exact absurd h3 (by decide)
    · rw [h2] at h3
      exact absurd h3 (by decide)
    · rw [hn] at hs
      cases hs
  refine ⟨fun hs => keyLoad_denied h (if_neg hu) fun e he => ?_, fun hs hl => keyLoad_denied h (if_neg hu) fun e he => ?_,
    fun hs hl hz => keyLoad_denied h (if_neg hu) fun e he => ?_, fun hl hz hs => keyLoad_stores h hkind hs hl hz hu⟩ <;> subst he
  · exact keyLoadBody_slot hkind hs
  · exact keyLoadBody_length hkind hs hl
  · exact keyLoadBody_reserved hkind hs hl hz

/-- A KEY_LOAD that replaces the lifecycle key, by nonce and tag. -/
theorem keyLoad_tagged (h : Starts s via 0x75#8 p) (hk : byteAt p 0 = 3) {key : List Byte} (hkey : s.nv.lifeKey = some key)
    (hs : byteAt p 1 = 0) (hl : byteAt p 2 = 32) (hz : byteAt p 3 = 0) :
    (s.mbx.nonce = none → ∃ t, Runs (.keyLoad via) s t ∧ Denies s t via 0x0A#8 0) ∧
    ∀ m, s.mbx.nonce = some m →
      (p.drop 36 ≠ hmacSha256 key (m ++ padTo 8 s.nv.serial ++ [0x75#8] ++ p.take 36) →
        ∃ t, Runs (.keyLoad via) s t ∧ Denies (unkeyed s) t via 0x08#8 0) ∧
      (p.drop 36 = hmacSha256 key (m ++ padTo 8 s.nv.serial ++ [0x75#8] ++ p.take 36) →
        ∃ t, Runs (.keyLoad via) s t ∧ t.nv = { s.nv with lifeKey := some (bytesAt p 4 32) } ∧ t.mbx.nonce = none ∧
          (entryOf t via).map (·.st) = some (.replied 0x00#8 [])) := by
  have hu : byteAt p 0 = 3 ∧ s.nv.lifeKey.isSome = true := ⟨hk, by rw [hkey]; rfl⟩
  have hkey' : (unkeyed s).nv.lifeKey = some key := hkey
  have hgo : ∀ e, e.payload = p → keyLoadBody (unkeyed s) via s.mbx.nonce e =
      authorise (unkeyed s) via s.mbx.nonce 0x75 (p.take 36) (p.drop 36) fun s =>
        replyOk (storeKey s (byteAt p 0) (byteAt p 1).toNat (bytesAt p 4 (keyLength (byteAt p 0)))) via [] := by
    intro e he
    subst he
    exact (keyLoadBody_valid ((keyKind_iff _).2 (.inr (.inr hk))) (by rw [hk, hs]; decide) (by rw [hk, hl]; rfl) hz).trans (if_pos hu)
  refine ⟨fun hn => ?_, fun m hn => ⟨fun ht => keyLoad_denied h (if_pos hu) fun e he => ?_, fun ht => ?_⟩⟩
  · obtain ⟨t, hrun, hd⟩ := keyLoad_denied h (if_pos hu) fun e he => by
      rw [hgo e he, hn]
      exact authorise_noNonce hkey'
    have hs : unkeyed s = s := by
      unfold unkeyed
      rw [← hn]
    exact ⟨t, hrun, hs ▸ hd⟩
  · rw [hgo e he, hn, authorise_key hkey']
    exact if_neg ht
  · obtain ⟨e, he, hentry, hrun⟩ := keyLoad_starts h
    have hb : keyLoadBody (unkeyed s) via s.mbx.nonce e = replyOk (storeKey (unkeyed s) (byteAt p 0) (byteAt p 1).toNat
        (bytesAt p 4 (keyLength (byteAt p 0)))) via [] := by
      rw [hgo e he, hn, authorise_key hkey']
      exact if_pos ht
    rw [if_pos hu, hb] at hrun
    have hentry' : entryOf (unkeyed s) via = some e := hentry
    obtain ⟨hreply, hnv, hnonce, -⟩ := key_stored hentry' (byteAt p 0) (byteAt p 1).toNat
      (bytesAt p 4 (keyLength (byteAt p 0))) rfl
    exact ⟨_, hrun, hnv.trans (by rw [hk]; rfl), hnonce, hreply⟩

end Sys2Proof.Machine
end

section
/-! The settlement of O54. -/

namespace Sys2Proof.Machine

open Sys2Proof.Claims

theorem runs_productionTestEnd (s : State) : Runs .productionTestEnd s
    (if s.nv.life = .manufacture then changeLife (generateKey s) .commission else s) := rfl

theorem runs_fuseRepair_idle {s : State} (rows : Two (List W16)) (blocks : List W32)
    (h : s.nv.life ≠ .manufacture ∨ portLive s = false) : Runs (.fuseRepair rows blocks) s s := by
  refine congrArg Host.Outcome.next ?_
  split
  · next hm => exact if_neg (by simp [h.resolve_left (not_not_intro hm)])
  · rfl

/-- The end of production test leaves MANUFACTURE with an attestation key (R73, R407). -/
theorem productionTestEnd_leaves {s : State} (h : s.nv.life = .manufacture) : ∃ t, Runs .productionTestEnd s t ∧
    t.nv.attKey.isSome = true ∧ (∀ k, s.nv.attKey = some k → t.nv.attKey = some k ∧ t.drawn = s.drawn) ∧
    t.host = { s.host with lifeReg := 0x02#8 } ∧
    t = { s with nv := { s.nv with life := .commission, attKey := t.nv.attKey }, drawn := t.drawn, host := t.host,
                 meas := t.meas, jrn := t.jrn, stat := t.stat } := by
  obtain ⟨hsome, hsame⟩ := generateKey_attKey s
  have heq := generateKey_eq s
  obtain ⟨j, n, m, hc⟩ := (noted_changeLife (generateKey s) .commission).exists
  refine ⟨changeLife (generateKey s) .commission, (runs_productionTestEnd s).trans (congrArg _ (if_pos h)), ?_⟩
  rw [hc]
  generalize generateKey s = u at *
  rw [heq]
  exact ⟨hsome, hsame, rfl, rfl⟩

/-- In MANUFACTURE fuse repair burns rows that are asked for and not yet replaced, as long as spare rows are left (R426). -/
theorem fuseRepair_burns {s : State} (rows : Two (List W16)) (blocks : List W32) (h : s.nv.life = .manufacture) (hl : portLive s = true) :
    ∃ new : Two (List W16), Runs (.fuseRepair rows blocks) s { s with nv := { s.nv with
        fuses := s.nv.fuses ++ new.a.map (fun r => r.setWidth 32) ++ new.b.map (fun r => r.setWidth 32 ||| 0x10000#32)
        fuseRows := ⟨s.nv.fuseRows.a ++ new.a, s.nv.fuseRows.b ++ new.b⟩
        spareBlocks := s.nv.spareBlocks ++ blocks } } ∧
      ∀ c, (∀ r ∈ new.at c, r ∈ rows.at c ∧ r ∉ s.nv.fuseRows.at c) ∧
        ((s.nv.fuseRows.at c).length ≤ 32 → (s.nv.fuseRows.at c).length + (new.at c).length ≤ 32) ∧
        ((s.nv.fuseRows.at c).length + (rows.at c).length ≤ 32 → ∀ r ∈ rows.at c, r ∈ s.nv.fuseRows.at c ++ new.at c) := by
  refine ⟨⟨burnRows s.nv.fuseRows.a rows.a, burnRows s.nv.fuseRows.b rows.b⟩, congrArg _ ((if_pos h).trans (if_pos hl)), fun c => ?_⟩
  cases c
  · exact ⟨fun r hr => mem_burnRows hr, length_burnRows_le _ _, burnRows_covers⟩
  · exact ⟨fun r hr => mem_burnRows hr, length_burnRows_le _ _, burnRows_covers⟩

/-- Settles O54, command by command. -/
theorem keysAndLifecycleAct : Obligations.KeysAndLifecycleAct := by
  intro via s p
  refine ⟨nonceGet_starts, rfl, lifecycleSet_fields, fun h hz new hc => ?_, keyLoad_actuator, fun h n hn => ?_,
    productionTestEnd_leaves, fun h => (runs_productionTestEnd s).trans (congrArg _ (if_neg h)),
    fun rows blocks => ⟨runs_fuseRepair_idle rows blocks, fuseRepair_burns rows blocks⟩⟩
  · obtain ⟨hnokey, hjudged⟩ := lifecycleSet_judged h hz hc
    refine ⟨hnokey, fun key hk => ?_⟩
    obtain ⟨hmove, hgo⟩ := hjudged key hk
    refine ⟨hmove, fun hm => ?_⟩
    obtain ⟨hnonce, htag⟩ := hgo hm
    refine ⟨hnonce, fun n hn => ⟨(htag n hn).1, fun ht => ?_⟩⟩
    obtain ⟨t, hrun, heq⟩ := (htag n hn).2 ht
    obtain ⟨e, -, hentry, -⟩ := lifecycleSet_starts h
    exact ⟨t, hrun, lifecycle_moved hentry new heq⟩
  · subst hn
    refine ⟨fun hk => ?_, fun hk => ?_, fun hk hsome hn hs hl hz => ?_, fun key m hk hkey hn _ hs hl hz => ?_⟩
    · have hkind : keyKind (byteAt p 0) = false := by
        rw [← Bool.not_eq_true, keyKind_iff]
        rintro (e | e | e) <;> rw [e] at hk <;> simp at hk
      have hu : ¬ (byteAt p 0 = 3 ∧ s.nv.lifeKey.isSome = true) := fun e => by
        rw [e.1] at hkind
        cases hkind
      exact keyLoad_denied h (if_neg hu) fun e he => keyLoadBody_kind (he ▸ hkind)
    · obtain ⟨hslot, hlen, hres, hstore⟩ := keyLoad_plain h hk
      refine ⟨fun slots hslots => ?_, fun _ hl hz hs => ?_⟩
      · subst hslots
        exact ⟨hslot, hlen, hres⟩
      · exact hstore hl hz hs
    · obtain ⟨key, hkey⟩ := Option.isSome_iff_exists.1 hsome
      exact (keyLoad_tagged h hk hkey hs hl hz).1 hn
    · exact (keyLoad_tagged h hk hkey hs hl hz).2 m hn

end Sys2Proof.Machine
end

section
/-! SUPPORT. The blocks of a self-test run (R417, R431, R433): what one may leave, and which of them take a lane out of service. -/

namespace Sys2Proof.Machine

/-- What the blocks of a self-test may leave beside crumbs, counts and measurements: fatal faults, journal pages marked bad, the lanes'
records, and the fabric, the host's port, the CAN FD controller and the indicator port as they are re-initialised. -/
def Tested (s t : State) : Prop :=
  t = { s with
    core := { s.core with fatal := t.core.fatal }
    nv := { s.nv with badPages := t.nv.badPages, pages := t.nv.pages, journal := t.nv.journal, openPage := t.nv.openPage }
    lane := t.lane, fab := t.fab, host := t.host, can := t.can, ind := t.ind, jrn := t.jrn
    stat := { s.stat with live := t.stat.live, epoch := t.stat.epoch }, meas := t.meas }

theorem Tested.refl (s : State) : Tested s s := rfl

theorem Tested.trans {s t u : State} (h : Tested s t) (k : Tested t u) : Tested s u := by
  unfold Tested at *
  rw [k, h]

theorem Noted.tested {s t : State} (h : Noted s t) : Tested s t := by
  rw [h]
  rfl

theorem Tested.ite {s a b : State} (c : Prop) [Decidable c] (ha : Tested s a) (hb : Tested s b) :
    Tested s (if c then a else b) := pred_ite (P := Tested s) c ha hb

theorem Tested.foldl {α : Type} {f : State → α → State} (h : ∀ s x, Tested s (f s x)) (l : List α) (s : State) :
    Tested s (l.foldl f s) := by
  induction l generalizing s with
  | nil => exact .refl s
  | cons x r ih => exact (h s x).trans (ih _)

/-! ## One block -/

theorem tested_fatalFault (s : State) (code : Byte) : Tested s (fatalFault s code) := by
  unfold fatalFault
  exact .ite _ (.refl s) (.trans (t := { s with core := { s.core with fatal := s.core.fatal ++ [code] } }) rfl
    ((noted_crumb _ _ _ _ _).tested.trans rfl))

theorem tested_retireLane (s : State) (l : Side) (code : Byte) : Tested s (retireLane s l code) := by
  have h : ∀ f v, Tested s (measEvent (setIrq0 (crumb (modLane s l f) crRetire (chanLane l) code [0x02#8]) irqFault) 0x05 v []) :=
    fun f v => .trans (t := modLane s l f) rfl ((noted_crumb _ _ _ _ _).tested.trans
      (.trans (t := setIrq0 (crumb (modLane s l f) crRetire (chanLane l) code [0x02#8]) irqFault) rfl (noted_measEvent _ _ _ _).tested))
  unfold retireLane
  exact .ite _ (.refl s) (.ite _ ((h _ _).trans (tested_fatalFault _ _)) (h _ _))

theorem tested_retireAtOnce (s : State) (l : Side) (code : Byte) : Tested s (retireAtOnce s l code) := by
  have h : ∀ f n v, Tested s (setIrq0 (crumb (modLanes s f) crAnomaly n code v) irqFault) := fun f n v =>
    .trans (t := modLanes s f) rfl ((noted_crumb _ _ _ _ _).tested.trans rfl)
  unfold retireAtOnce
  exact .ite _ (.refl s) ((h _ _ _).trans (tested_retireLane _ _ _))

theorem tested_laneReport (s : State) (r : Rep) : Tested s (laneReport s r) := rfl

theorem tested_testCrumb (s : State) (source : Byte) (r : Byte × Byte × W32) : Tested s (testCrumb s source r) :=
  (noted_crumb _ _ _ _ _).tested

theorem tested_raiseCrcUnits (s : State) (units : BitVec 4) : Tested s (raiseCrcUnits s units) :=
  .foldl (fun s i => (rfl : Tested s (setIrq1 s (4 + i)))) _ _

theorem tested_permanentEffect (s : State) (r : BlockRun) (b : Nat) : Tested s (permanentEffect s r b) := by
  unfold permanentEffect
  exact .ite _ rfl (.ite _ (.foldl (fun s _ => tested_laneReport s _) _ _) (.ite _ rfl
    (.ite _ (tested_raiseCrcUnits _ _) (.foldl (fun s l => tested_retireAtOnce s l _) _ _))))

theorem tested_blockOutcome (source : Byte) (w : LockWindow) (runs : List BlockRun) (s : State) (b : Nat) :
    Tested s (blockOutcome source w runs s b) := by
  unfold blockOutcome
  dsimp only
  split
  · exact .refl s
  · exact .refl s
  · exact tested_testCrumb _ _ _
  · exact (tested_testCrumb _ _ _).trans (.foldl (fun s _ => tested_laneReport s _) _ _)
  · exact (tested_testCrumb _ _ _).trans (tested_permanentEffect _ _ _)

theorem tested_markBad (s : State) (p : Nat) : Tested s (markBad s p) := by
  unfold markBad
  refine .ite _ (.refl s) (.trans (t := { s with nv := { s.nv with
      badPages := s.nv.badPages ++ [p], pages := tabDel s.nv.pages p
      journal := memWriteBytes s.nv.journal (pageBytes * p) (stateHeader s.nv p 0x03)
      openPage := if s.nv.openPage = some p then none else s.nv.openPage } }) rfl (noted_crumb _ _ _ _ _).tested)

theorem tested_scanPages (s : State) (runs : List BlockRun) (set : List Nat) : Tested s (scanPages s runs set) :=
  .ite _ (.foldl (fun s _ => tested_markBad s _) _ _) (.refl s)

theorem tested_reinitBlock (s : State) (b : Nat) : Tested s (reinitBlock s b) :=
  .ite _ (.ite _ rfl rfl) (.ite _ rfl (.ite _ rfl (.ite _ rfl (.refl s))))

theorem tested_runBlock (source : Byte) (w : LockWindow) (runs : List BlockRun) (s : State) (b : Nat) :
    Tested s (runBlock source w runs s b) :=
  .ite _ (.refl s) ((tested_blockOutcome _ _ _ _ _).trans ((tested_scanPages _ _ _).trans (tested_reinitBlock _ _)))

theorem tested_runUntil (source : Byte) (w : LockWindow) (runs : List BlockRun) (l : List Nat) (s : State) :
    Tested s (runUntil source w runs l s).1 := by
  induction l generalizing s with
  | nil => exact .refl s
  | cons b r ih =>
    unfold runUntil
    dsimp only
    split
    · exact (tested_runBlock _ _ _ _ _).trans (ih _)
    · exact tested_runBlock _ _ _ _ _

/-! ## The lanes in service -/

/-- Which lanes are retired. -/
def lanesOut (s : State) : Side → Bool := fun l => (s.lane.at l).retired

theorem bothInService_lanesOut {s t : State} (h : lanesOut t = lanesOut s) : bothInService t = bothInService s := by
  have one : ∀ l, laneLive t l = laneLive s l := fun l => congrArg (fun f : Side → Bool => !f l) h
  unfold bothInService
  rw [one, one]

theorem lanesOut_lane {s t : State} (h : t.lane = s.lane) : lanesOut t = lanesOut s := by
  unfold lanesOut
  rw [h]

theorem Noted.lane {s t : State} (h : Noted s t) : t.lane = s.lane := by rw [h]

theorem lanesOut_modLanes (s : State) {f : LaneSt → LaneSt} (hf : ∀ x, (f x).retired = x.retired) :
    lanesOut (modLanes s f) = lanesOut s := by
  funext l
  exact (congrArg LaneSt.retired (Two.at_map _ _ _)).trans (hf _)

theorem lanesOut_laneReport (s : State) (r : Rep) : lanesOut (laneReport s r) = lanesOut s := lanesOut_modLanes s fun _ => rfl

theorem lanesOut_foldl {α : Type} {f : State → α → State} (h : ∀ s x, lanesOut (f s x) = lanesOut s) (l : List α) (s : State) :
    lanesOut (l.foldl f s) = lanesOut s := by
  induction l generalizing s with
  | nil => rfl
  | cons x r ih => exact (ih _).trans (h s x)

theorem fatalFault_lane (s : State) (code : Byte) : (fatalFault s code).lane = s.lane := by
  unfold fatalFault
  split
  · rfl
  · exact (noted_crumb _ _ _ _ _).lane

theorem lanesOut_retireLane (s : State) (l : Side) (code : Byte) (k : Side) :
    lanesOut (retireLane s l code) k = (decide (k = l) || lanesOut s k) := by
  have hm : ∀ f : LaneSt → LaneSt, (∀ x, (f x).retired = true) → lanesOut (modLane s l f) k = (decide (k = l) || lanesOut s k) :=
    fun f hf => by
      unfold lanesOut
      rw [modLane_lane, Two.at_set]
      by_cases hk : k = l <;> simp [hk, hf]
  have hr : ∀ (u : State) (v : List Byte),
      lanesOut (measEvent (setIrq0 (crumb u crRetire (chanLane l) code [0x02#8]) irqFault) 0x05 v []) k = lanesOut u k := fun u v => by
    have hc : (setIrq0 (crumb u crRetire (chanLane l) code [0x02#8]) irqFault).lane = u.lane := (noted_crumb _ _ _ _ _).lane
    exact congrFun (lanesOut_lane ((noted_measEvent _ _ _ _).lane.trans hc)) k
  unfold retireLane
  split
  · next h =>
    by_cases hk : k = l
    · rw [hk]
      exact h.trans (by simp)
    · simp [hk]
  · dsimp only
    split
    · exact (congrFun (lanesOut_lane (fatalFault_lane _ _)) k).trans ((hr _ _).trans (hm _ fun _ => rfl))
    · exact (hr _ _).trans (hm _ fun _ => rfl)

theorem lanesOut_retireAtOnce (s : State) (l : Side) (code : Byte) (k : Side) :
    lanesOut (retireAtOnce s l code) k = (decide (k = l) || lanesOut s k) := by
  have h : ∀ f n v, (∀ x, (f x).retired = x.retired) → lanesOut (setIrq0 (crumb (modLanes s f) crAnomaly n code v) irqFault) = lanesOut s :=
    fun f n v hf => (lanesOut_lane (noted_crumb _ _ _ _ _).lane).trans (lanesOut_modLanes s hf)
  unfold retireAtOnce
  split
  · next hr =>
    by_cases hk : k = l
    · rw [hk]
      exact hr.trans (by simp)
    · simp [hk]
  · dsimp only
    refine (lanesOut_retireLane _ _ _ _).trans (congrArg (decide (k = l) || ·) (congrFun (h _ _ _ ?_) k))
    exact fun _ => rfl

theorem lanesOut_retireAll (ls : List Side) (s : State) (code : Byte) (k : Side) :
    lanesOut (ls.foldl (fun s l => retireAtOnce s l code) s) k = (decide (k ∈ ls) || lanesOut s k) := by
  induction ls generalizing s with
  | nil => simp
  | cons l r ih =>
    rw [List.foldl_cons, ih, lanesOut_retireAtOnce]
    by_cases hk : k = l <;> simp [hk]

theorem lanesOut_permanentEffect (s : State) (r : BlockRun) (b : Nat) (k : Side) :
    lanesOut (permanentEffect s r b) k = (decide (k ∈ blockLanes b) || lanesOut s k) := by
  have none : blockLanes b = [] → ∀ t, lanesOut t = lanesOut s → lanesOut t k = (decide (k ∈ blockLanes b) || lanesOut s k) :=
    fun hb t ht => by rw [hb, ht]; simp
  unfold permanentEffect
  split
  · next h => exact none (by rw [h]; rfl) _ rfl
  split
  · next h =>
    refine none (by rcases h with h | h <;> rw [h] <;> rfl) _ (lanesOut_foldl (fun s _ => lanesOut_laneReport s _) _ _)
  split
  · next h => exact none (by rw [h]; rfl) _ rfl
  split
  · next h => exact none (by rw [h]; rfl) _ (lanesOut_foldl (fun s i => (rfl : lanesOut (setIrq1 s (4 + i)) = lanesOut s)) _ _)
  · exact lanesOut_retireAll _ _ _ _

/-- A block takes out of service the lanes that own it, where it fails twice (R431). -/
theorem lanesOut_blockOutcome (source : Byte) (w : LockWindow) (runs : List BlockRun) (s : State) (b : Nat) (k : Side) :
    lanesOut (blockOutcome source w runs s b) k = (decide (blockEnd w runs b = .permanent ∧ k ∈ blockLanes b) || lanesOut s k) := by
  have hc : ∀ r, lanesOut (testCrumb s source r) = lanesOut s := fun r => lanesOut_lane (noted_crumb _ _ _ _ _).lane
  unfold blockOutcome
  dsimp only
  split
  · next h => simp [h]
  · next h => simp [h]
  · next h => rw [hc]; simp [h]
  · next h => rw [lanesOut_foldl (fun s _ => lanesOut_laneReport s _), hc]; simp [h]
  · next h => rw [lanesOut_permanentEffect, hc]; simp [h]

theorem lanesOut_markBad (s : State) (p : Nat) : lanesOut (markBad s p) = lanesOut s := by
  unfold markBad
  split
  · rfl
  · exact lanesOut_lane (noted_crumb _ _ _ _ _).lane

theorem lanesOut_scanPages (s : State) (runs : List BlockRun) (set : List Nat) : lanesOut (scanPages s runs set) = lanesOut s := by
  unfold scanPages
  split
  · exact lanesOut_foldl (fun s _ => lanesOut_markBad s _) _ _
  · rfl

theorem lanesOut_reinitBlock (s : State) (b : Nat) : lanesOut (reinitBlock s b) = lanesOut s := by
  unfold reinitBlock syncIrq
  repeat' split
  all_goals rfl

theorem lanesOut_runBlock (source : Byte) (w : LockWindow) (runs : List BlockRun) (s : State) (b : Nat) (k : Side) :
    lanesOut (runBlock source w runs s b) k = (decide (blockEnd w runs b = .permanent ∧ k ∈ blockLanes b) || lanesOut s k) := by
  unfold runBlock
  split
  · next h => simp [h]
  · rw [lanesOut_reinitBlock, lanesOut_scanPages, lanesOut_blockOutcome]

/-- The block costs no lane: it has none, or it does not fail twice. -/
def sparesLanes (w : LockWindow) (runs : List BlockRun) (b : Nat) : Prop := blockLanes b ≠ [] → blockEnd w runs b ≠ .permanent

theorem bothInService_iff (s : State) : bothInService s = true ↔ ∀ l, lanesOut s l = false := by
  unfold bothInService laneLive
  rw [Bool.and_eq_true, Bool.not_eq_true', Bool.not_eq_true']
  exact ⟨fun h l => by cases l; exacts [h.1, h.2], fun h => ⟨h .a, h .b⟩⟩

theorem bothInService_runBlock {s : State} (hs : bothInService s = true) (source : Byte) (w : LockWindow) (runs : List BlockRun) (b : Nat) :
    bothInService (runBlock source w runs s b) = true ↔ sparesLanes w runs b := by
  rw [bothInService_iff] at *
  constructor
  · intro h hne hp
    obtain ⟨l, hl⟩ := List.exists_mem_of_ne_nil _ hne
    have := h l
    rw [lanesOut_runBlock, hs l] at this
    simp [hp, hl] at this
  · intro h l
    rw [lanesOut_runBlock, hs l]
    simp only [Bool.or_false, decide_eq_false_iff_not]
    exact fun ⟨hp, hl⟩ => h (List.ne_nil_of_mem hl) hp

/-- A run ends at the first block that costs a lane, and no block after it is run (R433). -/
theorem runUntil_spec (source : Byte) (w : LockWindow) (runs : List BlockRun) (l : List Nat) {s : State} (hs : bothInService s = true) :
    (bothInService (runUntil source w runs l s).1 = true ↔ ∀ x ∈ l, sparesLanes w runs x) ∧
    (∃ rest, l = (runUntil source w runs l s).2 ++ rest ∧ (bothInService (runUntil source w runs l s).1 = true → rest = [])) ∧
    ∀ x ∈ (runUntil source w runs l s).2.dropLast, sparesLanes w runs x := by
  induction l generalizing s with
  | nil => exact ⟨by simp [runUntil, hs], ⟨[], rfl, fun _ => rfl⟩, by simp [runUntil]⟩
  | cons b r ih =>
    have hb := bothInService_runBlock hs source w runs b
    unfold runUntil
    dsimp only
    split
    · next ht =>
      obtain ⟨h1, ⟨rest, h2, h3⟩, h4⟩ := ih ht
      refine ⟨by simp [h1, hb.1 ht], ⟨rest, congrArg (b :: ·) h2, h3⟩, fun x hx => ?_⟩
      cases hu : (runUntil source w runs r (runBlock source w runs s b)).2 with
      | nil => rw [hu] at hx; cases hx
      | cons y ys =>
        rw [hu, List.dropLast_cons_of_ne_nil (by simp)] at hx
        rcases List.mem_cons.1 hx with rfl | hx
        · exact hb.1 ht
        · exact h4 x (by rw [hu]; exact hx)
    · next ht =>
      have hn : ¬ sparesLanes w runs b := fun h => ht (hb.2 h)
      exact ⟨⟨fun h => absurd h ht, fun h => absurd (h b List.mem_cons_self) hn⟩, ⟨r, rfl, fun h => absurd h ht⟩, by simp⟩

end Sys2Proof.Machine
end

section
/-! The self-tests that a command or a shutdown runs (O52). -/

namespace Sys2Proof.Machine

open Sys2Proof.Claims

theorem Tested.test {s t : State} (h : Tested s t) : t.test = s.test := by rw [h]

theorem Tested.mbx {s t : State} (h : Tested s t) : t.mbx = s.mbx := by rw [h]

/-! ## SELFTEST_RUN -/

section
variable {s : State} {via : Via} {b : Byte}

theorem selftestRun_unknown (h : Starts s via 0x30#8 [b]) (hb : knownBlock b = false) :
    ∃ t, Runs (.selftestRun via) s t ∧ Denies s t via 0x05#8 8 := by
  obtain ⟨e, he, -, -, hrun⟩ := runs_of_starts h
  refine ⟨_, hrun _, ?_⟩
  rw [he, show byteAt [b] 0 = b from rfl]
  dsimp only
  rw [hb]
  exact denies_replyErr _ _ _ _

theorem selftestRun_lane (h : Starts s via 0x30#8 [b]) (hb : knownBlock b = true) (hs : bothInService s = false) :
    ∃ t, Runs (.selftestRun via) s t ∧ Denies s t via 0x0F#8 2 := by
  obtain ⟨e, he, -, -, hrun⟩ := runs_of_starts h
  refine ⟨_, hrun _, ?_⟩
  rw [he, show byteAt [b] 0 = b from rfl]
  dsimp only
  rw [hb, hs]
  exact denies_replyErr _ _ _ _

theorem selftestRun_taken (h : Starts s via 0x30#8 [b]) (hb : knownBlock b = true) (hs : bothInService s = true) :
    ∃ t, Runs (.selftestRun via) s t ∧
      EntryNow { s with test := { s.test with asked := some (some via, b) } } t via .running := by
  obtain ⟨e, he, -, -, hrun⟩ := runs_of_starts h
  refine ⟨_, hrun _, ?_⟩
  rw [he, show byteAt [b] 0 = b from rfl]
  dsimp only
  rw [hb, hs]
  exact entryNow_setQ { s with test := { s.test with asked := some (some via, b) } } via .running

end

/-! ## The end of a run -/

/-- What the end of a run leaves: the run is over, the lanes serve as they did, and the one who asked is answered (R419 step 5). -/
structure TestEnds (s t : State) (o : Option Via) (st : Byte) (p : List Byte) : Prop where
  test : t.test = { s.test with asked := none, holdNext := false }
  lanes : lanesOut t = lanesOut s
  quiet : o = none → t.mbx.queue = s.mbx.queue
  answer : ∀ via, o = some via → ∀ e, entryOf t via = some e → e.st = .afterHold st p

theorem reloadLane_retired (l : LaneSt) : (reloadLane l).retired = l.retired := by
  unfold reloadLane
  split
  · split <;> rfl
  · rfl

theorem testHandshake_keeps (ok : Two Bool) (s : State) (c : Side) : (testHandshake ok s c).test = s.test ∧
    (testHandshake ok s c).mbx = s.mbx ∧ lanesOut (testHandshake ok s c) = lanesOut s := by
  unfold testHandshake
  split
  · exact ⟨rfl, rfl, rfl⟩
  · split
    · exact ⟨rfl, rfl, rfl⟩
    · exact ⟨rfl, rfl, lanesOut_laneReport _ _⟩

theorem endTest_keeps (s : State) (env : HoldEndEnv) : (endTest s env).test = { s.test with asked := none, holdNext := false } ∧
    (endTest s env).mbx = s.mbx ∧ lanesOut (endTest s env) = lanesOut s := by
  have h1 : lanesOut { modLanes s reloadLane with test := { s.test with asked := none, holdNext := false } } = lanesOut s :=
    lanesOut_modLanes s reloadLane_retired
  have step : ∀ u : State, u.test = { s.test with asked := none, holdNext := false } → u.mbx = s.mbx → lanesOut u = lanesOut s →
      (testHandshake env.handshakeOk (testHandshake env.handshakeOk u .a) .b).test = { s.test with asked := none, holdNext := false } ∧
      (testHandshake env.handshakeOk (testHandshake env.handshakeOk u .a) .b).mbx = s.mbx ∧
      lanesOut (testHandshake env.handshakeOk (testHandshake env.handshakeOk u .a) .b) = lanesOut s := fun u ht hm hl => by
    obtain ⟨ta, ma, la⟩ := testHandshake_keeps env.handshakeOk u .a
    obtain ⟨tb, mb, lb⟩ := testHandshake_keeps env.handshakeOk (testHandshake env.handshakeOk u .a) .b
    exact ⟨tb.trans (ta.trans ht), mb.trans (ma.trans hm), lb.trans (la.trans hl)⟩
  unfold endTest
  dsimp only
  split
  · exact step _ rfl rfl h1
  · exact step _ ((tested_fatalFault _ _).test.trans rfl) ((tested_fatalFault _ _).mbx.trans rfl)
      ((lanesOut_lane (fatalFault_lane _ _)).trans h1)

theorem testEnds_replyAfterHold (s : State) (env : HoldEndEnv) (o : Option Via) (st : Byte) (p : List Byte) :
    TestEnds s (replyAfterHold (endTest s env) o st p) o st p := by
  obtain ⟨ht, hm, hl⟩ := endTest_keeps s env
  cases o with
  | none => exact ⟨ht, hl, fun _ => congrArg MbxSt.queue hm, fun _ h => (by cases h)⟩
  | some v =>
    refine ⟨ht, hl, fun h => (by cases h), fun via h e he => ?_⟩
    cases h
    have he' : entryOf (setQ (endTest s env) v (.afterHold st p)) v = some e := he
    rw [entryOf_setQ] at he'
    obtain ⟨x, -, rfl⟩ := Option.map_eq_some_iff.1 he'
    rfl

/-! ## COMMAND_SELFTEST_COMPLETE -/

theorem runs_completion_idle {s : State} (runs : List BlockRun) (env : HoldEndEnv) (h : s.test.asked = none ∨ s.test.hold = false) :
    Runs (.commandSelftestComplete runs env) s s := by
  refine (show exec (.commandSelftestComplete runs env) s = execCommandSelftestComplete runs env s from rfl).trans ?_
  unfold execCommandSelftestComplete
  rcases h with h | h
  · rw [h]
  · split
    · rw [h]
      rfl
    · rfl

theorem runs_completion {s : State} {o : Option Via} {b : Byte} (runs : List BlockRun) (env : HoldEndEnv)
    (ha : s.test.asked = some (o, b)) (hh : s.test.hold = true) : Runs (.commandSelftestComplete runs env) s
      (if !bothInService s then abortTest (clearReps s) o env abortLane
      else if s.core.mode ≠ .maintain then abortTest (clearReps s) o env abortMode
      else completeTest s o b runs env) := by
  refine (show exec (.commandSelftestComplete runs env) s = execCommandSelftestComplete runs env s from rfl).trans ?_
  unfold execCommandSelftestComplete
  rw [ha, hh]
  rfl

theorem lanesOut_clearReps (s : State) : lanesOut (clearReps s) = lanesOut s := lanesOut_modLanes _ fun _ => rfl

/-- The state in which the blocks of a run begin. -/
def runBegun (s : State) : State := { clearReps s with drawn := s.drawn + 1 }

/-- What a completed run leaves (R431, R433). -/
theorem completeTest_spec {s : State} (o : Option Via) (b : Byte) (runs : List BlockRun)
    (env : HoldEndEnv) (ran : List Nat) (hran : ran = (runUntil 0x02 s.test.lockouts runs (askedBlocks b) (runBegun s)).2)
    (t : State) (ht : t = completeTest s o b runs env) :
    t.test.asked = none ∧ t.test.holdNext = false ∧ t.test.source = 2 ∧
    t.test.results = runResults s s.test.lockouts runs ran (reportedBlocks b) ∧
    (bothInService t = bothInService (runUntil 0x02 s.test.lockouts runs (askedBlocks b) (runBegun s)).1) ∧
    (o = none → t.mbx.queue = s.mbx.queue) ∧
    (bothInService t = true → ∀ via, o = some via → ∀ e, entryOf t via = some e →
      e.st = .afterHold 0x00#8 (resultsPayload t.test.results)) ∧
    (bothInService t = false → ∀ via, o = some via → ∀ e, entryOf t via = some e → e.st = .afterHold 0x0F#8 (leBytes 4 2)) := by
  subst hran
  have hu := tested_runUntil 0x02 s.test.lockouts runs (askedBlocks b) (runBegun s)
  have hm : (runUntil 0x02 s.test.lockouts runs (askedBlocks b) (runBegun s)).1.mbx = s.mbx := hu.mbx
  have heq : completeTest s o b runs env =
      let u := runUntil 0x02 s.test.lockouts runs (askedBlocks b) (runBegun s)
      let results := runResults s s.test.lockouts runs u.2 (reportedBlocks b)
      let s1 := { u.1 with test := { u.1.test with source := 2, results := results } }
      if bothInService s1 then
        replyAfterHold (endTest (softRepair s1 runs (askedBlocks b)) env) o stOk (resultsPayload results)
      else abortTest s1 o env abortLane := rfl
  rw [heq] at ht
  generalize runUntil 0x02 s.test.lockouts runs (askedBlocks b) (runBegun s) = u at *
  dsimp only at ht
  have hb : bothInService { u.1 with test := { u.1.test with
      source := 2, results := runResults s s.test.lockouts runs u.2 (reportedBlocks b) } } = bothInService u.1 := rfl
  rw [hb] at ht
  split at ht
  · next hin =>
    have he := testEnds_replyAfterHold (softRepair { u.1 with test := { u.1.test with
      source := 2, results := runResults s s.test.lockouts runs u.2 (reportedBlocks b) } } runs (askedBlocks b)) env o stOk
      (resultsPayload (runResults s s.test.lockouts runs u.2 (reportedBlocks b)))
    rw [← ht] at he
    have hl : bothInService t = bothInService u.1 := bothInService_lanesOut he.lanes
    have hres : t.test.results = runResults s s.test.lockouts runs u.2 (reportedBlocks b) := by rw [he.test]; rfl
    refine ⟨by rw [he.test], by rw [he.test], by rw [he.test]; rfl, hres, hl, fun h => (he.quiet h).trans (congrArg MbxSt.queue hm),
      fun _ via hv e hve => ?_, fun h => absurd (hl.symm.trans h) (by rw [hin]; decide)⟩
    rw [hres]
    exact he.answer via hv e hve
  · next hout =>
    have he := testEnds_replyAfterHold { u.1 with test := { u.1.test with
      source := 2, results := runResults s s.test.lockouts runs u.2 (reportedBlocks b) } } env o stAborted (leBytes 4 abortLane)
    have ht' : t = replyAfterHold (endTest { u.1 with test := { u.1.test with
      source := 2, results := runResults s s.test.lockouts runs u.2 (reportedBlocks b) } } env) o stAborted (leBytes 4 abortLane) := ht
    rw [← ht'] at he
    have hl : bothInService t = bothInService u.1 := bothInService_lanesOut he.lanes
    exact ⟨by rw [he.test], by rw [he.test], by rw [he.test], by rw [he.test], hl,
      fun h => (he.quiet h).trans (congrArg MbxSt.queue hm), fun h => absurd (hl.symm.trans h) hout, fun _ => he.answer⟩

/-! ## SHUTDOWN_SELFTEST_COMPLETE -/

theorem Tested.sameClock {s t : State} (h : Tested s t) : SameClock s t := by
  rw [h]
  exact ⟨rfl, rfl, rfl, rfl, rfl, rfl, rfl⟩

/-- The hearth's blocks are the ones that no command and no shutdown runs (R418). -/
theorem setCommand_contains : ∀ x ∈ setFull, setCommand.contains x = !decide (x = 0x08 ∨ x = 0x09) := by decide

theorem shutdownResults (s : State) (w : LockWindow) (runs : List BlockRun) : runResults s w runs setCommand setFull =
    setFull.map fun x => if x = 0x08 ∨ x = 0x09 then idleResult s x else finalResult s w runs x := by
  refine List.map_congr_left fun x hx => ?_
  rw [setCommand_contains x hx]
  by_cases h : x = 0x08 ∨ x = 0x09 <;> simp [h]

/-- The state in which the blocks of the shutdown run have been run. -/
def shutdownRan (s : State) (runs : List BlockRun) : State :=
  setCommand.foldl (runBlock 0x03 s.test.lockouts runs) { s with drawn := s.drawn + 1 }

/-- The token is due where every block passed, both lanes serve and the shutdown did not come out of SAFE_HOLD (R65, R83). -/
theorem tokenDue_iff (u s : State) (w : LockWindow) (runs : List BlockRun) : tokenDue u (setCommand.map (finalResult s w runs)) = true ↔
    (∀ b ∈ setCommand, (finalResult s w runs b).2.1 = 0x00#8) ∧ bothInService u = true ∧ u.test.fromSafeHold = false := by
  unfold tokenDue
  rw [Bool.and_eq_true, Bool.and_eq_true, Bool.not_eq_true', and_assoc, List.all_map, List.all_eq_true]
  simp

theorem finishShutdown_spec (s : State) (runs : List BlockRun) (w : LockWindow) (hw : w = s.test.lockouts) (t : State)
    (ht : t = finishShutdown s runs) :
    SameClock s t ∧ t.pending = s.pending ∧ t.nv.life = s.nv.life ∧ t.test.source = 3 ∧
    t.nv.repair = some { rows := t.test.softMap, crcOk := true } ∧
    t.test.results = (setFull.map fun x => if x = 0x08 ∨ x = 0x09 then idleResult s x else finalResult s w runs x) ∧
    (((∀ b ∈ setCommand, (finalResult s w runs b).2.1 = 0x00#8) ∧ bothInService t = true ∧ s.test.fromSafeHold = false) ∧
        t.test.shutdown = 3 ∧ t.nv.token.isSome = true ∨
      ¬ ((∀ b ∈ setCommand, (finalResult s w runs b).2.1 = 0x00#8) ∧ bothInService t = true ∧ s.test.fromSafeHold = false) ∧
        t.test.shutdown = 4 ∧ t.nv.token = s.nv.token) := by
  subst hw
  have hu : Tested { s with drawn := s.drawn + 1 } (shutdownRan s runs) :=
    .foldl (fun u b => tested_runBlock 0x03 s.test.lockouts runs u b) setCommand _
  have hresults := shutdownResults s s.test.lockouts runs
  have hdue := tokenDue_iff (softRepair (shutdownRan s runs) runs setCommand) s s.test.lockouts runs
  have heq : finishShutdown s runs =
      let s1 := softRepair (shutdownRan s runs) runs setCommand
      let due := tokenDue s1 (setCommand.map (finalResult s s.test.lockouts runs))
      { s1 with
        nv := { s1.nv with
          repair := some { rows := s1.test.softMap, crcOk := true }
          token := if due then some (newToken s1 (setCommand.map (finalResult s s.test.lockouts runs))) else s1.nv.token }
        test := { s1.test with
          source := 3, results := runResults s s.test.lockouts runs setCommand setFull, shutdown := if due then 3 else 4 } } := rfl
  rw [heq] at ht
  generalize shutdownRan s runs = u at *
  have hclock : SameClock s u := hu.sameClock
  have hfrom : u.test.fromSafeHold = s.test.fromSafeHold := congrArg TestSt.fromSafeHold hu.test
  have htoken : u.nv.token = s.nv.token := by rw [hu]
  have hlife : u.nv.life = s.nv.life := by rw [hu]
  have hpending : u.pending = s.pending := by rw [hu]
  have hboth : bothInService (softRepair u runs setCommand) = bothInService t := by rw [ht]; rfl
  rw [hboth, show (softRepair u runs setCommand).test.fromSafeHold = s.test.fromSafeHold from hfrom] at hdue
  dsimp only at ht
  cases htd : tokenDue (softRepair u runs setCommand) (setCommand.map (finalResult s s.test.lockouts runs)) with
  | true =>
    rw [htd] at hdue ht
    refine ⟨by rw [ht]; exact hclock, by rw [ht]; exact hpending, by rw [ht]; exact hlife, by rw [ht], by rw [ht],
      by rw [ht]; exact hresults, .inl ⟨hdue.1 rfl, by rw [ht]; rfl, by rw [ht]; rfl⟩⟩
  | false =>
    rw [htd] at hdue ht
    refine ⟨by rw [ht]; exact hclock, by rw [ht]; exact hpending, by rw [ht]; exact hlife, by rw [ht], by rw [ht],
      by rw [ht]; exact hresults, .inr ⟨fun h => absurd (hdue.2 h) (by decide), by rw [ht]; rfl, by rw [ht]; exact htoken⟩⟩

theorem runs_shutdownCompletion (s : State) (runs : List BlockRun) : Runs (.shutdownSelftestComplete runs) s
    (if s.core.mode = .shutdown ∧ s.test.shutdown = 2 then finishShutdown s runs else s) := rfl

/-- Settles O52: SELFTEST_RUN by its gates, its completion by how the run ends, and the shutdown's run by its token. -/
theorem selftestsRun : Obligations.SelftestsRun := by
  refine ⟨fun via b s => ⟨fun h => ⟨selftestRun_unknown h, selftestRun_lane h, selftestRun_taken h⟩, fun runs env =>
    ⟨runs_completion_idle runs env, fun o ha hh => ⟨_, runs_completion runs env ha hh, ?_⟩⟩⟩,
    fun runs s w hw => ⟨fun hm hs => ⟨finishShutdown s runs, (runs_shutdownCompletion s runs).trans (congrArg _ (if_pos ⟨hm, hs⟩)), ?_⟩,
      fun h => (runs_shutdownCompletion s runs).trans (congrArg _ (if_neg h))⟩⟩
  · have aborted : ∀ n, TestEnds s (abortTest (clearReps s) o env n) o 0x0F#8 (leBytes 4 n) := fun n =>
      have h := testEnds_replyAfterHold (clearReps s) env o stAborted (leBytes 4 n)
      ⟨h.test, h.lanes.trans (lanesOut_clearReps s), h.quiet, h.answer⟩
    have moved : ∀ n, rest (abortTest (clearReps s) o env n) = rest s := fun n => (rest_abortTest _ _ _ _).trans rfl
    cases hb : bothInService s with
    | false =>
      rw [if_pos (by simp)]
      have h := aborted abortLane
      refine ⟨by rw [h.test], by rw [h.test], congrArg (·.2.1) (moved _), congrArg (·.1) (moved _), h.quiet,
        fun _ => h.answer via, fun e => (by cases e), fun e => (by cases e)⟩
    | true =>
      rw [if_neg (by simp)]
      by_cases hm : s.core.mode = .maintain
      · rw [if_neg (not_not_intro hm)]
        have hmoved := rest_completeTest s o b runs env
        have hspares := runUntil_spec 0x02 s.test.lockouts runs (askedBlocks b) (s := runBegun s)
          ((bothInService_lanesOut (lanesOut_clearReps s)).trans hb)
        obtain ⟨hiff, ⟨rest, hall, hrest⟩, hlast⟩ := hspares
        obtain ⟨hasked, hnext, hsource, hresults, hboth, hquiet, hok, habort⟩ := completeTest_spec o b runs env _ rfl _ rfl
        rw [← hboth] at hiff hrest
        refine ⟨hasked, hnext, congrArg (·.2.1) hmoved, congrArg (·.1) hmoved, hquiet, fun e => (by cases e),
          fun _ e => absurd hm e, fun _ _ => ⟨hsource, hiff, ⟨_, rest, hall, hrest, hlast, ?_⟩, fun h => hok h via, fun h => habort h via⟩⟩
        rw [hresults]
        exact List.map_congr_left fun x _ => by simp
      · rw [if_pos hm]
        have h := aborted abortMode
        refine ⟨by rw [h.test], by rw [h.test], congrArg (·.2.1) (moved _), congrArg (·.1) (moved _), h.quiet,
          fun e => (by cases e), fun _ _ => h.answer via, fun _ e => absurd e hm⟩
  · obtain ⟨hclock, hpending, hlife, hsource, hrepair, hresults, hend⟩ := finishShutdown_spec s runs w hw _ rfl
    have hmode : (finishShutdown s runs).core.mode = s.core.mode := hclock.2.2.1
    refine ⟨hclock, hmode.trans hm, hsource, hrepair, hpending, hresults, hlife, ?_⟩
    rcases hend with ⟨⟨hpass, hin, hfrom⟩, h3, htoken⟩ | ⟨hnot, h4, htoken⟩
    · exact ⟨fun _ => ⟨htoken, hfrom, hpass⟩, fun _ _ _ => h3, fun h => absurd (h3.symm.trans h) (by decide), .inl h3⟩
    · exact ⟨fun h => absurd (h4.symm.trans h) (by decide), fun hp hi hf => absurd ⟨hp, hi, hf⟩ hnot, fun _ => htoken, .inr h4⟩

end Sys2Proof.Machine
end

section
/-! SUPPORT. What a tick carries unchanged to the loaf switch: fatal faults, the host's request, the waiting switch and the slots, and
lane by lane the retirement and the loaf (R64, R67, R150). -/

namespace Sys2Proof.Machine

/-- The pieces of the state on which the change of mode, the loaf switch and the sampling of MODE_REQ rest. -/
structure Footing where
  fatal : List Byte
  hearth : Bool
  modeReq : Byte
  agreed : Option PendingSwitch
  slots : Two LoafSlot
  records : Two SlotRecord
  lanes : Two (Bool × Option LoafCfg)

/-- What a lane stands on: whether it is retired, and its loaf. -/
def laneFooting (x : LaneSt) : Bool × Option LoafCfg := (x.retired, x.cfg)

def footing (s : State) : Footing :=
  { fatal := s.core.fatal, hearth := s.host.hearth, modeReq := s.host.modeReq, agreed := s.mbx.switch.filter (·.agreed)
    slots := s.nv.slots, records := s.nv.records, lanes := s.lane.map laneFooting }

theorem Reported.footing {s t : State} (h : Reported s t) : footing t = footing s := h.proj Machine.footing fun _ _ _ _ _ => rfl

theorem Noted.footing {s t : State} (h : Noted s t) : footing t = footing s := h.reported.footing

theorem footing_ite {s a b : State} (c : Prop) [Decidable c] (ha : footing a = footing s) (hb : footing b = footing s) :
    footing (if c then a else b) = footing s := pred_ite (P := fun t => footing t = footing s) c ha hb

theorem footing_foldl {α : Type} {f : State → α → State} (h : ∀ s x, footing (f s x) = footing s) (l : List α) (s : State) :
    footing (l.foldl f s) = footing s := by
  induction l generalizing s with
  | nil => rfl
  | cons x r ih => exact (ih _).trans (h s x)

theorem map_laneFooting {p : Two LaneSt} {f : LaneSt → LaneSt} (hf : ∀ x, laneFooting (f x) = laneFooting x) :
    (p.map f).map laneFooting = p.map laneFooting := by
  unfold Two.map
  rw [hf, hf]

theorem footing_modLanes (s : State) {f : LaneSt → LaneSt} (hf : ∀ x, laneFooting (f x) = laneFooting x) :
    footing (modLanes s f) = footing s := by
  unfold footing
  rw [modLanes_lane, map_laneFooting hf]
  rfl

theorem footing_leaveFabric (s : State) : footing (leaveFabric s) = footing s := rfl

/-! ## Up to the change of mode -/

theorem footing_crustsTicked (env : TickEnv) (s : State) : footing (crustsTicked env s) = footing s := by
  rw [crustsTicked_eq]
  rfl

theorem footing_nextFrame (s : State) : footing (nextFrame s) = footing s := by
  have h : (s.lane.map (laneTick s)).map laneFooting = s.lane.map laneFooting := map_laneFooting fun _ => rfl
  unfold footing nextFrame
  dsimp only
  rw [h]

theorem footing_frameBegun (env : TickEnv) (s : State) : footing (frameBegun env s) = footing s := by
  unfold frameBegun
  exact (rfl : footing (latchFrame (nextFrame (crustsTicked env s)) s.core.frameNo) = _).trans
    ((footing_nextFrame _).trans (footing_crustsTicked env s))

theorem footing_dropTest (s : State) : footing (dropTest s) = footing s := by
  unfold dropTest
  dsimp only
  split
  · rfl
  · refine footing_ite _ rfl ?_
    split
    · exact (reported_replyErr _ _ _ _).footing
    · rfl

theorem footing_holdTick (s : State) : footing (holdTick s) = footing s := by
  unfold holdTick holdFabric
  exact footing_ite _ (footing_ite _ rfl rfl) rfl

theorem footing_flushCycles (s : State) : footing (flushCycles s) = footing s :=
  (footing_foldl (fun s c => (noted_pushCrumb s c).footing) _ _).trans rfl

theorem footing_retireEffects (s : State) (n : Nat) : footing (retireEffects s n) = footing s := by
  unfold retireEffects
  split
  · rfl
  · exact (footing_foldl (fun s v => (reported_replyErr s v _ _).footing) _ _).trans rfl
  · rfl
  · rfl

theorem footing_takeRetiring (s : State) : footing (takeRetiring s) = footing s :=
  (footing_foldl footing_retireEffects _ _).trans rfl

theorem footing_tickDue (env : TickEnv) (s : State) : footing (tickDue env s) = footing s := by
  unfold tickDue
  rw [footing_takeRetiring, footing_flushCycles, footing_holdTick, footing_dropTest, footing_frameBegun]

theorem footing_lanes {s t : State} (h : footing t = footing s) (l : Side) :
    (t.lane.at l).retired = (s.lane.at l).retired ∧ (t.lane.at l).cfg = (s.lane.at l).cfg := by
  have hl : t.lane.map laneFooting = s.lane.map laneFooting := congrArg Footing.lanes h
  have e := congrArg (fun p => Two.at p l) hl
  rw [Two.at_map, Two.at_map] at e
  exact ⟨congrArg Prod.fst e, congrArg Prod.snd e⟩

theorem footing_laneLive {s t : State} (h : footing t = footing s) (l : Side) : laneLive t l = laneLive s l := by
  unfold laneLive
  rw [(footing_lanes h l).1]

theorem footing_bothInService {s t : State} (h : footing t = footing s) : bothInService t = bothInService s := by
  unfold bothInService
  rw [footing_laneLive h, footing_laneLive h]

/-- The mode that the next tick shows is due by the footing, the mode and the mode due. -/
theorem nextMode_footing {s t : State} (h : footing t = footing s) (hm : t.core.mode = s.core.mode)
    (hn : t.core.modeNext = s.core.modeNext) : nextMode t = nextMode s := by
  have hf : t.core.fatal = s.core.fatal := congrArg Footing.fatal h
  unfold nextMode
  rw [hm, hn, hf, footing_bothInService h]

/-- The mode that a tick leaves is the one due before it. -/
theorem modeAfterTick_eq (env : TickEnv) (s : State) : modeAfterTick env s = ((nextMode s).map (·.1)).getD s.core.mode := by
  have hk : kept (tickDue env s) = kept (frameBegun env s) := kept_tickDue env s
  have hm : (tickDue env s).core.mode = s.core.mode := by rw [mode_kept, hk, kept_frameBegun, mode_kept s]
  have hn : (tickDue env s).core.modeNext = s.core.modeNext := by rw [modeNext_kept, hk, kept_frameBegun, modeNext_kept s]
  unfold modeAfterTick
  rw [nextMode_footing (footing_tickDue env s) hm hn]

/-! ## The change of mode -/

theorem footing_setMode (s : State) (m : Mode) (why : ModeWhy) : footing (setMode s m why) = footing s := by
  unfold setMode
  exact (((noted_crumb _ _ _ _ _).reported.trans (reported_setIrq0 _ _)).footing).trans rfl

theorem footing_dropLearn (s : State) : footing (dropLearn s) = footing s := by
  unfold dropLearn endLearn
  split
  · exact (reported_replyErr _ _ _ _).footing.trans rfl
  · rfl

theorem footing_dropSwitch (s : State) : footing (dropSwitch s) = footing s := by
  have h : ∀ w, s.mbx.switch = some w → w.agreed = false → footing (modMbx s fun m => { m with switch := none }) = footing s :=
    fun w hw ha => by
      unfold footing
      rw [hw]
      simp [modMbx, ha, Option.filter]
  unfold dropSwitch
  split
  · next w hw =>
    split
    · rfl
    · next ha =>
      have ha := h w hw (by simpa using ha)
      dsimp only
      split
      · exact (reported_replyErr _ _ _ _).footing.trans ha
      · exact ha
  · rfl

theorem footing_dropForces (s : State) : footing (dropForces s) = footing s := footing_modLanes s fun _ => rfl

theorem footing_enterProving (s : State) : footing (enterProving s) = footing s := by
  unfold enterProving
  exact footing_ite _ rfl rfl

theorem footing_enterMode (s : State) (m : Mode) (why : ModeWhy) : footing (enterMode s m why) = footing s := by
  have h1 : footing (dropSwitch (dropLearn (setMode s m why))) = footing s :=
    (footing_dropSwitch _).trans ((footing_dropLearn _).trans (footing_setMode _ _ _))
  have h2 : footing (if s.core.mode = .maintain ∧ m ≠ .maintain then dropForces (dropSwitch (dropLearn (setMode s m why)))
      else dropSwitch (dropLearn (setMode s m why))) = footing s := footing_ite _ ((footing_dropForces _).trans h1) h1
  unfold enterMode
  dsimp only
  generalize (if s.core.mode = .maintain ∧ m ≠ .maintain then dropForces (dropSwitch (dropLearn (setMode s m why)))
      else dropSwitch (dropLearn (setMode s m why))) = u at h2
  split
  · exact (footing_enterProving u).trans h2
  · exact (footing_modLanes _ fun _ => rfl).trans h2
  · exact h2
  · split <;> exact h2
  · exact h2

theorem footing_abortScans (s : State) : footing (abortScans s) = footing s :=
  (footing_foldl (fun s v => (reported_replyErr s v _ _).footing) _ _)

theorem footing_busMode (before s : State) : footing (busMode before s) = footing s := by
  unfold busMode
  dsimp only
  have h : footing (if (busActive s s.core.mode && modeGate s.core.mode 0x79 []) = true then s else abortScans s) = footing s :=
    footing_ite _ rfl (footing_abortScans s)
  exact footing_ite _ h (footing_ite _ h h)

theorem footing_indMode (s : State) : footing (indMode s) = footing s := footing_ite _ rfl rfl

theorem footing_changeMode (s : State) : footing (changeMode s) = footing s := by
  unfold changeMode
  dsimp only
  split
  · exact (footing_busMode _ _).trans ((footing_indMode _).trans ((footing_enterMode _ _ _).trans rfl))
  · exact (footing_indMode _).trans rfl

/-- The footing of a tick as its loaf switch finds it. -/
theorem footing_changedMode (env : TickEnv) (s : State) : footing (changeMode (tickDue env s)) = footing s :=
  (footing_changeMode _).trans (footing_tickDue env s)

/-- The loaf switch takes place where one is agreed on. -/
theorem takeSwitch_agreed (s : State) : takeSwitch s = match (footing s).agreed with
    | some w => switchLoaf s w
    | none => s := by
  unfold takeSwitch footing
  cases s.mbx.switch with
  | none => rfl
  | some w => cases h : w.agreed <;> simp [h, Option.filter]

end Sys2Proof.Machine
end

section
/-! SUPPORT. What a tick still does once the loaf is in force: re-admissions, offsets, the proving period, the ticks' interval, the
request, the sources, the fabric and TICK (R67, R97, R200, R270, R316). -/

namespace Sys2Proof.Machine

/-- The entries of a queue have been marked, but for those that are answered. -/
def QueueMarks (q r : List QEntry) : Prop :=
  ∃ g : QEntry → QEntry, r = q.map g ∧ (∀ e, (g e).via = e.via) ∧ ∀ e st p, e.st = .replied st p → g e = e

theorem QueueMarks.refl (q : List QEntry) : QueueMarks q q := ⟨id, (List.map_id q).symm, fun _ => rfl, fun _ _ _ _ => rfl⟩

theorem QueueMarks.trans {q r x : List QEntry} (h : QueueMarks q r) (k : QueueMarks r x) : QueueMarks q x := by
  obtain ⟨g, rfl, gv, gr⟩ := h
  obtain ⟨f, rfl, fv, fr⟩ := k
  refine ⟨f ∘ g, List.map_map, fun e => (fv _).trans (gv e), fun e st p h => ?_⟩
  rw [Function.comp_apply, gr e st p h, fr e st p h]

/-- An answered entry stays as it is. -/
theorem QueueMarks.answered {s t : State} (h : QueueMarks s.mbx.queue t.mbx.queue) {via : Via} {e₀ e : QEntry}
    (hs : entryOf s via = some e₀) {st : Byte} {p : List Byte} (he₀ : e₀.st = .replied st p) (ht : entryOf t via = some e) : e = e₀ := by
  obtain ⟨g, hq, gv, gr⟩ := h
  have hp : (fun e : QEntry => e.via == via) ∘ g = fun e => e.via == via := by
    funext e
    rw [Function.comp_apply, gv]
  have hm : entryOf t via = (entryOf s via).map g := by
    unfold entryOf
    rw [hq, List.find?_map, hp]
  rw [hs, ht] at hm
  exact (Option.some.inj hm).trans (gr e₀ st p he₀)

/-- Nothing is isolated in a lane. -/
def isoFree (x : LaneSt) : Prop := ∀ e ∈ x.chans, e.2.iso = none

/-- What comes after the loaf switch of a tick changes neither loaf nor mode, isolates nothing, and leaves the answers. -/
structure Trails (s t : State) : Prop where
  eq : t = { s with
    core := { s.core with
      proving := t.core.proving, disturbed := t.core.disturbed, tfCode := t.core.tfCode, rangeDue := t.core.rangeDue
      slewNs := t.core.slewNs, gapNs := t.core.gapNs, safen := t.core.safen }
    lane := t.lane, crust := t.crust, fab := t.fab
    host := { s.host with sampled := t.host.sampled, rewritten := t.host.rewritten, irqStat0 := t.host.irqStat0 }
    mbx := { s.mbx with readmits := t.mbx.readmits, confirm := t.mbx.confirm, queue := t.mbx.queue }
    ind := t.ind, stat := t.stat, act := t.act }
  lanes : t.lane.map laneFooting = s.lane.map laneFooting
  iso : (∀ l, isoFree (s.lane.at l)) → ∀ l, isoFree (t.lane.at l)
  vector : t.ind.vector = s.ind.vector
  queue : QueueMarks s.mbx.queue t.mbx.queue
  crust : ∀ c, t.crust.at c = { s.crust.at c with srcs := (t.crust.at c).srcs }

theorem Trails.refl (s : State) : Trails s s := ⟨rfl, rfl, fun h => h, rfl, .refl _, fun _ => rfl⟩

theorem Trails.trans {s t u : State} (h : Trails s t) (k : Trails t u) : Trails s u where
  eq := by rw [k.eq, h.eq]
  lanes := k.lanes.trans h.lanes
  iso hs := k.iso (h.iso hs)
  vector := k.vector.trans h.vector
  queue := h.queue.trans k.queue
  crust c := by rw [k.crust c, h.crust c]

theorem Trails.ite {s a b : State} (c : Prop) [Decidable c] (ha : Trails s a) (hb : Trails s b) : Trails s (if c then a else b) :=
  pred_ite (P := Trails s) c ha hb

theorem Trails.foldl {α : Type} {f : State → α → State} (h : ∀ s x, Trails s (f s x)) (l : List α) (s : State) :
    Trails s (l.foldl f s) := by
  induction l generalizing s with
  | nil => exact .refl s
  | cons x r ih => exact (h s x).trans (ih _)

/-- A change of the lanes that keeps retirement, loaf and isolations. -/
theorem Trails.modLanes (s : State) {f : LaneSt → LaneSt} (hf : ∀ x, laneFooting (f x) = laneFooting x)
    (hi : ∀ x, isoFree x → isoFree (f x)) : Trails s (modLanes s f) where
  eq := rfl
  lanes := map_laneFooting hf
  iso h l := by
    rw [modLanes_lane, Two.at_map]
    exact hi _ (h l)
  vector := rfl
  queue := .refl _
  crust _ := rfl

/-- A change that touches neither lanes, crusts, indicator vector nor queue. -/
theorem Trails.of_same {s t : State} (eq : t = { s with
      core := { s.core with
        proving := t.core.proving, disturbed := t.core.disturbed, tfCode := t.core.tfCode, rangeDue := t.core.rangeDue
        slewNs := t.core.slewNs, gapNs := t.core.gapNs, safen := t.core.safen }
      fab := t.fab
      host := { s.host with sampled := t.host.sampled, rewritten := t.host.rewritten, irqStat0 := t.host.irqStat0 }
      mbx := { s.mbx with readmits := t.mbx.readmits, confirm := t.mbx.confirm }
      ind := t.ind, stat := t.stat, act := t.act }) (vector : t.ind.vector = s.ind.vector) : Trails s t := by
  refine ⟨?_, ?_, ?_, vector, ?_, ?_⟩
  · rw [eq]
  · rw [eq]
  · rw [eq]; exact fun h => h
  · rw [eq]; exact .refl _
  · rw [eq]; exact fun _ => rfl

theorem trails_indMode (s : State) : Trails s (indMode s) := .ite _ (.of_same rfl rfl) (.of_same rfl rfl)

theorem isoFree_modChan {x : LaneSt} (h : isoFree x) (n : Nat) {f : ChanRec → ChanRec} (hf : ∀ r, r.iso = none → (f r).iso = none) :
    isoFree (modChan x n f) := tabMod_all (fun r : ChanRec => r.iso = none) _ _ _ _ rfl h hf

theorem trails_startProbation (s : State) (n : Nat) : Trails s (startProbation s n) := by
  have h : Trails s (modChans s n fun r => { r with tally := 0, clean := 0, retired := false, prob := some freshProbation }) :=
    .modLanes s (fun _ => rfl) fun _ hx => isoFree_modChan hx n fun _ hr => hr
  unfold startProbation
  dsimp only
  split
  · exact h.trans (.of_same rfl rfl)
  · exact h.trans (.of_same rfl rfl)
  · exact h

theorem trails_takeReadmits (s : State) : Trails s (takeReadmits s) :=
  (Trails.of_same (t := { s with mbx := { s.mbx with readmits := [] } }) rfl rfl).trans
    ((Trails.foldl trails_startProbation _ _).trans (trails_indMode _))

theorem trails_takeOffsets (s : State) : Trails s (takeOffsets s) := by
  unfold takeOffsets
  refine .ite _ (.refl s) (Trails.trans (t := modLanes s fun l =>
    { l with offsets := s.mbx.confirm.foldl (fun t e => tabPut t e.1 e.2) l.offsets }) (.modLanes s (fun _ => rfl) fun _ h => h)
    (.of_same rfl rfl))

theorem trails_provingTick (s : State) : Trails s (provingTick s) := .ite _ (.of_same rfl rfl) (.of_same rfl rfl)

theorem Trails.modLane (s : State) (k : Side) {f : LaneSt → LaneSt} (hf : ∀ x, laneFooting (f x) = laneFooting x)
    (hi : ∀ x, isoFree x → isoFree (f x)) : Trails s (modLane s k f) where
  eq := rfl
  lanes := by
    rw [modLane_lane]
    cases k <;> simp [Two.map, Two.set, Two.at, hf]
  iso h l := by
    rw [modLane_lane, Two.at_set]
    split
    · exact hi _ (h k)
    · exact h l
  vector := rfl
  queue := .refl _
  crust _ := rfl

theorem trails_intervalCheck (env : TickEnv) (tf : Byte) (s : State) (l : Side) : Trails s (intervalCheck env tf s l) := by
  have h : ∀ n, Trails s (modLane s l fun y => { y with tickDev := n }) := fun n => .modLane s l (fun _ => rfl) fun _ h => h
  unfold intervalCheck
  exact .ite _ (.refl s) (.ite _ ((h _).trans (.of_same rfl rfl)) (h _))

theorem trails_tickChecked (env : TickEnv) (s : State) : Trails (loafTaken env s) (tickChecked env s) := by
  unfold tickChecked
  exact (trails_takeOffsets _).trans ((trails_takeReadmits _).trans ((trails_provingTick _).trans
    ((trails_intervalCheck _ _ _ _).trans (trails_intervalCheck _ _ _ _))))

theorem trails_sampleModeReq (s : State) : Trails s (sampleModeReq s) where
  eq := rfl
  lanes := rfl
  iso h := h
  vector := rfl
  queue := ⟨_, rfl, fun e => by split <;> rfl, fun e st p h => by
    rw [h, if_neg (by simp)]⟩
  crust _ := rfl

theorem trails_setSources (s : State) (c : Side) : Trails s (setSources s c) where
  eq := rfl
  lanes := rfl
  iso h := h
  vector := rfl
  queue := .refl _
  crust k := by
    unfold setSources
    dsimp only
    rw [crust_modCrust]
    split
    · next hk => rw [hk]
    · rfl

theorem trails_fabricTick (s : State) : Trails s (fabricTick s) := .of_same rfl rfl

/-! ## TICK -/

theorem trails_markSent (s : State) (f : Frame) : Trails s (markSent s f) := by
  unfold markSent
  split
  · exact .refl s
  · refine ⟨rfl, rfl, fun h => h, rfl, ⟨_, rfl, fun e => by split <;> rfl, fun e st p h => ?_⟩, fun _ => rfl⟩
    rw [h, if_neg (by simp)]

theorem trails_modPort (s : State) (p : PortId) (f : PortSt → PortSt) : Trails s (modPort s p f) := .of_same rfl rfl

theorem trails_pump (s : State) (p : PortId) : Trails s (pump s p) := by
  have hc : ∀ c : Bool, Trails s (if c then countRetry s else s) := fun c => .ite _ (.of_same rfl rfl) (.refl s)
  unfold pump
  refine .ite _ (.refl s) ?_
  split
  · exact .refl s
  · exact (hc _).trans ((trails_markSent _ _).trans (trails_modPort _ _ _))

theorem trails_sendOwn (s : State) (p : PortId) (f : Frame) : Trails s (sendOwn s p f) := (trails_modPort s p _).trans (trails_pump _ _)

theorem trails_sendOut (s : State) (ps : List PortId) (c : BitVec 4) (dst : Byte) (payload : List Byte) :
    Trails s (sendOut s ps c dst payload) :=
  (Trails.of_same (t := (newFrame s c dst payload).2) rfl rfl).trans
    (.foldl (fun s p => .ite _ (trails_sendOwn s p _) (.refl s)) _ _)

theorem trails_sendTick (s : State) : Trails s (sendTick s) := .ite _ (trails_sendOut _ _ _ _ _) (.refl s)

theorem trails_tickEnd (env : TickEnv) (s : State) : Trails (loafTaken env s) (tickEnd env s) := by
  unfold tickEnd
  exact (trails_tickChecked env s).trans ((trails_sampleModeReq _).trans ((trails_setSources _ _).trans ((trails_setSources _ _).trans
    ((trails_fabricTick _).trans (trails_sendTick _)))))

/-- The level of SAFEN is the last thing that a tick decides. -/
theorem trails_safen (env : TickEnv) (s : State) : Trails (tickEnd env s) (tickAll env s) := by
  rw [tickAll_eq]
  exact (Trails.of_same (t := { tickEnd env s with core := { (tickEnd env s).core with safen := safenLevel (tickEnd env s) } }) rfl rfl).trans
    (.ite _ (.refl _) (.of_same rfl rfl))

theorem trails_tickAll (env : TickEnv) (s : State) : Trails (loafTaken env s) (tickAll env s) :=
  (trails_tickEnd env s).trans (trails_safen env s)

/-! ## The request -/

theorem markSent_host (s : State) (f : Frame) : (markSent s f).host = s.host := by
  unfold markSent
  split <;> rfl

theorem pump_host (s : State) (p : PortId) : (pump s p).host = s.host := by
  unfold pump
  dsimp only
  split
  · rfl
  · split
    · rfl
    · refine (markSent_host _ _).trans ?_
      split <;> rfl

theorem sendTick_host (s : State) : (sendTick s).host = s.host := by
  have h : ∀ (f : Frame) (l : List PortId) (u : State), (l.foldl (fun s p => if portUp s p then sendOwn s p f else s) u).host = u.host := by
    intro f l
    induction l with
    | nil => exact fun _ => rfl
    | cons p r ih =>
      intro u
      refine (ih _).trans ?_
      dsimp only
      split
      · exact pump_host _ _
      · rfl
  unfold sendTick
  split
  · exact (h _ _ _).trans rfl
  · rfl

theorem request_setSources (s : State) (c : Side) : request (setSources s c) = request s := rfl

theorem request_fabricTick (s : State) : request (fabricTick s) = request s := rfl

theorem request_tickAll (env : TickEnv) (s : State) : request (tickAll env s) = request (sampleModeReq (tickChecked env s)) := by
  have hirq : ∀ u v : State, request (syncIrq u v) = request v := fun u v => by
    unfold syncIrq
    split <;> rfl
  have hsafen : ∀ (u : State) (b : Bool), request { u with core := { u.core with safen := b } } = request u := fun _ _ => rfl
  rw [tickAll_eq, hirq, hsafen]
  unfold tickEnd
  rw [request_host (sendTick_host _), request_fabricTick, request_setSources, request_setSources]

end Sys2Proof.Machine
end

section
/-! SUPPORT. The crusts through a tick (R95, R193, R197, R201): what of a crust the snapshot shows, and what of it the tick leaves. -/

namespace Sys2Proof.Machine

/-! ## One crust at the tick -/

/-- The time of the tick that ends the frame of `s`. -/
def tickStamp (s : State) : Stamp := { frame := s.core.frameNo + 1, off := 0 }

/-- What the tick makes of crust `c`. -/
def tickedCrust (env : TickEnv) (s : State) (c : Side) (x₀ : CrustSt) : CrustSt :=
  if !x₀.logicPower then { x₀ with snap := Snap.empty }
  else
    let x₁ := judgeAtTick s c (env.frontend.at c) (env.srcMaxMa.at c) x₀
    let y := commit (crustCfg s c) c (drivesTick (startFrame (tickStamp s) { x₁ with snap := takeSnap s c (tickStamp s) x₁ }))
    if (s.lane.at c).retired then openCrust y else y

theorem crust_crustTick (env : TickEnv) (s : State) (c k : Side) :
    (crustTick env s c).crust.at k = if k = c then tickedCrust env s c (s.crust.at c) else s.crust.at k := by
  unfold crustTick tickedCrust
  dsimp only
  split
  · exact crust_modCrust _ _ _ _
  · exact crust_modCrust _ _ _ _

theorem crustMap_congr {s t : State} {c : Side} (hl : t.lane = s.lane) (hx : t.crust.at c = s.crust.at c) :
    crustMap t c = crustMap s c := by
  unfold crustMap
  rw [hl, hx]

theorem snapInput_congr {s t : State} (hc : t.core = s.core) : snapInput t = snapInput s := by
  unfold snapInput frequencyAt unitsBetween
  rw [hc]

theorem takeSnap_congr {s t : State} {c : Side} (hc : t.core = s.core) (hl : t.lane = s.lane) (hx : t.crust.at c = s.crust.at c) :
    takeSnap t c = takeSnap s c := by
  funext now x
  unfold takeSnap
  rw [crustMap_congr hl hx, snapInput_congr hc]

theorem judgeAtTick_congr {s t : State} {c : Side} (hl : t.lane = s.lane) (hx : t.crust.at c = s.crust.at c)
    (f : BitVec 24) (ma : Vector Nat 8) (x : CrustSt) : judgeAtTick t c f ma x = judgeAtTick s c f ma x := by
  unfold judgeAtTick
  rw [crustMap_congr hl hx]

/-- The tick of a crust looks at the core, the lanes and that crust alone. -/
theorem tickedCrust_congr {s t : State} {c : Side} (hc : t.core = s.core) (hl : t.lane = s.lane) (hx : t.crust.at c = s.crust.at c)
    (env : TickEnv) (x : CrustSt) : tickedCrust env t c x = tickedCrust env s c x := by
  have hcfg : crustCfg t c = crustCfg s c := by
    unfold crustCfg
    rw [hl, hx]
  unfold tickedCrust tickStamp
  rw [judgeAtTick_congr hl hx, takeSnap_congr hc hl hx, hcfg, hl, hc]

theorem crustsTicked_at (env : TickEnv) (s : State) (c : Side) :
    (crustsTicked env s).crust.at c = tickedCrust env (settledAtTick s) c ((settledAtTick s).crust.at c) := by
  unfold crustsTicked
  cases c with
  | a => rw [crust_crustTick, if_neg (by decide), crust_crustTick, if_pos rfl]
  | b =>
    have hb : (crustTick env (settledAtTick s) .a).crust.at .b = (settledAtTick s).crust.at .b := by
      rw [crust_crustTick, if_neg (by decide)]
    have heq := crustTick_eq env (settledAtTick s) .a
    have hcore : (crustTick env (settledAtTick s) .a).core = (settledAtTick s).core := by rw [heq]
    have hlane : (crustTick env (settledAtTick s) .a).lane = (settledAtTick s).lane := by rw [heq]
    rw [crust_crustTick, if_pos rfl, hb, tickedCrust_congr hcore hlane hb]

/-! ## Inputs that settle -/

theorem settledAtTick_eq (s : State) : settledAtTick s =
    { s with crust := (settledAtTick s).crust, mbx := { s.mbx with learn := (settledAtTick s).mbx.learn } } := by
  have h1 := (settles_settleCrust { frame := s.core.frameNo + 1, off := 0 } s .a).eq
  have h2 := (settles_settleCrust { frame := s.core.frameNo + 1, off := 0 }
    (settleCrust { frame := s.core.frameNo + 1, off := 0 } s .a) .b).eq
  unfold settledAtTick
  rw [h2, h1]

/-- Where no debounce runs on a crust, nothing settles there. -/
theorem settleCrust_idle {s : State} {c : Side} (h : ∀ n, (inOf (s.crust.at c) n).pend = none) (now : Stamp) :
    settleCrust now s c = s := by
  have one : ∀ n, settleInput now c s n = s := fun n => by
    unfold settleInput
    dsimp only
    rw [h n]
  have all : ∀ l : List Nat, l.foldl (settleInput now c) s = s := fun l => by
    induction l with
    | nil => rfl
    | cons n r ih => rw [List.foldl_cons, one, ih]
  exact all _

theorem settledAtTick_idle {s : State} {c : Side} (h : ∀ n, (inOf (s.crust.at c) n).pend = none) :
    (settledAtTick s).crust.at c = s.crust.at c := by
  unfold settledAtTick
  cases c with
  | a =>
    rw [settleCrust_idle (c := .a) h]
    exact (settles_settleCrust _ s .b).other .a (by decide)
  | b =>
    have ha := (settles_settleCrust { frame := s.core.frameNo + 1, off := 0 } s .a).other .b (by decide)
    rw [settleCrust_idle (c := .b) (s := settleCrust _ s .a) (by rw [ha]; exact h), ha]

theorem settledAtTick_legs (s : State) (c : Side) : SameLegs (s.crust.at c) ((settledAtTick s).crust.at c) := by
  have ha := settles_settleCrust { frame := s.core.frameNo + 1, off := 0 } s .a
  have hb := settles_settleCrust { frame := s.core.frameNo + 1, off := 0 } (settleCrust { frame := s.core.frameNo + 1, off := 0 } s .a) .b
  unfold settledAtTick
  cases c with
  | a => rw [hb.other .a (by decide)]; exact ha.own
  | b => rw [← ha.other .b (by decide)]; exact hb.own

/-! ## Judgement and commit -/

/-- What the judgement of a tick leaves of an input. -/
structure SameInput (i j : InSt) : Prop where
  deb : j.deb = i.deb
  stamps : j.stamps = i.stamps
  overflow : j.overflow = i.overflow
  count : j.count = i.count
  silent : j.silent = i.silent
  period : j.period = i.period
  lastEdge : j.lastEdge = i.lastEdge

theorem SameInput.refl (i : InSt) : SameInput i i := ⟨rfl, rfl, rfl, rfl, rfl, rfl, rfl⟩

theorem SameInput.trans {i j k : InSt} (h : SameInput i j) (g : SameInput j k) : SameInput i k :=
  ⟨g.deb.trans h.deb, g.stamps.trans h.stamps, g.overflow.trans h.overflow, g.count.trans h.count, g.silent.trans h.silent,
    g.period.trans h.period, g.lastEdge.trans h.lastEdge⟩

theorem SameInput.frequencyAt {i j : InSt} (h : SameInput i j) (s : State) (now : Stamp) :
    Machine.frequencyAt s j now = Machine.frequencyAt s i now := by
  unfold Machine.frequencyAt
  rw [h.silent, h.period, h.lastEdge]

/-- What the judgement of a tick leaves of a crust. -/
structure Judged (x y : CrustSt) : Prop where
  quads : y.quads = x.quads
  ana : y.ana = x.ana
  sinceReference : y.sinceReference = x.sinceReference
  logicPower : y.logicPower = x.logicPower
  ins : ∀ n, SameInput (inOf x n) (inOf y n)

theorem Judged.refl (x : CrustSt) : Judged x x := ⟨rfl, rfl, rfl, rfl, fun _ => .refl _⟩

theorem Judged.trans {x y z : CrustSt} (h : Judged x y) (k : Judged y z) : Judged x z :=
  ⟨k.quads.trans h.quads, k.ana.trans h.ana, k.sinceReference.trans h.sinceReference, k.logicPower.trans h.logicPower,
    fun n => (h.ins n).trans (k.ins n)⟩

theorem Judged.foldl {α : Type} {f : CrustSt → α → CrustSt} (h : ∀ x a, Judged x (f x a)) (l : List α) (x : CrustSt) :
    Judged x (l.foldl f x) := by
  induction l generalizing x with
  | nil => exact .refl x
  | cons a r ih => exact (h x a).trans (ih _)

theorem judged_modIn (x : CrustSt) (n : Nat) {f : InSt → InSt} (hf : ∀ i, SameInput i (f i)) : Judged x (modIn x n f) := by
  refine ⟨rfl, rfl, rfl, rfl, fun k => ?_⟩
  have hget : inOf (modIn x n f) k = if k = n then f (inOf x n) else inOf x k := tabGet_mod _ _ _ _ _
  rw [hget]
  split
  · next h => rw [h]; exact hf _
  · exact .refl _

theorem judged_judgeAtTick (s : State) (c : Side) (f : BitVec 24) (ma : Vector Nat 8) (x : CrustSt) :
    Judged x (judgeAtTick s c f ma x) := by
  have src : ∀ (y : CrustSt) (k : Nat) (g : SrcSt → SrcSt), Judged y (modSrc y k g) := fun _ _ _ => ⟨rfl, rfl, rfl, rfl, fun _ => .refl _⟩
  unfold judgeAtTick
  dsimp only
  refine (Judged.foldl (fun y k => ?_) _ x).trans (.foldl (fun y n => ?_) _ _)
  · split
    · exact src _ _ _
    · exact .refl y
  · split
    · exact .refl y
    · split
      · refine judged_modIn y n fun i => ?_
        split <;> exact ⟨rfl, rfl, rfl, rfl, rfl, rfl, rfl⟩
      · exact .refl y

theorem foldl_modDrive {α β : Type} (p : CrustSt → β) (hp : ∀ y k g, p (modDrive y k g) = p y) (k : α → Nat)
    (g : CrustSt → α → DriveSt → DriveSt) (l : List α) (x : CrustSt) :
    p (l.foldl (fun y e => modDrive y (k e) (g y e)) x) = p x := by
  induction l generalizing x with
  | nil => rfl
  | cons e r ih => exact (ih _).trans (hp _ _ _)

theorem commit_keeps (cfg : Option LoafCfg) (c : Side) (x : CrustSt) : (commit cfg c x).snap = x.snap ∧
    (commit cfg c x).logicPower = x.logicPower := by
  unfold commit
  split
  · exact ⟨rfl, rfl⟩
  · dsimp only
    split
    · exact ⟨rfl, rfl⟩
    · exact ⟨foldl_modDrive CrustSt.snap (fun _ _ _ => rfl) _ _ _ _, foldl_modDrive CrustSt.logicPower (fun _ _ _ => rfl) _ _ _ _⟩

theorem tickedCrust_logicPower (env : TickEnv) (s : State) (c : Side) (x : CrustSt) :
    (tickedCrust env s c x).logicPower = x.logicPower := by
  unfold tickedCrust
  split
  · rfl
  · have hj := (judged_judgeAtTick s c (env.frontend.at c) (env.srcMaxMa.at c) x).logicPower
    have hc : ∀ y, (commit (crustCfg s c) c (drivesTick (startFrame (tickStamp s) y))).logicPower = y.logicPower := fun y =>
      (commit_keeps _ _ _).2
    dsimp only
    split
    · exact (hc _).trans hj
    · exact (hc _).trans hj

/-- A crust with logic power latches its snapshot before the commit. -/
theorem tickedCrust_snap (env : TickEnv) (s : State) (c : Side) {x : CrustSt} (hx : x.logicPower = true) :
    (tickedCrust env s c x).snap = takeSnap s c (tickStamp s) (judgeAtTick s c (env.frontend.at c) (env.srcMaxMa.at c) x) := by
  have hc : ∀ y, (commit (crustCfg s c) c (drivesTick (startFrame (tickStamp s) y))).snap = y.snap := fun y => (commit_keeps _ _ _).1
  unfold tickedCrust
  rw [hx]
  dsimp only
  split
  · next h => cases h
  · split
    · exact hc _
    · exact hc _

/-! ## What the snapshot shows -/

theorem tabFind_listed {α : Type} [DecidableEq α] (d : α) (f : Nat → α) (l : List Nat) (k : Nat) :
    tabFind ((l.map fun k => (k, f k)).filter fun e => decide (e.2 ≠ d)) k = if k ∈ l ∧ f k ≠ d then some (f k) else none := by
  induction l with
  | nil => simp
  | cons a r ih =>
    rw [List.map_cons, List.filter_cons]
    by_cases ha : f a = d
    · rw [if_neg (by simp [ha]), ih]
      by_cases hk : k = a
      · simp [hk, ha]
      · simp [hk]
    · rw [if_pos (by simp [ha]), tabFind_cons, ih]
      by_cases hk : k = a
      · simp [hk, ha]
      · simp [hk]

theorem tabGet_tabOf {α : Type} [DecidableEq α] (d : α) (n : Nat) (f : Nat → α) {k : Nat} (hk : k < n) : tabGet d (tabOf d n f) k = f k := by
  unfold tabGet tabOf
  rw [tabFind_listed]
  by_cases h : f k = d
  · rw [if_neg (by simp [h]), h]
    rfl
  · rw [if_pos ⟨List.mem_range.2 hk, h⟩]
    rfl

end Sys2Proof.Machine
end

section
/-! SUPPORT. The loaf switch of a tick (R150, R151, R155): what it leaves in the lanes, the slots, the crusts and the queue. -/

namespace Sys2Proof.Machine

/-! ## What the rest of the switch leaves alone -/

/-- What a loaf switch has settled once the lanes have their forms. -/
structure LoafView where
  host : HostSt
  switch : Option PendingSwitch
  chanOps : List (Nat × ChanOp)
  delivered : Option W64
  vector : Option IndVector
  slots : Two LoafSlot
  records : Two SlotRecord
  lane : Two LaneSt
  crust : Two CrustSt

def loafView (s : State) : LoafView :=
  { host := s.host, switch := s.mbx.switch, chanOps := s.mbx.chanOps, delivered := s.mbx.delivered, vector := s.ind.vector
    slots := s.nv.slots, records := s.nv.records, lane := s.lane, crust := s.crust }

theorem loafView_noted {s t : State} (h : Noted s t) : loafView t = loafView s := by
  rw [h]
  rfl

theorem loafView_foldl {α : Type} {f : State → α → State} (h : ∀ s x, loafView (f s x) = loafView s) (l : List α) (s : State) :
    loafView (l.foldl f s) = loafView s := by
  induction l generalizing s with
  | nil => rfl
  | cons x r ih => exact (ih _).trans (h s x)

theorem loafView_ite {s a b : State} (c : Prop) [Decidable c] (ha : loafView a = loafView s) (hb : loafView b = loafView s) :
    loafView (if c then a else b) = loafView s := pred_ite (P := fun t => loafView t = loafView s) c ha hb

theorem loafView_abortScans (s : State) : loafView (abortScans s) = loafView s :=
  loafView_foldl (fun s v => (rfl : loafView (replyErr s v _ _) = loafView s)) _ _

theorem loafView_busMode (before s : State) : loafView (busMode before s) = loafView s := by
  have h : loafView (if (busActive s s.core.mode && modeGate s.core.mode 0x79 []) = true then s else abortScans s) = loafView s :=
    loafView_ite _ rfl (loafView_abortScans s)
  exact loafView_ite _ h (loafView_ite _ h h)

theorem loafView_indMode (s : State) : loafView (indMode s) = loafView s := loafView_ite _ rfl rfl

/-- The state in which a loaf switch has told what it has done: stations, measurement and crumb. -/
def loafNoted (s : State) (w : PendingSwitch) : State :=
  let s3 := switchedLanes s w
  let s4 := { s3 with fab := { s3.fab with rejoin := s3.fab.rejoin || stationChanged (activeCfg s) w.cfgA } }
  let s4 := if w.cfgA.role = 0 then leaveFabric { s4 with fab := { s4.fab with awaitAdmit := false } } else s4
  crumb (measEvent s4 0x01 w.cfgA.loafId [sideByte w.slot]) crLoaf 0xFF stOk ([sideByte w.slot] ++ padTo 8 w.cfgA.loafId)

/-- The command that asked for the switch is answered. -/
def loafAnswered (s : State) (w : PendingSwitch) : State :=
  match w.via with
  | some v => replyOk (loafNoted s w) v (padTo 8 w.cfgA.loafId)
  | none => loafNoted s w

theorem switchLoaf_eq (s : State) (w : PendingSwitch) : switchLoaf s w = busMode s (indMode (loafAnswered s w)) := rfl

theorem noted_loafNoted (s : State) (w : PendingSwitch) : ∃ f, Noted { switchedLanes s w with fab := f } (loafNoted s w) := by
  have h : ∀ (u v : State) (c : Prop) [Decidable c], (∃ f, u = { switchedLanes s w with fab := f }) → (∃ f, v = { switchedLanes s w with fab := f }) →
      ∃ f, (if c then u else v) = { switchedLanes s w with fab := f } := fun u v c _ hu hv => by split <;> assumption
  obtain ⟨f, hf⟩ := h (leaveFabric { switchedLanes s w with fab := { (switchedLanes s w).fab with
      rejoin := (switchedLanes s w).fab.rejoin || stationChanged (activeCfg s) w.cfgA, awaitAdmit := false } })
    { switchedLanes s w with fab := { (switchedLanes s w).fab with
      rejoin := (switchedLanes s w).fab.rejoin || stationChanged (activeCfg s) w.cfgA } } (w.cfgA.role = 0) ⟨_, rfl⟩ ⟨_, rfl⟩
  refine ⟨f, ?_⟩
  rw [← hf]
  unfold loafNoted
  exact (noted_measEvent _ _ _ _).trans (noted_crumb _ _ _ _ _)

theorem loafView_switchLoaf (s : State) (w : PendingSwitch) : loafView (switchLoaf s w) = loafView (switchedLanes s w) := by
  obtain ⟨f, hn⟩ := noted_loafNoted s w
  rw [switchLoaf_eq, loafView_busMode, loafView_indMode]
  unfold loafAnswered
  split
  · exact (rfl : loafView (replyOk _ _ _) = _).trans ((loafView_noted hn).trans rfl)
  · exact (loafView_noted hn).trans rfl

/-! ## The lanes and the crusts -/

/-- The state that the lanes take their forms in. -/
def loafReady (s : State) (w : PendingSwitch) : State :=
  modPort (modPort (abortCanSafe (switchedRecord s w)) .p0 cancelSafe) .p1 cancelSafe

theorem loafView_loafReady (s : State) (w : PendingSwitch) : loafView (loafReady s w) = loafView (switchedRecord s w) := by
  have h : loafView (abortCanSafe (switchedRecord s w)) = loafView (switchedRecord s w) :=
    (loafView_foldl (f := fun s _ => countCanerr s) (fun _ _ => rfl) _ _).trans rfl
  exact Eq.trans rfl h

theorem switchedLanes_eq (s : State) (w : PendingSwitch) : switchedLanes s w =
    renewHandshakes (installLoaf (clearIsolations (loafReady s w)) w.cfgA w.cfgB) := rfl

theorem renewHandshakes_eq (s : State) : renewHandshakes s = { s with crust := (renewHandshakes s).crust } := by
  have one : ∀ (s : State) (c : Side), (if laneLive s c && (s.crust.at c).logicPower then handshake s c else s) =
      { s with crust := (if laneLive s c && (s.crust.at c).logicPower then handshake s c else s).crust } := fun s c => by split <;> rfl
  unfold renewHandshakes
  dsimp only
  rw [one _ .b, one s .a]

/-- A crust after the renewed handshake: at hand again with every leg off, or as it was where its lane is out or its logic is unpowered. -/
theorem renewHandshakes_at (s : State) (c : Side) : ((renewHandshakes s).crust.at c).snap = (s.crust.at c).snap ∧
    (laneLive s c = true → (s.crust.at c).logicPower = true →
      ((renewHandshakes s).crust.at c).handshake = true ∧ legsOff ((renewHandshakes s).crust.at c) = true) := by
  have one : ∀ (s : State) (k : Side), (∀ x, x ≠ k →
      (if laneLive s k && (s.crust.at k).logicPower then handshake s k else s).crust.at x = s.crust.at x) ∧
      ((if laneLive s k && (s.crust.at k).logicPower then handshake s k else s).crust.at k).snap = (s.crust.at k).snap ∧
      (laneLive s k = true → (s.crust.at k).logicPower = true →
        ((if laneLive s k && (s.crust.at k).logicPower then handshake s k else s).crust.at k).handshake = true ∧
        legsOff ((if laneLive s k && (s.crust.at k).logicPower then handshake s k else s).crust.at k) = true) ∧
      (∀ x, laneLive (if laneLive s k && (s.crust.at k).logicPower then handshake s k else s) x = laneLive s x) := fun s k => by
    split
    · refine ⟨fun x hx => (crust_modCrust s k x _).trans (if_neg hx), ?_, fun _ _ => ?_, fun _ => rfl⟩
      · unfold handshake
        rw [crust_modCrust, if_pos rfl]
        rfl
      · unfold handshake
        rw [crust_modCrust, if_pos rfl]
        exact ⟨rfl, legsOff_openCrust (s.crust.at k)⟩
    · next h => exact ⟨fun _ _ => rfl, rfl, fun hl hp => absurd (by rw [hl, hp]; rfl) h, fun _ => rfl⟩
  obtain ⟨oa, sa, ha, la⟩ := one s .a
  obtain ⟨ob, sb, hb, -⟩ := one (if laneLive s .a && (s.crust.at .a).logicPower then handshake s .a else s) .b
  unfold renewHandshakes
  cases c with
  | a =>
    dsimp only
    rw [ob .a (by decide)]
    exact ⟨sa, ha⟩
  | b =>
    dsimp only
    have hx := oa .b (by decide)
    exact ⟨sb.trans (by rw [hx]), fun hl hp => hb ((la .b).trans hl) (by rw [hx]; exact hp)⟩

theorem isoFree_clearIsolations (s : State) (l : Side) : isoFree ((clearIsolations s).lane.at l) := by
  have h : (clearIsolations s).lane.at l =
      { s.lane.at l with chans := tabMap ChanRec.clear (s.lane.at l).chans fun _ r => { r with iso := none } } := Two.at_map _ _ _
  rw [h]
  intro e he
  obtain ⟨x, -, hx⟩ := List.mem_map.1 (List.mem_filter.1 he).1
  rw [← hx]

/-! ## The slots -/

/-- The record written last is the higher one. -/
theorem activeSlot_writeRecord (n : NvSt) (k : Option Side) : activeSlot (writeRecord n k) = k := by
  unfold activeSlot writeRecord higherRecord
  rcases n.records with ⟨⟨sa, aa, ca⟩, ⟨sb, ab, cb⟩⟩
  cases ca <;> cases cb
  · rfl
  · simp [Two.set]
  · simp [Two.set]
  · by_cases h : sb ≤ sa
    · have h1 : ¬ sa < sb := by omega
      simp [h, h1, Two.set]
    · have h1 : sa < sb := by omega
      have h2 : ¬ sb + 1 < sb := by omega
      simp [h, h1, h2, Two.set]

theorem switchedRecord_slots (s : State) (w : PendingSwitch) :
    activeSlot (switchedRecord s w).nv = some w.slot ∧ ((switchedRecord s w).nv.slots.at w.slot).state = .active ∧
    (∀ k, activeSlot s.nv = some k → k ≠ w.slot → ((switchedRecord s w).nv.slots.at k).state = .valid) ∧
    ∀ k, ((switchedRecord s w).nv.slots.at k).image = (s.nv.slots.at k).image := by
  have hset : ∀ (n : NvSt) (k j : Side) (st : SlotState), (setSlot n k st).slots.at j =
      if j = k then { n.slots.at k with state := st } else n.slots.at j := fun n k j st => Two.at_set _ _ _ _
  have himg : ∀ (n : NvSt) (k j : Side) (st : SlotState), ((setSlot n k st).slots.at j).image = (n.slots.at j).image :=
    fun n k j st => by
      rw [hset]
      split
      · next h => rw [h]
      · rfl
  have hold : ∀ k, activeSlot s.nv = some k → k ≠ w.slot →
      ((match activeSlot s.nv with
        | some k => if k = w.slot then s.nv else setSlot s.nv k .valid
        | none => s.nv : NvSt).slots.at k).state = .valid := fun k hk hne => by
    rw [hk]
    dsimp only
    rw [if_neg hne, hset, if_pos rfl]
  have himage : ∀ j, ((match activeSlot s.nv with
        | some k => if k = w.slot then s.nv else setSlot s.nv k .valid
        | none => s.nv : NvSt).slots.at j).image = (s.nv.slots.at j).image := fun j => by
    split
    · split
      · rfl
      · exact himg _ _ _ _
    · rfl
  have hnv : (switchedRecord s w).nv = setSlot (writeRecord (match activeSlot s.nv with
      | some k => if k = w.slot then s.nv else setSlot s.nv k .valid
      | none => s.nv) (some w.slot)) w.slot .active := rfl
  rw [hnv]
  generalize (match activeSlot s.nv with
      | some k => if k = w.slot then s.nv else setSlot s.nv k .valid
      | none => s.nv : NvSt) = n at hold himage
  have hw : (writeRecord n (some w.slot)).slots = n.slots := rfl
  refine ⟨activeSlot_writeRecord n (some w.slot), by rw [hset, if_pos rfl], fun k hk hne => ?_, fun k => ?_⟩
  · rw [hset, if_neg hne, hw]
    exact hold k hk hne
  · rw [himg, hw]
    exact himage k

/-! ## The answer -/

theorem entryOf_foldl_replyErr (l : List Via) (s : State) (st : Byte) (d : Nat) {via : Via} (h : via ∉ l) :
    entryOf (l.foldl (fun s v => replyErr s v st d) s) via = entryOf s via := by
  induction l generalizing s with
  | nil => rfl
  | cons v r ih =>
    rw [List.mem_cons, not_or] at h
    exact (ih _ h.2).trans (entryOf_setQ_other s v via _ h.1)

theorem entryOf_busMode (before s : State) {via : Via} (h : via ∉ s.act.scanVia) : entryOf (busMode before s) via = entryOf s via := by
  have h1 : entryOf (if (busActive s s.core.mode && modeGate s.core.mode 0x79 []) = true then s else abortScans s) via = entryOf s via := by
    split
    · rfl
    · exact (entryOf_foldl_replyErr s.act.scanVia _ _ _ h).trans rfl
  unfold busMode
  dsimp only
  split
  · exact h1
  · split
    · exact h1
    · exact h1

theorem switchedLanes_act (s : State) (w : PendingSwitch) : (switchedLanes s w).act = s.act := by
  have h : (abortCanSafe (switchedRecord s w)).act = s.act := by
    have hf : ∀ (l : List CanTx) (u : State), (l.foldl (fun s _ => countCanerr s) u).act = u.act := fun l => by
      induction l with
      | nil => exact fun _ => rfl
      | cons x r ih => exact fun u => (ih _).trans rfl
    exact (hf _ _).trans rfl
  have hr : ∀ u : State, (renewHandshakes u).act = u.act := fun u => by rw [renewHandshakes_eq]
  have hi : ∀ (u : State) (a b : LoafCfg), (installLoaf u a b).act = u.act := fun _ _ _ => rfl
  have hc : ∀ u : State, (clearIsolations u).act = u.act := fun _ => rfl
  rw [switchedLanes_eq, hr, hi, hc]
  exact h

/-- The command that asked for the loaf is answered with its ID. -/
theorem switchLoaf_answers (s : State) (w : PendingSwitch) {via : Via} (hw : w.via = some via) (h : via ∉ s.act.scanVia) {e : QEntry}
    (he : entryOf (switchLoaf s w) via = some e) : e.st = .replied 0x00#8 (padTo 8 w.cfgA.loafId) := by
  obtain ⟨f, hn⟩ := noted_loafNoted s w
  have hact : (loafNoted s w).act = s.act := by
    rw [hn]
    exact switchedLanes_act s w
  have hans : loafAnswered s w = replyOk (loafNoted s w) via (padTo 8 w.cfgA.loafId) := by
    unfold loafAnswered
    rw [hw]
  have hind : ∀ u : State, (indMode u).act = u.act ∧ entryOf (indMode u) via = entryOf u via := fun u => by
    unfold indMode
    split <;> exact ⟨rfl, rfl⟩
  rw [switchLoaf_eq, hans, entryOf_busMode _ _ (by rw [(hind _).1]; exact fun hv => h (hact ▸ hv)), (hind _).2] at he
  unfold replyOk at he
  rw [entryOf_setQ] at he
  obtain ⟨x, -, rfl⟩ := Option.map_eq_some_iff.1 he
  rfl

end Sys2Proof.Machine
end

section
/-! SUPPORT. The scans that wait for an answer up to the loaf switch of a tick (R463, R473). -/

namespace Sys2Proof.Machine

/-- No scan has begun to wait. -/
def ScansEnd (s t : State) : Prop := t.act.scanVia ⊆ s.act.scanVia

theorem ScansEnd.of_act {s t : State} (h : t.act = s.act) : ScansEnd s t := by
  unfold ScansEnd
  rw [h]
  exact List.Subset.refl _

theorem ScansEnd.trans {s t u : State} (h : ScansEnd s t) (k : ScansEnd t u) : ScansEnd s u := List.Subset.trans k h

theorem Noted.act {s t : State} (h : Noted s t) : t.act = s.act := by rw [h]

theorem act_foldl {α : Type} {f : State → α → State} (h : ∀ s x, (f s x).act = s.act) (l : List α) (s : State) :
    (l.foldl f s).act = s.act := by
  induction l generalizing s with
  | nil => rfl
  | cons x r ih => exact (ih _).trans (h s x)

theorem act_ite {s a b : State} (c : Prop) [Decidable c] (ha : a.act = s.act) (hb : b.act = s.act) : (if c then a else b).act = s.act :=
  pred_ite (P := fun t => t.act = s.act) c ha hb

theorem act_frameBegun (env : TickEnv) (s : State) : (frameBegun env s).act = s.act := by
  have h : (crustsTicked env s).act = s.act := by rw [crustsTicked_eq]
  unfold frameBegun
  exact Eq.trans rfl h

theorem act_dropTest (s : State) : (dropTest s).act = s.act := by
  unfold dropTest
  dsimp only
  split
  · rfl
  · refine act_ite _ rfl ?_
    split <;> rfl

theorem act_holdTick (s : State) : (holdTick s).act = s.act := by
  unfold holdTick holdFabric
  exact act_ite _ (act_ite _ rfl rfl) rfl

theorem act_flushCycles (s : State) : (flushCycles s).act = s.act := (act_foldl (fun s c => (noted_pushCrumb s c).act) _ _).trans rfl

theorem scansEnd_retireEffects (s : State) (n : Nat) : ScansEnd s (retireEffects s n) := by
  unfold retireEffects
  split
  · exact .of_act rfl
  · have h : ∀ (l : List Via) (u : State), (l.foldl (fun s v => replyErr s v stBusRetired 0) u).act = u.act :=
      act_foldl fun _ _ => rfl
    unfold ScansEnd
    rw [h]
    exact List.nil_subset _
  · exact .of_act rfl
  · exact .of_act rfl

theorem scansEnd_takeRetiring (s : State) : ScansEnd s (takeRetiring s) := by
  have h : ∀ (l : List Nat) (u : State), ScansEnd u (l.foldl retireEffects u) := fun l => by
    induction l with
    | nil => exact fun u => .of_act rfl
    | cons n r ih => exact fun u => (scansEnd_retireEffects u n).trans (ih _)
  exact ScansEnd.trans (t := { s with core := { s.core with retiring := [] } }) (.of_act rfl) (h _ _)

theorem act_setMode (s : State) (m : Mode) (why : ModeWhy) : (setMode s m why).act = s.act := (noted_crumb _ _ _ _ _).act.trans rfl

theorem act_dropLearn (s : State) : (dropLearn s).act = s.act := by
  unfold dropLearn endLearn
  split <;> rfl

theorem act_dropSwitch (s : State) : (dropSwitch s).act = s.act := by
  unfold dropSwitch
  split
  · split
    · rfl
    · dsimp only
      split <;> rfl
  · rfl

theorem act_enterMode (s : State) (m : Mode) (why : ModeWhy) : (enterMode s m why).act = s.act := by
  have h1 : (dropSwitch (dropLearn (setMode s m why))).act = s.act :=
    (act_dropSwitch _).trans ((act_dropLearn _).trans (act_setMode _ _ _))
  have h2 : (if s.core.mode = .maintain ∧ m ≠ .maintain then dropForces (dropSwitch (dropLearn (setMode s m why)))
      else dropSwitch (dropLearn (setMode s m why))).act = s.act := by split <;> exact h1
  unfold enterMode
  dsimp only
  generalize (if s.core.mode = .maintain ∧ m ≠ .maintain then dropForces (dropSwitch (dropLearn (setMode s m why)))
      else dropSwitch (dropLearn (setMode s m why))) = u at h2
  split
  · unfold enterProving
    dsimp only
    split <;> exact h2
  · exact h2
  · exact h2
  · split <;> exact h2
  · exact h2

theorem scansEnd_busMode (before s : State) : ScansEnd s (busMode before s) := by
  have h : ScansEnd s (if (busActive s s.core.mode && modeGate s.core.mode 0x79 []) = true then s else abortScans s) := by
    split
    · exact .of_act rfl
    · have hf : ∀ (l : List Via) (u : State), (l.foldl (fun s v => replyErr s v stAborted abortMode) u).act = u.act :=
        act_foldl fun _ _ => rfl
      unfold ScansEnd abortScans
      rw [hf]
      exact List.nil_subset _
  unfold busMode
  dsimp only
  split
  · exact h
  · split <;> exact h

theorem act_indMode (s : State) : (indMode s).act = s.act := by
  unfold indMode
  split <;> rfl

theorem scansEnd_changeMode (s : State) : ScansEnd s (changeMode s) := by
  have h : ∀ m why, (indMode (enterMode { s with core := { s.core with modeNext := none } } m why)).act = s.act := fun m why =>
    (act_indMode _).trans (act_enterMode _ _ _)
  unfold changeMode
  dsimp only
  split
  · next m why _ => exact (ScansEnd.of_act (h m why)).trans (scansEnd_busMode s _)
  · exact .of_act (act_indMode _)

theorem scansEnd_changedMode (env : TickEnv) (s : State) : ScansEnd s (changeMode (tickDue env s)) := by
  have h : ScansEnd s (tickDue env s) := by
    unfold tickDue
    exact ScansEnd.trans (.of_act ((act_flushCycles _).trans ((act_holdTick _).trans ((act_dropTest _).trans (act_frameBegun env s)))))
      (scansEnd_takeRetiring _)
  exact h.trans (scansEnd_changeMode _)

end Sys2Proof.Machine
end

section
/-! The tick beyond the frame's beginning (O9). -/

namespace Sys2Proof.Machine

open Sys2Proof.Claims

variable {env : TickEnv} {s : State}

/-! ## The state at the loaf switch -/

theorem changedMode_crust (env : TickEnv) (s : State) : (changeMode (tickDue env s)).crust = (crustsTicked env s).crust :=
  (congrArg Kept.crust (kept_changedMode env s)).trans (congrArg Kept.crust (kept_frameBegun env s))

/-- Without a loaf that is agreed on nothing is switched. -/
theorem loafTaken_none (h : (footing s).agreed = none) : loafTaken env s = changeMode (tickDue env s) := by
  unfold loafTaken
  rw [takeSwitch_agreed, footing_changedMode, h]

theorem loafTaken_agreed {w : PendingSwitch} (h : s.mbx.switch = some w) (ha : w.agreed = true) :
    loafTaken env s = switchLoaf (changeMode (tickDue env s)) w := by
  have hw : (footing s).agreed = some w := by
    unfold footing
    rw [h]
    simp [Option.filter, ha]
  unfold loafTaken
  rw [takeSwitch_agreed, footing_changedMode, hw]

/-- What the loaf switch leaves of the state before it. -/
theorem loafTaken_keeps (env : TickEnv) (s : State) : (loafTaken env s).host = (changeMode (tickDue env s)).host ∧
    ∀ c, ((loafTaken env s).crust.at c).snap = ((crustsTicked env s).crust.at c).snap := by
  have hcrust := changedMode_crust env s
  cases h : (footing s).agreed with
  | none =>
    rw [loafTaken_none h]
    exact ⟨rfl, fun c => by rw [hcrust]⟩
  | some w =>
    have ht : loafTaken env s = switchLoaf (changeMode (tickDue env s)) w := by
      unfold loafTaken
      rw [takeSwitch_agreed, footing_changedMode, h]
    rw [ht]
    generalize changeMode (tickDue env s) = u at hcrust
    have hv := loafView_switchLoaf u w
    have hh : (switchLoaf u w).host = (switchedLanes u w).host := congrArg LoafView.host hv
    have hc : (switchLoaf u w).crust = (switchedLanes u w).crust := congrArg LoafView.crust hv
    have hr := loafView_loafReady u w
    have hhr : (loafReady u w).host = u.host := congrArg LoafView.host hr
    have hcr : (loafReady u w).crust = u.crust := congrArg LoafView.crust hr
    have hi : (installLoaf (clearIsolations (loafReady u w)) w.cfgA w.cfgB).crust = (loafReady u w).crust := rfl
    refine ⟨?_, fun c => ?_⟩
    · rw [hh, switchedLanes_eq, renewHandshakes_eq, ← hhr]
      rfl
    · rw [hc, switchedLanes_eq, (renewHandshakes_at _ c).1, hi, hcr, hcrust]

/-! ## The request -/

theorem tickChecked_samples (env : TickEnv) (s : State) : hearthLive (tickChecked env s) = hearthLive s ∧
    (tickChecked env s).host.modeReq = s.host.modeReq ∧ (tickChecked env s).core.mode = (tickAll env s).core.mode := by
  have hf := footing_changedMode env s
  have hh := (loafTaken_keeps env s).1
  have hearth : (tickChecked env s).host.hearth = s.host.hearth := by
    rw [(trails_tickChecked env s).eq]
    exact (congrArg HostSt.hearth hh).trans (congrArg Footing.hearth hf)
  have hreset : (tickChecked env s).core.inReset = s.core.inReset := by
    have ht : (tickAll env s).core.inReset = s.core.inReset := congrArg Kept.inReset (kept_tickAll env s)
    rw [(trails_tickAll env s).eq] at ht
    rw [(trails_tickChecked env s).eq]
    exact ht
  refine ⟨by unfold hearthLive; rw [hearth, hreset], ?_, ?_⟩
  · rw [(trails_tickChecked env s).eq]
    exact (congrArg HostSt.modeReq hh).trans (congrArg Footing.modeReq hf)
  · rw [(trails_tickChecked env s).eq, (trails_tickAll env s).eq]

theorem tickAll_samples (env : TickEnv) (s : State) :
    (tickAll env s).host.sampled = (if hearthLive s = true ∧ s.host.modeReq ≠ 0 ∧
      ((tickAll env s).core.mode ≠ .boot ∨ s.host.modeReq = 0x07#8) then some s.host.modeReq else none) ∧
    (tickAll env s).host.rewritten = false ∧ (tickAll env s).host.modeReq = s.host.modeReq := by
  obtain ⟨hlive, hreq, hmode⟩ := tickChecked_samples env s
  have h := request_tickAll env s
  have hs : (sampleModeReq (tickChecked env s)).host.sampled = (if hearthLive (tickChecked env s) &&
      (tickChecked env s).host.modeReq != 0 && ((tickChecked env s).core.mode != .boot || (tickChecked env s).host.modeReq == 0x07#8)
      then some (tickChecked env s).host.modeReq else none) := rfl
  rw [hlive, hreq, hmode] at hs
  refine ⟨((congrArg (·.2.2.1) h).trans hs).trans ?_, congrArg (·.2.2.2) h, (congrArg (·.1) h).trans hreq⟩
  refine if_congr ?_ rfl rfl
  simp [and_assoc]

/-! ## The snapshot -/

theorem tickAll_snap (env : TickEnv) (s : State) (c : Side) : ((tickAll env s).crust.at c).snap = ((crustsTicked env s).crust.at c).snap := by
  rw [(trails_tickAll env s).crust c]
  exact (loafTaken_keeps env s).2 c

/-- Where nothing settles, the snapshot is taken of the crust as it stands, judged. -/
theorem snapshot_taken {c : Side} (hp : (s.crust.at c).logicPower = true) (hs : ∀ n, (inOf (s.crust.at c) n).pend = none) :
    ∃ y, Judged (s.crust.at c) y ∧ ((tickAll env s).crust.at c).snap = takeSnap s c (tickStamp s) y := by
  have hx := settledAtTick_idle hs
  have heq := settledAtTick_eq s
  have hcore : (settledAtTick s).core = s.core := by rw [heq]
  have hlane : (settledAtTick s).lane = s.lane := by rw [heq]
  refine ⟨_, judged_judgeAtTick s c (env.frontend.at c) (env.srcMaxMa.at c) _, ?_⟩
  rw [tickAll_snap, crustsTicked_at, tickedCrust_congr hcore hlane hx, hx, tickedCrust_snap env s c hp]

theorem snapshot_shows {c : Side} {x : CrustSt} {m : List (List Byte)} {now : Stamp} (hx : x = s.crust.at c) (hm : m = crustMap s c)
    (hn : now = { frame := s.core.frameNo + 1, off := 0 : Stamp }) (hp : x.logicPower = true) (hs : ∀ n, (inOf x n).pend = none) :
    (∀ n, n < 24 → ∀ e z, inputEntry m (chanIn c n) = some e → z = tabGet SnapIn.none ((tickAll env s).crust.at c).snap.ins n →
      z.level = (isLevelMode (inputMode e) && (inOf x n).deb) ∧ z.stamps = (inOf x n).stamps ∧
      z.overflow = (inOf x n).overflow ∧
      z.value = (if inputMode e = 4#8 then (inOf x n).count.toInt
        else if inputMode e = 5#8 then (frequencyAt s (inOf x n) now : Int) else 0)) ∧
    (∀ p, p < 2 → (quadEntry m (sideBase c + p)).isSome = true → (inputEntry m (chanIn c (2 * p))).isSome = true →
      (inputEntry m (chanIn c (2 * p + 1))).isSome = true → ∀ z, z = tabGet SnapVal.none ((tickAll env s).crust.at c).snap.quads p →
      z.value = (quadOf x p).count.toInt ∧ z.closing = (quadOf x p).closing) ∧
    (∀ k, k < 4 → (analogEntry m c k).isSome = true → ∀ z, z = tabGet SnapVal.none ((tickAll env s).crust.at c).snap.ana k →
      z.value = ((anaOf x k).mv : Int) ∧ z.fresh = (anaOf x k).fresh ∧ z.seq = (anaOf x k).seq ∧
      z.t = decide (x.sinceReference ≤ 15) ∧
      z.q = (!analogBeyond m c k (anaOf x k).mv && !(anaOf x k).stalled && !(anaOf x k).bad)) := by
  subst hx hm hn
  obtain ⟨y, hj, hsnap⟩ := snapshot_taken (env := env) hp hs
  rw [hsnap]
  refine ⟨fun n hlt e z he hz => ?_, fun p hlt hq hi hj' z hz => ?_, fun k hlt ha z hz => ?_⟩
  · have hin := hj.ins n
    have hread : z = snapInput s (crustMap s c) c y (tickStamp s) n := hz.trans (tabGet_tabOf _ _ _ hlt)
    unfold snapInput at hread
    rw [he] at hread
    rw [hread]
    dsimp only
    rw [hin.deb, hin.stamps, hin.overflow, hin.count, hin.frequencyAt]
    exact ⟨rfl, rfl, rfl, rfl⟩
  · have hquad : quadOf y p = quadOf (s.crust.at c) p := congrArg (tabGet QuadSt.init · p) hj.quads
    have hread : z = snapQuad (crustMap s c) c y p := hz.trans (tabGet_tabOf _ _ _ hlt)
    obtain ⟨q, hq⟩ := Option.isSome_iff_exists.1 hq
    obtain ⟨e, he⟩ := Option.isSome_iff_exists.1 hi
    obtain ⟨f, hf⟩ := Option.isSome_iff_exists.1 hj'
    unfold snapQuad at hread
    rw [hq, he, hf] at hread
    rw [hread]
    dsimp only
    rw [hquad]
    exact ⟨rfl, rfl⟩
  · have hana : anaOf y k = anaOf (s.crust.at c) k := congrArg (tabGet AnaSt.init · k) hj.ana
    have hread : z = snapAnalog (crustMap s c) c y k := hz.trans (tabGet_tabOf _ _ _ hlt)
    obtain ⟨a, ha⟩ := Option.isSome_iff_exists.1 ha
    unfold snapAnalog at hread
    rw [ha] at hread
    rw [hread]
    dsimp only
    rw [hana, hj.sinceReference]
    exact ⟨rfl, rfl, rfl, rfl, rfl⟩

/-! ## The switch -/

/-- Both lanes hold the new forms. -/
theorem installedLanes (u : State) (w : PendingSwitch) (l : Side) :
    ((switchedLanes u w).lane.at l).cfg = some (match l with
      | .a => w.cfgA
      | .b => w.cfgB) ∧ isoFree ((switchedLanes u w).lane.at l) := by
  have hr : ∀ v : State, (renewHandshakes v).lane = v.lane := fun v => by rw [renewHandshakes_eq]
  rw [switchedLanes_eq, hr]
  cases l with
  | a => exact ⟨rfl, isoFree_clearIsolations _ .a⟩
  | b => exact ⟨rfl, isoFree_clearIsolations _ .b⟩

/-- The crusts whose lanes serve have shaken hands anew, with every leg off. -/
theorem installedCrusts (u : State) (w : PendingSwitch) (c : Side) (hl : laneLive u c = true) (hp : (u.crust.at c).logicPower = true) :
    ((switchedLanes u w).crust.at c).handshake = true ∧ legsOff ((switchedLanes u w).crust.at c) = true := by
  have hv := loafView_loafReady u w
  have hcrust : (loafReady u w).crust = u.crust := congrArg LoafView.crust hv
  have hlane : (loafReady u w).lane = u.lane := congrArg LoafView.lane hv
  have hlive : laneLive (installLoaf (clearIsolations (loafReady u w)) w.cfgA w.cfgB) c = laneLive (loafReady u w) c := by
    cases c <;> rfl
  have hsame : (installLoaf (clearIsolations (loafReady u w)) w.cfgA w.cfgB).crust = (loafReady u w).crust := rfl
  rw [switchedLanes_eq]
  refine (renewHandshakes_at _ c).2 ?_ ?_
  · rw [hlive]
    unfold laneLive
    rw [hlane]
    exact hl
  · rw [hsame, hcrust]
    exact hp

/-- What a loaf switch leaves beside lanes and crusts. -/
theorem installedRest (u : State) (w : PendingSwitch) : (switchedLanes u w).mbx.switch = none ∧ (switchedLanes u w).mbx.chanOps = [] ∧
    (switchedLanes u w).mbx.delivered = none ∧ (switchedLanes u w).ind.vector = none ∧
    (switchedLanes u w).nv.slots = (switchedRecord u w).nv.slots ∧ (switchedLanes u w).nv.records = (switchedRecord u w).nv.records := by
  have hv := loafView_loafReady u w
  have hswitch : (loafReady u w).mbx.switch = none := congrArg LoafView.switch hv
  have hslots : (loafReady u w).nv.slots = (switchedRecord u w).nv.slots := congrArg LoafView.slots hv
  have hrecords : (loafReady u w).nv.records = (switchedRecord u w).nv.records := congrArg LoafView.records hv
  rw [switchedLanes_eq, renewHandshakes_eq]
  exact ⟨hswitch, rfl, rfl, rfl, hslots, hrecords⟩

theorem isoFree.chanOf {x : LaneSt} (h : isoFree x) (n : Nat) : (chanOf x n).iso = none := by
  have found : ∀ (t : Tab ChanRec), (∀ e ∈ t, e.2.iso = none) → (tabGet ChanRec.clear t n).iso = none := fun t => by
    induction t with
    | nil => exact fun _ => rfl
    | cons e r ih =>
      intro hall
      unfold tabGet
      rw [tabFind_cons]
      split
      · exact hall e List.mem_cons_self
      · exact ih fun x hx => hall x (List.mem_cons_of_mem _ hx)
  exact found _ h

theorem activeSlot_records {n m : NvSt} (h : n.records = m.records) : activeSlot n = activeSlot m := by
  unfold activeSlot higherRecord
  rw [h]

theorem QueueMarks.answer {s t : State} (h : QueueMarks s.mbx.queue t.mbx.queue) {via : Via} {st : Byte} {p : List Byte}
    (hs : ∀ e, entryOf s via = some e → e.st = .replied st p) {e : QEntry} (ht : entryOf t via = some e) : e.st = .replied st p := by
  have hsome : (entryOf s via).isSome = true := by
    obtain ⟨g, hq, gv, -⟩ := h
    have hp : (fun e : QEntry => e.via == via) ∘ g = fun e => e.via == via := by
      funext e
      rw [Function.comp_apply, gv]
    have hm : entryOf t via = (entryOf s via).map g := by
      unfold entryOf
      rw [hq, List.find?_map, hp]
    rw [ht] at hm
    cases hs : entryOf s via with
    | none => rw [hs] at hm; cases hm
    | some x => rfl
  obtain ⟨x, hx⟩ := Option.isSome_iff_exists.1 hsome
  rw [h.answered hx (hs x hx) ht]
  exact hs x hx

theorem tickAll_switches {w : PendingSwitch} (hw : s.mbx.switch = some w) (ha : w.agreed = true) :
    (tickAll env s).mbx.switch = none ∧ (∀ l, ((tickAll env s).lane.at l).cfg = some (match l with
      | .a => w.cfgA
      | .b => w.cfgB)) ∧
    activeSlot (tickAll env s).nv = some w.slot ∧ ((tickAll env s).nv.slots.at w.slot).state = .active ∧
    (∀ k, activeSlot s.nv = some k → k ≠ w.slot → ((tickAll env s).nv.slots.at k).state = .valid) ∧
    (∀ k, ((tickAll env s).nv.slots.at k).image = (s.nv.slots.at k).image) ∧
    (∀ c, laneLive s c = true → (s.crust.at c).logicPower = true →
      ((tickAll env s).crust.at c).handshake = true ∧ legsOff ((tickAll env s).crust.at c) = true) ∧
    (∀ l n, (chanRec (tickAll env s) l n).iso = none) ∧ (tickAll env s).mbx.chanOps = [] ∧ (tickAll env s).mbx.delivered = none ∧
    (tickAll env s).ind.vector = none ∧
    ∀ via, w.via = some via → via ∉ s.act.scanVia → ∀ e, entryOf (tickAll env s) via = some e →
      e.st = .replied 0x00#8 (padTo 8 w.cfgA.loafId) := by
  have htrail := trails_tickAll env s
  have hfoot := footing_changedMode env s
  have hcrust := changedMode_crust env s
  have hscans := scansEnd_changedMode env s
  rw [loafTaken_agreed hw ha] at htrail
  generalize tickAll env s = t at htrail ⊢
  generalize changeMode (tickDue env s) = u at htrail hfoot hcrust hscans
  have hview := loafView_switchLoaf u w
  obtain ⟨rswitch, rops, rdelivered, rvector, rslots, rrecords⟩ := installedRest u w
  have hslots : t.nv.slots = (switchedRecord u w).nv.slots := by
    rw [htrail.eq]
    exact (congrArg LoafView.slots hview).trans rslots
  have hrecords : t.nv.records = (switchedRecord u w).nv.records := by
    rw [htrail.eq]
    exact (congrArg LoafView.records hview).trans rrecords
  have hlane : (switchLoaf u w).lane = (switchedLanes u w).lane := congrArg LoafView.lane hview
  obtain ⟨sactive, sstate, svalid, simage⟩ := switchedRecord_slots u w
  have hold : activeSlot u.nv = activeSlot s.nv := activeSlot_records (congrArg Footing.records hfoot)
  have holdSlots : u.nv.slots = s.nv.slots := congrArg Footing.slots hfoot
  refine ⟨?_, fun l => ?_, (activeSlot_records hrecords).trans sactive, by rw [hslots]; exact sstate, fun k hk hne => ?_, fun k => ?_,
    fun c hl hp => ?_, fun l n => ?_, ?_, ?_, ?_, fun via hv hn e he => ?_⟩
  · rw [htrail.eq]
    exact (congrArg LoafView.switch hview).trans rswitch
  · have hl := congrArg (fun p => (Two.at p l).2) htrail.lanes
    rw [Two.at_map, Two.at_map, hlane] at hl
    exact hl.trans (installedLanes u w l).1
  · rw [hslots]
    exact svalid k (hold.trans hk) hne
  · rw [hslots, simage, holdSlots]
  · have hlu : laneLive u c = true := (footing_laneLive hfoot c).trans hl
    have hpu : (u.crust.at c).logicPower = true := by
      rw [hcrust, crustsTicked_at, tickedCrust_logicPower, (settledAtTick_legs s c).logicPower]
      exact hp
    have hc : (switchLoaf u w).crust = (switchedLanes u w).crust := congrArg LoafView.crust hview
    rw [htrail.crust c, hc]
    exact installedCrusts u w c hlu hpu
  · have hi := htrail.iso (fun k => by rw [hlane]; exact (installedLanes u w k).2) l
    exact hi.chanOf n
  · rw [htrail.eq]
    exact (congrArg LoafView.chanOps hview).trans rops
  · rw [htrail.eq]
    exact (congrArg LoafView.delivered hview).trans rdelivered
  · exact htrail.vector.trans ((congrArg LoafView.vector hview).trans rvector)
  · exact htrail.queue.answer (fun x hx => switchLoaf_answers u w hv (fun h => hn (hscans h)) hx) he

/-! ## SAFEN -/

theorem available_iff (s : State) (l : LaneSt) : available s l = true ↔
    (s.core.mode = .operate ∨ s.core.mode = .maintain) ∧ bothInService s = true ∧
    (∀ c, (s.crust.at c).lockout = false ∧ (s.crust.at c).overvolt = false) ∧
    pairShortHeld l = false ∧ ∃ cfg, l.cfg = some cfg ∧
      ∃ p ∈ drivenPairs cfg.params, p < 16 ∧ pairRetired cfg.params l p = false ∧ heldByShort (pairRecOf l p) = false := by
  have hsides : (∀ c, (s.crust.at c).lockout = false ∧ (s.crust.at c).overvolt = false) ↔
      (s.crust.a.lockout = false ∧ s.crust.a.overvolt = false) ∧ s.crust.b.lockout = false ∧ s.crust.b.overvolt = false :=
    ⟨fun h => ⟨h .a, h .b⟩, fun h c => by cases c; exacts [h.1, h.2]⟩
  rw [hsides]
  unfold available pairRecOf
  cases l.cfg with
  | none => simp
  | some cfg => 
    simp only [Bool.and_eq_true, Bool.or_eq_true, beq_iff_eq, Bool.not_eq_true', List.any_eq_true, decide_eq_true_eq, Option.some.injEq,
      exists_eq_left', and_assoc]
    tauto

theorem safenLevel_iff (s : State) : safenLevel s = true ↔
    (s.core.mode = .operate ∨ s.core.mode = .maintain) ∧ bothInService s = true ∧
    (∀ c, (s.crust.at c).lockout = false ∧ (s.crust.at c).overvolt = false) ∧
    ∀ l, pairShortHeld (s.lane.at l) = false ∧ ∃ cfg, (s.lane.at l).cfg = some cfg ∧
      ∃ p ∈ drivenPairs cfg.params, p < 16 ∧ pairRetired cfg.params (s.lane.at l) p = false ∧
        heldByShort (pairRecOf (s.lane.at l) p) = false := by
  unfold safenLevel
  rw [Bool.and_eq_true, available_iff, available_iff]
  constructor
  · rintro ⟨⟨hm, hb, hc, ha⟩, -, -, -, hl⟩
    exact ⟨hm, hb, hc, fun l => by cases l; exacts [ha, hl]⟩
  · rintro ⟨hm, hb, hc, hl⟩
    exact ⟨⟨hm, hb, hc, hl .a⟩, hm, hb, hc, hl .b⟩

/-- SAFEN is at the level that the new frame asks for. -/
theorem tickAll_safen (env : TickEnv) (s : State) : (tickAll env s).core.safen = safenLevel (tickAll env s) := by
  have hirq : ∀ u v : State, (syncIrq u v).core.safen = v.core.safen ∧ safenLevel (syncIrq u v) = safenLevel v := fun u v => by
    unfold syncIrq
    split <;> exact ⟨rfl, rfl⟩
  rw [tickAll_eq, (hirq _ _).1, (hirq _ _).2]
  generalize tickEnd env s = u
  rfl

theorem runs_tickAll (env : TickEnv) {s : State} (hu : s.core.startUp = none) (ht : s.core.tickOn = true) (hp : s.core.phase = .g) :
    Runs (.tick env) s (tickAll env s) := by
  refine (runs_tick env s).trans (congrArg _ ?_)
  rw [finishStart_idle (.inl hu), ht, hp]
  rfl

end Sys2Proof.Machine
end

section
/-! The settlement of O9. -/

namespace Sys2Proof.Machine

open Sys2Proof.Claims

/-- Settles O9, part by part: the request, the snapshots, the loaf switch and SAFEN. -/
theorem tickSamplesAndSwitches : Obligations.TickSamplesAndSwitches := by
  intro env s hu ht hp
  obtain ⟨hsampled, hrewritten, hreq⟩ := tickAll_samples env s
  exact ⟨tickAll env s, runs_tickAll env hu ht hp, hsampled, hrewritten, hreq, fun c x m now hx hm hn => snapshot_shows hx hm hn,
    fun w => tickAll_switches, by rw [tickAll_safen]; exact safenLevel_iff _⟩

end Sys2Proof.Machine
end

section
/-! SUPPORT. A state against O8: a table of legs that is not in canonical form (two entries under one key), which the model's type of
tables admits and the statement does not shut out. -/

namespace Sys2Proof.Machine

open Sys2Proof.Claims

/-- At the end of phase G, the legs of crust A list leg 0 twice: first off with an anomaly of the frame, then on. -/
def twiceCommanded : State :=
  onCrust { State.reset with core := { State.reset.core with tickOn := true, phase := .g } } .a
    { CrustSt.reset with
      logicPower := true
      legs := [(0, { LegSt.off with anomaly := 0x51 }), (0, { LegSt.off with cmd := true })] }

/-- A tick on which the crusts observe nothing. -/
def quietTick : TickEnv :=
  { intervalNs := ⟨1000000, 1000000⟩, frontend := ⟨0, 0⟩, srcMaxMa := ⟨Vector.replicate 8 0, Vector.replicate 8 0⟩ }

theorem twiceCommanded_off : (legOf (twiceCommanded.crust.at .a) 0).cmd = false := by decide

/-- The new frame clears the anomaly of the first entry, which is then not listed any more, and the second comes to light. -/
theorem tickedCrust_twiceCommanded :
    (legOf (tickedCrust quietTick twiceCommanded .a (twiceCommanded.crust.at .a)) 0).cmd = true := by decide

theorem tick_twiceCommanded : (legOf ((tickAll quietTick twiceCommanded).crust.at .a) 0).cmd = true := by
  have hidle : (settledAtTick twiceCommanded).crust.at .a = twiceCommanded.crust.at .a := settledAtTick_idle fun _ => rfl
  have hsettled := settledAtTick_eq twiceCommanded
  have hcore : (settledAtTick twiceCommanded).core = twiceCommanded.core := by rw [hsettled]
  have hlane : (settledAtTick twiceCommanded).lane = twiceCommanded.lane := by rw [hsettled]
  have hlegs : ((tickAll quietTick twiceCommanded).crust.at .a).legs = ((loafTaken quietTick twiceCommanded).crust.at .a).legs := by
    rw [(trails_tickAll quietTick twiceCommanded).crust .a]
  unfold legOf
  rw [hlegs, loafTaken_none rfl, changedMode_crust, crustsTicked_at, tickedCrust_congr hcore hlane hidle, hidle]
  exact tickedCrust_twiceCommanded

theorem runs_unique {c : Instr} {s t u : State} (h : Runs c s t) (k : Runs c s u) : t = u := by
  cases h.symm.trans k
  rfl

/-- Refutes O8: where no set is staged a crust "holds its legs", but not in a table of legs that lists a key twice. -/
theorem not_tickBeginsTheNextFrame : ¬ Obligations.TickBeginsTheNextFrame := by
  rintro ⟨-, h⟩
  obtain ⟨t, hrun, -, -, -, -, -, -, -, -, -, -, hlegs⟩ := h quietTick twiceCommanded rfl rfl rfl
  have ht : t = tickAll quietTick twiceCommanded := runs_unique hrun (runs_tickAll quietTick rfl rfl rfl)
  obtain ⟨hheld, -⟩ := hlegs rfl .a rfl rfl
  have hcmd := hheld rfl 0
  rw [ht, tick_twiceCommanded, twiceCommanded_off] at hcmd
  exact absurd hcmd (by decide)

end Sys2Proof.Machine
end

section
/-! SUPPORT. Crumbs leave the measurements and the host's registers alone, and with them what the hearth writes as it starts (R402-R404,
R439). -/

namespace Sys2Proof.Machine

/-- Crumbs alone have been written, or lost. -/
def Crumbed (s t : State) : Prop := t = { s with jrn := t.jrn, stat := { s.stat with epoch := t.stat.epoch } }

theorem Crumbed.refl (s : State) : Crumbed s s := rfl

theorem Crumbed.trans {s t u : State} (h : Crumbed s t) (k : Crumbed t u) : Crumbed s u := by
  unfold Crumbed at *
  rw [k, h]

theorem Crumbed.noted {s t : State} (h : Crumbed s t) : Noted s t := by
  rw [h]
  rfl

theorem Crumbed.meas {s t : State} (h : Crumbed s t) : t.meas = s.meas := by rw [h]

theorem Crumbed.host {s t : State} (h : Crumbed s t) : t.host = s.host := by rw [h]

theorem crumbed_pushCrumb (s : State) (c : List Byte) : Crumbed s (pushCrumb s c) :=
  pred_ite (P := Crumbed s) _ (.refl s) (pred_ite (P := Crumbed s) _ rfl rfl)

theorem crumbed_crumb (s : State) (kind : Byte) (chan : Nat) (code : Byte) (body : List Byte) :
    Crumbed s (crumb s kind chan code body) := crumbed_pushCrumb _ _

theorem crumbed_foldl_pushCrumb (l : List (List Byte)) (s : State) : Crumbed s (l.foldl pushCrumb s) := by
  induction l generalizing s with
  | nil => exact .refl s
  | cons c r ih => exact (crumbed_pushCrumb s c).trans (ih _)

theorem crumbed_bootCrumb (s : State) (quick : Bool) : Crumbed s (bootCrumb s quick) := crumbed_crumb _ _ _ _ _

theorem crumbed_resetCrumb (s : State) : Crumbed s (resetCrumb s) := by
  unfold resetCrumb
  split
  · exact pred_ite (P := Crumbed s) _ (.refl s) (crumbed_crumb _ _ _ _ _)
  · exact .refl s

/-! ## The hearth starts -/

/-- What a scan of the journal pages leaves. -/
def pageView (s : State) : HostSt × MeasSt := (s.host, s.meas)

theorem pageView_markBad (s : State) (p : Nat) : pageView (markBad s p) = pageView s := by
  have h : ∀ u v : State, Crumbed u v → pageView v = pageView u := fun u v h => Prod.ext h.host h.meas
  exact pred_ite (P := fun t => pageView t = pageView s) _ rfl ((h _ _ (crumbed_crumb _ _ _ _ _)).trans rfl)

theorem pageView_scanPages (s : State) (runs : List BlockRun) (set : List Nat) : pageView (scanPages s runs set) = pageView s := by
  have h : ∀ (l : List W16) (u : State), pageView (l.foldl (fun s p => markBad s p.toNat) u) = pageView u := fun l => by
    induction l with
    | nil => exact fun _ => rfl
    | cons p r ih => exact fun u => (ih _).trans (pageView_markBad u _)
  exact pred_ite (P := fun t => pageView t = pageView s) _ (h _ _) rfl

theorem canApply_host (s : State) : (canApply s).host = s.host := by
  unfold canApply
  split <;> rfl

theorem canApply_meas (s : State) : (canApply s).meas = s.meas := by
  unfold canApply
  split <;> rfl

theorem startHearth_meas (s : State) (env : BootEnv) (quick : Bool) : (startHearth s env quick).meas = s.meas := by
  unfold startHearth
  exact (congrArg Prod.snd (pageView_scanPages _ _ _)).trans ((crumbed_resetCrumb _).meas.trans ((crumbed_bootCrumb _ _).meas.trans
    (canApply_meas _)))

theorem startHearth_hearth (s : State) (env : BootEnv) (quick : Bool) : (startHearth s env quick).host.hearth = true := by
  have h : (startHearth s env quick).host = (hearthStart s).host := by
    unfold startHearth
    exact (congrArg Prod.fst (pageView_scanPages _ _ _)).trans ((crumbed_resetCrumb _).host.trans ((crumbed_bootCrumb _ _).host.trans
      (canApply_host _)))
  rw [h]
  rfl

/-! ## The registers of a run of measurements -/

theorem listSet_eq_set {α : Type} (l : List α) (i : Nat) (x : α) : listSet l i x = l.set i x := by
  induction l generalizing i with
  | nil => rfl
  | cons y r ih =>
    cases i with
    | zero => rfl
    | succ i => exact congrArg (y :: ·) (ih i)

/-- The registers after the extension of one. -/
def extended (m : List (List Byte)) (e : Nat × List Byte) : List (List Byte) := m.set e.1 (sha256 (m.getD e.1 [] ++ e.2))

theorem extendAll_meas {s : State} (hd : s.meas.disabled = false) (l : List (Nat × List Byte)) :
    (extendAll s l).meas = { s.meas with m := l.foldl extended s.meas.m } := by
  induction l generalizing s with
  | nil => rfl
  | cons e r ih =>
    have h1 : (extendM s e.1 e.2).meas = { s.meas with m := extended s.meas.m e } := by
      unfold extendM
      rw [hd, listSet_eq_set]
      rfl
    have hd1 : (extendM s e.1 e.2).meas.disabled = false := by rw [h1]; exact hd
    exact (ih hd1).trans (by rw [h1]; rfl)

theorem extendAll_mstate (s : State) (l : List (Nat × List Byte)) : (extendAll s l).meas.mstate = s.meas.mstate := by
  induction l generalizing s with
  | nil => rfl
  | cons e r ih => exact (ih _).trans (pred_ite (P := fun t => t.meas.mstate = s.meas.mstate) _ rfl rfl)

theorem extended_length (m : List (List Byte)) (e : Nat × List Byte) : (extended m e).length = m.length := List.length_set

theorem foldl_extended_other (l : List (Nat × List Byte)) (m : List (List Byte)) {i : Nat} (h : ∀ e ∈ l, e.1 ≠ i) :
    (l.foldl extended m).getD i [] = m.getD i [] := by
  induction l generalizing m with
  | nil => rfl
  | cons e r ih =>
    refine (ih _ fun x hx => h x (List.mem_cons_of_mem _ hx)).trans ?_
    have hne : e.1 ≠ i := h e List.mem_cons_self
    unfold extended
    simp [List.getD_eq_getElem?_getD, List.getElem?_set_ne hne]

/-- Where each register is extended once, each holds its own extension. -/
theorem foldl_extended (l : List (Nat × List Byte)) (m : List (List Byte)) (hn : (l.map Prod.fst).Nodup) {e : Nat × List Byte}
    (he : e ∈ l) (hl : e.1 < m.length) : (l.foldl extended m).getD e.1 [] = sha256 (m.getD e.1 [] ++ e.2) := by
  induction l generalizing m with
  | nil => cases he
  | cons x r ih =>
    rw [List.map_cons, List.nodup_cons] at hn
    rcases List.mem_cons.1 he with rfl | hr
    · refine (foldl_extended_other r _ fun y hy h => hn.1 (List.mem_map.2 ⟨y, hy, h⟩)).trans ?_
      unfold extended
      simp [List.getD_eq_getElem?_getD, hl]
    · refine (ih (extended m x) hn.2 hr (by rw [extended_length]; exact hl)).trans ?_
      have hne : x.1 ≠ e.1 := fun h => hn.1 (List.mem_map.2 ⟨e, hr, h.symm⟩)
      unfold extended
      simp [List.getD_eq_getElem?_getD, List.getElem?_set_ne hne]

/-! ## What the start-up keeps past its second step -/

/-- What step 1 and the end of step 2 have decided. -/
structure BootView where
  inReset : Bool
  vddGood : Bool
  tickOn : Bool
  token : Option Token
  copies : Two (Option W32)
  life : Lifecycle
  pending : List Instr
  source : Byte
  results : List (Byte × Byte × W32)

def bootView (s : State) : BootView :=
  { inReset := s.core.inReset, vddGood := s.core.vddGood, tickOn := s.core.tickOn, token := s.nv.token, copies := s.nv.bootCopies
    life := s.nv.life, pending := s.pending, source := s.test.source, results := s.test.results }

theorem Tested.bootView {s t : State} (h : Tested s t) : bootView t = bootView s := by
  rw [h]
  rfl

theorem Reported.bootView {s t : State} (h : Reported s t) : Machine.bootView t = Machine.bootView s :=
  h.proj Machine.bootView fun _ _ _ _ _ => rfl

theorem Crumbed.bootView {s t : State} (h : Crumbed s t) : Machine.bootView t = Machine.bootView s := h.noted.reported.bootView

theorem noted_extendAll (s : State) (l : List (Nat × List Byte)) : Noted s (extendAll s l) := by
  induction l generalizing s with
  | nil => exact .refl s
  | cons e r ih => exact (noted_extendM s _ _).trans (ih _)

theorem noted_markRest (s : State) (done : Nat) : Noted s (markRest s done) := (noted_extendAll s _).trans rfl

theorem markRest_mstate (s : State) (done : Nat) : (markRest s done).meas.mstate = 0x03#8 := rfl

/-- A change of mode writes a crumb and raises its interrupt. -/
theorem setMode_eq (s : State) (m : Mode) (why : ModeWhy) : setMode s m why = { s with
    core := { s.core with mode := m }, host := { s.host with irqStat0 := (setMode s m why).host.irqStat0 }
    jrn := (setMode s m why).jrn, stat := { s.stat with epoch := (setMode s m why).stat.epoch } } := by
  have h := crumbed_crumb { s with core := { s.core with mode := m } } crMode 0xFF m.code [s.core.mode.code, why.code]
  unfold setMode
  dsimp only
  generalize crumb { s with core := { s.core with mode := m } } crMode 0xFF m.code [s.core.mode.code, why.code] = u at h
  rw [h]
  rfl

/-- What the end in SAFE_HOLD leaves. -/
theorem stopInSafeHold_keeps (s : State) : bootView (stopInSafeHold s) = bootView s ∧ (stopInSafeHold s).core.mode = .safeHold ∧
    (stopInSafeHold s).core.startUp = s.core.startUp ∧ (stopInSafeHold s).meas = s.meas ∧ (stopInSafeHold s).lane = s.lane ∧
    (stopInSafeHold s).host.hearth = s.host.hearth := by
  unfold stopInSafeHold
  rw [setMode_eq]
  exact ⟨rfl, rfl, rfl, rfl, rfl, rfl⟩

theorem bootView_hearthStart (s : State) : bootView (hearthStart s) = bootView s := by
  unfold hearthStart loseTest
  dsimp only
  split <;> rfl

theorem bootView_canApply (s : State) : bootView (canApply s) = bootView s := by
  unfold canApply
  split <;> rfl

theorem bootView_startHearth (s : State) (env : BootEnv) (quick : Bool) : bootView (startHearth s env quick) = bootView s := by
  unfold startHearth
  exact (tested_scanPages _ _ _).bootView.trans ((crumbed_resetCrumb _).bootView.trans ((crumbed_bootCrumb _ _).bootView.trans
    ((bootView_canApply _).trans (bootView_hearthStart s))))

/-- The start-up has stopped: SAFE_HOLD, with the registers not measured marked. -/
theorem stopped (s : State) (done : Nat) : bootView (stopInSafeHold (markRest s done)) = bootView s ∧
    (stopInSafeHold (markRest s done)).core.mode = .safeHold ∧ (stopInSafeHold (markRest s done)).core.startUp = s.core.startUp ∧
    (stopInSafeHold (markRest s done)).meas.mstate = 0x03#8 ∧ (stopInSafeHold (markRest s done)).lane = s.lane ∧
    (stopInSafeHold (markRest s done)).host.hearth = s.host.hearth := by
  have hn := noted_markRest s done
  obtain ⟨hview, hmode, hstart, hmeas, hlane, hhearth⟩ := stopInSafeHold_keeps (markRest s done)
  refine ⟨hview.trans hn.reported.bootView, hmode, hstart.trans ?_, (congrArg MeasSt.mstate hmeas).trans (markRest_mstate s done),
    hlane.trans hn.lane, hhearth.trans ?_⟩ <;> rw [hn]

/-! ## Step 3 -/

/-- Step 3 fails at one of its measurements. -/
theorem step3_fails {env : BootEnv} {k : Fin 6} (hk : env.step3Fail = some k) (s : State) (quick : Bool) :
    bootView (step3 s env quick) = bootView s ∧ (step3 s env quick).core.mode = .safeHold ∧
    (step3 s env quick).core.startUp = s.core.startUp ∧ (step3 s env quick).meas.mstate = 0x03#8 ∧
    (2 ≤ k.val → (step3 s env quick).host.hearth = true) := by
  have hx := noted_extendAll s ((step3Values s.nv).take k.val)
  have hxs : (extendAll s ((step3Values s.nv).take k.val)).core = s.core := extendAll_core s _
  unfold step3
  rw [hk]
  dsimp only
  obtain ⟨hview, hmode, hstart, hmstate, -, hhearth⟩ := stopped (if 2 ≤ k.val then startHearth (extendAll s ((step3Values s.nv).take k.val))
    env quick else extendAll s ((step3Values s.nv).take k.val)) k.val
  by_cases h2 : 2 ≤ k.val
  · rw [if_pos h2] at *
    exact ⟨hview.trans ((bootView_startHearth _ _ _).trans hx.reported.bootView), hmode,
      hstart.trans (congrArg CoreSt.startUp ((startHearth_core _ _ _).trans hxs)), hmstate,
      fun _ => hhearth.trans (startHearth_hearth _ _ _)⟩
  · rw [if_neg h2] at *
    exact ⟨hview.trans hx.reported.bootView, hmode, hstart.trans (congrArg CoreSt.startUp hxs), hmstate, fun h => absurd h h2⟩

/-- Step 3 passes: the hearth has started, and the module waits for the first tick, or stays in SAFE_HOLD where it is RETIRED. -/
theorem step3_passes {env : BootEnv} (hk : env.step3Fail = none) (s : State) (quick : Bool) :
    bootView (step3 s env quick) = bootView s ∧ (step3 s env quick).host.hearth = true ∧
    (s.nv.life = .retired → (step3 s env quick).core.mode = .safeHold ∧ (step3 s env quick).core.startUp = s.core.startUp ∧
      (step3 s env quick).meas.mstate = 0x03#8) ∧
    (s.nv.life ≠ .retired → (step3 s env quick).core.mode = s.core.mode ∧ (step3 s env quick).core.startUp = some env ∧
      (step3 s env quick).meas = (extendAll s (step3Values s.nv)).meas) := by
  have hview := (bootView_startHearth (extendAll s (step3Values s.nv)) env quick).trans (noted_extendAll s _).reported.bootView
  have hcore : (startHearth (extendAll s (step3Values s.nv)) env quick).core = s.core :=
    (startHearth_core _ _ _).trans (extendAll_core s _)
  have hmeas := startHearth_meas (extendAll s (step3Values s.nv)) env quick
  have hhearth := startHearth_hearth (extendAll s (step3Values s.nv)) env quick
  unfold step3
  rw [hk]
  dsimp only
  generalize startHearth (extendAll s (step3Values s.nv)) env quick = u at hview hcore hmeas hhearth
  by_cases hl : s.nv.life = .retired
  · rw [if_pos hl]
    obtain ⟨hv, hmode, hstart, hmstate, -, hh⟩ := stopped u 6
    exact ⟨hv.trans hview, hh.trans hhearth, fun _ => ⟨hmode, hstart.trans (congrArg CoreSt.startUp hcore), hmstate⟩, fun h => absurd hl h⟩
  · rw [if_neg hl]
    refine ⟨?_, hhearth, fun h => absurd h hl, fun _ => ⟨?_, rfl, hmeas⟩⟩
    · rw [← hview]
      rfl
    · exact (rfl : _ = u.core.mode).trans (by rw [hcore])

end Sys2Proof.Machine
end

section
/-! RESET_RELEASE: the start-up to the end of its third step (O6, first part). -/

namespace Sys2Proof.Machine

/-! ## Step 1 -/

/-- The boot counter advances by 1 and does not wrap: the copy written holds the greater count. -/
theorem bootCount_advanceBoot (n : NvSt) : bootCount (advanceBoot n) = satInc (bootCount n) := by
  have hmax : ∀ x y : W32, (y.toNat ≤ x.toNat) → maxBv x y = x := fun x y h => if_neg (by omega)
  have hle : ∀ x : W32, x.toNat ≤ (satInc x).toNat := fun x => by
    unfold satInc
    split
    · exact le_refl _
    · next h =>
      have hx : x.toNat ≠ 2 ^ 32 - 1 := fun e => h (BitVec.eq_of_toNat_eq (by rw [e]; rfl))
      have hone : (1 : W32).toNat = 1 := rfl
      have := x.isLt
      rw [BitVec.toNat_add]
      omega
  have hgt : ∀ x : W32, maxBv x (satInc x) = satInc x := fun x => by
    unfold maxBv
    split
    · rfl
    · next h => exact BitVec.eq_of_toNat_eq (le_antisymm (hle x) (by omega))
  unfold advanceBoot bootCount
  cases ha : n.bootCopies.a with
  | none =>
    cases hb : n.bootCopies.b with
    | none => simp [Two.set, hb]
    | some y => simp [Two.set, hb, hmax _ _ (hle y)]
  | some x =>
    cases hb : n.bootCopies.b with
    | none => simp [Two.set, ha, hgt]
    | some y =>
      by_cases hxy : y.toNat ≤ x.toNat
      · simp [Two.set, ha, hxy, hmax x y hxy, hgt]
      · have hm : maxBv x y = y := if_pos (by omega)
        simp [Two.set, hb, hxy, hm, hmax _ _ (hle y)]

theorem satInc_word (x : W32) : satInc x = if x = 0xFFFFFFFF#32 then 0xFFFFFFFF#32 else x + 1 := by
  have h : BitVec.allOnes 32 = 0xFFFFFFFF#32 := rfl
  unfold satInc
  rw [h]
  split
  · next hx => exact hx
  · rfl

/-! ## Step 2 -/

theorem bootRepair_eq (s : State) (quick : Bool) (runs : List BlockRun) :
    bootRepair s quick runs = { s with test := { s.test with softMap := (bootRepair s quick runs).test.softMap } } := by
  unfold bootRepair
  dsimp only
  split <;> rfl

theorem bootWindow_lockouts {s t : State} (h : t.crust.map (·.lockout) = s.crust.map (·.lockout)) : bootWindow t = bootWindow s := by
  have hf : t.crust.map (fun x => !x.lockout) = s.crust.map fun x => !x.lockout := by
    have e := congrArg (fun p : Two Bool => p.map (!·)) h
    exact e
  unfold bootWindow openWindow
  rw [hf]

theorem blockResult_drawn {s t : State} (h : t.drawn = s.drawn) : blockResult t = blockResult s := by
  funext w runs b
  unfold blockResult idleResult idleMisr
  rw [h]

/-- A crust that gets its logic power back has the lockout that it had. -/
theorem powered_lockouts (s : State) : (if s.core.vddGood then s.crust else s.crust.map powerCrust).map (·.lockout) =
    s.crust.map (·.lockout) := by
  split <;> rfl

/-- The state at the end of step 2. -/
theorem afterStep2_eq (s : State) (env : BootEnv) : afterStep2 s env = { s with
    nv := { advanceBoot s.nv with token := none }
    core := { s.core with inReset := false, vddGood := true, startUp := none }
    crust := if s.core.vddGood then s.crust else s.crust.map powerCrust
    drawn := s.drawn + 1
    test := { s.test with
      source := 1, results := (bootSet (tokenValid (advanceBoot s.nv))).map (blockResult s (bootWindow s) env.runs)
      softMap := (afterStep2 s env).test.softMap } } := by
  have hw : bootWindow { s with
      nv := { advanceBoot s.nv with token := none }
      core := { s.core with inReset := false, vddGood := true, startUp := none }
      crust := if s.core.vddGood then s.crust else s.crust.map powerCrust } = bootWindow s := bootWindow_lockouts (powered_lockouts s)
  unfold afterStep2
  dsimp only
  rw [hw, bootRepair_eq]
  rfl

theorem afterStep2_window (s : State) (env : BootEnv) : bootWindow (afterStep2 s env) = bootWindow s := by
  refine bootWindow_lockouts ?_
  rw [afterStep2_eq]
  exact powered_lockouts s

/-- What steps 1 and 2 have decided. -/
theorem bootView_afterStep2 (s : State) (env : BootEnv) : bootView (afterStep2 s env) =
    { inReset := false, vddGood := true, tickOn := s.core.tickOn, token := none, copies := (advanceBoot s.nv).bootCopies
      life := s.nv.life, pending := s.pending, source := 1
      results := (bootSet (tokenValid (advanceBoot s.nv))).map (blockResult s (bootWindow s) env.runs) } := by
  rw [afterStep2_eq]
  rfl

/-- The boot run passes where no block fails and a quick boot finds its repair record. -/
theorem bootTestOk_afterStep2 (s : State) (env : BootEnv) (quick : Bool) : bootTestOk (afterStep2 s env) quick env.runs = true ↔
    (∀ b ∈ bootSet quick, blockFails (bootWindow s) env.runs b = false) ∧ (quick = true → (repairMap s.nv).isSome = true) := by
  have hr : repairMap (afterStep2 s env).nv = repairMap s.nv := by rw [afterStep2_eq]; rfl
  unfold bootTestOk
  rw [afterStep2_window, hr]
  cases quick <;> simp

/-! ## The end of step 3 -/

theorem restoreLanes_rest (s : State) (quick : Bool) : bootView (restoreLanes s quick) = bootView s ∧
    (restoreLanes s quick).core = s.core ∧ (restoreLanes s quick).nv = s.nv ∧ (restoreLanes s quick).meas = s.meas := by
  unfold restoreLanes
  split
  · exact ⟨rfl, rfl, rfl, rfl⟩
  · exact ⟨rfl, rfl, rfl, rfl⟩

/-- The start-up where its self-test fails. -/
theorem startUp_fails {s : State} {env : BootEnv} (h : bootTestOk (afterStep2 s env) (tokenValid (advanceBoot s.nv)) env.runs = false) :
    bootView (startUp s env) = bootView (afterStep2 s env) ∧ (startUp s env).core.mode = .safeHold ∧ (startUp s env).core.startUp = none ∧
    (startUp s env).meas.mstate = 0x03#8 ∧ (startUp s env).lane = s.lane ∧ (startUp s env).host.hearth = s.host.hearth := by
  have e : startUp s env = stopInSafeHold (markRest (afterStep2 s env) 0) := by
    rw [startUp_eq]
    exact if_neg (by rw [h]; exact Bool.false_ne_true)
  obtain ⟨hview, hmode, hstart, hmstate, hlane, hhearth⟩ := stopped (afterStep2 s env) 0
  rw [e]
  refine ⟨hview, hmode, hstart.trans ?_, hmstate, hlane.trans ?_, hhearth.trans ?_⟩ <;> rw [afterStep2_eq]

/-- The start-up where its self-test passes goes on with step 3. -/
theorem startUp_goesOn {s : State} {env : BootEnv} (h : bootTestOk (afterStep2 s env) (tokenValid (advanceBoot s.nv)) env.runs = true) :
    startUp s env = step3 (restoreLanes (afterStep2 s env) (tokenValid (advanceBoot s.nv))) env (tokenValid (advanceBoot s.nv)) := by
  rw [startUp_eq]
  exact if_pos h

/-- Whatever happens, the start-up keeps what its first two steps have decided. -/
theorem bootView_startUp (s : State) (env : BootEnv) : bootView (startUp s env) = bootView (afterStep2 s env) := by
  cases h : bootTestOk (afterStep2 s env) (tokenValid (advanceBoot s.nv)) env.runs with
  | false => exact (startUp_fails h).1
  | true =>
    rw [startUp_goesOn h]
    refine Eq.trans ?_ (restoreLanes_rest _ (tokenValid (advanceBoot s.nv))).1
    cases hk : env.step3Fail with
    | some k => exact (step3_fails hk _ _).1
    | none => exact (step3_passes hk _ _).1

/-- Step 3 measures what stood in MRAM before the start-up. -/
theorem step3Values_afterStep2 (s : State) (env : BootEnv) : step3Values (afterStep2 s env).nv = step3Values s.nv := by
  rw [afterStep2_eq]
  rfl

theorem step3Values_registers (n : NvSt) : (step3Values n).map Prod.fst = [6, 0, 1, 2, 3, 5] := rfl

/-- Each register of step 3 has been extended by its measurement. -/
theorem step3_extended {s : State} (hd : s.meas.disabled = false) (hm : s.meas.m.length = 8) {n : NvSt} {e : Nat × List Byte}
    (he : e ∈ step3Values n) : (extendAll s (step3Values n)).meas.m.getD e.1 [] = sha256 (s.meas.m.getD e.1 [] ++ e.2) := by
  have hreg : e.1 ∈ [6, 0, 1, 2, 3, 5] := step3Values_registers n ▸ List.mem_map_of_mem he
  have hlt : e.1 < s.meas.m.length := by
    rw [hm]
    have : ∀ i ∈ [6, 0, 1, 2, 3, 5], i < 8 := by decide
    exact this _ hreg
  rw [extendAll_meas hd]
  exact foldl_extended _ _ (by rw [step3Values_registers]; decide) he hlt

/-- The start-up past a self-test that has passed. -/
theorem startUp_measures {s : State} {env : BootEnv}
    (h : bootTestOk (afterStep2 s env) (tokenValid (advanceBoot s.nv)) env.runs = true) :
    (∀ k, env.step3Fail = some k → (startUp s env).core.mode = .safeHold ∧ (startUp s env).core.startUp = none ∧
      (startUp s env).meas.mstate = 0x03#8 ∧ (2 ≤ k.val → (startUp s env).host.hearth = true)) ∧
    (env.step3Fail = none → (startUp s env).host.hearth = true ∧
      (s.nv.life = .retired → (startUp s env).core.mode = .safeHold ∧ (startUp s env).core.startUp = none ∧
        (startUp s env).meas.mstate = 0x03#8) ∧
      (s.nv.life ≠ .retired → (startUp s env).core.mode = s.core.mode ∧ (startUp s env).core.startUp = some env ∧
        (startUp s env).meas.mstate = s.meas.mstate ∧
        (s.meas.disabled = false → s.meas.m.length = 8 → ∀ e ∈ step3Values s.nv,
          (startUp s env).meas.m.getD e.1 [] = sha256 (s.meas.m.getD e.1 [] ++ e.2)))) := by
  obtain ⟨-, hcore, hnv, hmeas⟩ := restoreLanes_rest (afterStep2 s env) (tokenValid (advanceBoot s.nv))
  rw [startUp_goesOn h]
  have hstart : (restoreLanes (afterStep2 s env) (tokenValid (advanceBoot s.nv))).core.startUp = none := by rw [hcore, afterStep2_eq]
  have hmode : (restoreLanes (afterStep2 s env) (tokenValid (advanceBoot s.nv))).core.mode = s.core.mode := by rw [hcore, afterStep2_eq]
  have hlife : (restoreLanes (afterStep2 s env) (tokenValid (advanceBoot s.nv))).nv.life = s.nv.life := by rw [hnv, afterStep2_eq]; rfl
  have hvals : step3Values (restoreLanes (afterStep2 s env) (tokenValid (advanceBoot s.nv))).nv = step3Values s.nv := by
    rw [hnv, step3Values_afterStep2]
  have hm : (restoreLanes (afterStep2 s env) (tokenValid (advanceBoot s.nv))).meas = s.meas := by rw [hmeas, afterStep2_eq]
  generalize restoreLanes (afterStep2 s env) (tokenValid (advanceBoot s.nv)) = u at hstart hmode hlife hvals hm
  refine ⟨fun k hk => ?_, fun hk => ?_⟩
  · obtain ⟨-, h1, h2, h3, h4⟩ := step3_fails hk u (tokenValid (advanceBoot s.nv))
    exact ⟨h1, h2.trans hstart, h3, h4⟩
  · obtain ⟨-, h1, h2, h3⟩ := step3_passes hk u (tokenValid (advanceBoot s.nv))
    rw [hlife] at h2 h3
    refine ⟨h1, fun hl => ?_, fun hl => ?_⟩
    · obtain ⟨hm', hs', hst⟩ := h2 hl
      exact ⟨hm', hs'.trans hstart, hst⟩
    · obtain ⟨hm', hs', hmeas'⟩ := h3 hl
      rw [hvals] at hmeas'
      rw [hmeas']
      refine ⟨hm'.trans hmode, hs', (extendAll_mstate u _).trans (congrArg MeasSt.mstate hm), fun hd hlen e he => ?_⟩
      rw [← hm] at hd hlen ⊢
      exact step3_extended hd hlen he

end Sys2Proof.Machine
end

section
/-! SUPPORT. A tick at which nothing is due: the crusts whose legs are off, the measurements and the step of the start-up (R95, R404). -/

namespace Sys2Proof.Machine

/-! ## A crust with its legs off and no set staged -/

theorem SameLegs.foldl {α : Type} {f : CrustSt → α → CrustSt} (h : ∀ x a, SameLegs x (f x a)) (l : List α) (x : CrustSt) :
    SameLegs x (l.foldl f x) := by
  induction l generalizing x with
  | nil => exact .refl x
  | cons a r ih => exact (h x a).trans (ih _)

theorem sameLegs_judgeAtTick (s : State) (c : Side) (f : BitVec 24) (ma : Vector Nat 8) (x : CrustSt) :
    SameLegs x (judgeAtTick s c f ma x) := by
  have src : ∀ (y : CrustSt) (k : Nat) (g : SrcSt → SrcSt), SameLegs y (modSrc y k g) := fun _ _ _ => ⟨rfl, rfl, rfl, rfl, rfl, rfl, rfl, rfl⟩
  have inp : ∀ (y : CrustSt) (k : Nat) (g : InSt → InSt), SameLegs y (modIn y k g) := fun _ _ _ => ⟨rfl, rfl, rfl, rfl, rfl, rfl, rfl, rfl⟩
  unfold judgeAtTick
  dsimp only
  refine (SameLegs.foldl (fun y k => ?_) _ x).trans (.foldl (fun y n => ?_) _ _)
  · split
    · exact src _ _ _
    · exact .refl y
  · split
    · exact .refl y
    · split
      · exact inp _ _ _
      · exact .refl y

/-- A crust that has shaken hands, with every leg off and no set staged. -/
structure Shaken (x : CrustSt) : Prop where
  handshake : x.handshake = true
  resync : x.resync = false
  staged : x.staged = none
  legs : legsOff x = true

theorem SameLegs.shaken {x y : CrustSt} (h : SameLegs x y) (hx : Shaken x) : Shaken y where
  handshake := h.handshake.trans hx.handshake
  resync := h.resync.trans hx.resync
  staged := h.staged.trans hx.staged
  legs := by
    unfold legsOff
    rw [h.legs]
    exact hx.legs

/-- A change of the legs that commands none leaves a shaken crust one. -/
theorem Shaken.mapLegs {x y : CrustSt} (hx : Shaken x) (f : Nat → LegSt → LegSt) (hf : ∀ n l, (f n l).cmd = l.cmd)
    (hy : y.legs = tabMap LegSt.off x.legs f) (hh : y.handshake = x.handshake) (hr : y.resync = x.resync) (hs : y.staged = x.staged) :
    Shaken y := by
  refine ⟨hh.trans hx.handshake, hr.trans hx.resync, hs.trans hx.staged, (legsOff_iff y).2 ?_⟩
  rw [hy]
  exact tabMap_all (fun l : LegSt => l.cmd = false) LegSt.off x.legs f ((legsOff_iff x).1 hx.legs) fun n l h => (hf n l).trans h

theorem Shaken.commit {x : CrustSt} (hx : Shaken x) (cfg : Option LoafCfg) (c : Side) : Shaken (commit cfg c x) := by
  unfold Machine.commit
  rw [hx.staged]
  exact hx.mapLegs (fun _ l => { l with changed := false, holdNow := false }) (fun _ _ => rfl) rfl rfl rfl hx.staged.symm

theorem Shaken.tickedCrust {x : CrustSt} (hx : Shaken x) (env : TickEnv) (s : State) (c : Side) : Shaken (tickedCrust env s c x) := by
  have hj := (sameLegs_judgeAtTick s c (env.frontend.at c) (env.srcMaxMa.at c) x).shaken hx
  have hsnap : ∀ (y : CrustSt) (v : Snap), Shaken y → Shaken { y with snap := v } := fun y v hy =>
    ⟨hy.handshake, hy.resync, hy.staged, hy.legs⟩
  have hd : ∀ y, Shaken y → Shaken (drivesTick (startFrame (tickStamp s) y)) := fun y hy =>
    hy.mapLegs (fun _ l => { l with anomaly := 0, blankLeft := l.blankLeft - 1 }) (fun _ _ => rfl) rfl rfl rfl rfl
  have ho : ∀ y, Shaken y → Shaken (openCrust y) := fun y hy => ⟨hy.handshake, hy.resync, rfl, legsOff_openCrust y⟩
  unfold Machine.tickedCrust
  split
  · exact ⟨hx.handshake, hx.resync, hx.staged, hx.legs⟩
  · have hc := (hd _ (hsnap _ (takeSnap s c (tickStamp s) (judgeAtTick s c (env.frontend.at c) (env.srcMaxMa.at c) x)) hj)).commit
      (crustCfg s c) c
    dsimp only
    split
    · exact ho _ hc
    · exact hc

/-- A tick without a loaf switch leaves a shaken crust one. -/
theorem Shaken.tickAll {s : State} {c : Side} (hx : Shaken (s.crust.at c)) (h : (footing s).agreed = none) (env : TickEnv) :
    Shaken ((tickAll env s).crust.at c) := by
  have ht : Shaken ((loafTaken env s).crust.at c) := by
    rw [loafTaken_none h, changedMode_crust, crustsTicked_at]
    exact ((settledAtTick_legs s c).shaken hx).tickedCrust _ _ _
  rw [(trails_tickAll env s).crust c]
  exact ⟨ht.handshake, ht.resync, ht.staged, ht.legs⟩

/-! ## Measurements, and the step of the start-up -/

/-- The measurements, how far the start-up has come, and what the host is told of its request. -/
def bootStage (s : State) : MeasSt × BootStep × BitVec 2 := (s.meas, s.core.bootStep, s.host.reqResult)

theorem Crumbed.bootStage {s t : State} (h : Crumbed s t) : bootStage t = bootStage s := by
  rw [h]
  rfl

theorem bootStage_foldl {α : Type} {f : State → α → State} (h : ∀ s x, bootStage (f s x) = bootStage s) (l : List α) (s : State) :
    bootStage (l.foldl f s) = bootStage s := by
  induction l generalizing s with
  | nil => rfl
  | cons x r ih => exact (ih _).trans (h s x)

theorem bootStage_frameBegun (env : TickEnv) (s : State) : bootStage (frameBegun env s) = bootStage s := by
  have h : bootStage (crustsTicked env s) = bootStage s := by
    rw [crustsTicked_eq]
    rfl
  unfold frameBegun
  exact Eq.trans rfl h

theorem bootStage_dropTest (s : State) : bootStage (dropTest s) = bootStage s := by
  unfold dropTest
  dsimp only
  split
  · rfl
  · refine pred_ite (P := fun t => bootStage t = bootStage s) _ rfl ?_
    split <;> rfl

theorem bootStage_holdTick (s : State) : bootStage (holdTick s) = bootStage s := by
  unfold holdTick holdFabric
  exact pred_ite (P := fun t => bootStage t = bootStage s) _ (pred_ite (P := fun t => bootStage t = bootStage s) _ rfl rfl) rfl

theorem bootStage_flushCycles (s : State) : bootStage (flushCycles s) = bootStage s :=
  (crumbed_foldl_pushCrumb _ _).bootStage.trans rfl

theorem bootStage_retireEffects (s : State) (n : Nat) : bootStage (retireEffects s n) = bootStage s := by
  unfold retireEffects
  split
  · rfl
  · exact (bootStage_foldl (f := fun s v => replyErr s v stBusRetired 0) (fun _ _ => rfl) _ _).trans rfl
  · rfl
  · rfl

theorem bootStage_tickDue (env : TickEnv) (s : State) : bootStage (tickDue env s) = bootStage s := by
  unfold tickDue takeRetiring
  exact (bootStage_foldl bootStage_retireEffects _ _).trans ((bootStage_flushCycles _).trans ((bootStage_holdTick _).trans
    ((bootStage_dropTest _).trans (bootStage_frameBegun env s))))

theorem bootStage_indMode (s : State) : bootStage (indMode s) = bootStage s := by
  unfold indMode
  split <;> rfl

theorem changeMode_undue {s : State} (h : nextMode s = none) :
    changeMode s = indMode { s with core := { s.core with modeNext := none } } := by
  unfold changeMode
  dsimp only
  rw [h]

theorem nextMode_tickDue (env : TickEnv) (s : State) : nextMode (tickDue env s) = nextMode s := by
  have hk : kept (tickDue env s) = kept (frameBegun env s) := kept_tickDue env s
  have hm : (tickDue env s).core.mode = s.core.mode := by rw [mode_kept, hk, kept_frameBegun, mode_kept s]
  have hn : (tickDue env s).core.modeNext = s.core.modeNext := by rw [modeNext_kept, hk, kept_frameBegun, modeNext_kept s]
  exact nextMode_footing (footing_tickDue env s) hm hn

/-- A tick at which no mode is due and no loaf is agreed on leaves the measurements, the step of the start-up and REQ_RESULT. -/
theorem bootStage_tickAll {s : State} (hn : nextMode s = none) (h : (footing s).agreed = none) (env : TickEnv) :
    bootStage (tickAll env s) = bootStage s := by
  have ht : bootStage (loafTaken env s) = bootStage s := by
    rw [loafTaken_none h, changeMode_undue ((nextMode_tickDue env s).trans hn)]
    exact (bootStage_indMode _).trans ((rfl : _ = bootStage (tickDue env s)).trans (bootStage_tickDue env s))
  rw [(trails_tickAll env s).eq]
  exact Eq.trans rfl ht

/-- With the loaf as it is, a tick leaves each lane its form. -/
theorem tickAll_cfg {s : State} (h : (footing s).agreed = none) (env : TickEnv) (l : Side) :
    ((tickAll env s).lane.at l).cfg = (s.lane.at l).cfg := by
  have hl : (tickAll env s).lane.map laneFooting = s.lane.map laneFooting := by
    rw [(trails_tickAll env s).lanes, loafTaken_none h]
    exact congrArg Footing.lanes (footing_changedMode env s)
  have e := congrArg (fun p => Two.at p l) hl
  rw [Two.at_map, Two.at_map] at e
  exact congrArg Prod.snd e

theorem tickAll_mode_undue {s : State} (hn : nextMode s = none) (env : TickEnv) : (tickAll env s).core.mode = s.core.mode := by
  rw [tickAll_mode, modeAfterTick_eq, hn]
  rfl

end Sys2Proof.Machine
end

section
/-! Steps 4 and 5 with the first TICK, where both crusts answer (O6, second part). -/

namespace Sys2Proof.Machine

/-- What steps 4 and 5 leave as it was. -/
def Boots (s t : State) : Prop :=
  t = { s with
    core := { s.core with
      mode := t.core.mode, bootStep := t.core.bootStep, tickOn := t.core.tickOn, frameNo := t.core.frameNo, tfCode := t.core.tfCode }
    crust := t.crust, lane := t.lane, fab := t.fab
    host := { s.host with modeReq := t.host.modeReq, reqResult := t.host.reqResult, irqStat0 := t.host.irqStat0 }
    mbx := { s.mbx with delivered := t.mbx.delivered }
    ind := t.ind, jrn := t.jrn, stat := { s.stat with epoch := t.stat.epoch }, meas := t.meas }

theorem Boots.refl (s : State) : Boots s s := rfl

theorem Boots.trans {s t u : State} (h : Boots s t) (k : Boots t u) : Boots s u := by
  unfold Boots at *
  rw [k, h]

theorem Crumbed.boots {s t : State} (h : Crumbed s t) : Boots s t := by
  rw [h]
  rfl

/-! ## Step 4 -/

/-- M4 has been extended, and both lanes have their offsets. -/
def offsetsLoaded (s : State) : State :=
  modLanes (setMstate (extendM s 4 (step4Value s.nv)) 0x02#8) fun l =>
    { l with offsets := bootOffsets (setMstate (extendM s 4 (step4Value s.nv)) 0x02#8).nv }

theorem offsetsLoaded_eq (s : State) : offsetsLoaded s = { s with
    lane := s.lane.map fun l => { l with offsets := bootOffsets s.nv }, meas := (offsetsLoaded s).meas } := by
  unfold offsetsLoaded extendM
  split <;> rfl

theorem offsetsLoaded_mstate (s : State) : (offsetsLoaded s).meas.mstate = 0x02#8 := rfl

theorem afterStep4_match (s : State) (env : BootEnv) : afterStep4 s env = match activeImage (offsetsLoaded s).nv with
    | some i => if (lanesVerify (offsetsLoaded s).nv env.identityUpset i).isNone
        then installLoaf (offsetsLoaded s) (loafCfg i .a) (loafCfg i .b) else offsetsLoaded s
    | none => offsetsLoaded s := rfl

/-- The form that step 4 puts into a lane: that of the active slot where it verifies in both lanes. -/
def bootForm (s : State) (env : BootEnv) (l : Side) : Option LoafCfg :=
  match activeImage s.nv with
  | some i => if (lanesVerify s.nv env.identityUpset i).isNone then some (loafCfg i l) else (s.lane.at l).cfg
  | none => (s.lane.at l).cfg

theorem afterStep4_spec (s : State) (env : BootEnv) : Boots s (afterStep4 s env) ∧ (afterStep4 s env).core = s.core ∧
    (afterStep4 s env).host = s.host ∧ (afterStep4 s env).crust = s.crust ∧ (afterStep4 s env).meas.mstate = 0x02#8 ∧
    ∀ l, ((afterStep4 s env).lane.at l).retired = (s.lane.at l).retired ∧ ((afterStep4 s env).lane.at l).cfg = bootForm s env l := by
  have he := offsetsLoaded_eq s
  have hmstate := offsetsLoaded_mstate s
  have hnv : (offsetsLoaded s).nv = s.nv := by rw [he]
  rw [afterStep4_match, hnv]
  unfold bootForm
  generalize offsetsLoaded s = u at he hmstate
  have hu : Boots s u := by
    rw [he]
    rfl
  have hkept : u.core = s.core ∧ u.host = s.host ∧ u.crust = s.crust := by
    rw [he]
    exact ⟨rfl, rfl, rfl⟩
  have hlane : ∀ l, (u.lane.at l).retired = (s.lane.at l).retired ∧ (u.lane.at l).cfg = (s.lane.at l).cfg := fun l => by
    rw [he]
    cases l <;> exact ⟨rfl, rfl⟩
  obtain ⟨hcore, hhost, hcrust⟩ := hkept
  cases activeImage s.nv with
  | none => exact ⟨hu, hcore, hhost, hcrust, hmstate, hlane⟩
  | some i =>
    dsimp only
    split
    · exact ⟨hu.trans rfl, hcore, hhost, hcrust, hmstate, fun l => by
        cases l with
        | a => exact ⟨(hlane .a).1, rfl⟩
        | b => exact ⟨(hlane .b).1, rfl⟩⟩
    · exact ⟨hu, hcore, hhost, hcrust, hmstate, hlane⟩

/-! ## The tick runs -/

theorem heardAtBoot_eq (env : BootEnv) (s : State) : heardAtBoot env s = { s with
    core := { s.core with frameNo := (heardAtBoot env s).core.frameNo }, fab := (heardAtBoot env s).fab
    jrn := (heardAtBoot env s).jrn, stat := { s.stat with epoch := (heardAtBoot env s).stat.epoch } } := by
  have hd : ∀ u : State, duplicateManager u = { u with
      fab := (duplicateManager u).fab, jrn := (duplicateManager u).jrn
      stat := { u.stat with epoch := (duplicateManager u).stat.epoch } } := fun u => by
    have h : Crumbed { leaveFabric u with fab := { (leaveFabric u).fab with duplicate := true } } (duplicateManager u) :=
      crumbed_crumb _ _ _ _ _
    generalize duplicateManager u = v at h
    rw [h]
    rfl
  unfold heardAtBoot
  dsimp only
  split
  · rfl
  · split
    · rw [hd]
    · rfl

theorem firstTick_spec (s : State) (env : BootEnv) : Boots s (firstTick s env) ∧ (firstTick s env).core.tickOn = true ∧
    (firstTick s env).core.mode = s.core.mode ∧ (firstTick s env).host = s.host ∧ (firstTick s env).crust = s.crust ∧
    (firstTick s env).meas.mstate = 0x02#8 ∧
    ∀ l, ((firstTick s env).lane.at l).retired = (s.lane.at l).retired ∧ ((firstTick s env).lane.at l).cfg = bootForm s env l := by
  obtain ⟨hboots, hcore, hhost, hcrust, hmstate, hlane⟩ := afterStep4_spec s env
  unfold firstTick
  generalize afterStep4 s env = u at *
  rw [heardAtBoot_eq]
  have hmode : u.core.mode = s.core.mode := by rw [hcore]
  exact ⟨hboots.trans rfl, rfl, hmode, hhost, hcrust, hmstate, hlane⟩

/-! ## The handshakes -/

/-- A crust whose lane serves shakes hands, with every leg off. -/
theorem bootHandshake_spec {s : State} {c : Side} (h : laneLive s c = true) :
    bootHandshake false s c = { s with crust := (bootHandshake false s c).crust } ∧
    Shaken ((bootHandshake false s c).crust.at c) ∧ ∀ k, k ≠ c → (bootHandshake false s c).crust.at k = s.crust.at k := by
  have e : bootHandshake false s c = modCrust (handshake (modCrust s c bootCrust) c) c fun x => { x with supplyEvent := eventStands x } := by
    unfold bootHandshake
    rw [h]
    rfl
  rw [e]
  refine ⟨rfl, ?_, fun k hk => ?_⟩
  · unfold handshake
    rw [crust_modCrust, if_pos rfl, crust_modCrust, if_pos rfl]
    exact ⟨rfl, rfl, rfl, legsOff_openCrust _⟩
  · unfold handshake
    rw [crust_modCrust, if_neg hk, crust_modCrust, if_neg hk, crust_modCrust, if_neg hk]

/-- Both crusts have shaken hands, and nothing else has changed. -/
theorem bootHandshakes_spec {s : State} (h : bothInService s = true) :
    bootHandshake false (bootHandshake false s .a) .b =
      { s with crust := (bootHandshake false (bootHandshake false s .a) .b).crust } ∧
    ∀ c, Shaken ((bootHandshake false (bootHandshake false s .a) .b).crust.at c) := by
  obtain ⟨ha, hb⟩ := Bool.and_eq_true_iff.1 h
  obtain ⟨ea, sa, -⟩ := bootHandshake_spec ha
  have hb' : laneLive (bootHandshake false s .a) .b = true := by
    rw [ea]
    exact hb
  obtain ⟨eb, sb, ob⟩ := bootHandshake_spec hb'
  refine ⟨by rw [eb, ea], fun c => ?_⟩
  cases c with
  | a =>
    rw [ob .a (by decide)]
    exact sa
  | b => exact sb

/-! ## The mode at the end of step 5 -/

/-- The module has gone to CONFIGURE, and the host's request, where there is one, has been honoured. -/
theorem configured_spec (s : State) (asked : Bool) (why : ModeWhy) {t : State}
    (ht : t = setMode (honourConfigure { s with core := { s.core with bootStep := .ended } } asked) .configure why) :
    Boots s t ∧ t.core.tickOn = s.core.tickOn ∧ t.crust = s.crust ∧ t.lane = s.lane ∧ t.meas = s.meas ∧ t.core.mode = .configure ∧
    (asked = true → t.host.modeReq = 0 ∧ t.host.reqResult = 1) := by
  rw [ht, setMode_eq]
  cases asked with
  | true => exact ⟨rfl, rfl, rfl, rfl, rfl, rfl, fun _ => ⟨rfl, rfl⟩⟩
  | false => exact ⟨rfl, rfl, rfl, rfl, rfl, rfl, nofun⟩

/-- Where the module goes at the end of step 5 with both lanes: CONFIGURE where it has no form or the host has asked for it, else on to
its proving period or to its segment. -/
theorem endOfStep5_spec {s : State} (h : bothInService s = true) (asked : Bool) : Boots s (endOfStep5 s asked) ∧
    (endOfStep5 s asked).core.tickOn = s.core.tickOn ∧ (endOfStep5 s asked).crust = s.crust ∧
    (endOfStep5 s asked).lane = s.lane ∧ (endOfStep5 s asked).meas = s.meas ∧
    (activeCfg s = none → (endOfStep5 s asked).core.mode = .configure) ∧
    (asked = true → (endOfStep5 s asked).core.mode = .configure ∧ (endOfStep5 s asked).host.modeReq = 0 ∧
      (endOfStep5 s asked).host.reqResult = 1) ∧
    (asked = false → ∀ cfg, activeCfg s = some cfg → (endOfStep5 s asked).core.mode = s.core.mode ∧
      (endOfStep5 s asked).core.bootStep = if cfg.role = 0 then .proving else .join) := by
  obtain ⟨ha, hb⟩ := Bool.and_eq_true_iff.1 h
  unfold endOfStep5
  rw [ha, hb, h]
  dsimp only [Bool.not_true, Bool.false_and, Bool.false_eq_true, if_false]
  cases hc : activeCfg s with
  | none =>
    obtain ⟨hboots, htick, hcrust, hlane, hmeas, hmode, hreq⟩ := configured_spec s asked (if asked then .request else .fault) rfl
    exact ⟨hboots, htick, hcrust, hlane, hmeas, fun _ => hmode, fun h => ⟨hmode, hreq h⟩, nofun⟩
  | some cfg =>
    cases asked with
    | true =>
      obtain ⟨hboots, htick, hcrust, hlane, hmeas, hmode, hreq⟩ := configured_spec s true .request rfl
      exact ⟨hboots, htick, hcrust, hlane, hmeas, nofun, fun h => ⟨hmode, hreq h⟩, nofun⟩
    | false =>
      refine ⟨rfl, rfl, rfl, rfl, rfl, nofun, nofun, fun _ c h => ?_⟩
      cases h
      exact ⟨rfl, rfl⟩

/-! ## Steps 4 and 5 together -/

/-- Both lanes serve and both crusts answer. -/
def bootServes (s : State) (env : BootEnv) : Prop :=
  ∀ c, (s.lane.at c).retired = false ∧ env.handshakeFails.at c < 3 ∧ (s.crust.at c).logicPower = true

theorem lostAtBoot_serves {s : State} {env : BootEnv} (h : bootServes s env) (c : Side) : lostAtBoot s env c = false := by
  obtain ⟨-, -, -, -, hcrust, -, -⟩ := firstTick_spec s env
  obtain ⟨-, hfails, hpower⟩ := h c
  unfold lostAtBoot
  rw [hcrust, hpower, decide_eq_false (by omega)]
  simp

theorem syncIrq_eq (u v : State) : syncIrq u v = { v with host := { v.host with irqStat0 := (syncIrq u v).host.irqStat0 } } := by
  unfold syncIrq
  split <;> rfl

/-- Steps 4 and 5 where both lanes serve and both crusts answer. -/
theorem steps4and5_serves {s : State} {env : BootEnv} (h : bootServes s env) :
    Boots s (steps4and5 s env) ∧ (steps4and5 s env).core.tickOn = true ∧ (steps4and5 s env).meas.mstate = 0x02#8 ∧
    (∀ c, Shaken ((steps4and5 s env).crust.at c)) ∧
    (∀ l, ((steps4and5 s env).lane.at l).retired = false ∧ ((steps4and5 s env).lane.at l).cfg = bootForm s env l) ∧
    (bootForm s env .a = none → bootForm s env .b = none → (steps4and5 s env).core.mode = .configure) ∧
    (configureAsked s env = true → (steps4and5 s env).core.mode = .configure ∧ (steps4and5 s env).host.modeReq = 0 ∧
      (steps4and5 s env).host.reqResult = 1) ∧
    (configureAsked s env = false → ∀ cfg, bootForm s env .a = some cfg → (steps4and5 s env).core.mode = s.core.mode ∧
      (steps4and5 s env).core.bootStep = if cfg.role = 0 then .proving else .join) := by
  obtain ⟨hboots, htick, hmode, -, -, hmstate, hlane⟩ := firstTick_spec s env
  have hlive : ∀ l, ((firstTick s env).lane.at l).retired = false := fun l => (hlane l).1.trans (h l).1
  rw [steps4and5_eq]
  dsimp only
  rw [lostAtBoot_serves h, lostAtBoot_serves h, if_neg (by decide)]
  generalize firstTick s env = u at *
  have hserve : ∀ v : State, v.lane = u.lane → bothInService v = true := fun v hv => (bothInService_iff v).2 fun l => by
    unfold lanesOut
    rw [hv]
    exact hlive l
  obtain ⟨he, hshaken⟩ := bootHandshakes_spec (hserve u rfl)
  generalize bootHandshake false (bootHandshake false u .a) .b = v at *
  have hv : v.lane = u.lane ∧ v.meas = u.meas ∧ v.core = u.core ∧ Boots u v := by
    rw [he]
    exact ⟨rfl, rfl, rfl, rfl⟩
  obtain ⟨hvl, hvm, hvc, hvb⟩ := hv
  obtain ⟨eboots, etick, ecrust, elane, emeas, enone, easked, eidle⟩ := endOfStep5_spec (hserve v hvl) (configureAsked s env)
  have hcfg : activeCfg v = otherCfg (bootForm s env .a) (bootForm s env .b) := by
    have ha := (hlane .a).2
    have hb := (hlane .b).2
    unfold activeCfg
    rw [hvl, ← ha, ← hb]
    rfl
  rw [hcfg] at enone eidle
  generalize endOfStep5 v (configureAsked s env) = w at *
  rw [syncIrq_eq]
  refine ⟨hboots.trans (hvb.trans (eboots.trans rfl)), ?_, ?_, fun c => ?_, fun l => ?_, fun ha hb => ?_, easked, fun ha cfg hc => ?_⟩
  · exact etick.trans (by rw [hvc, htick])
  · exact (congrArg MeasSt.mstate (emeas.trans hvm)).trans hmstate
  · have := hshaken c
    rw [← ecrust] at this
    exact this
  · have e := hlane l
    rw [← hvl, ← elane] at e
    exact ⟨e.1.trans (h l).1, e.2⟩
  · exact enone (by rw [ha, hb]; rfl)
  · obtain ⟨hm, hstep⟩ := eidle ha cfg (by rw [hc]; rfl)
    exact ⟨hm.trans (by rw [hvc, hmode]), hstep⟩

end Sys2Proof.Machine
end

section
/-! RESET_RELEASE and the first TICK (O6). -/

namespace Sys2Proof.Machine

open Sys2Proof.Claims

/-- The core waits for its first tick in BOOT, with nothing due, and both lanes and both crusts serve. -/
structure Waits (s : State) (env : BootEnv) : Prop where
  inReset : s.core.inReset = false
  startUp : s.core.startUp = some env
  phase : s.core.phase = .g
  mode : s.core.mode = .boot
  modeNext : s.core.modeNext = none
  fatal : s.core.fatal = []
  switch : s.mbx.switch = none
  serves : bootServes s env
  cfg : ∀ l, (s.lane.at l).cfg = none

section

variable {s : State} {env : BootEnv}

/-- The first tick has taken up the start-up that waited for it. -/
def startTaken (s : State) : State := { s with core := { s.core with startUp := none } }

/-- The state at the end of step 5. -/
def stepsEnded (s : State) (env : BootEnv) : State := steps4and5 (startTaken s) env

theorem stepsEnded_boots (h : bootServes s env) : Boots (startTaken s) (stepsEnded s env) := (steps4and5_serves (s := startTaken s) h).1

theorem Waits.keeps (h : Waits s env) : (stepsEnded s env).core.startUp = none ∧ (stepsEnded s env).core.phase = .g ∧
    (stepsEnded s env).core.modeNext = none ∧ (stepsEnded s env).core.fatal = [] ∧ (stepsEnded s env).mbx.switch = none := by
  have hb := stepsEnded_boots h.serves
  generalize stepsEnded s env = u at *
  rw [hb]
  exact ⟨rfl, h.phase, h.modeNext, h.fatal, h.switch⟩

/-- No mode is due at the first tick. -/
theorem Waits.undue (h : Waits s env) : nextMode (stepsEnded s env) = none := by
  obtain ⟨-, -, hnext, hfatal, -⟩ := h.keeps
  obtain ⟨-, -, -, -, hlane, -⟩ := steps4and5_serves (s := startTaken s) h.serves
  have hserve : bothInService (stepsEnded s env) = true := (bothInService_iff _).2 fun l => (hlane l).1
  unfold nextMode
  rw [hfatal, hserve, hnext]
  rfl

/-- No loaf is agreed on at the first tick. -/
theorem Waits.noSwitch (h : Waits s env) : (footing (stepsEnded s env)).agreed = none := by
  obtain ⟨-, -, -, -, hswitch⟩ := h.keeps
  unfold footing
  rw [hswitch]
  rfl

/-- The first TICK ends the start-up, and is a tick. -/
theorem Waits.runs (h : Waits s env) (tick : TickEnv) : Runs (.tick tick) s (tickAll tick (stepsEnded s env)) := by
  obtain ⟨-, hphase, -⟩ := h.keeps
  obtain ⟨-, htick, -⟩ := steps4and5_serves (s := startTaken s) h.serves
  have hf : finishStart s = stepsEnded s env := finishStart_waiting h.inReset h.startUp
  have ht : (stepsEnded s env).core.tickOn = true := htick
  refine (runs_tick tick s).trans (congrArg _ ?_)
  rw [hf, ht, hphase]
  rfl

/-- What the first TICK leaves of what steps 4 and 5 decide. -/
theorem Waits.tick (h : Waits s env) (tick : TickEnv) :
    (tickAll tick (stepsEnded s env)).core.startUp = none ∧ (tickAll tick (stepsEnded s env)).core.tickOn = (stepsEnded s env).core.tickOn ∧
    (tickAll tick (stepsEnded s env)).core.mode = (stepsEnded s env).core.mode ∧
    (tickAll tick (stepsEnded s env)).host.modeReq = (stepsEnded s env).host.modeReq ∧
    bootStage (tickAll tick (stepsEnded s env)) = bootStage (stepsEnded s env) ∧
    ∀ l, ((tickAll tick (stepsEnded s env)).lane.at l).cfg = ((stepsEnded s env).lane.at l).cfg := by
  obtain ⟨hstart, -⟩ := h.keeps
  have hk := kept_tickAll tick (stepsEnded s env)
  have hs : (tickAll tick (stepsEnded s env)).core.startUp.isSome = (stepsEnded s env).core.startUp.isSome := congrArg Kept.starting hk
  rw [hstart] at hs
  exact ⟨Option.isNone_iff_eq_none.1 (Option.isSome_eq_false_iff.1 hs), congrArg Kept.tickOn hk,
    tickAll_mode_undue h.undue tick, (tickAll_samples tick _).2.2, bootStage_tickAll h.undue h.noSwitch tick,
    tickAll_cfg h.noSwitch tick⟩

/-- Where no loaf passes the lanes' verification, neither lane has a form. -/
theorem Waits.bootForm_none (h : Waits s env)
    (hv : ∀ i, activeImage s.nv = some i → (lanesVerify s.nv env.identityUpset i).isSome = true) (l : Side) : bootForm s env l = none := by
  unfold bootForm
  split
  · next i hi =>
    rw [if_neg (by simp [Option.isSome_iff_ne_none.1 (hv i hi)])]
    exact h.cfg l
  · exact h.cfg l

/-- A loaf that verifies goes into both lanes. -/
theorem bootForm_verified {i : Image} (hi : activeImage s.nv = some i) (hv : lanesVerify s.nv env.identityUpset i = none) (l : Side) :
    bootForm s env l = some (loafCfg i l) := by
  unfold bootForm
  rw [hi]
  dsimp only
  rw [hv]
  rfl

/-- Where the start-up goes with the first TICK. -/
theorem Waits.ends (h : Waits s env) (tick : TickEnv) : ∃ t, Runs (.tick tick) s t ∧ t.core.startUp = none ∧ t.core.tickOn = true ∧
    t.meas.mstate = 0x02#8 ∧
    (∀ c, (t.crust.at c).handshake = true ∧ (t.crust.at c).resync = false ∧ legsOff (t.crust.at c) = true) ∧
    ((∀ i, activeImage s.nv = some i → (lanesVerify s.nv env.identityUpset i).isSome = true) →
      activeCfg t = none ∧ t.core.mode = .configure) ∧
    (∀ i, activeImage s.nv = some i → lanesVerify s.nv env.identityUpset i = none →
      (∀ l, (t.lane.at l).cfg = some (loafCfg i l)) ∧
      (configureAsked s env = true → t.core.mode = .configure) ∧
      (configureAsked s env = false → t.core.mode = .boot ∧
        t.core.bootStep = (if (loafCfg i .a).role = 0 then .proving else .join) ∧
        (∀ l, legsOff (t.crust.at l) = true))) ∧
    (configureAsked s env = true → t.host.modeReq = 0 ∧ t.host.reqResult = 1) := by
  have hsteps := steps4and5_serves (s := startTaken s) h.serves
  obtain ⟨-, htick, hmstate, hshaken, hlane, hnone, hasked, hidle⟩ := hsteps
  obtain ⟨hstart, hon, hmode, hreq, hstage, hcfg⟩ := h.tick tick
  have hform : ∀ l, ((tickAll tick (stepsEnded s env)).lane.at l).cfg = bootForm s env l := fun l => (hcfg l).trans (hlane l).2
  have hcrust : ∀ c, Shaken ((tickAll tick (stepsEnded s env)).crust.at c) := fun c => (hshaken c).tickAll h.noSwitch tick
  have hmeas : (tickAll tick (stepsEnded s env)).meas.mstate = 0x02#8 := (congrArg (·.1.mstate) hstage).trans hmstate
  have hstep : (tickAll tick (stepsEnded s env)).core.bootStep = (stepsEnded s env).core.bootStep := congrArg (·.2.1) hstage
  have hres : (tickAll tick (stepsEnded s env)).host.reqResult = (stepsEnded s env).host.reqResult := congrArg (·.2.2) hstage
  have hrun := h.runs tick
  generalize tickAll tick (stepsEnded s env) = t at *
  refine ⟨t, hrun, hstart, hon.trans htick, hmeas, fun c => ⟨(hcrust c).handshake, (hcrust c).resync, (hcrust c).legs⟩,
    fun hv => ⟨?_, ?_⟩, fun i hi hv => ⟨fun l => ?_, fun ha => ?_, fun ha => ⟨?_, ?_, fun l => (hcrust l).legs⟩⟩, fun ha => ⟨?_, ?_⟩⟩
  · have ha := (hform .a).trans (h.bootForm_none hv .a)
    have hb := (hform .b).trans (h.bootForm_none hv .b)
    unfold activeCfg
    exact (congrArg₂ otherCfg ha hb).trans rfl
  · exact hmode.trans (hnone (h.bootForm_none hv .a) (h.bootForm_none hv .b))
  · exact (hform l).trans (bootForm_verified hi hv l)
  · exact hmode.trans (hasked ha).1
  · exact hmode.trans ((hidle ha _ (bootForm_verified hi hv .a)).1.trans h.mode)
  · exact hstep.trans (hidle ha _ (bootForm_verified hi hv .a)).2
  · exact hreq.trans (hasked ha).2.1
  · exact hres.trans (hasked ha).2.2

end

/-! ## RESET_RELEASE -/

/-- A core in reset starts up; another is left as it is. -/
theorem runs_resetRelease (env : BootEnv) (s : State) : Runs (.resetRelease env) s (if s.core.inReset then startUp s env else s) := rfl

/-- Settles O6: the start-up keeps what its first two steps decide, and the first tick what its last two do. -/
theorem resetReleaseStartsUp : Obligations.ResetReleaseStartsUp := by
  unfold Obligations.ResetReleaseStartsUp
  refine ⟨fun env s h => ?_, fun env s quick h hq => ?_,
    fun env tick s hr hu hp hm hn hf hw hl => Waits.ends
      ⟨hr, hu, hp, hm, hn, hf, hw, fun c => ⟨(hl c).1, (hl c).2.2.1, (hl c).2.2.2⟩, fun c => (hl c).2.1⟩ tick⟩
  · have hrun := runs_resetRelease env s
    rw [h] at hrun
    exact hrun
  · have hrun := runs_resetRelease env s
    rw [h, if_pos rfl] at hrun
    have hview := (bootView_startUp s env).trans (bootView_afterStep2 s env)
    have hcount : bootCount (startUp s env).nv = bootCount (advanceBoot s.nv) := by
      have hc : (startUp s env).nv.bootCopies = (advanceBoot s.nv).bootCopies := congrArg BootView.copies hview
      unfold bootCount
      rw [hc]
    have hok := bootTestOk_afterStep2 s env quick
    subst hq
    refine ⟨startUp s env, hrun, congrArg BootView.inReset hview, congrArg BootView.vddGood hview, congrArg BootView.token hview,
      hcount.trans ((bootCount_advanceBoot s.nv).trans (satInc_word _)), congrArg BootView.life hview, congrArg BootView.pending hview,
      congrArg BootView.source hview, congrArg BootView.tickOn hview, congrArg BootView.results hview, fun hfail => ?_,
      fun hpass hrepair => startUp_measures (hok.2 ⟨hpass, hrepair⟩)⟩
    refine (startUp_fails ?_).2
    rw [← Bool.not_eq_true, hok]
    rintro ⟨hpass, hrepair⟩
    rcases hfail with ⟨b, hb, hbad⟩ | ⟨hquick, hmap⟩
    · rw [hpass b hb] at hbad
      cases hbad
    · have := hrepair hquick
      rw [hmap] at this
      cases this

end Sys2Proof.Machine
end

section
/-! SUPPORT. TICK at a member (R107-R109, R292, R299, R317): the frame taken from the inbox, passed on, and followed. -/

namespace Sys2Proof.Machine

open Sys2Proof.Claims

/-! ## Passing a TICK on -/

theorem takeInbox_waits {s : State} {q : Frame → Bool} {p : PortId} {f : Frame} (h : Claims.Waits s q p f) :
    takeInbox s (fun _ f => q f) = some (p, f, taken s p f) := by
  unfold takeInbox
  rw [show s.fab.inbox.find? (fun e => q e.2) = some (p, f) from h]
  rfl

theorem waits_tick_cls {s : State} {p : PortId} {f : Frame} (h : Claims.Waits s (fun f => f.cls == clsTick) p f) :
    f.cls = clsTick := by
  have hfind := List.find?_some h
  exact beq_iff_eq.1 hfind

theorem cutThrough_eq (s : State) (p : PortId) (f : Frame) : cutThrough s p f = { s with fab := { s.fab with
    ports := (cutThrough s p f).fab.ports, cutDrops := (cutThrough s p f).fab.cutDrops } } := by
  unfold cutThrough
  dsimp only
  split
  · rfl
  · split <;> rfl

/-- A TICK is cut through, so that passing it on writes the ports and the count of frames dropped. -/
theorem forwardTick_eq {f : Frame} (hf : f.cls = clsTick) (s : State) (p : PortId) (r : Nat) :
    forwardTick s p f r = { s with fab := { s.fab with
      ports := (forwardTick s p f r).fab.ports, cutDrops := (forwardTick s p f r).fab.cutDrops } } := by
  have hcut : isCutThrough f.cls = true := by rw [hf]; rfl
  unfold forwardTick forwardFrame
  dsimp only
  split
  · split
    · rfl
    · exact cutThrough_eq _ _ _
  · rfl

/-- Out of a port that is UP goes the copy with the hop and CORR grown (R317). -/
theorem forwardTick_relayed {s : State} {p : PortId} {f : Frame} (hf : f.cls = clsTick) (hl : f.payload.length = 12)
    (hr : relays s p f = true) (hu : (portOf s p.other).st = .up) (r : Nat) :
    forwardTick s p f r = cutThrough s p.other (tickCopy (portOf s p) f r) := by
  have hcut : isCutThrough f.cls = true := by rw [hf]; rfl
  unfold forwardTick forwardFrame
  dsimp only
  rw [if_pos hr, if_pos hl, hu, if_neg (by decide), if_pos hcut]
  rfl

theorem cutThrough_starts {s : State} {p : PortId} {g : Frame} (htx : (portOf s p).tx = none) (hgap : s.fab.gap = false)
    (hspan : spanHolds s.core.tfCode (cutStart s g) g = true) : (portOf (cutThrough s p g) p).tx = some (begun s g) := by
  unfold cutThrough
  dsimp only
  rw [if_pos (by simp [htx, hgap, hspan]), portOf_modPort, if_pos rfl]
  rfl

theorem cutThrough_waits {s : State} {p : PortId} {g : Frame} (htx : (portOf s p).tx ≠ none)
    (hfew : (portOf s p).cut.length < 4) : (portOf (cutThrough s p g) p).cut = (portOf s p).cut ++ [g] := by
  have hbusy : (portOf s p).tx.isNone = false := Option.isNone_eq_false_iff.2 (Option.isSome_iff_ne_none.2 htx)
  unfold cutThrough
  dsimp only
  rw [if_neg (by simp [hbusy]), if_neg (by omega), portOf_modPort, if_pos rfl]

/-! ## TICK_RECEIVE -/

section
variable {s : State} {cfg : LoafCfg} {p : PortId} {f : Frame} {a : Int} {r : Nat}

/-- TICK_RECEIVE takes the first TICK that waits. -/
theorem exec_tickReceive (hcfg : activeCfg s = some cfg) (hw : Claims.Waits s (fun f => f.cls == clsTick) p f) :
    exec (.tickReceive a r) s = .next (
      if isManager s then (if s.fab.duplicate then taken s p f else duplicateManager (taken s p f))
      else if bypassClosed s then
        (if tickValid cfg f.payload then hearTick (taken s p f) p f (tickError (portOf s p) f.payload a) else taken s p f)
      else if tickValid cfg f.payload && tickUsed s (tickError (portOf s p) f.payload a) then
        syncIrq s (followTick (forwardTick (taken s p f) p f r) p f (tickError (portOf s p) f.payload a))
      else forwardTick (taken s p f) p f r) := by
  show execTickReceive a r s = _
  unfold execTickReceive
  rw [hcfg, takeInbox_waits hw]
  dsimp only
  split
  · rfl
  · split <;> rfl

theorem runs_tickReceive_member (hcfg : activeCfg s = some cfg) (hm : isManager s = false)
    (hw : Claims.Waits s (fun f => f.cls == clsTick) p f) (hb : bypassClosed s = false) :
    Runs (.tickReceive a r) s
      (if tickValid cfg f.payload && tickUsed s (tickError (portOf s p) f.payload a) then
        syncIrq s (followTick (forwardTick (taken s p f) p f r) p f (tickError (portOf s p) f.payload a))
      else forwardTick (taken s p f) p f r) := by
  rw [Runs, exec_tickReceive hcfg hw, hm, hb]
  rfl

end

theorem tickUsed_iff (s : State) (e : Int) :
    tickUsed s e = true ↔ s.fab.sync = .loss ∨ (e - s.core.slewNs).natAbs ≤ 5000 := by
  simp [tickUsed]

/-- A TICK that is followed keeps the module in sync; FRAME_NO is taken up after a loss alone. -/
theorem followTick_spec (s : State) (p : PortId) (f : Frame) (e : Int) :
    ∃ settled frames ready, followTick s p f e = { s with
      core := { s.core with
        frameNo := if s.fab.sync = .loss then u32At f.payload 0 else s.core.frameNo
        slewNs := if s.fab.sync = .loss then nearerTick s.core.tfCode e else e }
      fab := { s.fab with
        tickHop := f.hop, sync := .inSync, missed := 0, gotTick := true, upstream := some p, settled := settled
        proofFrames := frames, proofReady := ready }
      stat := { s.stat with jumped := s.stat.jumped || (s.fab.sync == .loss && s.core.frameNo != u32At f.payload 0) } } := by
  unfold followTick
  dsimp only
  by_cases h : s.fab.sync = .loss
  · rw [if_pos h, if_pos h, if_pos h, h]
    exact ⟨_, _, _, rfl⟩
  · rw [if_neg h, if_neg h, if_neg h, beq_false_of_ne h, Bool.false_and, Bool.or_false]
    exact ⟨_, _, _, rfl⟩

/-- What the TICK that a member takes leaves of its own frame, beside the copy that it passes on. -/
theorem followed_spec {f : Frame} (hf : f.cls = clsTick) (s : State) (p : PortId) (r : Nat) (e : Int) :
    ∃ fab irq, syncIrq s (followTick (forwardTick (taken s p f) p f r) p f e) = { s with
      core := { s.core with
        frameNo := if s.fab.sync = .loss then u32At f.payload 0 else s.core.frameNo
        slewNs := if s.fab.sync = .loss then nearerTick s.core.tfCode e else e }
      fab := fab, host := { s.host with irqStat0 := irq }
      stat := { s.stat with jumped := s.stat.jumped || (s.fab.sync == .loss && s.core.frameNo != u32At f.payload 0) } } ∧
      fab.sync = .inSync ∧ fab.missed = 0 ∧ fab.gotTick = true ∧ fab.upstream = some p ∧ fab.tickHop = f.hop ∧
      fab.ports = (forwardTick (taken s p f) p f r).fab.ports := by
  have hforward := forwardTick_eq hf (taken s p f) p r
  generalize forwardTick (taken s p f) p f r = u at hforward
  obtain ⟨settled, frames, ready, hfollow⟩ := followTick_spec u p f e
  rw [syncIrq_eq, hfollow, hforward]
  exact ⟨_, _, rfl, rfl, rfl, rfl, rfl, rfl, rfl⟩

/-- Whether a member uses the TICK or not, its ports hold the copy that it passes on. -/
theorem portOf_tickReceived {f : Frame} (hf : f.cls = clsTick) (s : State) (p k : PortId) (r : Nat) (e : Int) (c : Prop)
    [Decidable c] : portOf (if c then syncIrq s (followTick (forwardTick (taken s p f) p f r) p f e)
      else forwardTick (taken s p f) p f r) k = portOf (forwardTick (taken s p f) p f r) k := by
  split
  · obtain ⟨fab, irq, h, -, -, -, -, -, hports⟩ := followed_spec hf s p r e
    rw [h]
    exact congrArg (fun q : Two PortSt => q.at k.side) hports
  · rfl

theorem hearTick_eq (s : State) (p : PortId) (f : Frame) (e : Int) : hearTick s p f e = { s with
    core := { s.core with frameNo := u32At f.payload 0, slewNs := nearerTick s.core.tfCode e }
    fab := { s.fab with
      heard := if s.fab.heardFrame = some (u32At f.payload 0 - 1) then min (s.fab.heard + 1) 16 else 1
      heardFrame := some (u32At f.payload 0), gotTick := true, upstream := some p, tickHop := f.hop }
    stat := { s.stat with jumped := s.stat.jumped || s.core.frameNo != u32At f.payload 0 } } := by
  have hheard : (if s.fab.heardFrame == some (u32At f.payload 0 - 1) then min (s.fab.heard + 1) 16 else 1) =
      if s.fab.heardFrame = some (u32At f.payload 0 - 1) then min (s.fab.heard + 1) 16 else 1 := by
    simp only [beq_iff_eq]
  rw [← hheard]
  rfl

/-- A manager that hears another's TICK leaves its segment, and writes a crumb of it (R299). -/
theorem duplicateManager_spec (s : State) : (duplicateManager s).fab.duplicate = true ∧
    bypassClosed (duplicateManager s) = true ∧ duplicateManager s = { s with
      fab := (duplicateManager s).fab, jrn := (duplicateManager s).jrn, stat := (duplicateManager s).stat } := by
  have h : Crumbed { leaveFabric s with fab := { (leaveFabric s).fab with duplicate := true } } (duplicateManager s) :=
    crumbed_crumb _ _ _ _ _
  generalize duplicateManager s = t at h
  rw [h]
  exact ⟨rfl, rfl, rfl⟩

theorem onlyFabricAndJournal_duplicateManager (s : State) (p : PortId) (f : Frame) :
    OnlyFabricAndJournal s (duplicateManager (taken s p f)) := by
  have hk : kept (duplicateManager (taken s p f)) = kept s := kept_duplicateManager _
  obtain ⟨-, -, h⟩ := duplicateManager_spec (taken s p f)
  refine ⟨?_, sameStore_of_kept hk, sameClock_of_kept hk⟩
  rw [h]
  rfl

theorem onlyFabricAndJournal_forwardTick {f : Frame} (hf : f.cls = clsTick) (s : State) (p : PortId) (r : Nat) :
    OnlyFabricAndJournal s (forwardTick (taken s p f) p f r) := by
  have hk : kept (forwardTick (taken s p f) p f r) = kept s := kept_forwardTick _ _ _ _
  refine ⟨?_, sameStore_of_kept hk, sameClock_of_kept hk⟩
  rw [forwardTick_eq hf]
  rfl

/-! ## TICK_MISSING, SYNC_LOSS and the end of the proving -/

/-- A change from sync to none sets the interrupt exactly where STATUS.SYNC stood. -/
theorem syncIrq_lost {s t : State} (ht : syncBit t = false) (hhost : t.host = s.host) :
    (syncIrq s t).host.irqStat0 = if syncBit s then s.host.irqStat0 ||| 0x80#8 else s.host.irqStat0 := by
  unfold syncIrq
  rw [ht]
  cases syncBit s
  · exact congrArg HostSt.irqStat0 hhost
  · exact congrArg (fun x : HostSt => x.irqStat0 ||| 0x80#8) hhost

/-- A worker out of sync does not show STATUS.SYNC. -/
theorem syncBit_worker {s : State} (hw : isWorker s = true) (hs : s.fab.sync ≠ .inSync) : syncBit s = false := by
  unfold syncBit
  rw [hw, beq_false_of_ne hs, Bool.and_false]
  cases s.core.tickOn <;> rfl

theorem exec_tickMissing_worker {s : State} (hw : isWorker s = true) (ht : s.core.tickOn = true) (hg : s.fab.gotTick = false)
    (hn : noTickFrame s = false) : exec .tickMissing s = .next (
      if bypassClosed s then { s with fab := { s.fab with heard := 0, heardFrame := none, gotTick := true } }
      else if s.fab.sync = .loss then { s with fab := { s.fab with gotTick := true } }
      else syncIrq s { s with fab := { s.fab with missed := s.fab.missed + 1, gotTick := true, sync := .holdover } }) := by
  show execTickMissing s = _
  unfold execTickMissing
  rw [hw, ht, hg, hn]
  rfl

/-- Sync is lost: the module's own SAFE copies are taken from its ports, and both lanes contribute 0x08. -/
theorem loseSync_eq (s : State) : loseSync s = { s with
    fab := { s.fab with
      sync := .loss, proofReady := false, proofFrames := 0, settled := false
      ports := s.fab.ports.map (cancelWhere ownSafe) }
    lane := s.lane.map fun l => { l with contrib := 0x08#8 } } := rfl

theorem own_cancelWhere (gone : Frame → Bool) (q : PortSt) : ∀ f ∈ (cancelWhere gone q).own, gone f = false := by
  intro f hf
  obtain ⟨-, hkeep⟩ := List.mem_filter.1 hf
  simpa using hkeep

theorem runs_syncLoss {s : State} (hw : isWorker s = true) (hs : s.fab.sync ≠ .loss) (hm : 16 ≤ s.fab.missed) :
    Runs .syncLoss s (syncIrq s (loseSync s)) :=
  congrArg _ (if_pos (by simp [hw, hs, hm]))

theorem runs_syncLoss_idle {s : State} (hm : s.fab.missed < 16) : Runs .syncLoss s s :=
  congrArg _ (if_neg (by simp [Nat.not_le.2 hm]))

theorem loseSync_irq {s : State} (hw : isWorker s = true) : (syncIrq s (loseSync s)).host.irqStat0 =
    if syncBit s then s.host.irqStat0 ||| 0x80#8 else s.host.irqStat0 := by
  have hworker : isWorker (loseSync s) = true := hw
  exact syncIrq_lost (syncBit_worker hworker (by rw [loseSync_eq]; simp)) (by rw [loseSync_eq])

theorem chanOf_modChan (x : LaneSt) (n m : Nat) (f : ChanRec → ChanRec) :
    chanOf (modChan x n f) m = if m = n then f (chanOf x n) else chanOf x m :=
  tabGet_mod ChanRec.clear x.chans n m f

theorem chanRec_markRejoined (s : State) (l : Side) (n : Nat) (h0 : n ≠ chanPort .p0) (h1 : n ≠ chanPort .p1) :
    chanRec (markRejoined s) l n = chanRec s l n := by
  unfold markRejoined chanRec
  dsimp only
  rw [modLanes_lane, Two.at_map, chanOf_modChan, if_neg h1, chanOf_modChan, if_neg h0]

theorem runs_syncProvingEnd {s : State} (hb : bypassClosed s = false) (hs : s.fab.sync = .inSync)
    (hset : s.fab.settled = true) (hp : 16 ≤ s.fab.proofFrames) :
    Runs .syncProvingEnd s (markRejoined { s with fab := { s.fab with proofReady := true } }) :=
  congrArg _ (if_pos (by simp [hb, hs, hset, hp]))

theorem runs_syncProvingEnd_idle {s : State} (hp : s.fab.proofFrames < 16) : Runs .syncProvingEnd s s :=
  congrArg _ (if_neg (by simp [Nat.not_le.2 hp]))

/-- Settles O22: the TICK of a member, of a module that listens and of a manager, the missing TICK, and the two ends of sync. -/
theorem memberFollowsTheTick : Obligations.MemberFollowsTheTick := by
  refine fun s => ⟨fun cfg p f a r e hcfg hm hw he hb => ?_, fun cfg p f a r hcfg hm hw hb => ?_,
    fun cfg p f a r hcfg hm hw => ?_, fun hw ht hg hn => ?_, fun hw hs => ?_, fun hb hs hset => ?_⟩
  · have hf := waits_tick_cls hw
    have hrun := runs_tickReceive_member (a := a) (r := r) hcfg hm hw hb
    have herr : tickError (portOf s p) f.payload a = e := he.symm
    rw [herr] at hrun
    refine ⟨fun hv hu => ?_, fun hno => ?_, fun hl hr hu g hg => ⟨_, hrun, ?_⟩⟩
    · rw [hv, (tickUsed_iff s e).2 hu] at hrun
      refine ⟨_, hrun, ?_⟩
      obtain ⟨fab, irq, h, hsync, hmissed, hgot, hup, hhop, -⟩ := followed_spec hf s p r e
      rw [Bool.and_self, if_pos rfl, h]
      exact ⟨hsync, hmissed, hgot, hup, hhop, rfl, rfl, rfl, ⟨rfl, rfl, rfl, rfl, rfl, rfl⟩, rfl, rfl, rfl⟩
    · have hcond : (tickValid cfg f.payload && tickUsed s e) = false := by
        rw [Bool.and_eq_false_iff, ← Bool.not_eq_true (tickUsed s e), tickUsed_iff]
        exact hno.imp_right fun ⟨hs, hd⟩ h => h.elim hs (by omega)
      rw [hcond] at hrun
      refine ⟨_, hrun, onlyFabricAndJournal_forwardTick hf s p r, ?_⟩
      rw [if_neg Bool.false_ne_true, forwardTick_eq hf]
      exact ⟨rfl, rfl, rfl, rfl⟩
    · have hport := portOf_tickReceived hf s p p.other r e (tickValid cfg f.payload && tickUsed s e)
      have hcopy : forwardTick (taken s p f) p f r = cutThrough (taken s p f) p.other g :=
        (forwardTick_relayed (s := taken s p f) hf hl hr hu r).trans (by rw [hg]; rfl)
      rw [hport, hcopy]
      exact ⟨fun htx hgap hspan => cutThrough_starts htx hgap hspan, fun htx hfew => cutThrough_waits htx hfew⟩
  · have hrun := exec_tickReceive (a := a) (r := r) hcfg hw
    rw [hm, hb] at hrun
    refine ⟨fun hv => hrun.trans ?_, fun hv => ?_⟩
    · rw [hv]
      rfl
    · rw [hv] at hrun
      refine ⟨_, hrun, ?_⟩
      rw [if_neg Bool.false_ne_true, if_pos rfl, if_pos rfl, hearTick_eq]
      exact ⟨rfl, rfl, rfl, rfl, rfl, rfl, rfl⟩
  · have hrun := exec_tickReceive (a := a) (r := r) hcfg hw
    rw [hm] at hrun
    refine ⟨fun hd => hrun.trans ?_, fun hd => ?_⟩
    · rw [hd]
      rfl
    · rw [hd] at hrun
      obtain ⟨hdup, hclosed, -⟩ := duplicateManager_spec (taken s p f)
      exact ⟨_, hrun, hdup, hclosed, onlyFabricAndJournal_duplicateManager s p f⟩
  · have hrun := exec_tickMissing_worker hw ht hg hn
    refine ⟨fun hb hs => ?_, fun hb hs => hrun.trans ?_, fun hb => hrun.trans ?_⟩
    · rw [hb, if_neg Bool.false_ne_true, if_neg hs] at hrun
      refine ⟨_, hrun, ?_, ?_, syncIrq_lost (syncBit_worker hw (by simp)) rfl⟩
      · rw [syncIrq_eq]
      · rw [syncIrq_eq]
    · rw [hb, hs]
      rfl
    · rw [hb]
      rfl
  · refine ⟨fun hm => ⟨_, runs_syncLoss hw hs hm, ?_⟩, runs_syncLoss_idle⟩
    have hirq := loseSync_irq (s := s) hw
    rw [syncIrq_eq, loseSync_eq] at hirq ⊢
    exact ⟨rfl, fun p => by cases p <;> exact own_cancelWhere _ _, fun p => by cases p <;> rfl, rfl, hirq⟩
  · exact ⟨fun hp => ⟨_, runs_syncProvingEnd hb hs hset hp, rfl, fun l n => chanRec_markRejoined _ l n⟩, runs_syncProvingEnd_idle⟩

end Sys2Proof.Machine
end

section
/-! SUPPORT. A state against O10: a table of channel records that is not in canonical form (two entries under one key), which the model's
type of tables admits and the statement does not shut out. -/

namespace Sys2Proof.Machine

open Sys2Proof.Claims

/-- A loaf without connections, blocks and IOMAP entries. -/
def bareLoaf : LoafCfg :=
  { loafId := [], trailer := [], check := 0, tfCode := 2, role := 0, flags := 0
    bind := { tag := [], seg := 0, pos := 0, sig := 0 }, params := [], iomap := [], smap := [], plan := none, seeds := []
    form := { beadCount := 0, inputs := [], elems := [], permit := none } }

/-- A lane whose table of channels lists channel 5 twice: first as clear, then as isolated. -/
def twiceRecorded : LaneSt :=
  { LaneSt.reset with
    cfg := some bareLoaf
    chans := [(5, ChanRec.clear), (5, { ChanRec.clear with iso := some true })] }

/-- In phase S, CHAN_RESTORE of channel 1 is due, and crust A's snapshot shows an undervoltage. -/
def supplyEventInPhaseS : State :=
  { State.reset with
    core := { CoreSt.reset with inReset := false, tickOn := true, phase := .s }
    host := { HostSt.reset with hearth := true }
    mbx := { MbxSt.reset with chanOps := [(1, .restore)] }
    lane := ⟨twiceRecorded, twiceRecorded⟩
    crust := ⟨{ CrustSt.reset with resync := false, snap := { Snap.empty with uv := true } }, CrustSt.reset⟩ }

/-- Crust A's snapshot arrives, and nothing is upset. -/
def quietPhaseS : PhaseSEnv :=
  { crustOk := ⟨true, false⟩, crossOk := true, parity := [], hostParity := ⟨[], []⟩, identityUpset := ⟨0, 0⟩ }

theorem supplyEventInPhaseS_iso : (chanRec supplyEventInPhaseS .a 5).iso = none := by decide

/-- The supply event goes over the whole table for probations, where a clear entry is not listed any more, and the second comes to light. -/
theorem phaseSEnd_supplyEventInPhaseS :
    (chanRec (phaseSEnd quietPhaseS supplyEventInPhaseS) .a 5).iso = some true := by decide +kernel

/-- Refutes O10: "every other channel's isolation is as before" fails under a supply event for a table of channel records that lists a
key twice. -/
theorem not_phaseSFormsInputBeads : ¬ Obligations.PhaseSFormsInputBeads := by
  rintro ⟨-, h⟩
  obtain ⟨t, hrun, -, -, -, -, -, -, -, hlive, -⟩ := h quietPhaseS supplyEventInPhaseS rfl rfl
  obtain ⟨-, -, -, -, -, hops⟩ := hlive rfl
  obtain ⟨-, -, hothers⟩ := hops 1 .restore rfl .a
  obtain ⟨hiso, -⟩ := hothers 5 (by decide)
  rw [runs_unique hrun (runs_phaseS _ rfl rfl), phaseSEnd_supplyEventInPhaseS, supplyEventInPhaseS_iso] at hiso
  cases hiso

end Sys2Proof.Machine
end

section
/-! SUPPORT. Phase E (R92, R118-R123, R254, R275): what of a lane each of its stages reads and leaves alone, the value that an element
gives its bead, and the tally of one channel within the update of the whole table. -/

namespace Sys2Proof.Machine

open Sys2Proof.Claims

/-! ## What the stages around the evaluation leave alone -/

/-- What of a lane the delivery of imports and the checks after the evaluation do not write. -/
structure LaneBase where
  cfg : Option LoafCfg
  retired : Bool
  stopped : Bool
  beads : Tab Byte
  chans : Tab ChanRec
  hostBad : List Nat

def laneBase (x : LaneSt) : LaneBase := ⟨x.cfg, x.retired, x.stopped, x.beads, x.chans, x.hostBad⟩

def laneBases (s : State) : Two LaneBase := s.lane.map laneBase

theorem laneBases_at {s t : State} (h : laneBases t = laneBases s) (l : Side) :
    laneBase (t.lane.at l) = laneBase (s.lane.at l) := by
  have hl := congrArg (fun p : Two LaneBase => p.at l) h
  unfold laneBases at hl
  rwa [Two.at_map, Two.at_map] at hl

theorem laneBases_lane {s t : State} (h : t.lane = s.lane) : laneBases t = laneBases s := by
  unfold laneBases
  rw [h]

theorem laneBases_modLanes (s : State) {f : LaneSt → LaneSt} (hf : ∀ x, laneBase (f x) = laneBase x) :
    laneBases (modLanes s f) = laneBases s := by
  unfold laneBases Two.map
  simp only [modLanes_lane, Two.map, hf]

theorem laneBases_modLane (s : State) (l : Side) {f : LaneSt → LaneSt} (hf : ∀ x, laneBase (f x) = laneBase x) :
    laneBases (modLane s l f) = laneBases s := by
  unfold laneBases Two.map
  rw [modLane_lane]
  cases l <;> simp only [Two.set, Two.at, hf]

theorem laneBases_foldl {α : Type} {f : State → α → State} (h : ∀ s x, laneBases (f s x) = laneBases s) (l : List α)
    (s : State) : laneBases (l.foldl f s) = laneBases s := by
  induction l generalizing s with
  | nil => rfl
  | cons x r ih => exact (ih _).trans (h s x)

theorem laneBases_laneReport (s : State) (r : Rep) : laneBases (laneReport s r) = laneBases s :=
  laneBases_modLanes s fun _ => rfl

theorem laneBase_modImport (x : LaneSt) (cfg : LoafCfg) (conn : W16) (f : ImportSt → ImportSt) :
    laneBase (modImport x cfg conn f) = laneBase x := rfl

theorem laneBases_deliverConn (cfg : LoafCfg) (s : State) (k : Conn) : laneBases (deliverConn cfg s k) = laneBases s := by
  have himport : ∀ f, laneBases (modLanes s fun l => modImport l cfg k.connId f) = laneBases s := fun f =>
    laneBases_modLanes s fun x => laneBase_modImport x _ _ _
  unfold deliverConn
  split
  · dsimp only
    split
    · exact himport _
    · split
      · exact himport _
      · exact (laneBases_laneReport _ _).trans (himport _)
  · dsimp only
    split
    · exact (laneBases_lane (noted_crumb _ _ _ _ _).lane).trans (himport _)
    · exact himport _

theorem laneBases_deliverAll (s : State) : laneBases (deliverAll s) = laneBases s := by
  unfold deliverAll
  split
  · exact laneBases_foldl (laneBases_deliverConn _) _ _
  · rfl

theorem laneBases_ageAll (s : State) : laneBases (ageAll s) = laneBases s := by
  unfold ageAll
  split
  · exact laneBases_foldl (fun s k => laneBases_modLanes s fun x => laneBase_modImport x _ _ _) _ _
  · rfl

theorem laneBases_evalFaults (env : PhaseEEnv) (s : State) (l : Side) : laneBases (evalFaults env s l) = laneBases s := by
  unfold evalFaults
  split
  · rfl
  · dsimp only
    have hmarks := laneBases_modLane s l (f := fun x => { x with
      parityHit := x.parityHit || (!(env.parity.at l).isEmpty || !(env.stateParity.at l).isEmpty || !(s.lane.at l).hostBad.isEmpty)
      eccHit := x.eccHit || env.eccDouble.at l, forcedLate := x.forcedLate || env.eccDouble.at l }) fun _ => rfl
    split
    · refine (laneBases_laneReport _ _).trans ?_
      split
      · exact (laneBases_laneReport _ _).trans hmarks
      · exact hmarks
    · split
      · exact (laneBases_laneReport _ _).trans hmarks
      · exact hmarks

theorem rangeFault_lane (s : State) : (rangeFault s).lane = s.lane := by
  unfold rangeFault
  split
  · rfl
  · exact fatalFault_lane _ _

/-- A lane that has judged the count of its partner's clock (R13, R479). -/
def gateJudged (d : Nat) (x : LaneSt) : LaneSt := { x with clockDev := d, gate := none }

/-- The partner-clock check does nothing, or it judges one gate and may find a clock fault. -/
theorem clockCheck_cases (s : State) (l : Side) : clockCheck s l = s ∨ ∃ d,
    clockCheck s l = modLane s l (gateJudged d) ∨ clockCheck s l = rangeFault (modLane s l (gateJudged d)) := by
  unfold clockCheck
  dsimp only
  split
  · exact .inl rfl
  · next n _ =>
    split
    · exact .inl rfl
    · refine .inr ⟨if gateOk l n then 0 else (s.lane.at l).clockDev + 1, ?_⟩
      by_cases h : 2 ≤ if gateOk l n then 0 else (s.lane.at l).clockDev + 1
      · exact .inr (if_pos h)
      · exact .inl (if_neg h)

/-- The partner-clock check writes its own count and the gate alone. -/
theorem clockCheck_lane (s : State) (l k : Side) : ((clockCheck s l).lane.at k) =
    { s.lane.at k with clockDev := ((clockCheck s l).lane.at k).clockDev, gate := ((clockCheck s l).lane.at k).gate } := by
  have hjudged : ∀ d, (modLane s l (gateJudged d)).lane.at k = { s.lane.at k with
      clockDev := ((modLane s l (gateJudged d)).lane.at k).clockDev, gate := ((modLane s l (gateJudged d)).lane.at k).gate } := by
    intro d
    cases l <;> cases k <;> rfl
  rcases clockCheck_cases s l with h | ⟨d, h | h⟩ <;> rw [h]
  · exact hjudged d
  · rw [rangeFault_lane]
    exact hjudged d

/-- Both partner clocks have been checked. -/
def clocksChecked (s : State) : State := clockCheck (clockCheck s .a) .b

theorem clocksChecked_lane (s : State) (k : Side) : ((clocksChecked s).lane.at k) = { s.lane.at k with
    clockDev := ((clocksChecked s).lane.at k).clockDev, gate := ((clocksChecked s).lane.at k).gate } := by
  unfold clocksChecked
  rw [clockCheck_lane, clockCheck_lane]

/-! ## The live counts -/

theorem pushCrumb_live (s : State) (c : List Byte) : (pushCrumb s c).stat.live = s.stat.live := by
  unfold pushCrumb
  split
  · rfl
  · split <;> rfl

theorem rangeFault_live (s : State) : (rangeFault s).stat.live = s.stat.live := by
  unfold rangeFault
  split
  · rfl
  · unfold fatalFault
    split
    · rfl
    · exact pushCrumb_live _ _

theorem clockCheck_live (s : State) (l : Side) : (clockCheck s l).stat.live = s.stat.live := by
  rcases clockCheck_cases s l with h | ⟨d, h | h⟩ <;> rw [h]
  · rfl
  · exact rangeFault_live _

theorem ageAll_stat (s : State) : (ageAll s).stat = s.stat := by
  unfold ageAll
  split
  · next cfg h =>
    clear h
    induction imports cfg generalizing s with
    | nil => rfl
    | cons k ks ih => exact ih _
  · rfl

/-! ## Evaluation -/

theorem evaluate_lane (env : PhaseEEnv) (seg : Byte) (s : State) (l k : Side) : (evaluate env seg s l).lane.at k =
    if k = l ∧ laneRuns s l = true then
      evalLane (blkCtx s (s.lane.at l) seg) (env.parity.at l) (env.stateParity.at l) s.test.justEnded (s.lane.at l)
    else s.lane.at k := by
  have hruns : ((s.lane.at l).retired || (s.lane.at l).stopped) = !laneRuns s l := by simp [laneRuns, ← Bool.not_or]
  unfold evaluate
  dsimp only
  rw [hruns]
  cases laneRuns s l
  · simp
  · rw [if_neg (by decide), modLane_lane, Two.at_set]
    simp

theorem evaluate_test (env : PhaseEEnv) (seg : Byte) (s : State) (l : Side) : (evaluate env seg s l).test = s.test := by
  unfold evaluate
  dsimp only
  split <;> rfl

/-- Both lanes have evaluated. -/
def lanesEvaluated (env : PhaseEEnv) (seg : Byte) (s : State) : State := evaluate env seg (evaluate env seg s .a) .b

/-- Each lane evaluates by itself, unless it is out of service or its clock has stopped (R485). -/
theorem lanesEvaluated_lane (env : PhaseEEnv) (seg : Byte) (s : State) (l : Side) : ∃ ctx,
    (lanesEvaluated env seg s).lane.at l = if laneRuns s l then
      evalLane ctx (env.parity.at l) (env.stateParity.at l) s.test.justEnded (s.lane.at l) else s.lane.at l := by
  cases l with
  | a =>
    refine ⟨blkCtx s (s.lane.at .a) seg, (evaluate_lane env seg _ .b .a).trans ?_⟩
    rw [if_neg (by simp), evaluate_lane]
    simp
  | b =>
    have hb : (evaluate env seg s .a).lane.at .b = s.lane.at .b := (evaluate_lane env seg s .a .b).trans (if_neg (by simp))
    have hruns : laneRuns (evaluate env seg s .a) .b = laneRuns s .b := by
      unfold laneRuns
      rw [hb]
    refine ⟨blkCtx (evaluate env seg s .a) (s.lane.at .b) seg, (evaluate_lane env seg _ .b .b).trans ?_⟩
    rw [hruns, hb, evaluate_test]
    simp

theorem evalLane_base (ctx : BlkCtx) (hits bad : List Nat) (justEnded : Bool) (x : LaneSt) :
    evalLane ctx hits bad justEnded x = { x with
      beads := (evalLane ctx hits bad justEnded x).beads, blk := (evalLane ctx hits bad justEnded x).blk
      blockVals := (evalLane ctx hits bad justEnded x).blockVals } := by
  unfold evalLane
  split <;> rfl

section
variable (ctx : BlkCtx) (bad : List Nat) (justEnded : Bool) {x : LaneSt} {cfg : LoafCfg} {e : Elem}

/-- A form of one element and no inputs leaves what that element writes. -/
theorem evalLane_single (hits : List Nat) (hc : x.cfg = some cfg) (hi : cfg.form.inputs = []) (he : cfg.form.elems = [e]) :
    (evalLane ctx hits bad justEnded x).beads =
      (evalElem ctx cfg x hits bad justEnded { beads := x.beads, blk := x.blk, vals := x.blockVals } e).beads := by
  unfold evalLane
  rw [hc]
  dsimp only
  rw [hi, he]
  rfl

theorem evalLane_gate {op : GateOp} {ins : List Nat} {out : Nat} (hc : x.cfg = some cfg) (hi : cfg.form.inputs = [])
    (he : cfg.form.elems = [.gate op ins out]) : beadOf (evalLane ctx [] bad justEnded x) out =
      gateBead op (ins.map fun i => parityChecked (beadOf x i)) := by
  unfold beadOf
  rw [evalLane_single ctx bad justEnded [] hc hi he]
  exact (tabGet_set ..).trans (if_pos rfl)

theorem evalLane_rod {table : W64} {ins : List Nat} {out : Nat} (hc : x.cfg = some cfg) (hi : cfg.form.inputs = [])
    (he : cfg.form.elems = [.rod table ins out]) : beadOf (evalLane ctx [] bad justEnded x) out =
      rodBead table (ins.map fun i => parityChecked (beadOf x i)) := by
  unfold beadOf
  rw [evalLane_single ctx bad justEnded [] hc hi he]
  exact (tabGet_set ..).trans (if_pos rfl)

end

/-! ## The tally update of one channel -/

/-- Where each key of a list is worked on once, and each step changes its own key alone, a key holds what its own step gives it. -/
theorem tabGet_foldl_step {α β : Type} (d : α) (f : Tab α × β → Nat → Tab α × β) (g : α → α) (n : Nat)
    (hsame : ∀ acc, tabGet d (f acc n).1 n = g (tabGet d acc.1 n))
    (hother : ∀ acc k, k ≠ n → tabGet d (f acc k).1 n = tabGet d acc.1 n) (ks : List Nat) (hnd : ks.Nodup) (acc : Tab α × β) :
    tabGet d (ks.foldl f acc).1 n = if n ∈ ks then g (tabGet d acc.1 n) else tabGet d acc.1 n := by
  induction ks generalizing acc with
  | nil => rfl
  | cons k ks ih =>
    obtain ⟨hk, hks⟩ := List.nodup_cons.1 hnd
    rw [List.foldl_cons, ih hks]
    by_cases hn : k = n
    · subst hn
      rw [if_neg hk, if_pos List.mem_cons_self, hsame]
    · rw [hother acc k hn]
      simp [Ne.symm hn]

theorem nodup_allChans : allChans.Nodup := by decide

/-- A channel that takes part is tallied with its own reports, whatever becomes of the others (R254). -/
theorem tallyTable_chan (m : List (List Byte)) (ps : List ParamRec) (retA retB : Bool) (reps : List Rep) (chans : Tab ChanRec)
    {n : Nat} (hn : n ∈ allChans) (ht : tallied retA retB n = true) :
    tabGet ChanRec.clear (tallyTable m ps retA retB reps chans).1 n = (tallyChan (tallyTD m n) n
      ((reps.map fun r => { r with chan := countedChan ps r.chan }).filter fun r => r.chan == n)
      (tabGet ChanRec.clear chans n)).1 := by
  unfold tallyTable
  dsimp only
  rw [tabGet_foldl_step ChanRec.clear _ (fun r => (tallyChan (tallyTD m n) n
    ((reps.map fun r => { r with chan := countedChan ps r.chan }).filter fun r => r.chan == n) r).1) n ?_ ?_ allChans nodup_allChans,
    if_pos hn]
  · intro acc
    rw [if_pos ht]
    exact (tabGet_set ..).trans (if_pos rfl)
  · intro acc k hk
    split
    · exact (tabGet_set ..).trans (if_neg (Ne.symm hk))
    · rfl

/-! ## PHASE_E -/

section
variable (env : PhaseEEnv) (s : State)

/-- The imports are delivered (R122, R324). -/
def phaseEDelivered : State := deliverAll (toPhase s .c (endE s.core.tfCode))

/-- The lanes have evaluated, and what was found against a lane and its partner's clock is noted. -/
def phaseEChecked : State :=
  clocksChecked (evalFaults env (evalFaults env
    (countEcc (lanesEvaluated env (segBead (phaseEDelivered s)) (phaseEDelivered s)) env.corrected) .a) .b)

/-- The frame of a module that is not in test hold. -/
def phaseETallied : State :=
  modLive (tallyUpdate ⟨(phaseEDelivered s).lane.a.blk, (phaseEDelivered s).lane.b.blk⟩ (phaseEChecked env s)) fun c =>
    { c with evalA := env.evalTime.a, evalB := env.evalTime.b }

/-- The frame of a module in test hold (R420). -/
def phaseEHeld : State := clocksChecked (ageAll (toPhase s .c (endE s.core.tfCode)))

def phaseEEnd : State := if s.test.hold then phaseEHeld s else phaseETallied env s

theorem runs_phaseE (ht : s.core.tickOn = true) (hp : s.core.phase = .e) : Runs (.phaseE env) s (phaseEEnd env s) := by
  show execPhaseE env s = _
  unfold execPhaseE phaseEEnd
  rw [ht, hp]
  dsimp only
  rw [if_neg (by decide)]
  split <;> rfl

theorem runs_phaseE_idle (h : s.core.tickOn = false ∨ s.core.phase ≠ .e) : Runs (.phaseE env) s s :=
  if_pos (by rcases h with h | h <;> simp [h])

theorem kept_phaseEEnd : kept (phaseEEnd env s) = kept (toPhase s .c (endE s.core.tfCode)) := by
  unfold phaseEEnd
  split
  · simp [phaseEHeld, clocksChecked]
  · simp [phaseETallied, phaseEChecked, phaseEDelivered, clocksChecked, lanesEvaluated]

/-! ### Test hold -/

theorem phaseEHeld_live : (phaseEHeld s).stat.live = s.stat.live := by
  unfold phaseEHeld clocksChecked
  rw [clockCheck_live, clockCheck_live, ageAll_stat]
  rfl

theorem phaseEHeld_chans (l : Side) : ((phaseEHeld s).lane.at l).chans = (s.lane.at l).chans := by
  unfold phaseEHeld
  rw [clocksChecked_lane]
  exact congrArg LaneBase.chans (laneBases_at (laneBases_ageAll _) l)

/-! ### Evaluation -/

theorem phaseEChecked_base (l : Side) : laneBase ((phaseEChecked env s).lane.at l) =
    laneBase ((lanesEvaluated env (segBead (phaseEDelivered s)) (phaseEDelivered s)).lane.at l) := by
  unfold phaseEChecked
  rw [clocksChecked_lane]
  exact laneBases_at ((laneBases_evalFaults env _ .b).trans ((laneBases_evalFaults env _ .a).trans (laneBases_lane rfl))) l

theorem phaseEDelivered_base (l : Side) : laneBase ((phaseEDelivered s).lane.at l) = laneBase (s.lane.at l) :=
  laneBases_at (laneBases_deliverAll _) l

/-- What the tally update makes of a lane. -/
theorem phaseETallied_lane (l : Side) : ∃ blk, (phaseETallied env s).lane.at l =
    tallyLane (phaseEChecked env s) (keepSaved blk ((phaseEChecked env s).lane.at l)) := by
  cases l <;> exact ⟨_, rfl⟩

theorem tallyLane_beads (u : State) (x : LaneSt) : (tallyLane u x).beads = x.beads := by
  unfold tallyLane
  split <;> rfl

theorem tallyLane_live (u : State) {x : LaneSt} (h : x.retired = false) :
    tallyLane u x = { x with chans := (laneTally u x).1, reps := keptReps x } := by
  unfold tallyLane
  rw [if_neg (by simp [h])]

/-- A bead at the end of phase E is what the lane's evaluation left of it. -/
theorem phaseETallied_bead (l : Side) (i : Nat) : beadOf ((phaseETallied env s).lane.at l) i =
    beadOf ((lanesEvaluated env (segBead (phaseEDelivered s)) (phaseEDelivered s)).lane.at l) i := by
  obtain ⟨blk, h⟩ := phaseETallied_lane env s l
  unfold beadOf
  rw [h, tallyLane_beads]
  exact congrArg (fun b : LaneBase => tabGet paritySub b.beads i) (phaseEChecked_base env s l)

theorem phaseEDelivered_runs (l : Side) : laneRuns (phaseEDelivered s) l = laneRuns s l := by
  have hr := congrArg LaneBase.retired (phaseEDelivered_base s l)
  have hs := congrArg LaneBase.stopped (phaseEDelivered_base s l)
  unfold laneRuns
  exact congrArg₂ (fun a b : Bool => !a && !b) hr hs

/-- In a running lane a bead at the end of phase E is what the evaluation made of the lane that took delivery. -/
theorem phaseETallied_bead_runs {l : Side} (hl : laneRuns s l = true) (i : Nat) : ∃ ctx,
    beadOf ((phaseETallied env s).lane.at l) i = beadOf (evalLane ctx (env.parity.at l) (env.stateParity.at l)
      (phaseEDelivered s).test.justEnded ((phaseEDelivered s).lane.at l)) i := by
  obtain ⟨ctx, h⟩ := lanesEvaluated_lane env (segBead (phaseEDelivered s)) (phaseEDelivered s) l
  refine ⟨ctx, ?_⟩
  rw [phaseETallied_bead, h, if_pos ((phaseEDelivered_runs s l).trans hl)]

theorem phaseEDelivered_beadOf (l : Side) : beadOf ((phaseEDelivered s).lane.at l) = beadOf (s.lane.at l) :=
  congrArg (fun b : LaneBase => tabGet paritySub b.beads) (phaseEDelivered_base s l)

section
variable {s} {l : Side} {cfg : LoafCfg} {ins : List Nat} {out : Nat}

theorem phaseETallied_gate {op : GateOp} (hl : laneRuns s l = true) (hc : (s.lane.at l).cfg = some cfg) (hpar : env.parity.at l = [])
    (hi : cfg.form.inputs = []) (he : cfg.form.elems = [.gate op ins out]) : beadOf ((phaseETallied env s).lane.at l) out =
      gateBead op (ins.map fun i => parityChecked (beadOf (s.lane.at l) i)) := by
  obtain ⟨ctx, h⟩ := phaseETallied_bead_runs env s hl out
  rw [h, hpar, evalLane_gate ctx _ _ ((congrArg LaneBase.cfg (phaseEDelivered_base s l)).trans hc) hi he, phaseEDelivered_beadOf]

theorem phaseETallied_rod {table : W64} (hl : laneRuns s l = true) (hc : (s.lane.at l).cfg = some cfg) (hpar : env.parity.at l = [])
    (hi : cfg.form.inputs = []) (he : cfg.form.elems = [.rod table ins out]) : beadOf ((phaseETallied env s).lane.at l) out =
      rodBead table (ins.map fun i => parityChecked (beadOf (s.lane.at l) i)) := by
  obtain ⟨ctx, h⟩ := phaseETallied_bead_runs env s hl out
  rw [h, hpar, evalLane_rod ctx _ _ ((congrArg LaneBase.cfg (phaseEDelivered_base s l)).trans hc) hi he, phaseEDelivered_beadOf]

end

/-! ### The tally update -/

/-- No parity or ECC error is found on either lane in this frame. -/
def SoundRead : Prop :=
  ∀ l, env.parity.at l = [] ∧ env.stateParity.at l = [] ∧ env.eccDouble.at l = false ∧ (s.lane.at l).hostBad = []

theorem phaseEDelivered_of_no_seeds (h : ∀ cfg, activeCfg s = some cfg → cfg.seeds = []) :
    phaseEDelivered s = toPhase s .c (endE s.core.tfCode) := by
  unfold phaseEDelivered deliverAll
  split
  · next cfg hc =>
    have hi : imports cfg = [] := by simp [imports, h cfg hc]
    rw [hi]
    rfl
  · rfl

theorem lanesEvaluated_reps (seg : Byte) (l : Side) : ((lanesEvaluated env seg s).lane.at l).reps = (s.lane.at l).reps := by
  obtain ⟨ctx, h⟩ := lanesEvaluated_lane env seg s l
  rw [h]
  split
  · rw [evalLane_base]
  · rfl

theorem lanesEvaluated_base (seg : Byte) (l : Side) : laneBase ((lanesEvaluated env seg s).lane.at l) =
    { laneBase (s.lane.at l) with beads := ((lanesEvaluated env seg s).lane.at l).beads } := by
  obtain ⟨ctx, h⟩ := lanesEvaluated_lane env seg s l
  rw [h]
  split
  · rw [evalLane_base]
    rfl
  · rfl

variable {env s} in
/-- Where nothing is found against a lane, no lane gets a report. -/
theorem evalFaults_reps {l : Side} (hpar : env.parity.at l = []) (hstate : env.stateParity.at l = []) (hecc : env.eccDouble.at l = false)
    (hhost : (s.lane.at l).hostBad = []) (k : Side) : ((evalFaults env s l).lane.at k).reps = (s.lane.at k).reps := by
  unfold evalFaults
  split
  · rfl
  · rw [hpar, hstate, hecc, hhost]
    cases k <;> cases l <;> rfl

variable {env s} in
theorem phaseEChecked_reps (hsound : SoundRead env s) (hseeds : ∀ cfg, activeCfg s = some cfg → cfg.seeds = []) (l : Side) :
    ((phaseEChecked env s).lane.at l).reps = (s.lane.at l).reps := by
  have hhost : ∀ k, ((countEcc (lanesEvaluated env (segBead (phaseEDelivered s)) (phaseEDelivered s)) env.corrected).lane.at k).hostBad
      = [] := fun k => by
    obtain ⟨-, -, -, hk⟩ := hsound k
    exact (congrArg LaneBase.hostBad (lanesEvaluated_base env _ _ k)).trans
      ((congrArg LaneBase.hostBad (phaseEDelivered_base s k)).trans hk)
  obtain ⟨hpa, hsa, hea, _⟩ := hsound .a
  obtain ⟨hpb, hsb, heb, _⟩ := hsound .b
  unfold phaseEChecked
  rw [clocksChecked_lane]
  show LaneSt.reps _ = _
  rw [evalFaults_reps hpb hsb heb ((congrArg LaneBase.hostBad (laneBases_at (laneBases_evalFaults env _ .a) .b)).trans (hhost .b)),
    evalFaults_reps hpa hsa hea (hhost .a)]
  refine (lanesEvaluated_reps env _ _ l).trans ?_
  rw [phaseEDelivered_of_no_seeds s hseeds]
  rfl

/-- The tally reads of a lane what it holds at the end of window X. -/
theorem phaseEChecked_tallied (l : Side) : ((phaseEChecked env s).lane.at l).cfg = (s.lane.at l).cfg ∧
    ((phaseEChecked env s).lane.at l).retired = (s.lane.at l).retired ∧
    ((phaseEChecked env s).lane.at l).chans = (s.lane.at l).chans := by
  have h := (phaseEChecked_base env s l).trans (lanesEvaluated_base env (phaseEDelivered s) _ l)
  have hs := phaseEDelivered_base s l
  exact ⟨(congrArg LaneBase.cfg h).trans (congrArg LaneBase.cfg hs), (congrArg LaneBase.retired h).trans (congrArg LaneBase.retired hs),
    (congrArg LaneBase.chans h).trans (congrArg LaneBase.chans hs)⟩

section
variable {env s} {l : Side} {cfg : LoafCfg} (hsound : SoundRead env s) (hseeds : ∀ cfg, activeCfg s = some cfg → cfg.seeds = [])
  (hl : laneLive s l = true) (hc : (s.lane.at l).cfg = some cfg)
include hsound hseeds hl hc

/-- A lane in service is tallied from what it holds at the end of window X. -/
theorem phaseETallied_tally : ((phaseETallied env s).lane.at l).chans =
      (tallyTable cfg.iomap cfg.params s.lane.a.retired s.lane.b.retired (s.lane.at l).reps (s.lane.at l).chans).1 ∧
    ((phaseETallied env s).lane.at l).reps =
      (s.lane.at l).reps.filter fun r => (chanRec s l (countedChan cfg.params r.chan)).retired := by
  obtain ⟨blk, h⟩ := phaseETallied_lane env s l
  obtain ⟨hcfg, hret, hchans⟩ := phaseEChecked_tallied env s l
  have hlive : (keepSaved blk ((phaseEChecked env s).lane.at l)).retired = false := hret.trans (by simpa [laneLive] using hl)
  have hreps := phaseEChecked_reps hsound hseeds l
  obtain ⟨-, ha, -⟩ := phaseEChecked_tallied env s .a
  obtain ⟨-, hb, -⟩ := phaseEChecked_tallied env s .b
  change (phaseEChecked env s).lane.a.retired = s.lane.a.retired at ha
  change (phaseEChecked env s).lane.b.retired = s.lane.b.retired at hb
  rw [h, tallyLane_live _ hlive]
  constructor
  · simp only [laneTally, keepSaved, hcfg, hc, hreps, hchans, ha, hb, Option.map_some, Option.getD_some]
  · simp only [keptReps, keepSaved, chanOf, hcfg, hc, hreps, hchans, Option.map_some, Option.getD_some]

end

end

/-- Settles O12: phase E's end is written out by `runs_phaseE`; the evaluation of one element and the tally of one channel are read off it. -/
theorem phaseEEvaluatesAndTallies : Obligations.PhaseEEvaluatesAndTallies := by
  refine ⟨runs_phaseE_idle, fun env s ht hp => ?_⟩
  have hkept := kept_phaseEEnd env s
  refine ⟨phaseEEnd env s, runs_phaseE env s ht hp,
    SameStore.trans (t := toPhase s .c _) ⟨rfl, rfl, rfl, rfl, rfl, rfl⟩ (sameStore_of_kept hkept),
    SameClock.trans (t := toPhase s .c _) ⟨rfl, rfl, rfl, rfl, rfl, rfl, rfl⟩ (sameClock_of_kept hkept),
    congrArg Kept.phase hkept, congrArg Kept.off hkept, congrArg Kept.crust hkept, fun hh => ?_, fun hh => ?_⟩
  · rw [show phaseEEnd env s = phaseEHeld s from if_pos hh]
    exact ⟨phaseEHeld_live s, phaseEHeld_chans s⟩
  · rw [show phaseEEnd env s = phaseETallied env s from if_neg (by simp [hh])]
    refine ⟨rfl, rfl, ?_, ?_⟩
    · rintro l cfg e ins out v hl hc hpar hi he rfl
      exact ⟨fun op h => phaseETallied_gate env hl hc hpar hi (h ▸ he), fun table h => phaseETallied_rod env hl hc hpar hi (h ▸ he)⟩
    · intro hseeds hsound l cfg n hl hc hn htal
      obtain ⟨hchans, hreps⟩ := phaseETallied_tally hsound hseeds hl hc
      refine ⟨hreps, ?_⟩
      unfold chanRec chanOf
      rw [hchans]
      exact tallyTable_chan _ _ _ _ _ _ hn htal

end Sys2Proof.Machine
end

section
/-! SUPPORT. Window X (R321, R325, R332-R345): what the sending of frames changes, what a release changes, and the verdict on the
proof chain. -/

namespace Sys2Proof.Machine

open Sys2Proof.Claims

/-! ## What sending changes -/

/-- Only what waits to be sent has changed, with the marks, sequence numbers and counts that go with it. -/
def Sends (s t : State) : Prop :=
  t = { s with
    fab := { s.fab with ports := t.fab.ports, seqs := t.fab.seqs }, mbx := { s.mbx with queue := t.mbx.queue }, can := t.can
    stat := { s.stat with live := t.stat.live }, drawn := t.drawn }

theorem Sends.refl (s : State) : Sends s s := rfl

theorem Sends.trans {s t u : State} (h : Sends s t) (k : Sends t u) : Sends s u := by
  unfold Sends at *
  rw [k, h]

theorem Sends.ite {s a b : State} (c : Prop) [Decidable c] (ha : Sends s a) (hb : Sends s b) :
    Sends s (if c then a else b) := pred_ite (P := Sends s) c ha hb

theorem Sends.foldl {α : Type} {f : State → α → State} (h : ∀ s x, Sends s (f s x)) (l : List α) (s : State) :
    Sends s (l.foldl f s) := by
  induction l generalizing s with
  | nil => exact .refl s
  | cons x r ih => exact (h s x).trans (ih _)

theorem Sends.modLane {s t : State} (h : Sends s t) (l : Side) (f : LaneSt → LaneSt) :
    Sends (modLane s l f) (modLane t l f) := by
  unfold Sends at h
  rw [h]
  rfl

theorem Sends.lane {s t : State} (h : Sends s t) : t.lane = s.lane := by rw [h]

theorem sends_modPort (s : State) (p : PortId) (f : PortSt → PortSt) : Sends s (modPort s p f) := rfl

theorem sends_pump (s : State) (p : PortId) : Sends s (pump s p) := by
  rw [pump_eq]
  rfl

theorem sends_pumpBoth (s : State) : Sends s (pumpBoth s) := (sends_pump s _).trans (sends_pump _ _)

theorem sends_sendOut (s : State) (ps : List PortId) (c : BitVec 4) (dst : Byte) (payload : List Byte) :
    Sends s (sendOut s ps c dst payload) := by
  have hnew : Sends s (newFrame s c dst payload).2 := rfl
  exact hnew.trans (.foldl (fun u p => .ite _ ((sends_modPort u p _).trans (sends_pump _ _)) (.refl u)) _ _)

theorem sends_supersede (s : State) (k : Conn) (l : Side) : Sends s (supersede s k l) := rfl

theorem sends_supersedeCan (s : State) (k : Conn) (l : Side) : Sends s (supersedeCan s k l) := rfl

theorem sends_dropOlder (s : State) (k : Conn) (l : Side) : Sends s (dropOlder s k l) := .ite _ (sends_supersedeCan ..) (sends_supersede ..)

theorem sends_canQueue (s : State) (ident : BitVec 11) (data : List Byte) (safe : Option (W16 × Side)) :
    Sends s (canQueue s ident data safe) := .ite _ (.refl s) rfl

theorem sends_canStart (s : State) : Sends s (canStart s) := by
  unfold canStart
  split
  · exact .refl s
  · split
    · exact .ite _ rfl rfl
    · exact .refl s

/-- What a release does to the record of its connection: the SEQ of a copy released, and the frames since then (R321). -/
def copyCounted (released : Bool) (c : ConnRec) : ConnRec :=
  { c with seq := c.seq + (if released then 1 else 0), since := if released then 0 else min (c.since + 1) 0xFF }

/-- Of the lanes a release writes the record of its own lane's connection alone. -/
theorem sends_releaseCopy (cfg : LoafCfg) (l : Side) (s : State) (k : Conn) :
    Sends (modLane s l fun x => modConn x k.connId (copyCounted (releases s l k))) (releaseCopy cfg l s k) := by
  unfold releaseCopy
  cases releases s l k
  · have hsame : copyCounted false = fun c => { c with since := min (c.since + 1) 0xFF } := by
      funext c
      simp [copyCounted]
    rw [hsame]
    exact (sends_dropOlder s k l).modLane l _
  · have hsame : copyCounted true = fun c => { c with seq := c.seq + 1, since := 0 } := by
      funext c
      simp [copyCounted]
    rw [hsame]
    dsimp only
    rw [if_neg (by decide)]
    split
    · exact .refl _
    · exact .ite _ ((sends_dropOlder ..).trans (sends_canQueue ..)) ((sends_dropOlder ..).trans (sends_sendOut ..))

/-! ## The queues of the ports -/

/-- Each port's queues hold nothing that they did not hold before. -/
def QueuesShrink (s t : State) : Prop :=
  ∀ p, (portOf t p).own ⊆ (portOf s p).own ∧ (portOf t p).cut ⊆ (portOf s p).cut

theorem QueuesShrink.refl (s : State) : QueuesShrink s s := fun _ => ⟨fun _ h => h, fun _ h => h⟩

theorem QueuesShrink.trans {s t u : State} (h : QueuesShrink s t) (k : QueuesShrink t u) : QueuesShrink s u := fun p =>
  ⟨fun _ hf => (h p).1 ((k p).1 hf), fun _ hf => (h p).2 ((k p).2 hf)⟩

theorem queuesShrink_modPort (s : State) (p : PortId) {f : PortSt → PortSt} (hown : ∀ q, (f q).own ⊆ q.own)
    (hcut : ∀ q, (f q).cut ⊆ q.cut) : QueuesShrink s (modPort s p f) := by
  intro k
  rw [portOf_modPort]
  split
  · next h =>
    subst h
    exact ⟨hown _, hcut _⟩
  · exact ⟨fun _ h => h, fun _ h => h⟩

theorem subset_dropFrame (c : Bool) (l : List Frame) (f : Frame) : (if c then dropFrame l f else l) ⊆ l := by
  split
  · exact List.erase_subset
  · exact fun _ h => h

theorem queuesShrink_pump (s : State) (p : PortId) : QueuesShrink s (pump s p) := by
  unfold pump
  dsimp only
  split
  · exact .refl s
  · split
    · exact .refl s
    · next r _ _ =>
      refine QueuesShrink.trans (t := markSent (if (portOf s p).retries.contains r then countRetry s else s) r.frame) ?_
        (queuesShrink_modPort _ p (fun q => subset_dropFrame _ _ _) (fun q => subset_dropFrame _ _ _))
      intro k
      rw [portOf_markSent]
      split <;> exact ⟨fun _ h => h, fun _ h => h⟩

theorem queuesShrink_pumpBoth (s : State) : QueuesShrink s (pumpBoth s) :=
  (queuesShrink_pump s _).trans (queuesShrink_pump _ _)

/-- What a port has of its own to send after a message of the module was queued: that message, or what it had before. -/
theorem own_sendOut {s : State} {ps : List PortId} {c : BitVec 4} {dst : Byte} {payload : List Byte} {p : PortId} {f : Frame}
    (hf : f ∈ (portOf (sendOut s ps c dst payload) p).own) : f ∈ (portOf s p).own ∨ f.cls = c ∧ f.payload = payload := by
  have hfold : ∀ (ps : List PortId) (u : State), f ∈ (portOf (ps.foldl (fun u q => if portUp u q then
      sendOwn u q (newFrame s c dst payload).1 else u) u) p).own → f ∈ (portOf u p).own ∨ f = (newFrame s c dst payload).1 := by
    intro ps
    induction ps with
    | nil => exact fun u h => .inl h
    | cons q qs ih =>
      intro u h
      refine (ih _ h).elim (fun h => ?_) .inr
      dsimp only at h
      split at h
      · have hq := (queuesShrink_pump _ q p).1 h
        rw [portOf_modPort] at hq
        split at hq
        · next hpq =>
          rw [hpq]
          exact (List.mem_append.1 hq).imp_right List.mem_singleton.1
        · exact .inl hq
      · exact .inl h
  refine (hfold ps _ hf).imp (fun h => h) fun h => ?_
  rw [h]
  exact ⟨rfl, rfl⟩

theorem mem_own_supersede {s : State} {k : Conn} {l : Side} {p : PortId} {f : Frame} :
    f ∈ (portOf (supersede s k l) p).own ↔ f ∈ (portOf s p).own ∧ sameCopy k l f = false := by
  have hown : (portOf (supersede s k l) p).own = (portOf s p).own.filter fun f => !sameCopy k l f := by
    cases p <;> rfl
  rw [hown, List.mem_filter, Bool.not_eq_true']

/-! ## The copies of a connection -/

/-- The frame carries a copy of this connection and lane (R322, Appendix C). -/
def CopyOf (id : W16) (l : Side) (f : Frame) : Prop := u16At f.payload 0 = id ∧ byteAt f.payload 2 = laneByte l

theorem sameCopy_other {k : Conn} {l : Side} {f : Frame} {id : W16} {j : Side} (hf : CopyOf id j f) (h : id ≠ k.connId ∨ j ≠ l) :
    sameCopy k l f = false := by
  obtain ⟨hid, hlane⟩ := hf
  unfold sameCopy
  rw [hid, hlane]
  rcases h with h | h
  · simp [h]
  · cases j <;> cases l <;> simp_all [laneByte]

theorem u16At_le16 (x : W16) (r : List Byte) : u16At (le16 x ++ r) 0 = x := by
  apply BitVec.eq_of_toNat_eq
  simp [u16At, natAt, bytesAt, le16, leBytes, ofLe]
  omega

/-- The head of a copy names its connection and its lane. -/
theorem copyOf_safeBody (s : State) (cfg : LoafCfg) (l : Side) (k : Conn) (code : List Byte) {f : Frame}
    (hf : f.payload = safeBody s cfg l k ++ code) : CopyOf k.connId l f := by
  unfold CopyOf
  rw [hf]
  unfold safeBody
  simp only [List.append_assoc]
  exact ⟨u16At_le16 _ _, rfl⟩

theorem own_dropOlder {s : State} {k : Conn} {l : Side} {p : PortId} {f : Frame} (hf : f ∈ (portOf (dropOlder s k l) p).own) :
    f ∈ (portOf s p).own := by
  unfold dropOlder at hf
  split at hf
  · exact hf
  · exact (mem_own_supersede.1 hf).1

theorem portOf_canQueue (s : State) (ident : BitVec 11) (data : List Byte) (safe : Option (W16 × Side)) (p : PortId) :
    portOf (canQueue s ident data safe) p = portOf s p := by
  unfold canQueue
  split <;> rfl

/-- A release queues copies of its own connection and lane alone. -/
theorem own_releaseCopy {cfg : LoafCfg} {l : Side} {s : State} {k : Conn} {p : PortId} {f : Frame}
    (hf : f ∈ (portOf (releaseCopy cfg l s k) p).own) : f ∈ (portOf s p).own ∨ CopyOf k.connId l f := by
  unfold releaseCopy at hf
  dsimp only at hf
  split at hf
  · exact .inl (own_dropOlder hf)
  · split at hf
    · exact .inl hf
    · split at hf
      · rw [portOf_canQueue] at hf
        exact .inl (own_dropOlder (s := modLane s l _) hf)
      · rcases own_sendOut hf with h | ⟨-, h⟩
        · exact .inl (own_dropOlder (s := modLane s l _) h)
        · exact .inr (copyOf_safeBody _ _ _ _ _ h)

/-- Where a lane may not release, no older copy of the connection is left to be sent (log 104). -/
theorem sameCopy_of_not_released {cfg : LoafCfg} {l : Side} {s : State} {k : Conn} {p : PortId} {f : Frame}
    (hrel : releases s l k = false) (hfd : k.canFd = false) (hf : f ∈ (portOf (releaseCopy cfg l s k) p).own) :
    sameCopy k l f = false := by
  unfold releaseCopy at hf
  rw [hrel, if_pos (by decide)] at hf
  have hdrop : f ∈ (portOf (dropOlder s k l) p).own := hf
  unfold dropOlder at hdrop
  rw [hfd, if_neg (by decide)] at hdrop
  exact (mem_own_supersede.1 hdrop).2

/-! ## The queue of CAN FD -/

/-- What waits for CAN FD: a message of this connection and lane, which is not on the bus yet. -/
def CanWaits (id : W16) (l : Side) (s : State) : Prop := ∃ x ∈ s.can.txq, x.safe = some (id, l) ∧ x.won = false

theorem canWaits_dropOlder {s : State} {k : Conn} {j : Side} {id : W16} {l : Side} (h : CanWaits id l (dropOlder s k j)) :
    CanWaits id l s ∧ (k.canFd = true → (k.connId, j) ≠ (id, l)) := by
  obtain ⟨x, hx, hsafe, hwon⟩ := h
  unfold dropOlder at hx
  split at hx
  · obtain ⟨y, hy, hxy⟩ := List.mem_map.1 hx
    obtain ⟨hq, hkeep⟩ := List.mem_filter.1 hy
    have hsame : x.safe = y.safe ∧ x.won = y.won := by
      rw [← hxy]
      split <;> exact ⟨rfl, rfl⟩
    rw [hsame.1] at hsafe
    rw [hsame.2] at hwon
    refine ⟨⟨y, hq, hsafe, hwon⟩, fun _ he => ?_⟩
    simp [hsafe, hwon, he] at hkeep
  · next hfd => exact ⟨⟨x, hx, hsafe, hwon⟩, fun h => absurd h hfd⟩

theorem canWaits_canQueue {s : State} {ident : BitVec 11} {data : List Byte} {e : W16 × Side} {id : W16} {l : Side}
    (h : CanWaits id l (canQueue s ident data (some e))) : CanWaits id l s ∨ e = (id, l) := by
  obtain ⟨x, hx, hsafe, hwon⟩ := h
  unfold canQueue at hx
  split at hx
  · exact .inl ⟨x, hx, hsafe, hwon⟩
  · rcases List.mem_append.1 hx with hx | hx
    · exact .inl ⟨x, hx, hsafe, hwon⟩
    · rw [List.mem_singleton.1 hx] at hsafe
      exact .inr (Option.some.inj hsafe)

theorem canWaits_of_eq {s t : State} (h : t.can = s.can) {id : W16} {l : Side} : CanWaits id l t ↔ CanWaits id l s := by
  unfold CanWaits
  rw [h]

theorem mem_modFirst {α : Type} {p : α → Bool} {f : α → α} {l : List α} {x : α} (h : x ∈ modFirst p f l) :
    x ∈ l ∨ ∃ y, x = f y := by
  induction l with
  | nil => exact .inl h
  | cons y r ih =>
    unfold modFirst at h
    split at h
    · rcases List.mem_cons.1 h with h | h
      · exact .inr ⟨y, h⟩
      · exact .inl (List.mem_cons_of_mem _ h)
    · rcases List.mem_cons.1 h with h | h
      · exact .inl (h ▸ List.mem_cons_self)
      · exact (ih h).imp_left (List.mem_cons_of_mem _)

/-- Winning the arbitration leaves no message of the queue waiting that did not wait before. -/
theorem canWaits_canStart {s : State} {id : W16} {l : Side} (h : CanWaits id l (canStart s)) : CanWaits id l s := by
  unfold canStart at h
  split at h
  · exact h
  · split at h
    · dsimp only at h
      split at h
      · obtain ⟨x, hx, hsafe, hwon⟩ := h
        rcases mem_modFirst hx with hx | ⟨y, hy⟩
        · exact ⟨x, hx, hsafe, hwon⟩
        · rw [hy] at hwon
          exact nomatch hwon
      · exact h
    · exact h

theorem sendOut_can (s : State) (ps : List PortId) (c : BitVec 4) (dst : Byte) (payload : List Byte) :
    (sendOut s ps c dst payload).can = s.can := by
  have hfold : ∀ (f : Frame) (ps : List PortId) (u : State), (ps.foldl (fun u q => if portUp u q then sendOwn u q f else u) u).can = u.can := by
    intro f ps
    induction ps with
    | nil => exact fun u => rfl
    | cons q qs ih =>
      intro u
      refine (ih _).trans ?_
      dsimp only
      split
      · unfold sendOwn
        rw [pump_eq]
        rfl
      · rfl
  exact hfold _ ps _

theorem canWaits_releaseCopy {cfg : LoafCfg} {j : Side} {s : State} {k : Conn} {id : W16} {l : Side}
    (h : CanWaits id l (releaseCopy cfg j s k)) :
    CanWaits id l s ∧ (releases s j k = false → k.canFd = true → (k.connId, j) ≠ (id, l)) ∨
      releases s j k = true ∧ (k.connId, j) = (id, l) := by
  unfold releaseCopy at h
  cases hrel : releases s j k <;> rw [hrel] at h
  · obtain ⟨hw, hne⟩ := canWaits_dropOlder h
    exact .inl ⟨hw, fun _ => hne⟩
  · dsimp only at h
    rw [if_neg (by decide)] at h
    split at h
    · exact .inl ⟨h, nofun⟩
    · split at h
      · rcases canWaits_canQueue h with h | h
        · exact .inl ⟨(canWaits_dropOlder (s := modLane s j _) h).1, nofun⟩
        · exact .inr ⟨rfl, h⟩
      · rw [canWaits_of_eq (sendOut_can ..)] at h
        exact .inl ⟨(canWaits_dropOlder (s := modLane s j _) h).1, nofun⟩

/-! ## The releases of window X -/

/-- What a release reads of the module, and neither a release nor the start of a chain writes. -/
structure ReleaseBase where
  core : CoreSt
  test : TestSt
  sync : SyncState
  lane : Two LaneSt

/-- A lane without the records of its connections and the proof messages it holds. -/
def unsent (x : LaneSt) : LaneSt := { x with conns := [], proofs := [] }

def releaseBase (s : State) : ReleaseBase := ⟨s.core, s.test, s.fab.sync, s.lane.map unsent⟩

theorem releases_of_base {s t : State} (h : releaseBase t = releaseBase s) (l : Side) (k : Conn) :
    releases t l k = releases s l k := by
  have hof : ∀ u : State, releases u l k = (laneLive { u with lane := (releaseBase u).lane } l &&
      !((releaseBase u).lane.at l).noSafe && !(releaseBase u).test.hold && (k.canFd ||
        (!noTickFrame { u with core := (releaseBase u).core } &&
          !(isWorker { u with lane := (releaseBase u).lane } && (releaseBase u).sync == .loss)))) := fun u => by cases l <;> rfl
  rw [hof t, hof s, h]
  rfl

theorem activeCfg_of_base {s t : State} (h : releaseBase t = releaseBase s) : activeCfg t = activeCfg s :=
  congrArg (fun b : ReleaseBase => otherCfg b.lane.a.cfg b.lane.b.cfg) h

theorem releaseBase_lane {s t : State} (h : releaseBase t = releaseBase s) (l : Side) :
    unsent (t.lane.at l) = unsent (s.lane.at l) := by
  have hl := congrArg (fun b : ReleaseBase => b.lane.at l) h
  unfold releaseBase at hl
  simpa only [Two.at_map] using hl

theorem Sends.releaseBase {s t : State} (h : Sends s t) : releaseBase t = releaseBase s := by
  unfold Sends at h
  rw [h]
  rfl

theorem releaseBase_modLane (s : State) (l : Side) {f : LaneSt → LaneSt} (hf : ∀ x, unsent (f x) = unsent x) :
    releaseBase (modLane s l f) = releaseBase s := by
  cases l <;> simp only [releaseBase, modLane, Two.map, Two.set, Two.at, hf]

theorem connRecOf_modConn (x : LaneSt) (n m : W16) (f : ConnRec → ConnRec) :
    connRecOf (modConn x n f) m = if m = n then f (connRecOf x n) else connRecOf x m := by
  unfold connRecOf modConn
  rw [tabGet_mod]
  simp only [BitVec.toNat_inj]

/-- What a release leaves of the lanes. -/
theorem releaseCopy_lane (cfg : LoafCfg) (l : Side) (s : State) (k : Conn) :
    releaseBase (releaseCopy cfg l s k) = releaseBase s ∧
    ∀ j, ((releaseCopy cfg l s k).lane.at j).proofs = (s.lane.at j).proofs ∧
      ∀ id, connRecOf ((releaseCopy cfg l s k).lane.at j) id =
        if j = l ∧ id = k.connId then copyCounted (releases s l k) (connRecOf (s.lane.at j) id) else connRecOf (s.lane.at j) id := by
  have h := sends_releaseCopy cfg l s k
  refine ⟨h.releaseBase.trans (releaseBase_modLane s l fun _ => rfl), fun j => ?_⟩
  rw [h.lane, modLane_lane, Two.at_set]
  split
  · next hj =>
    subst hj
    refine ⟨rfl, fun id => ?_⟩
    rw [connRecOf_modConn]
    split
    · next hid => rw [if_pos ⟨rfl, hid⟩, hid]
    · next hid => rw [if_neg fun h => hid h.2]
  · next hj => exact ⟨rfl, fun id => (if_neg fun h => hj h.1).symm⟩

/-- Both lanes release their copies of a connection. -/
def releaseBoth (cfg : LoafCfg) (s : State) (k : Conn) : State := releaseCopy cfg .b (releaseCopy cfg .a s k) k

theorem releaseBoth_base (cfg : LoafCfg) (s : State) (k : Conn) :
    releaseBase (releaseBoth cfg s k) = releaseBase s ∧ ∀ j, ((releaseBoth cfg s k).lane.at j).proofs = (s.lane.at j).proofs := by
  obtain ⟨ha, hpa⟩ := releaseCopy_lane cfg .a s k
  obtain ⟨hb, hpb⟩ := releaseCopy_lane cfg .b (releaseCopy cfg .a s k) k
  exact ⟨hb.trans ha, fun j => (hpb j).1.trans (hpa j).1⟩

theorem releaseBoth_records (cfg : LoafCfg) (s : State) (k : Conn) (j : Side) (id : W16) :
    connRecOf ((releaseBoth cfg s k).lane.at j) id =
      if id = k.connId then copyCounted (releases s j k) (connRecOf (s.lane.at j) id) else connRecOf (s.lane.at j) id := by
  obtain ⟨ha, hpa⟩ := releaseCopy_lane cfg .a s k
  obtain ⟨hb, hpb⟩ := releaseCopy_lane cfg .b (releaseCopy cfg .a s k) k
  unfold releaseBoth
  rw [(hpb j).2, (hpa j).2, releases_of_base ha]
  cases j <;> simp

/-- No copy of a connection and lane waits to be sent. -/
def NoCopyWaits (k : Conn) (l : Side) (s : State) : Prop :=
  (k.canFd = false → ∀ p, ∀ f ∈ (portOf s p).own, sameCopy k l f = false) ∧
  (k.canFd = true → ¬ CanWaits k.connId l s)

theorem noCopyWaits_releaseCopy_other {cfg : LoafCfg} {j l : Side} {s : State} {k m : Conn} (hne : m.connId ≠ k.connId ∨ j ≠ l)
    (h : NoCopyWaits k l s) : NoCopyWaits k l (releaseCopy cfg j s m) := by
  obtain ⟨hown, hcan⟩ := h
  refine ⟨fun hfd p f hf => (own_releaseCopy hf).elim (hown hfd p f) fun hc => sameCopy_other hc hne, fun hfd hw => ?_⟩
  rcases canWaits_releaseCopy hw with ⟨hw, -⟩ | ⟨-, he⟩
  · exact hcan hfd hw
  · obtain ⟨hid, hl⟩ := Prod.mk.inj he
    exact hne.elim (fun h => h hid) fun h => h hl

theorem noCopyWaits_releaseCopy_same {cfg : LoafCfg} {l : Side} {s : State} {k : Conn} (hrel : releases s l k = false) :
    NoCopyWaits k l (releaseCopy cfg l s k) := by
  refine ⟨fun hfd p f hf => sameCopy_of_not_released hrel hfd hf, fun hfd hw => ?_⟩
  rcases canWaits_releaseCopy hw with ⟨-, hne⟩ | ⟨h, -⟩
  · exact hne hrel hfd rfl
  · exact nomatch hrel.symm.trans h

theorem noCopyWaits_releaseBoth_other {cfg : LoafCfg} {l : Side} {s : State} {k m : Conn} (hne : m.connId ≠ k.connId)
    (h : NoCopyWaits k l s) : NoCopyWaits k l (releaseBoth cfg s m) :=
  noCopyWaits_releaseCopy_other (.inl hne) (noCopyWaits_releaseCopy_other (.inl hne) h)

theorem noCopyWaits_releaseBoth_same {cfg : LoafCfg} {l : Side} {s : State} {k : Conn} (hrel : releases s l k = false) :
    NoCopyWaits k l (releaseBoth cfg s k) := by
  cases l with
  | a => exact noCopyWaits_releaseCopy_other (.inr (by decide)) (noCopyWaits_releaseCopy_same hrel)
  | b =>
    refine noCopyWaits_releaseCopy_same ?_
    rw [releases_of_base (releaseCopy_lane cfg .a s k).1, hrel]

/-- In a list of connections whose identifiers differ, one's own step decides what only it can write. -/
theorem foldl_conn {f : State → Conn → State} {P Q : State → Prop} {k : Conn} {ks : List Conn}
    (hnd : (ks.map fun k => k.connId).Nodup) (hk : k ∈ ks) (hP : ∀ u m, m.connId ≠ k.connId → P u → P (f u m))
    (hstep : ∀ u, P u → Q (f u k)) (hQ : ∀ u m, m.connId ≠ k.connId → Q u → Q (f u m)) {s : State} (hs : P s) : Q (ks.foldl f s) := by
  induction ks generalizing s with
  | nil => exact nomatch hk
  | cons m ms ih =>
    obtain ⟨hm, hms⟩ := List.nodup_cons.1 hnd
    by_cases he : m.connId = k.connId
    · have hmk : k = m := by
        rcases List.mem_cons.1 hk with h | h
        · exact h
        · exact absurd (List.mem_map.2 ⟨k, h, he.symm⟩) hm
      subst hmk
      have hrest : ∀ (l : List Conn) (u : State), (∀ m ∈ l, m.connId ≠ k.connId) → Q u → Q (l.foldl f u) := by
        intro l
        induction l with
        | nil => exact fun u _ h => h
        | cons n ns ihn =>
          exact fun u hl h => ihn _ (fun m hm => hl m (List.mem_cons_of_mem _ hm)) (hQ u n (hl n List.mem_cons_self) h)
      exact hrest ms _ (fun n hn h => hm (List.mem_map.2 ⟨n, hn, h⟩)) (hstep s hs)
    · refine ih hms ?_ (hP s m he hs)
      rcases List.mem_cons.1 hk with h | h
      · exact absurd (congrArg Conn.connId h.symm) he
      · exact h

/-- The exports of the active loaf are released in their order. -/
def releaseFold (cfg : LoafCfg) (s : State) : State := (exports cfg).foldl (releaseBoth cfg) s

theorem releaseFold_base (cfg : LoafCfg) (s : State) : releaseBase (releaseFold cfg s) = releaseBase s ∧
    ∀ j, ((releaseFold cfg s).lane.at j).proofs = (s.lane.at j).proofs := by
  unfold releaseFold
  induction exports cfg generalizing s with
  | nil => exact ⟨rfl, fun _ => rfl⟩
  | cons k ks ih =>
    obtain ⟨hbase, hproofs⟩ := releaseBoth_base cfg s k
    obtain ⟨hrest, hprest⟩ := ih (releaseBoth cfg s k)
    exact ⟨hrest.trans hbase, fun j => (hprest j).trans (hproofs j)⟩

section
variable {cfg : LoafCfg} {k : Conn} (hnd : ((exports cfg).map fun k => k.connId).Nodup) (hk : k ∈ exports cfg) (s : State)
include hnd hk

theorem releaseFold_records (l : Side) : connRecOf ((releaseFold cfg s).lane.at l) k.connId =
    copyCounted (releases s l k) (connRecOf (s.lane.at l) k.connId) := by
  refine foldl_conn (P := fun u => releaseBase u = releaseBase s ∧
      connRecOf (u.lane.at l) k.connId = connRecOf (s.lane.at l) k.connId)
    (Q := fun u => connRecOf (u.lane.at l) k.connId = copyCounted (releases s l k) (connRecOf (s.lane.at l) k.connId))
    hnd hk (fun u m hm h => ?_) (fun u h => ?_) (fun u m hm h => ?_) ⟨rfl, rfl⟩
  · rw [releaseBoth_records, if_neg (Ne.symm hm)]
    exact ⟨(releaseBoth_base cfg u m).1.trans h.1, h.2⟩
  · rw [releaseBoth_records, if_pos rfl, h.2, releases_of_base h.1]
  · rw [releaseBoth_records, if_neg (Ne.symm hm), h]

theorem releaseFold_noCopyWaits {l : Side} (hrel : releases s l k = false) : NoCopyWaits k l (releaseFold cfg s) := by
  refine foldl_conn (P := fun u => releaseBase u = releaseBase s) (Q := NoCopyWaits k l) hnd hk
    (fun u m _ h => (releaseBoth_base cfg u m).1.trans h) (fun u h => ?_) (fun u m hm h => noCopyWaits_releaseBoth_other hm h) rfl
  exact noCopyWaits_releaseBoth_same ((releases_of_base h l k).trans hrel)

end

theorem releaseAll_eq {s : State} {cfg : LoafCfg} (hc : activeCfg s = some cfg) : releaseAll s = canStart (releaseFold cfg s) := by
  unfold releaseAll
  rw [hc]
  rfl

theorem canStart_port (s : State) (p : PortId) : portOf (canStart s) p = portOf s p := by
  unfold canStart
  split
  · rfl
  · split
    · dsimp only
      split <;> rfl
    · rfl

theorem NoCopyWaits.mono {k : Conn} {l : Side} {s t : State} (h : NoCopyWaits k l s) (hq : QueuesShrink s t)
    (hc : CanWaits k.connId l t → CanWaits k.connId l s) : NoCopyWaits k l t :=
  ⟨fun hfd p f hf => h.1 hfd p f ((hq p).1 hf), fun hfd hw => h.2 hfd (hc hw)⟩

theorem noCopyWaits_canStart {k : Conn} {l : Side} {s : State} (h : NoCopyWaits k l s) : NoCopyWaits k l (canStart s) :=
  h.mono (fun p => by rw [canStart_port]; exact ⟨fun _ h => h, fun _ h => h⟩) canWaits_canStart

theorem releaseAll_base (s : State) : releaseBase (releaseAll s) = releaseBase s ∧
    ∀ j, ((releaseAll s).lane.at j).proofs = (s.lane.at j).proofs := by
  cases hc : activeCfg s with
  | none =>
    unfold releaseAll
    rw [hc]
    exact ⟨rfl, fun _ => rfl⟩
  | some cfg =>
    obtain ⟨hbase, hproofs⟩ := releaseFold_base cfg s
    rw [releaseAll_eq hc, (sends_canStart _).lane]
    exact ⟨(sends_canStart _).releaseBase.trans hbase, hproofs⟩

/-! ## The start of the proof chain -/

theorem startChain_cases (br : Byte) (s : State) (l : Side) :
    (isManager s = false ∧ Sends s (startChain br s l)) ∨
      ∃ m, startChain br s l = modLane s l fun x => { x with proofs := x.proofs ++ [m] } := by
  unfold startChain
  cases isManager s
  · exact .inl ⟨rfl, sends_sendOut _ _ _ _ _⟩
  · exact .inr ⟨_, rfl⟩

theorem startChain_base (br : Byte) (s : State) (l : Side) : releaseBase (startChain br s l) = releaseBase s ∧
    (∀ j, ((startChain br s l).lane.at j).conns = (s.lane.at j).conns) ∧
    (isManager s = false → (startChain br s l).lane = s.lane) := by
  rcases startChain_cases br s l with ⟨-, h⟩ | ⟨m, h⟩
  · rw [h.lane]
    exact ⟨h.releaseBase, fun _ => rfl, fun _ => rfl⟩
  · refine ⟨?_, fun j => ?_, fun hm => ?_⟩
    · rw [h]
      exact releaseBase_modLane s l fun _ => rfl
    · rw [h]
      cases j <;> cases l <;> rfl
    · unfold startChain
      rw [hm]
      exact (sends_sendOut _ _ _ _ _).lane

theorem isManager_of_base {s t : State} (h : releaseBase t = releaseBase s) : isManager t = isManager s := by
  unfold isManager roleOf
  rw [activeCfg_of_base h]

theorem startChains_base (s : State) : releaseBase (startChains s) = releaseBase s ∧
    (∀ j, ((startChains s).lane.at j).conns = (s.lane.at j).conns) ∧
    (isManager s = false ∨ tailOf s = none → (startChains s).lane = s.lane) := by
  unfold startChains
  split
  · next br hbr =>
    split
    · exact ⟨rfl, fun _ => rfl, fun _ => rfl⟩
    · obtain ⟨ha, hca, hla⟩ := startChain_base br s .a
      obtain ⟨hb, hcb, hlb⟩ := startChain_base br (startChain br s .a) .b
      refine ⟨hb.trans ha, fun j => (hcb j).trans (hca j), fun h => ?_⟩
      have hm : isManager s = false := h.resolve_right (by rw [hbr]; nofun)
      exact (hlb ((isManager_of_base ha).trans hm)).trans (hla hm)
  · exact ⟨rfl, fun _ => rfl, fun _ => rfl⟩

/-! ## WINDOW_X opens -/

/-- Window X opens at the end of phase S. -/
def xOpened (s : State) : State := { s with core := { s.core with xOpen := true, off := BitVec.ofNat 20 (endS s.core.tfCode) } }

/-- What has been released and started when the window opens. -/
def xReleased (s : State) : State := releaseAll (startChains (xOpened s))

def xOpenEnd (s : State) : State := pumpBoth (modLanes (xReleased s) fun x => { x with noSafe := false })

theorem runs_windowXOpen {s : State} (ht : s.core.tickOn = true) (hp : s.core.phase = .x) (hx : s.core.xOpen = false) :
    Runs .windowXOpen s (xOpenEnd s) := by
  show execWindowXOpen s = _
  unfold execWindowXOpen
  rw [ht, hp, hx]
  rfl

theorem kept_xOpenEnd (s : State) : kept (xOpenEnd s) = kept (xOpened s) := by
  simp [xOpenEnd, xReleased]

theorem xReleased_base (s : State) : releaseBase (xReleased s) = releaseBase (xOpened s) :=
  (releaseAll_base _).1.trans (startChains_base _).1

theorem xOpenEnd_lane (s : State) (l : Side) : (xOpenEnd s).lane.at l = { (xReleased s).lane.at l with noSafe := false } := by
  unfold xOpenEnd
  rw [(sends_pumpBoth _).lane, modLanes_lane, Two.at_map]

theorem xOpenEnd_unsent (s : State) (l : Side) : unsent ((xOpenEnd s).lane.at l) = unsent { s.lane.at l with noSafe := false } := by
  rw [xOpenEnd_lane]
  exact congrArg (fun x : LaneSt => { x with noSafe := false }) (releaseBase_lane (xReleased_base s) l)

theorem xOpenEnd_core (s : State) : (xOpenEnd s).core = (xOpened s).core := by
  have hpump : (xOpenEnd s).core = (xReleased s).core := by
    have h := sends_pumpBoth (modLanes (xReleased s) fun x => { x with noSafe := false })
    unfold Sends at h
    unfold xOpenEnd
    rw [h]
    rfl
  exact hpump.trans (congrArg ReleaseBase.core (xReleased_base s))

theorem xOpenEnd_proofs {s : State} (h : isManager s = false ∨ tailOf s = none) (l : Side) :
    ((xOpenEnd s).lane.at l).proofs = (s.lane.at l).proofs := by
  rw [xOpenEnd_lane]
  refine ((releaseAll_base _).2 l).trans ?_
  rw [(startChains_base (xOpened s)).2.2 h]
  rfl

section
variable {s : State} {cfg : LoafCfg} {k : Conn} (hc : activeCfg s = some cfg) (hnd : ((exports cfg).map fun k => k.connId).Nodup)
  (hk : k ∈ exports cfg) (l : Side)
include hc hnd hk

theorem xOpenEnd_records : connRecOf ((xOpenEnd s).lane.at l) k.connId =
    copyCounted (releases s l k) (connRecOf (s.lane.at l) k.connId) := by
  obtain ⟨hbase, hconns, -⟩ := startChains_base (xOpened s)
  have hcfg : activeCfg (startChains (xOpened s)) = some cfg := (activeCfg_of_base hbase).trans hc
  have hrel : releases (startChains (xOpened s)) l k = releases s l k := releases_of_base hbase l k
  have hold : connRecOf ((startChains (xOpened s)).lane.at l) k.connId = connRecOf (s.lane.at l) k.connId :=
    congrArg (fun c => tabGet ConnRec.init c k.connId.toNat) (hconns l)
  rw [xOpenEnd_lane]
  unfold xReleased
  rw [releaseAll_eq hcfg, (sends_canStart _).lane, ← hrel, ← hold]
  exact releaseFold_records hnd hk _ l

variable {l} in
theorem xOpenEnd_noCopyWaits (hrel : releases s l k = false) : NoCopyWaits k l (xOpenEnd s) := by
  obtain ⟨hbase, -, -⟩ := startChains_base (xOpened s)
  have hcfg : activeCfg (startChains (xOpened s)) = some cfg := (activeCfg_of_base hbase).trans hc
  have hfold := releaseFold_noCopyWaits hnd hk _ ((releases_of_base hbase l k).trans hrel)
  have hreleased : NoCopyWaits k l (xReleased s) := by
    unfold xReleased
    rw [releaseAll_eq hcfg]
    exact noCopyWaits_canStart hfold
  have hcan : (xOpenEnd s).can = (xReleased s).can := by
    unfold xOpenEnd pumpBoth
    rw [pump_eq, pump_eq]
    rfl
  exact hreleased.mono (queuesShrink_pumpBoth _) (canWaits_of_eq hcan).1

end

/-! ## WINDOW_X ends -/

theorem fab_of_noted {s t : State} (h : Noted s t) : t.fab = s.fab := by rw [h]

theorem core_of_noted {s t : State} (h : Noted s t) : t.core = s.core := by rw [h]

theorem noted_judgeLane (plan : Plan) (s : State) (l : Side) : Noted (if (s.lane.at l).retired then s else
    modLane s l fun x => { x with verdict := judge s plan l (s.lane.at l) }) (judgeLane plan s l) := by
  unfold judgeLane
  dsimp only
  split
  · exact .refl s
  · split
    · exact .refl _
    · split
      · exact .refl _
      · exact noted_crumb _ _ _ _ _
      · exact noted_crumb _ _ _ _ _

/-- A lane in service takes the verdict of its own judgement, and the other lane is left alone. -/
theorem judgeLane_lane (plan : Plan) (s : State) (l j : Side) : (judgeLane plan s l).lane.at j =
    if j = l ∧ laneLive s l = true then { s.lane.at j with verdict := judge s plan l (s.lane.at l) } else s.lane.at j := by
  rw [(noted_judgeLane plan s l).lane]
  unfold laneLive
  by_cases h : (s.lane.at l).retired
  · simp [h]
  · rw [if_neg h]
    show (s.lane.set l _).at j = _
    rw [Two.at_set]
    by_cases hj : j = l
    · simp [hj, h]
    · simp [hj]

theorem judgeLane_fab (plan : Plan) (s : State) (l : Side) : (judgeLane plan s l).fab = s.fab := by
  rw [fab_of_noted (noted_judgeLane plan s l)]
  split <;> rfl

theorem judgeLane_core (plan : Plan) (s : State) (l : Side) : (judgeLane plan s l).core = s.core := by
  rw [core_of_noted (noted_judgeLane plan s l)]
  split <;> rfl

/-- The window is over, and no proof message of the frame is sent any more (R338). -/
def xClosed (s : State) : State := modPort (modPort (toPhase s .e (endX s.core.tfCode)) .p0 dropProofs) .p1 dropProofs

def xJudged (s : State) : State :=
  match planOf s with
  | some plan => if isManager s then judgeLane plan (judgeLane plan (xClosed s) .a) .b else xClosed s
  | none => xClosed s

def xEnd (s : State) : State := pumpBoth (xJudged s)

theorem runs_windowXEnd {s : State} (ht : s.core.tickOn = true) (hp : s.core.phase = .x) (hx : s.core.xOpen = true) :
    Runs .windowXEnd s (xEnd s) := by
  show execWindowXEnd s = _
  unfold execWindowXEnd
  rw [ht, hp, hx]
  rfl

theorem kept_xEnd (s : State) : kept (xEnd s) = kept (toPhase s .e (endX s.core.tfCode)) := by
  have hjudged : kept (xJudged s) = kept (xClosed s) := by
    unfold xJudged
    split
    · split
      · simp
      · rfl
    · rfl
  have hclosed : kept (xClosed s) = kept (toPhase s .e (endX s.core.tfCode)) := by simp [xClosed]
  rw [← hclosed, ← hjudged]
  simp [xEnd]

theorem xJudged_fab (s : State) : (xJudged s).fab = (xClosed s).fab := by
  unfold xJudged
  split
  · split
    · rw [judgeLane_fab, judgeLane_fab]
    · rfl
  · rfl

theorem xEnd_no_proof {s : State} {p : PortId} {f : Frame} (hf : f ∈ (portOf (xEnd s) p).own ∨ f ∈ (portOf (xEnd s) p).cut) :
    isProof f.cls = false := by
  obtain ⟨hown, hcut⟩ := queuesShrink_pumpBoth (xJudged s) p
  have hport : portOf (xJudged s) p = dropProofs (portOf s p) := by
    unfold portOf
    rw [xJudged_fab]
    cases p <;> rfl
  rw [hport] at hown hcut
  have hmem : ∀ l : List Frame, f ∈ l.filter (fun f => !isProof f.cls) → isProof f.cls = false := by
    intro l h
    simpa using (List.mem_filter.1 h).2
  exact hf.elim (fun h => hmem _ (hown h)) fun h => hmem _ (hcut h)

theorem judge_of_eq {s t : State} (hfab : t.fab.topo = s.fab.topo) (hcore : t.core.frameNo = s.core.frameNo) (plan : Plan) (l : Side)
    (x : LaneSt) : judge t plan l x = judge s plan l x := by
  unfold judge msgFits
  rw [hfab, hcore]

theorem xEnd_lane_of_plan {s : State} {plan : Plan} (hp : planOf s = some plan) (hm : isManager s = true) (l : Side) :
    (xEnd s).lane.at l = if laneLive s l then { s.lane.at l with verdict := judge s plan l (s.lane.at l) } else s.lane.at l := by
  have hjudged : xJudged s = judgeLane plan (judgeLane plan (xClosed s) .a) .b := by
    unfold xJudged
    rw [hp, hm]
    rfl
  unfold xEnd
  rw [(sends_pumpBoth _).lane, hjudged, judgeLane_lane]
  cases l with
  | a =>
    rw [if_neg (by simp), judgeLane_lane]
    simp only [true_and]
    rfl
  | b =>
    have hb : (judgeLane plan (xClosed s) .a).lane.at .b = s.lane.at .b := (judgeLane_lane _ _ _ _).trans (if_neg (by simp))
    have hlive : laneLive (judgeLane plan (xClosed s) .a) .b = laneLive s .b := by
      unfold laneLive
      rw [hb]
    have hjudge : judge (judgeLane plan (xClosed s) .a) plan .b (s.lane.at .b) = judge s plan .b (s.lane.at .b) :=
      judge_of_eq (by rw [judgeLane_fab]; rfl) (by rw [judgeLane_core]; rfl) _ _ _
    rw [hb, hlive, hjudge]
    simp only [true_and]

theorem xEnd_lane_of_no_manager {s : State} (hm : isManager s = false) : (xEnd s).lane = s.lane := by
  unfold xEnd
  rw [(sends_pumpBoth _).lane]
  unfold xJudged
  rw [hm]
  split <;> rfl

theorem xEnd_lane (s : State) (l : Side) : (xEnd s).lane.at l = { s.lane.at l with verdict := ((xEnd s).lane.at l).verdict } := by
  cases hm : isManager s with
  | false => rw [xEnd_lane_of_no_manager hm]
  | true =>
    cases hp : planOf s with
    | some plan =>
      rw [xEnd_lane_of_plan hp hm]
      split <;> rfl
    | none =>
      have hlane : (xEnd s).lane = s.lane := by
        unfold xEnd
        rw [(sends_pumpBoth _).lane]
        unfold xJudged
        rw [hp]
        rfl
      rw [hlane]

/-! ## The verdict -/

/-- One branch has exactly one message, and it is the one expected (R332-R337). -/
def BranchFits (s : State) (seg : W32) (l : Side) (x : LaneSt) (b : Byte × Byte × List W16) : Prop :=
  ∃ m, branchMsgs x b.1 = [m] ∧ msgFits s seg l b m = true

/-- The branches that a plan expects. -/
def planBranches (s : State) (plan : Plan) : List (Byte × Byte × List W16) := branches s.fab.topo (plan.members.map fun e => e.sig)

def ChainFormed (s : State) (plan : Plan) (l : Side) (x : LaneSt) : Prop :=
  coverage s.fab.topo (plan.members.map fun e => e.sig).length = true ∧ ∀ b ∈ planBranches s plan, BranchFits s plan.seg l x b

/-- The messages of a branch are one, and it is the one expected. -/
def soleFits (s : State) (seg : W32) (l : Side) (b : Byte × Byte × List W16) : List ProofIn → Bool
  | [m] => msgFits s seg l b m
  | _ => false

theorem soleFits_iff (s : State) (seg : W32) (l : Side) (x : LaneSt) (b : Byte × Byte × List W16) :
    soleFits s seg l b (branchMsgs x b.1) = true ↔ BranchFits s seg l x b := by
  unfold BranchFits
  generalize branchMsgs x b.1 = ms
  match ms with
  | [] => simp [soleFits]
  | [m] => simp [soleFits]
  | _ :: _ :: _ => simp [soleFits]

theorem judge_eq (s : State) (plan : Plan) (l : Side) (x : LaneSt) : judge s plan l x =
    if !coverage s.fab.topo (plan.members.map fun e => e.sig).length ||
        !((planBranches s plan).map fun b => (b, branchMsgs x b.1)).all fun e => soleFits s plan.seg l e.1 e.2 then .rejected
    else if ((planBranches s plan).map fun b => (b, branchMsgs x b.1)).all fun e => e.2.all fun m => m.value == sound1 then .accepted
    else .wellFormedFalse := rfl

/-- A chain that is not formed is rejected; one that is formed is accepted where every message is sound. -/
theorem judge_cases (s : State) (plan : Plan) (l : Side) (x : LaneSt) :
    (¬ ChainFormed s plan l x → judge s plan l x = .rejected) ∧
    (ChainFormed s plan l x →
      ((∀ b ∈ planBranches s plan, ∀ m ∈ branchMsgs x b.1, m.value = sound1) → judge s plan l x = .accepted) ∧
      ((∃ b ∈ planBranches s plan, ∃ m ∈ branchMsgs x b.1, m.value ≠ sound1) → judge s plan l x = .wellFormedFalse)) := by
  have hfits : (((planBranches s plan).map fun b => (b, branchMsgs x b.1)).all fun e => soleFits s plan.seg l e.1 e.2) = true ↔
      ∀ b ∈ planBranches s plan, BranchFits s plan.seg l x b := by
    rw [List.all_map, List.all_eq_true]
    exact forall₂_congr fun b _ => soleFits_iff s plan.seg l x b
  have hsound : (((planBranches s plan).map fun b => (b, branchMsgs x b.1)).all fun e => e.2.all fun m => m.value == sound1) = true ↔
      ∀ b ∈ planBranches s plan, ∀ m ∈ branchMsgs x b.1, m.value = sound1 := by
    simp
  rw [judge_eq]
  refine ⟨fun hno => if_pos ?_, fun ⟨hcov, hall⟩ => ?_⟩
  · rw [Bool.or_eq_true, Bool.not_eq_true', Bool.not_eq_true']
    by_contra h
    rw [not_or, Bool.not_eq_false, Bool.not_eq_false] at h
    exact hno ⟨h.1, hfits.1 h.2⟩
  · rw [hcov, hfits.2 hall, if_neg (by decide)]
    exact ⟨fun h => if_pos (hsound.2 h), fun ⟨b, hb, m, hmem, hv⟩ => if_neg fun h => hv (hsound.1 h b hb m hmem)⟩

/-! ## CONN_TIMEOUT -/

theorem foldl_tabMod {α : Type} [DecidableEq α] (d : α) (f : α → α) (ks : List Nat) (t : Tab α) {n : Nat} (P : α → Prop)
    (hf : ∀ x, P (f x)) (h : n ∈ ks ∨ P (tabGet d t n)) : P (tabGet d (ks.foldl (fun t i => tabMod d t i f) t) n) := by
  induction ks generalizing t with
  | nil => exact h.resolve_left List.not_mem_nil
  | cons k ks ih =>
    refine ih _ ?_
    rw [tabGet_mod]
    by_cases hk : n = k
    · rw [if_pos hk]
      exact .inr (hf _)
    · rw [if_neg hk]
      exact h.imp_left fun h => (List.mem_cons.1 h).resolve_left hk

/-- What a lane holds of an import that is overdue (R328, R329). -/
theorem modImport_imp (x : LaneSt) (cfg : LoafCfg) (conn : W16) (f : ImportSt → ImportSt) {i : Nat} (hi : i ∈ importInsts cfg conn)
    (P : ImportSt → Prop) (hf : ∀ m, P (f m)) : P (tabGet BlkSt.init (modImport x cfg conn f).blk i).imp :=
  foldl_tabMod BlkSt.init (fun b => { b with imp := f b.imp }) _ _ (fun b => P b.imp) (fun b => hf b.imp) (.inl hi)

def importTimedOut (k : Conn) (m : ImportSt) : ImportSt := { m with timedOut := true, refValid := false, beads := timeoutBeads k }

/-- What a lane loses with an overdue import: its beads, its reference and its ECHO. -/
def laneTimedOut (cfg : LoafCfg) (k : Conn) (x : LaneSt) : LaneSt :=
  modConn (modImport x cfg k.connId (importTimedOut k)) k.connId
    fun c => { c with echo := none, timeouts := min (c.timeouts + 1) 0xFFFF }

/-- The copies of a connection are taken from the ports. -/
def copiesCut (k : Conn) (s : State) : State :=
  modPort (modPort s .p0 (cancelWhere fun f => isSafeFrame f && u16At f.payload 0 == k.connId)) .p1
    (cancelWhere fun f => isSafeFrame f && u16At f.payload 0 == k.connId)

theorem timeOut_eq (cfg : LoafCfg) (k : Conn) (s : State) : timeOut cfg k s =
    countTimeout (crumb (copiesCut k (modLanes s (laneTimedOut cfg k))) crConsequence 0xFF csConnTimeout (le16 k.connId)) := rfl

theorem runs_connTimeout {s : State} {conn : W16} {cfg : LoafCfg} {k : Conn} (hc : activeCfg s = some cfg)
    (hk : (imports cfg).find? (fun k => k.connId == conn) = some k) : Runs (.connTimeout conn) s
      (if s.core.tickOn && s.core.phase == .e && timeoutDue s cfg k then timeOut cfg k s else s) := by
  show execConnTimeout conn s = _
  unfold execConnTimeout
  rw [hc]
  dsimp only
  rw [hk]

theorem runs_connTimeout_idle {s : State} (conn : W16) (h : s.core.tickOn = false ∨ s.core.phase ≠ .e) : Runs (.connTimeout conn) s s := by
  show execConnTimeout conn s = _
  unfold execConnTimeout
  split
  · rfl
  · split
    · rfl
    · rw [if_neg (by rcases h with h | h <;> simp [h])]

theorem pushCrumb_timeouts (s : State) (c : List Byte) : (pushCrumb s c).stat.epoch.timeouts = s.stat.epoch.timeouts := by
  unfold pushCrumb
  split
  · rfl
  · split <;> rfl

theorem timeOut_epoch (cfg : LoafCfg) (k : Conn) (s : State) :
    (timeOut cfg k s).stat.epoch.timeouts = satInc s.stat.epoch.timeouts := by
  rw [timeOut_eq]
  exact congrArg satInc (pushCrumb_timeouts _ _)

theorem timeOut_lane (cfg : LoafCfg) (k : Conn) (s : State) (l : Side) :
    (timeOut cfg k s).lane.at l = laneTimedOut cfg k (s.lane.at l) := by
  have hlane : (timeOut cfg k s).lane = (modLanes s (laneTimedOut cfg k)).lane := by
    rw [timeOut_eq]
    exact (noted_crumb (copiesCut k (modLanes s (laneTimedOut cfg k))) _ _ _ _).lane
  rw [hlane, modLanes_lane, Two.at_map]

theorem timeOut_port (cfg : LoafCfg) (k : Conn) (s : State) (p : PortId) : portOf (timeOut cfg k s) p =
    cancelWhere (fun f => isSafeFrame f && u16At f.payload 0 == k.connId) (portOf s p) := by
  have hfab : (timeOut cfg k s).fab = (copiesCut k (modLanes s (laneTimedOut cfg k))).fab := by
    rw [timeOut_eq]
    have hcrumb := noted_crumb (copiesCut k (modLanes s (laneTimedOut cfg k))) crConsequence 0xFF csConnTimeout (le16 k.connId)
    have hfab := fab_of_noted hcrumb
    exact hfab
  unfold portOf
  rw [hfab]
  cases p <;> rfl

theorem laneTimedOut_conn (cfg : LoafCfg) (k : Conn) (x : LaneSt) : connRecOf (laneTimedOut cfg k x) k.connId =
    { connRecOf x k.connId with echo := none, timeouts := min ((connRecOf x k.connId).timeouts + 1) 0xFFFF } :=
  (connRecOf_modConn _ _ _ _).trans (if_pos rfl)

/-- The import's instances in a lane show the timeout bead. -/
def ShowsTimeout (k : Conn) (m : ImportSt) : Prop := m.timedOut = true ∧ m.refValid = false ∧ m.beads = List.replicate k.beads 0x38#8

theorem laneTimedOut_import (cfg : LoafCfg) (k : Conn) (x : LaneSt) {i : Nat} (hi : i ∈ importInsts cfg k.connId) :
    ShowsTimeout k (tabGet BlkSt.init (laneTimedOut cfg k x).blk i).imp :=
  modImport_imp x cfg k.connId (importTimedOut k) hi (ShowsTimeout k) fun _ => ⟨rfl, rfl, rfl⟩

/-- The lanes of a manager give their verdicts, branch by branch. -/
theorem xEnd_verdict {s : State} {plan : Plan} (hp : planOf s = some plan) (hm : isManager s = true) {l : Side} (hl : laneLive s l = true) :
    (¬ ChainFormed s plan l (s.lane.at l) → ((xEnd s).lane.at l).verdict = .rejected) ∧
    (ChainFormed s plan l (s.lane.at l) →
      ((∀ b ∈ planBranches s plan, ∀ m ∈ branchMsgs (s.lane.at l) b.1, m.value = sound1) →
        ((xEnd s).lane.at l).verdict = .accepted) ∧
      ((∃ b ∈ planBranches s plan, ∃ m ∈ branchMsgs (s.lane.at l) b.1, m.value ≠ sound1) →
        ((xEnd s).lane.at l).verdict = .wellFormedFalse)) := by
  rw [xEnd_lane_of_plan hp hm, if_pos hl]
  exact judge_cases s plan l (s.lane.at l)

/-- Settles O11: what the window releases, how it ends with the verdict, and the overdue import. -/
theorem windowXOpensAndEnds : Obligations.WindowXOpensAndEnds := by
  refine ⟨fun s => ⟨fun h => if_pos ?_, fun h => if_pos ?_⟩, fun s ht hp => ⟨fun hx => ?_, fun hx => ?_⟩,
    fun conn s => ⟨runs_connTimeout_idle conn, fun cfg k hc hk => ?_⟩⟩
  · rcases h with h | h | h <;> simp [h]
  · rcases h with h | h | h <;> simp [h]
  · have hkept := kept_xOpenEnd s
    refine ⟨xOpenEnd s, runs_windowXOpen ht hp hx,
      SameStore.trans (t := xOpened s) ⟨rfl, rfl, rfl, rfl, rfl, rfl⟩ (sameStore_of_kept hkept),
      SameClock.trans (t := xOpened s) ⟨rfl, rfl, rfl, rfl, rfl, rfl, rfl⟩ (sameClock_of_kept hkept),
      (congrArg Kept.phase hkept).trans hp, congrArg CoreSt.xOpen (xOpenEnd_core s), congrArg Kept.off hkept, congrArg Kept.crust hkept,
      fun l => ?_, fun cfg hc hnd k hk l => ?_, fun cfg hc hnd k hk l hrel => ?_, xOpenEnd_proofs⟩
    · have hl := xOpenEnd_unsent s l
      have hnoSafe := congrArg LaneSt.noSafe hl
      have hretired := congrArg LaneSt.retired hl
      have hchans := congrArg LaneSt.chans hl
      have hblk := congrArg LaneSt.blk hl
      exact ⟨hnoSafe, hretired, hchans, hblk⟩
    · rw [xOpenEnd_records hc hnd hk]
      exact ⟨rfl, rfl⟩
    · obtain ⟨hown, hcan⟩ := xOpenEnd_noCopyWaits hc hnd hk hrel
      refine ⟨hown, fun hfd x hx hsafe => ?_⟩
      by_contra hwon
      exact hcan hfd ⟨x, hx, hsafe, by simpa using hwon⟩
  · have hkept := kept_xEnd s
    refine ⟨xEnd s, runs_windowXEnd ht hp hx,
      SameStore.trans (t := toPhase s .e _) ⟨rfl, rfl, rfl, rfl, rfl, rfl⟩ (sameStore_of_kept hkept),
      SameClock.trans (t := toPhase s .e _) ⟨rfl, rfl, rfl, rfl, rfl, rfl, rfl⟩ (sameClock_of_kept hkept),
      congrArg Kept.phase hkept, congrArg Kept.off hkept, congrArg Kept.crust hkept, fun p f => xEnd_no_proof,
      xEnd_lane_of_no_manager, fun l => ⟨xEnd_lane s l, ?_⟩⟩
    rintro plan sigs bs hplan hm hl rfl rfl
    obtain ⟨hrejected, hjudged⟩ := xEnd_verdict hplan hm hl
    have hbranch : ∀ b ∈ planBranches s plan, ¬ BranchFits s plan.seg l (s.lane.at l) b → ((xEnd s).lane.at l).verdict = .rejected :=
      fun b hb hno => hrejected fun h => hno (h.2 b hb)
    refine ⟨fun hcov => hrejected fun h => ?_, fun b hb hno => hbranch b hb fun ⟨m, hmsg, _⟩ => hno m hmsg,
      fun b hb m hmsg hbad => hbranch b hb fun ⟨n, hn, hfits⟩ => ?_, fun hcov hfits => hjudged ⟨hcov, hfits⟩⟩
    · exact nomatch hcov.symm.trans h.1
    · obtain rfl : m = n := List.singleton_inj.1 (hmsg.symm.trans hn)
      simp only [msgFits, Bool.and_eq_true, beq_iff_eq] at hfits
      obtain ⟨⟨⟨⟨hframe, hseg⟩, horigin⟩, hcount⟩, hcrc⟩ := hfits
      rcases hbad with h | h | h | h | h
      · exact h hframe
      · exact h hseg
      · exact h horigin
      · exact h hcount
      · exact h hcrc
  · obtain rfl : k.connId = conn := by simpa using List.find?_some hk
    have hrun := runs_connTimeout hc hk
    refine ⟨fun hdue => ?_, fun hto hover hnone ht hp => ?_⟩
    · rw [hdue, Bool.and_false] at hrun
      exact hrun
    · have hdue : timeoutDue s cfg k = true := by simp [timeoutDue, hto, hover, hnone]
      rw [ht, hp, hdue] at hrun
      have hkept := kept_timeOut cfg k s
      refine ⟨timeOut cfg k s, hrun, sameStore_of_kept hkept, sameClock_of_kept hkept, congrArg Kept.crust hkept, timeOut_epoch cfg k s,
        fun l => ?_, fun p f hf => ?_, fun l i hi => ?_⟩
      · rw [timeOut_lane, laneTimedOut_conn]
        exact ⟨rfl, rfl⟩
      · rw [timeOut_port] at hf
        rintro ⟨hcls, hid⟩
        have hkeep := own_cancelWhere _ _ f hf
        rw [hid, isSafeFrame, hcls] at hkeep
        simp at hkeep
      · rw [timeOut_lane]
        exact laneTimedOut_import cfg k _ hi

end Sys2Proof.Machine
end

section
/-! SUPPORT. Phase C (R37, R63, R92, R98, R217, R527): what of the frame each of its stages reads and leaves alone, what a lane stages, and
what arrives at its crust. -/

namespace Sys2Proof.Machine

open Sys2Proof.Claims

theorem tabGet_tabEach {α : Type} [DecidableEq α] (d : α) (t : Tab α) (n : Nat) (f : Nat → α → α) (m : Nat) :
    tabGet d (tabEach d t n f) m = if m < n then f m (tabGet d t m) else tabGet d t m := by
  induction n with
  | zero => rfl
  | succ n ih =>
    show tabGet d (tabMod d (tabEach d t n f) n (f n)) m = _
    rw [tabGet_mod]
    by_cases h : m = n
    · subst h
      rw [if_pos rfl, if_pos (Nat.lt_succ_self m), ih, if_neg (Nat.lt_irrefl m)]
    · rw [if_neg h, ih]
      simp only [show m < n + 1 ↔ m < n by omega]

/-! ## The evaluation of the request and of the forces -/

/-- Only the request, its answers and the mode that is due have changed. -/
def Answered (s t : State) : Prop :=
  t = { s with
    core := { s.core with modeNext := t.core.modeNext }, host := t.host
    mbx := { s.mbx with queue := t.mbx.queue, owed := t.mbx.owed } }

theorem Answered.refl (s : State) : Answered s s := rfl

theorem Answered.trans {s t u : State} (h : Answered s t) (k : Answered t u) : Answered s u := by
  unfold Answered at *
  rw [k, h]

theorem Answered.ite {s a b : State} (c : Prop) [Decidable c] (ha : Answered s a) (hb : Answered s b) :
    Answered s (if c then a else b) := pred_ite (P := Answered s) c ha hb

theorem Answered.foldl {α : Type} {f : State → α → State} (h : ∀ s x, Answered s (f s x)) (l : List α) (s : State) :
    Answered s (l.foldl f s) := by
  induction l generalizing s with
  | nil => exact .refl s
  | cons x r ih => exact (h s x).trans (ih _)

theorem Answered.lane {s t : State} (h : Answered s t) : t.lane = s.lane := by rw [h]

theorem Answered.stat {s t : State} (h : Answered s t) : t.stat = s.stat := by rw [h]

theorem answered_keepRequest (s : State) : Answered s (keepRequest s) := rfl

theorem answered_answerMode (target : Option Mode) (s : State) (e : QEntry) : Answered s (answerMode target s e) :=
  .ite _ (.refl s) (.ite _ rfl (.ite _ rfl rfl))

theorem answered_endRequest (s : State) (target : Option Mode) : Answered s (endRequest s target) := by
  have h : Answered s (s.mbx.queue.foldl (answerMode target) s) := .foldl (answered_answerMode target) _ _
  unfold endRequest
  dsimp only
  cases target
  · exact h.trans rfl
  · exact h.trans rfl

theorem answered_evaluateMode (deaf : Bool) (s : State) : Answered s (evaluateMode deaf s) := by
  have hlost : Answered s (keepRequest { s with core := { s.core with modeNext := some (.boot, .fault) } }) := rfl
  unfold evaluateMode
  dsimp only
  refine .ite _ (answered_keepRequest s) (.ite _ hlost ?_)
  split
  · exact answered_endRequest _ _
  · exact .refl s

theorem answered_decideForce (s : State) (e : QEntry) : Answered s (decideForce s e) := .ite _ (.refl s) (.ite _ rfl rfl)

theorem answered_decideForces (s : State) : Answered s (decideForces s) := .foldl answered_decideForce _ _

/-- What a lane stages is decided from the module and from nothing of the request but the mode that is due. -/
theorem laneOut_answered {s t : State} (h : Answered s t) (hm : t.core.modeNext = s.core.modeNext) (laneFault : Bool) (x : LaneSt) :
    laneOut t laneFault x = laneOut s laneFault x := by
  unfold Answered at h
  rw [hm] at h
  rw [h]
  rfl

theorem compareOuts_lane {s t : State} (h : t.lane = s.lane) (env : PhaseCEnv) (x y : LaneOut) :
    compareOuts env t x y = compareOuts env s x y := by
  unfold compareOuts
  rw [h]

/-! ## The parts of comparison and staging -/

section
variable (env : PhaseCEnv) (before : State) (laneFault late : Bool) (s : State)

/-- What the comparison of the lanes says of this frame. -/
def frameVerdict : Verdict2 :=
  if late || !bothInService s then .agree else compareOuts env s (laneOut s laneFault s.lane.a) (laneOut s laneFault s.lane.b)

/-- A lane fault is found in this frame. -/
def frameFault : Bool := decide (frameVerdict env laneFault late s ≠ .agree) || linkLost env s

/-- What is found between the lanes is noted. -/
def judged : State :=
  let s1 := if frameVerdict env laneFault late s = .agree then s else disagreement env s
  if frameFault env laneFault late s then disturb s1 else s1

def everythingOff : Bool := decide (frameVerdict env laneFault late s = .all) || (frameFault env laneFault late s && s.core.mode == .boot)

/-- What the frame says to the staging of a lane. -/
def orderOf (l : Side) : StageOrder where
  mode := stageMode (judged env laneFault late s)
  safe := s.test.learned
  late := late
  pairsOff := late || everythingOff env laneFault late s || (frameFault env laneFault late s && s.core.mode == .maintain) ||
    !bothInService s || s.test.learned
  pairOff := match frameVerdict env laneFault late s with
    | .onePair p => some p
    | _ => none
  lateSelf := isLate env before l
  railToo := everythingOff env laneFault late s || !bothInService s || s.test.learned
  contribOff := everythingOff env laneFault late s || s.test.learned
  noSafe := decide (frameVerdict env laneFault late s = .all)

/-- A lane in service stages its output set. -/
def stagedLane (l : Side) : LaneSt :=
  let x := (judged env laneFault late s).lane.at l
  if x.retired then x else stageLane (orderOf env before laneFault late s l) (laneOut s laneFault (s.lane.at l)) l x

def lanesStaged : State :=
  { judged env laneFault late s with
    lane := ⟨stagedLane env before laneFault late s .a, stagedLane env before laneFault late s .b⟩ }

theorem compareAndStage_eq : compareAndStage env before laneFault late s =
    stageCrust env (stageCrust env (lanesStaged env before laneFault late s) .a) .b := rfl

theorem lanesStaged_at (l : Side) : (lanesStaged env before laneFault late s).lane.at l = stagedLane env before laneFault late s l := by
  cases l <;> rfl

end

/-! ## What is noted of a frame -/

/-- A lane without its anomaly reports. -/
def butReps (x : LaneSt) : LaneSt := { x with reps := [] }

/-- Reports and the disturbance of the proving period have changed, and nothing else. -/
structure Marked (s t : State) : Prop where
  rest : t = { s with
    core := { s.core with disturbed := t.core.disturbed, modeNext := t.core.modeNext }, lane := t.lane }
  lane : ∀ l, butReps (t.lane.at l) = butReps (s.lane.at l)

theorem Marked.refl (s : State) : Marked s s := ⟨rfl, fun _ => rfl⟩

theorem Marked.trans {s t u : State} (h : Marked s t) (k : Marked t u) : Marked s u where
  rest := by
    have hk := k.rest
    rw [h.rest] at hk
    exact hk
  lane l := (k.lane l).trans (h.lane l)

theorem Marked.ite {s a b : State} (c : Prop) [Decidable c] (ha : Marked s a) (hb : Marked s b) : Marked s (if c then a else b) :=
  pred_ite (P := Marked s) c ha hb

theorem Marked.crust {s t : State} (h : Marked s t) : t.crust = s.crust := by rw [h.rest]

theorem Marked.stat {s t : State} (h : Marked s t) : t.stat = s.stat := by rw [h.rest]

theorem Marked.retired {s t : State} (h : Marked s t) (l : Side) : (t.lane.at l).retired = (s.lane.at l).retired := by
  have hl := congrArg LaneSt.retired (h.lane l)
  exact hl

theorem marked_disturb (s : State) : Marked s (disturb s) := ⟨rfl, fun _ => rfl⟩

theorem marked_laneReport (s : State) (r : Rep) : Marked s (laneReport s r) :=
  ⟨rfl, fun l => by cases l <;> rfl⟩

theorem marked_disagreement (env : PhaseCEnv) (s : State) : Marked s (disagreement env s) :=
  .ite _ ((marked_disturb s).trans ((marked_laneReport _ _).trans (marked_laneReport _ _))) (marked_disturb s)

theorem marked_judged (env : PhaseCEnv) (laneFault late : Bool) (s : State) : Marked s (judged env laneFault late s) := by
  have h := Marked.ite (frameVerdict env laneFault late s = .agree) (.refl s) (marked_disagreement env s)
  exact .ite _ (h.trans (marked_disturb _)) h

/-! ## The crusts -/

def withStaged (set : Option (Tab Bool)) (y : CrustSt) : CrustSt := { y with staged := set }

/-- What a crust holds staged after phase C (R41, R488): nothing of a retired lane, the set that arrives, or what it held. -/
theorem stageCrust_cases (env : PhaseCEnv) (s : State) (c : Side) :
    ((s.lane.at c).retired = true ∧ stageCrust env s c = modCrust s c (withStaged none)) ∨
    ((s.lane.at c).retired = false ∧ frameLost env s c = false ∧
      ∃ set, stageCrust env s c = modCrust s c (withStaged (some set))) ∨
    ((s.lane.at c).retired = false ∧ frameLost env s c = true ∧ Marked s (stageCrust env s c)) := by
  cases hr : (s.lane.at c).retired with
  | true => exact .inl ⟨rfl, if_pos hr⟩
  | false =>
    have hlive : stageCrust env s c = _ := if_neg (by simp [hr])
    rw [hlive]
    cases hf : frameLost env s c with
    | false => exact .inr (.inl ⟨rfl, rfl, _, if_pos rfl⟩)
    | true => exact .inr (.inr ⟨rfl, rfl, marked_laneReport _ _⟩)

/-- A crust changes by what is staged at it. -/
structure CrustStaged (gone lost : Bool) (old new : CrustSt) : Prop where
  rest : new = { old with staged := new.staged }
  retired : gone = true → new.staged = none
  arrived : gone = false → lost = false → new.staged.isSome = true
  lost : gone = false → lost = true → new.staged = old.staged

theorem stageCrust_own (env : PhaseCEnv) (s : State) (c : Side) :
    CrustStaged (s.lane.at c).retired (frameLost env s c) (s.crust.at c) ((stageCrust env s c).crust.at c) := by
  have hmod : ∀ f : CrustSt → CrustSt, (modCrust s c f).crust.at c = f (s.crust.at c) := fun f => by cases c <;> rfl
  rcases stageCrust_cases env s c with ⟨hr, h⟩ | ⟨hr, hf, set, h⟩ | ⟨hr, hf, h⟩
  · rw [h, hmod, hr]
    exact ⟨rfl, fun _ => rfl, nofun, nofun⟩
  · rw [h, hmod, hr, hf]
    exact ⟨rfl, nofun, fun _ _ => rfl, nofun⟩
  · rw [h.crust, hr, hf]
    exact ⟨rfl, nofun, nofun, fun _ _ => rfl⟩

theorem stageCrust_other (env : PhaseCEnv) (s : State) {c k : Side} (hk : k ≠ c) :
    (stageCrust env s c).crust.at k = s.crust.at k := by
  have hmod : ∀ f : CrustSt → CrustSt, (modCrust s c f).crust.at k = s.crust.at k := fun f => by
    cases c <;> cases k
    · exact absurd rfl hk
    · rfl
    · rfl
    · exact absurd rfl hk
  rcases stageCrust_cases env s c with ⟨-, h⟩ | ⟨-, -, set, h⟩ | ⟨-, -, h⟩
  · rw [h, hmod]
  · rw [h, hmod]
  · rw [h.crust]

theorem stageCrust_lane (env : PhaseCEnv) (s : State) (c l : Side) :
    butReps ((stageCrust env s c).lane.at l) = butReps (s.lane.at l) := by
  rcases stageCrust_cases env s c with ⟨-, h⟩ | ⟨-, -, set, h⟩ | ⟨-, -, h⟩
  · rw [h]
    rfl
  · rw [h]
    rfl
  · exact h.lane l

theorem stageCrust_stat (env : PhaseCEnv) (s : State) (c : Side) : (stageCrust env s c).stat = s.stat := by
  rcases stageCrust_cases env s c with ⟨-, h⟩ | ⟨-, -, set, h⟩ | ⟨-, -, h⟩
  · rw [h]
    rfl
  · rw [h]
    rfl
  · exact h.stat

/-! ## What a lane stages -/

/-- The record of one pair after the staging. -/
def pairRecorded (o : StageOrder) (out : LaneOut) (p : Nat) (r : PairRec) : PairRec :=
  match out.ds.find? fun d => d.view.pair == p with
  | some d => recordPair (recordOn o d) (finalOn o d && o.late) o.late d.deferred (some d) r
  | none => recordPair false false o.late false none r

/-- The pair's record stands as decided, where a block drives the pair. -/
theorem stageLane_pair (o : StageOrder) (out : LaneOut) (c : Side) (x : LaneSt) {p : Nat} (hp : p < 17) :
    (pairRecOf (stageLane o out c x) p).staged = ((out.ds.find? fun d => d.view.pair == p).map (recordOn o)).getD false := by
  have hpair : pairRecOf (stageLane o out c x) p = pairRecorded o out p (pairRecOf x p) :=
    (tabGet_tabEach PairRec.init x.pairs 17 (pairRecorded o out) p).trans (if_pos hp)
  rw [hpair]
  unfold pairRecorded
  cases out.ds.find? fun d => d.view.pair == p <;> rfl

/-- In a late frame, or with the pairs ordered off, no pair is staged on. -/
theorem recordOn_off {o : StageOrder} {d : Decision} (h : o.late = true ∨ d.on = false ∨ (o.pairsOff = true ∧ o.railToo = true)) :
    recordOn o d = false := by
  rcases h with h | h | ⟨h, k⟩ <;> simp [recordOn, finalOn, *]

theorem staged_of_recordOn_off {o : StageOrder} {out : LaneOut} (h : ∀ d ∈ out.ds, recordOn o d = false) (c : Side) (x : LaneSt)
    {p : Nat} (hp : p < 17) : (pairRecOf (stageLane o out c x) p).staged = false := by
  rw [stageLane_pair o out c x hp]
  cases hd : out.ds.find? fun d => d.view.pair == p with
  | none => rfl
  | some d => exact h d (List.mem_of_find?_eq_some hd)

/-- Where nothing is ordered off but one pair at most, every other pair is staged as decided. -/
theorem staged_as_decided {o : StageOrder} (hlate : o.late = false) (hself : o.lateSelf = false) (hoff : o.pairsOff = false)
    (out : LaneOut) (c : Side) (x : LaneSt) {p : Nat} (hp : p < 17) : (pairRecOf (stageLane o out c x) p).staged =
      (o.pairOff != some p && ((out.ds.find? fun d => d.view.pair == p).map fun d => d.on).getD false) := by
  rw [stageLane_pair o out c x hp]
  cases hd : out.ds.find? fun d => d.view.pair == p with
  | none => simp
  | some d =>
    have hpair : d.view.pair = p := by simpa using List.find?_some hd
    simp [recordOn, finalOn, hlate, hself, hoff, hpair, Bool.and_comm]

/-- A pair is decided on in OPERATE and MAINTAIN alone (R63). -/
theorem decisions_off {c : StageCtx} (ho : c.mode ≠ .operate) (hm : c.mode ≠ .maintain) (cfg : LoafCfg) (l : LaneSt) :
    ∀ d ∈ decisions c cfg l, d.on = false := by
  have hperm : ∀ r pair, modePermits c r pair = false := fun r pair => by
    unfold modePermits
    split
    · next h => exact absurd h ho
    · next h => exact absurd h hm
    · exact Bool.and_false _
  have hpair : ∀ v, (decidePair c cfg.params l v).1 = false := fun v => by
    unfold decidePair wanted
    simp [hperm]
  intro d hd
  unfold decisions at hd
  simp only [List.mem_map] at hd
  obtain ⟨e, ⟨v, -, rfl⟩, rfl⟩ := hd
  simp [hpair]

/-! ## Comparison and staging -/

theorem frameLost_congr {env : PhaseCEnv} {s t : State} {c : Side} (hr : (t.lane.at c).retired = (s.lane.at c).retired)
    (hs : (t.lane.at c).stopped = (s.lane.at c).stopped) (hc : t.crust.at c = s.crust.at c) :
    frameLost env t c = frameLost env s c := by
  unfold frameLost laneLive
  rw [hr, hs, hc]

section
variable (env : PhaseCEnv) (before : State) (laneFault late : Bool) (s : State)

theorem judged_lane (l : Side) : ((judged env laneFault late s).lane.at l).retired = (s.lane.at l).retired ∧
    ((judged env laneFault late s).lane.at l).stopped = (s.lane.at l).stopped := by
  have h := (marked_judged env laneFault late s).lane l
  have hr := congrArg LaneSt.retired h
  have hs := congrArg LaneSt.stopped h
  exact ⟨hr, hs⟩

theorem stagedLane_live {l : Side} (h : (s.lane.at l).retired = false) : stagedLane env before laneFault late s l =
    stageLane (orderOf env before laneFault late s l) (laneOut s laneFault (s.lane.at l)) l ((judged env laneFault late s).lane.at l) :=
  if_neg (by rw [(judged_lane env laneFault late s l).1, h]; decide)

theorem stagedLane_base (l : Side) : (stagedLane env before laneFault late s l).retired = (s.lane.at l).retired ∧
    (stagedLane env before laneFault late s l).stopped = (s.lane.at l).stopped := by
  unfold stagedLane
  dsimp only
  split
  · exact judged_lane env laneFault late s l
  · exact judged_lane env laneFault late s l

theorem compareAndStage_lane (l : Side) : butReps ((compareAndStage env before laneFault late s).lane.at l) =
    butReps (stagedLane env before laneFault late s l) := by
  rw [compareAndStage_eq, stageCrust_lane, stageCrust_lane, lanesStaged_at]

theorem compareAndStage_stat : (compareAndStage env before laneFault late s).stat = s.stat := by
  rw [compareAndStage_eq, stageCrust_stat, stageCrust_stat]
  exact (marked_judged env laneFault late s).stat

theorem compareAndStage_crust (c : Side) : CrustStaged (s.lane.at c).retired (frameLost env s c) (s.crust.at c)
    ((compareAndStage env before laneFault late s).crust.at c) := by
  have hcrust : (lanesStaged env before laneFault late s).crust = s.crust := (marked_judged env laneFault late s).crust
  obtain ⟨hr, hs⟩ := stagedLane_base env before laneFault late s c
  rw [← lanesStaged_at] at hr hs
  rw [compareAndStage_eq]
  generalize lanesStaged env before laneFault late s = u at hcrust hr hs
  rw [← hr, ← frameLost_congr hr hs (by rw [hcrust]), ← hcrust]
  cases c with
  | a =>
    rw [stageCrust_other env _ (by decide)]
    exact stageCrust_own env u .a
  | b =>
    have hlane := stageCrust_lane env u .a .b
    have hr' := congrArg LaneSt.retired hlane
    have hs' := congrArg LaneSt.stopped hlane
    have hown := stageCrust_own env (stageCrust env u .a) .b
    rw [frameLost_congr (s := u) hr' hs' (stageCrust_other env u (by decide)), stageCrust_other env u (by decide)] at hown
    exact (show ((stageCrust env u .a).lane.at .b).retired = (u.lane.at .b).retired from hr') ▸ hown

/-- Nothing but the mode that is due and the crusts has changed of what is kept. -/
theorem compareAndStage_kept : ∃ crust n, kept (compareAndStage env before laneFault late s) = { kept s with crust := crust, modeNext := n } := by
  have hcrust : ∀ (u : State) (c : Side), ∃ crust n, kept (stageCrust env u c) = { kept u with crust := crust, modeNext := n } :=
    fun u c => by
      rcases stageCrust_cases env u c with ⟨-, h⟩ | ⟨-, -, set, h⟩ | ⟨-, -, h⟩
      · exact ⟨_, u.core.modeNext, by rw [h]; rfl⟩
      · exact ⟨_, u.core.modeNext, by rw [h]; rfl⟩
      · exact ⟨u.crust, _, by rw [h.rest]; rfl⟩
  have hjudged : kept (lanesStaged env before laneFault late s) =
      { kept s with modeNext := (judged env laneFault late s).core.modeNext } := by
    show kept (judged env laneFault late s) = _
    conv_lhs => rw [(marked_judged env laneFault late s).rest]
    rfl
  rw [compareAndStage_eq]
  obtain ⟨ca, na, ha⟩ := hcrust (lanesStaged env before laneFault late s) .a
  obtain ⟨cb, nb, hb⟩ := hcrust (stageCrust env (lanesStaged env before laneFault late s) .a) .b
  exact ⟨cb, nb, by rw [hb, ha, hjudged]⟩

end

/-! ## The vector -/

theorem takeVector_lane (s : State) : (takeVector s).lane = s.lane := by
  have hpull : ∀ (u : State) (cfg : LoafCfg) (ps : List Nat), (countPullIns u cfg ps).lane = u.lane := fun u cfg ps => by
    unfold countPullIns
    split <;> rfl
  unfold takeVector
  split
  · split
    · exact hpull _ _ _
    · rfl
  · rfl

theorem takeVector_stat (s : State) : (takeVector s).stat = s.stat := by
  have hpull : ∀ (u : State) (cfg : LoafCfg) (ps : List Nat), (countPullIns u cfg ps).stat = u.stat := fun u cfg ps => by
    unfold countPullIns
    split <;> rfl
  unfold takeVector
  split
  · split
    · exact hpull _ _ _
    · rfl
  · rfl

theorem beginHold_lane (s : State) : (beginHold s).lane = s.lane := by
  unfold beginHold
  split <;> rfl

theorem beginHold_stat (s : State) : (beginHold s).stat = s.stat := by
  unfold beginHold
  split <;> rfl

/-! ## The frame before the evaluation -/

/-- The clocks of the lanes stand as they stood. -/
def SameStops (s t : State) : Prop := ∀ l, (t.lane.at l).stopped = (s.lane.at l).stopped

theorem SameStops.of_lane {s t : State} (h : t.lane = s.lane) : SameStops s t := fun l => by rw [h]

theorem SameStops.trans {s t u : State} (h : SameStops s t) (k : SameStops t u) : SameStops s u := fun l => (k l).trans (h l)

theorem SameStops.foldl {α : Type} {f : State → α → State} (h : ∀ s x, SameStops s (f s x)) (l : List α) (s : State) :
    SameStops s (l.foldl f s) := by
  induction l generalizing s with
  | nil => exact .of_lane rfl
  | cons x r ih => exact (h s x).trans (ih _)

theorem sameStops_modLanes (s : State) {f : LaneSt → LaneSt} (hf : ∀ x, (f x).stopped = x.stopped) : SameStops s (modLanes s f) :=
  fun l => by rw [modLanes_lane, Two.at_map, hf]

theorem sameStops_modLane (s : State) (l : Side) {f : LaneSt → LaneSt} (hf : ∀ x, (f x).stopped = x.stopped) :
    SameStops s (modLane s l f) := fun k => by
  rw [modLane_lane, Two.at_set]
  split
  · next h =>
    rw [h]
    exact hf _
  · rfl

theorem Reported.lane {s t : State} (h : Reported s t) : t.lane = s.lane := by rw [h]

theorem sameStops_retireLane (s : State) (l : Side) (code : Byte) : SameStops s (retireLane s l code) := by
  unfold retireLane
  split
  · exact .of_lane rfl
  · dsimp only
    refine (sameStops_modLane s l (f := fun x =>
      { x with retired := true, powerCycled := false, reps := [], accepted := [], proofs := [], saved := none, contrib := host0 })
      fun _ => rfl).trans ?_
    have hr : ∀ (u : State) (v : List Byte),
        Reported u (measEvent (setIrq0 (crumb u crRetire (chanLane l) code [0x02#8]) irqFault) 0x05 v []) := fun u v =>
      ((reported_crumb _ _ _ _ _).trans (reported_setIrq0 _ _)).trans (noted_measEvent _ _ _ _).reported
    split
    · exact .of_lane ((fatalFault_lane _ _).trans (hr _ _).lane)
    · exact .of_lane (hr _ _).lane

theorem sameStops_applyOutcomes (s : State) : SameStops s (applyOutcomes s) := by
  have hone : ∀ (u : State) (e : TallyEv), SameStops u (applyOutcome u e) := fun u e => by
    unfold applyOutcome
    split
    · exact .of_lane rfl
    · split
      · exact sameStops_retireLane _ _ _
      · exact .of_lane rfl
  have h : ∀ (es : List TallyEv) (lanesOut : List Side), SameStops s (es.foldl applyOutcome (es.foldl (journalOutcome lanesOut)
      { s with core := { s.core with outcomes := [] } })) := fun es lanesOut =>
    SameStops.trans (.of_lane (t := { s with core := { s.core with outcomes := [] } }) rfl)
      ((SameStops.foldl (fun u e => .of_lane (reported_journalOutcome lanesOut u e).lane) _ _).trans (.foldl hone _ _))
  unfold applyOutcomes
  dsimp only
  split
  · exact h _ _
  · exact h _ _

theorem sameStops_lateFrame (env : PhaseCEnv) (s : State) : SameStops s (lateFrame env s) := by
  have hrep : ∀ (u : State) (l : Side), SameStops u (lateRep env u l) := fun u l => by
    unfold lateRep
    split
    · exact sameStops_modLanes _ fun _ => rfl
    · exact .of_lane rfl
  have hback : ∀ x, (takeBack x).stopped = x.stopped := fun x => by
    unfold takeBack
    split <;> rfl
  have hecc : ∀ n x, (countEccRep n x).1.stopped = x.stopped := fun n x => by
    unfold countEccRep
    dsimp only
    split <;> rfl
  have hcount : ∀ u : State, SameStops u (countEccLate u) := fun u =>
    sameStops_modLanes u (f := fun x => (countEccLane x).1) fun x => (hecc _ _).trans (hecc _ _)
  exact (sameStops_modLanes s hback).trans ((hrep _ .a).trans ((hrep _ .b).trans ((hcount _).trans (sameStops_applyOutcomes _))))

theorem sameStops_beforeEvaluation (env : PhaseCEnv) (s : State) : SameStops s (beforeEvaluation env s) := by
  have h := pred_ite (P := SameStops s) (anyLate env s) (sameStops_lateFrame env s) (sameStops_applyOutcomes s)
  exact pred_ite (P := SameStops s) _ (h.trans (.of_lane (fatalFault_lane _ _))) h

theorem kept_beforeEvaluation (env : PhaseCEnv) (s : State) :
    kept (beforeEvaluation env s) = kept s ∨ kept (beforeEvaluation env s) = { kept s with modeNext := none } := by
  have h : kept (if anyLate env s then lateFrame env s else applyOutcomes s) = kept s ∨
      kept (if anyLate env s then lateFrame env s else applyOutcomes s) = { kept s with modeNext := none } :=
    pred_ite (P := fun t => kept t = kept s ∨ kept t = { kept s with modeNext := none }) _ (kept_lateFrame env s)
      (.inl (kept_applyOutcomes s))
  exact pred_ite (P := fun t => kept t = kept s ∨ kept t = { kept s with modeNext := none }) _
    (by rw [kept_fatalFault]; exact h) h

theorem fatalFault_live (s : State) (code : Byte) : (fatalFault s code).stat.live = s.stat.live := by
  unfold fatalFault
  split
  · rfl
  · exact pushCrumb_live _ _

/-- The lateness of the lanes is counted before the request is decided (R98). -/
theorem beforeEvaluation_late {env : PhaseCEnv} {s : State} (h : anyLate env s = true) :
    (beforeEvaluation env s).stat.live.lateA = isLate env s .a ∧ (beforeEvaluation env s).stat.live.lateB = isLate env s .b := by
  have hlive : (beforeEvaluation env s).stat.live = (lateFrame env s).stat.live := by
    unfold beforeEvaluation
    rw [if_pos h]
    dsimp only
    split
    · exact fatalFault_live _ _
    · rfl
  rw [hlive]
  exact ⟨rfl, rfl⟩

/-! ## A frame with an evaluation behind it -/

/-- The frame with its request and forces decided. -/
def evaluated (env : PhaseCEnv) (s : State) : State := decideForces (evaluateMode (anyLate env s) (beforeEvaluation env s))

/-- The tally has reached an outcome on a lane. -/
def laneOutcome (s : State) : Bool := s.core.outcomes.any fun e => (isLaneChan e.chan).isSome

/-- A lane of the frame as it has staged. -/
def liveLane (env : PhaseCEnv) (s : State) (l : Side) : LaneSt :=
  stagedLane env s (laneOutcome s) (anyLate env s) (evaluated env s) l

theorem liveFrame_eq (env : PhaseCEnv) (s : State) : liveFrame env s =
    postVector env s (beginHold (compareAndStage env s (laneOutcome s) (anyLate env s) (evaluated env s))) := rfl

theorem answered_evaluated (env : PhaseCEnv) (s : State) : Answered (beforeEvaluation env s) (evaluated env s) :=
  (answered_evaluateMode _ _).trans (answered_decideForces _)

theorem evaluated_kept (env : PhaseCEnv) (s : State) : ∃ n, kept (evaluated env s) = { kept s with modeNext := n } := by
  have hbefore : ∃ n, kept (beforeEvaluation env s) = { kept s with modeNext := n } := by
    rcases kept_beforeEvaluation env s with h | h
    · exact ⟨_, h⟩
    · exact ⟨_, h⟩
  obtain ⟨n, hn⟩ := hbefore
  unfold evaluated
  rw [kept_decideForces]
  rcases kept_evaluateMode (anyLate env s) (beforeEvaluation env s) with h | ⟨-, h⟩ | ⟨v, m, -, h⟩
  · exact ⟨n, h.trans hn⟩
  · exact ⟨_, by rw [h, hn]⟩
  · exact ⟨_, by rw [h, hn]⟩

theorem liveFrame_kept (env : PhaseCEnv) (s : State) : ∃ crust n, kept (liveFrame env s) = { kept s with crust := crust, modeNext := n } := by
  obtain ⟨n, hn⟩ := evaluated_kept env s
  obtain ⟨crust, m, h⟩ := compareAndStage_kept env s (laneOutcome s) (anyLate env s) (evaluated env s)
  exact ⟨crust, m, by rw [liveFrame_eq, kept_postVector, kept_beginHold, h, hn]⟩

theorem liveFrame_lane (env : PhaseCEnv) (s : State) (l : Side) :
    butReps ((liveFrame env s).lane.at l) = butReps (liveLane env s l) := by
  have hlane : (liveFrame env s).lane = (compareAndStage env s (laneOutcome s) (anyLate env s) (evaluated env s)).lane := by
    rw [liveFrame_eq]
    exact (takeVector_lane _).trans (beginHold_lane _)
  rw [hlane]
  exact compareAndStage_lane _ _ _ _ _ _

theorem liveFrame_retired (env : PhaseCEnv) (s : State) (l : Side) :
    ((liveFrame env s).lane.at l).retired = ((evaluated env s).lane.at l).retired := by
  have h := congrArg LaneSt.retired (liveFrame_lane env s l)
  exact Eq.trans h (stagedLane_base _ _ _ _ _ _).1

theorem liveFrame_pair (env : PhaseCEnv) (s : State) (l : Side) (p : Nat) :
    pairRecOf ((liveFrame env s).lane.at l) p = pairRecOf (liveLane env s l) p := by
  have h := congrArg LaneSt.pairs (liveFrame_lane env s l)
  exact congrArg (fun t : Tab PairRec => tabGet PairRec.init t p) h

theorem liveFrame_sends (env : PhaseCEnv) (s : State) (l : Side) :
    ((liveFrame env s).lane.at l).contrib = (liveLane env s l).contrib ∧ ((liveFrame env s).lane.at l).noSafe = (liveLane env s l).noSafe := by
  have hc := congrArg LaneSt.contrib (liveFrame_lane env s l)
  have hn := congrArg LaneSt.noSafe (liveFrame_lane env s l)
  exact ⟨hc, hn⟩

theorem liveFrame_crust (env : PhaseCEnv) (s : State) (c : Side) : CrustStaged ((liveFrame env s).lane.at c).retired
    (frameLost env s c) (s.crust.at c) ((liveFrame env s).crust.at c) := by
  obtain ⟨n, hn⟩ := evaluated_kept env s
  have hcrust : (evaluated env s).crust = s.crust := congrArg Kept.crust hn
  have hframe : (liveFrame env s).crust = (compareAndStage env s (laneOutcome s) (anyLate env s) (evaluated env s)).crust := by
    rw [liveFrame_eq]
    exact (congrArg Kept.crust (kept_postVector _ _ _)).trans (congrArg Kept.crust (kept_beginHold _))
  have hstaged := compareAndStage_crust env s (laneOutcome s) (anyLate env s) (evaluated env s) c
  rw [liveFrame_retired, hframe, ← hcrust]
  cases hr : ((evaluated env s).lane.at c).retired with
  | true =>
    rw [hr] at hstaged
    exact ⟨hstaged.rest, hstaged.retired, nofun, nofun⟩
  | false =>
    have hlane : ((evaluated env s).lane.at c) = (beforeEvaluation env s).lane.at c := by rw [(answered_evaluated env s).lane]
    have hstop : ((evaluated env s).lane.at c).stopped = (s.lane.at c).stopped := by
      rw [hlane]
      exact sameStops_beforeEvaluation env s c
    have hold : (s.lane.at c).retired = false := by
      by_contra h
      have hout := (beforeEvaluation_report env s).2.retired c (by simpa using h)
      rw [← hlane, hr] at hout
      exact nomatch hout
    rw [frameLost_congr (hr.trans hold.symm) hstop (by rw [hcrust]), hr] at hstaged
    exact hstaged

theorem liveFrame_stat (env : PhaseCEnv) (s : State) : (liveFrame env s).stat = (beforeEvaluation env s).stat := by
  rw [liveFrame_eq]
  exact (takeVector_stat _).trans ((beginHold_stat _).trans ((compareAndStage_stat _ _ _ _ _).trans (answered_evaluated env s).stat))

/-- In a lane in service what is staged is what the frame's order makes of its own decisions. -/
theorem liveLane_live {env : PhaseCEnv} {s : State} {l : Side} (h : laneLive (liveFrame env s) l = true) :
    liveLane env s l = stageLane (orderOf env s (laneOutcome s) (anyLate env s) (evaluated env s) l)
      (laneOut (evaluated env s) (laneOutcome s) ((evaluated env s).lane.at l)) l
      ((judged env (laneOutcome s) (anyLate env s) (evaluated env s)).lane.at l) := by
  refine stagedLane_live _ _ _ _ _ ?_
  rw [← liveFrame_retired]
  simpa [laneLive] using h

/-! ## A late frame -/

theorem liveFrame_late_pairs {env : PhaseCEnv} {s : State} (h : anyLate env s = true) {l : Side}
    (hl : laneLive (liveFrame env s) l = true) {p : Nat} (hp : p < 17) : (pairRecOf ((liveFrame env s).lane.at l) p).staged = false := by
  rw [liveFrame_pair, liveLane_live hl]
  exact staged_of_recordOn_off (fun d _ => recordOn_off (.inl h)) _ _ hp

theorem liveFrame_late_sends {env : PhaseCEnv} {s : State} {l : Side} (hl : laneLive (liveFrame env s) l = true)
    (h : isLate env s l = true) : ((liveFrame env s).lane.at l).noSafe = true ∧ ((liveFrame env s).lane.at l).contrib = 0x08#8 := by
  obtain ⟨hc, hn⟩ := liveFrame_sends env s l
  rw [hc, hn, liveLane_live hl]
  constructor
  · show (_ || isLate env s l) = true
    rw [h, Bool.or_true]
  · show (if (_ || isLate env s l) = true then host0 else _) = _
    rw [h, Bool.or_true]
    rfl

/-! ## A mode without outputs -/

theorem requestTarget_ne_maintain {s : State} (hm : s.core.mode ≠ .operate) (v : Byte) : requestTarget s v ≠ some .maintain := by
  have pick : ∀ (c : Prop) [Decidable c] (m : Mode), m ≠ .maintain → (if c then some m else none) ≠ some Mode.maintain :=
    fun c _ m hm => by split <;> simp [hm]
  have hite : ∀ (c : Prop) [Decidable c] (a b : Option Mode), a ≠ some .maintain → b ≠ some .maintain →
      (if c then a else b) ≠ some .maintain := fun c _ a b ha hb => by split <;> assumption
  refine hite _ _ _ (pick _ _ (by decide)) (hite _ _ _ (pick _ _ (by decide)) (hite _ _ _ (pick _ _ (by decide)) (hite _ _ _ ?_ nofun)))
  rw [if_neg fun h => hm h.1]
  nofun

/-- Neither OPERATE nor MAINTAIN. -/
def NoOutputs (m : Mode) : Prop := m ≠ .operate ∧ m ≠ .maintain

/-- Neither OPERATE nor MAINTAIN is due. -/
def NoOutputsDue (n : Option (Mode × ModeWhy)) : Prop := ∀ m w, n = some (m, w) → NoOutputs m

theorem noOutputsDue_evaluated {env : PhaseCEnv} {s : State} (hm : NoOutputs s.core.mode) (hn : NoOutputsDue s.core.modeNext) :
    (evaluated env s).core.mode = s.core.mode ∧ NoOutputsDue (evaluated env s).core.modeNext := by
  have hbefore : (beforeEvaluation env s).core.mode = s.core.mode ∧ NoOutputsDue (beforeEvaluation env s).core.modeNext := by
    rcases kept_beforeEvaluation env s with h | h
    · have hnext : (beforeEvaluation env s).core.modeNext = s.core.modeNext := congrArg Kept.modeNext h
      exact ⟨congrArg Kept.mode h, by rwa [hnext]⟩
    · have hnext : (beforeEvaluation env s).core.modeNext = none := congrArg Kept.modeNext h
      exact ⟨congrArg Kept.mode h, by rw [hnext]; nofun⟩
  obtain ⟨hmode, hdue⟩ := hbefore
  obtain ⟨hop, hma⟩ := hm
  have hforces := kept_decideForces (evaluateMode (anyLate env s) (beforeEvaluation env s))
  have hmode' : (evaluated env s).core.mode = _ := congrArg Kept.mode hforces
  have hnext' : (evaluated env s).core.modeNext = _ := congrArg Kept.modeNext hforces
  rcases kept_evaluateMode (anyLate env s) (beforeEvaluation env s) with h | ⟨hmaint, -⟩ | ⟨v, m, hv, h⟩
  · rw [hmode', hnext', h]
    exact ⟨hmode, hdue⟩
  · exact absurd (hmode.symm.trans hmaint) hma
  · rw [hmode', hnext', h]
    refine ⟨hmode, fun m' w e => ?_⟩
    obtain ⟨rfl, -⟩ := Prod.mk.inj (Option.some.inj e)
    exact ⟨fun e => requestTarget_ne_operate _ v (e ▸ hv), fun e => requestTarget_ne_maintain (hmode ▸ hop) v (e ▸ hv)⟩

theorem noOutputs_stageMode {s : State} (hm : NoOutputs s.core.mode) (hn : NoOutputsDue s.core.modeNext) : NoOutputs (stageMode s) := by
  have hnext : NoOutputsDue (nextMode s) := by
    unfold nextMode
    dsimp only
    split
    · rintro m w ⟨⟩
      exact ⟨nofun, nofun⟩
    · split
      · rintro m w ⟨⟩
        exact ⟨nofun, nofun⟩
      · exact hn
  unfold stageMode
  split
  · next h => exact hnext _ _ h
  · exact hm

theorem laneOut_off {s : State} (h : NoOutputs (stageMode s)) (laneFault : Bool) (x : LaneSt) :
    ∀ d ∈ (laneOut s laneFault x).ds, d.on = false := by
  obtain ⟨ho, hm⟩ := h
  intro d hd
  unfold laneOut at hd
  cases hc : x.cfg with
  | none =>
    rw [hc] at hd
    exact absurd hd List.not_mem_nil
  | some cfg =>
    rw [hc] at hd
    exact decisions_off (c := stageCtx s laneFault x) ho hm cfg x d hd

/-- Outside OPERATE and MAINTAIN every pair is staged off (R63). -/
theorem liveFrame_off {env : PhaseCEnv} {s : State} (hm : NoOutputs s.core.mode) (hn : NoOutputsDue s.core.modeNext) {l : Side}
    (hl : laneLive (liveFrame env s) l = true) {p : Nat} (hp : p < 17) : (pairRecOf ((liveFrame env s).lane.at l) p).staged = false := by
  obtain ⟨hmode, hnext⟩ := noOutputsDue_evaluated (env := env) hm hn
  have hstage : NoOutputs (stageMode (evaluated env s)) := noOutputs_stageMode (hmode ▸ hm) hnext
  rw [liveFrame_pair, liveLane_live hl]
  exact staged_of_recordOn_off (fun d hd => recordOn_off (.inr (.inl (laneOut_off hstage _ _ d hd)))) _ _ hp

/-! ## A frame on time with nothing found -/

/-- Both lanes are in service and on time with one loaf, and neither an outcome, a request nor a self-test is due. -/
structure Calm (env : PhaseCEnv) (s : State) : Prop where
  onTime : anyLate env s = false
  outcomes : s.core.outcomes = []
  sampled : s.host.sampled = none
  permit : permitLost s = false
  identity : identityBroken env s = false
  both : bothInService s = true
  learned : s.test.learned = false

/-- What each pair is decided to be in a lane. -/
def decidedOn (s : State) (l : Side) (p : Nat) : Bool :=
  (((laneOut s false (s.lane.at l)).ds.find? fun d => d.view.pair == p).map fun d => d.on).getD false

section
variable {env : PhaseCEnv} {s : State} (h : Calm env s)
include h

theorem Calm.evaluateMode : Answered s (evaluateMode false s) ∧ kept (evaluateMode false s) = kept s := by
  unfold Machine.evaluateMode
  simp only [h.permit, h.sampled, Bool.and_false, Bool.false_eq_true, if_false]
  split
  · exact ⟨rfl, rfl⟩
  · exact ⟨rfl, rfl⟩

theorem Calm.evaluated : Answered s (evaluated env s) ∧ (evaluated env s).core.modeNext = s.core.modeNext := by
  obtain ⟨hanswered, hkept⟩ := h.evaluateMode
  unfold Machine.evaluated
  rw [beforeEvaluation_calm h.onTime h.outcomes h.identity, h.onTime]
  exact ⟨hanswered.trans (answered_decideForces _), congrArg Kept.modeNext ((kept_decideForces _).trans hkept)⟩

theorem Calm.laneOut (x : LaneSt) : laneOut (Machine.evaluated env s) (laneOutcome s) x = laneOut s false x := by
  obtain ⟨hanswered, hnext⟩ := h.evaluated
  have houtcome : laneOutcome s = false := by
    unfold laneOutcome
    rw [h.outcomes]
    rfl
  rw [houtcome, laneOut_answered hanswered hnext]

theorem Calm.verdict : frameVerdict env (laneOutcome s) (anyLate env s) (Machine.evaluated env s) =
    compareOuts env s (Machine.laneOut s false s.lane.a) (Machine.laneOut s false s.lane.b) := by
  have hlane := h.evaluated.1.lane
  have hboth : bothInService (Machine.evaluated env s) = true := by
    have hb := h.both
    unfold bothInService laneLive at *
    rwa [hlane]
  unfold frameVerdict
  rw [h.onTime, hboth, if_neg (by decide), h.laneOut, h.laneOut, compareOuts_lane hlane, hlane]

theorem Calm.linkLost (hlinks : ∀ c, frameLost env s c = false) : linkLost env (Machine.evaluated env s) = false := by
  obtain ⟨hanswered, -⟩ := h.evaluated
  have hframe : ∀ c, frameLost env (Machine.evaluated env s) c = false := fun c =>
    (frameLost_congr (by rw [hanswered.lane]) (by rw [hanswered.lane]) (by rw [hanswered])).trans (hlinks c)
  unfold Machine.linkLost
  rw [hframe, hframe]
  rfl

theorem Calm.lane (l : Side) : liveLane env s l =
    stageLane (orderOf env s (laneOutcome s) (anyLate env s) (Machine.evaluated env s) l) (Machine.laneOut s false (s.lane.at l)) l
      ((judged env (laneOutcome s) (anyLate env s) (Machine.evaluated env s)).lane.at l) := by
  have hboth := h.both
  have hlive : laneLive s l = true := by
    obtain ⟨ha, hb⟩ := Bool.and_eq_true_iff.1 hboth
    cases l
    · exact ha
    · exact hb
  refine (stagedLane_live env s _ _ _ ?_).trans ?_
  · rw [h.evaluated.1.lane]
    simpa [laneLive] using hlive
  · rw [h.laneOut, h.evaluated.1.lane]

theorem Calm.lateSelf (l : Side) : isLate env s l = false := by
  obtain ⟨ha, hb⟩ := Bool.or_eq_false_iff.1 h.onTime
  cases l
  · exact ha
  · exact hb

/-- No pair is ordered off beyond the one on which the lanes differ, unless they differ otherwise, or a fault is found in BOOT or MAINTAIN. -/
theorem Calm.pairsOn (hall : compareOuts env s (Machine.laneOut s false s.lane.a) (Machine.laneOut s false s.lane.b) ≠ .all)
    (hquiet : s.core.mode ≠ .boot ∧ s.core.mode ≠ .maintain ∨
      frameFault env (laneOutcome s) (anyLate env s) (Machine.evaluated env s) = false) (l : Side) :
    (orderOf env s (laneOutcome s) (anyLate env s) (Machine.evaluated env s) l).pairsOff = false := by
  obtain ⟨hanswered, -⟩ := h.evaluated
  have hmode : (Machine.evaluated env s).core.mode = s.core.mode := by rw [hanswered]
  have hlearned : (Machine.evaluated env s).test.learned = s.test.learned := by rw [hanswered]
  have hboth : bothInService (Machine.evaluated env s) = bothInService s := by
    unfold bothInService laneLive
    rw [hanswered.lane]
  unfold orderOf everythingOff
  dsimp only
  rw [h.verdict, hmode, hlearned, hboth, h.both, h.learned, h.onTime]
  rcases hquiet with ⟨hboot, hmaint⟩ | hfound
  · simp [hall, hboot, hmaint]
  · rw [h.onTime] at hfound
    simp [hall, hfound]

/-- Where nothing else is ordered off, a pair is staged as its lane decides, but for the one on which the lanes differ. -/
theorem Calm.pair (hall : compareOuts env s (Machine.laneOut s false s.lane.a) (Machine.laneOut s false s.lane.b) ≠ .all)
    (hquiet : s.core.mode ≠ .boot ∧ s.core.mode ≠ .maintain ∨
      frameFault env (laneOutcome s) (anyLate env s) (Machine.evaluated env s) = false) (l : Side) {p : Nat} (hp : p < 17) :
    (pairRecOf ((liveFrame env s).lane.at l) p).staged =
      ((orderOf env s (laneOutcome s) (anyLate env s) (Machine.evaluated env s) l).pairOff != some p && decidedOn s l p) := by
  rw [liveFrame_pair, h.lane]
  exact staged_as_decided h.onTime (h.lateSelf l) (h.pairsOn hall hquiet l) _ _ _ hp

theorem Calm.agree (hv : compareOuts env s (Machine.laneOut s false s.lane.a) (Machine.laneOut s false s.lane.b) = .agree)
    (hquiet : s.core.mode ≠ .boot ∧ s.core.mode ≠ .maintain ∨ ∀ c, frameLost env s c = false) (l : Side) {p : Nat} (hp : p < 17) :
    (pairRecOf ((liveFrame env s).lane.at l) p).staged = decidedOn s l p := by
  have hfault : s.core.mode ≠ .boot ∧ s.core.mode ≠ .maintain ∨
      frameFault env (laneOutcome s) (anyLate env s) (Machine.evaluated env s) = false := hquiet.imp_right fun hlinks => by
    unfold frameFault
    rw [h.verdict, hv, h.linkLost hlinks]
    rfl
  rw [h.pair (by rw [hv]; nofun) hfault l hp]
  unfold orderOf
  dsimp only
  rw [h.verdict, hv]
  exact Bool.true_and _

theorem Calm.onePair {q : Nat} (hv : compareOuts env s (Machine.laneOut s false s.lane.a) (Machine.laneOut s false s.lane.b) = .onePair q)
    (hmode : s.core.mode ≠ .boot ∧ s.core.mode ≠ .maintain) (l : Side) {p : Nat} (hp : p < 17) :
    (pairRecOf ((liveFrame env s).lane.at l) p).staged = (p != q && decidedOn s l p) := by
  have hne : (some q != some p) = (p != q) := by
    rw [Bool.eq_iff_iff, bne_iff_ne, bne_iff_ne, ne_eq, Option.some.injEq, ne_comm]
  rw [h.pair (by rw [hv]; nofun) (.inl hmode) l hp, ← hne]
  unfold orderOf
  dsimp only
  rw [h.verdict, hv]

/-- Where the lanes differ otherwise, everything goes off and nothing of the frame is sent (R217). -/
theorem Calm.all (hv : compareOuts env s (Machine.laneOut s false s.lane.a) (Machine.laneOut s false s.lane.b) = .all) (l : Side) :
    ((liveFrame env s).lane.at l).contrib = 0x08#8 ∧ ((liveFrame env s).lane.at l).noSafe = true ∧
      ∀ p, p < 17 → (pairRecOf ((liveFrame env s).lane.at l) p).staged = false := by
  obtain ⟨hc, hn⟩ := liveFrame_sends env s l
  have heverything : everythingOff env (laneOutcome s) (anyLate env s) (Machine.evaluated env s) = true := by
    unfold everythingOff
    rw [h.verdict, hv]
    rfl
  refine ⟨?_, ?_, fun p hp => ?_⟩
  · rw [hc, h.lane]
    unfold stageLane orderOf
    dsimp only
    rw [heverything]
    rfl
  · rw [hn, h.lane]
    unfold stageLane orderOf
    dsimp only
    rw [h.verdict, hv]
    rfl
  · rw [liveFrame_pair, h.lane]
    refine staged_of_recordOn_off (fun d _ => recordOn_off (.inr (.inr ?_))) _ _ hp
    unfold orderOf
    dsimp only
    rw [heverything]
    simp

end

/-! ## The whole phase -/

/-- Phase C takes its frame at the end of the phase's time. -/
def phaseCFrame (s : State) : State := toPhase s .h (endC s.core.tfCode)

theorem runs_phaseC_live {env : PhaseCEnv} {s : State} (ht : s.core.tickOn = true) (hp : s.core.phase = .c) (hh : s.test.hold = false) :
    Runs (.phaseC env) s (liveFrame env (phaseCFrame s)) := by
  have h := runs_phaseC env ht hp
  rwa [hh, if_neg Bool.false_ne_true] at h

theorem runs_phaseC_idle (env : PhaseCEnv) {s : State} (h : s.core.tickOn = false ∨ s.core.phase ≠ .c) : Runs (.phaseC env) s s :=
  if_pos (by rcases h with h | h <;> simp [h])

/-- A frame is lost in a lane in service exactly where it does not arrive. -/
theorem frameLost_of_live {env : PhaseCEnv} {s : State} {c : Side} (hl : laneLive s c = true)
    (h : env.delivered.at c = false ∨ (s.crust.at c).logicPower = false ∨ (s.crust.at c).resync = true ∨
      (s.lane.at c).stopped = true) : frameLost env s c = true := by
  unfold frameLost
  rw [hl]
  rcases h with h | h | h | h <;> simp [h]

theorem liveFrame_live {env : PhaseCEnv} {s : State} {c : Side} (h : ((liveFrame env s).lane.at c).retired = false) :
    laneLive s c = true := by
  rw [liveFrame_retired, (answered_evaluated env s).lane] at h
  unfold laneLive
  cases hr : (s.lane.at c).retired with
  | false => rfl
  | true => exact nomatch h.symm.trans ((beforeEvaluation_report env s).2.retired c hr)

/-- Settles O14: what each lane stages at its crust, in a late frame, in a frame on time by the verdict of the comparison, and in the modes
without outputs. -/
theorem phaseCStagesTheOutputs : Obligations.PhaseCStagesTheOutputs := by
  refine ⟨fun env s => runs_phaseC_idle env, fun env s ht hp hh => ?_, fun env s ht hp hh ho hm hno hnm => ?_⟩
  · obtain ⟨crust, n, hkept⟩ := liveFrame_kept env (phaseCFrame s)
    have hcrust := liveFrame_crust env (phaseCFrame s)
    refine ⟨liveFrame env (phaseCFrame s), runs_phaseC_live ht hp hh,
      ⟨congrArg Kept.journal hkept, congrArg Kept.openPage hkept, congrArg Kept.mem hkept, congrArg Kept.hostwd hkept,
        congrArg Kept.life hkept, congrArg Kept.pending hkept⟩,
      ⟨congrArg Kept.frameNo hkept, congrArg Kept.tickOn hkept, congrArg Kept.mode hkept, congrArg Kept.inReset hkept,
        congrArg Kept.statFrame hkept, congrArg Kept.statGen hkept, congrArg Kept.latched hkept⟩,
      congrArg Kept.phase hkept, congrArg Kept.off hkept, fun c => ?_, fun c => (hcrust c).retired, fun c => (hcrust c).arrived,
      fun c hr hlost => (hcrust c).lost hr (frameLost_of_live (liveFrame_live hr) hlost), fun hlate => ?_,
      fun hlate hout hsam hperm hid hboth hlearned hquiet v decided hv hd => ?_⟩
    · have hrest := (hcrust c).rest
      have hframe : (phaseCFrame s).crust = s.crust := rfl
      rw [hframe] at hrest
      rw [hrest]
    · obtain ⟨ha, hb⟩ := beforeEvaluation_late (s := phaseCFrame s) hlate
      rw [liveFrame_stat]
      exact ⟨ha, hb, fun l hl => ⟨fun p h16 => liveFrame_late_pairs (s := phaseCFrame s) hlate hl (Nat.lt_succ_of_lt h16),
        liveFrame_late_sends hl⟩⟩
    · have hcalm : Calm env (phaseCFrame s) := ⟨hlate, hout, hsam, hperm, hid, hboth, hlearned⟩
      subst hd
      exact ⟨fun h l p h17 => hcalm.agree (hv.symm.trans h) hquiet l h17,
        fun q h hboot hmaint l p h17 => hcalm.onePair (hv.symm.trans h) ⟨hboot, hmaint⟩ l h17,
        fun h l => hcalm.all (hv.symm.trans h) l⟩
  · refine ⟨liveFrame env (phaseCFrame s), runs_phaseC_live ht hp hh, fun l p hl h17 => ?_⟩
    refine liveFrame_off (s := phaseCFrame s) ⟨ho, hm⟩ (fun m w h => ⟨?_, ?_⟩) hl h17
    · rintro rfl
      exact hno w h
    · rintro rfl
      exact hnm w h

end Sys2Proof.Machine
end

section
/-! SUPPORT. The loaf commands, each on the slot that it names (R149, R150, R392). -/

namespace Sys2Proof.Machine

open Sys2Proof.Claims

variable {s : State} {via : Via} {p : List Byte} {k : Side}

/-- A command whose first byte is no slot is refused, whichever of the four that change a slot it is. -/
theorem loafCommands_noSlot {f : Bool} (hb : 1 < (byteAt p 0).toNat) {c : Instr} {cmd : Byte}
    (hc : (c, cmd) ∈ [(Instr.loafWrite ⟨via, f⟩, 0x10#8), (.loafCheck via, 0x11#8), (.loafActivate via, 0x12#8),
      (.loafErase via, 0x14#8)]) (h : Starts s via cmd p) : ∃ t, Runs c s t ∧ Denies s t via 0x05#8 8 := by
  simp only [List.mem_cons, Prod.mk.injEq, List.not_mem_nil, or_false] at hc
  rcases hc with ⟨rfl, rfl⟩ | ⟨rfl, rfl⟩ | ⟨rfl, rfl⟩ | ⟨rfl, rfl⟩ <;>
    exact denies_of_starts h rfl fun e he => if_pos (he ▸ hb)

/-- What a crumb and an answer leave of the state. -/
theorem crumbed_setQ {s u : State} (h : Crumbed s u) {e : QEntry} (he : entryOf s via = some e) (st : QState) {t : State}
    (ht : t = setQ u via st) :
    t = { s with mbx := { s.mbx with queue := t.mbx.queue }, jrn := t.jrn, stat := t.stat } ∧
      (entryOf t via).map (·.st) = some st := by
  have hst : (entryOf t via).map (·.st) = some st := by
    rw [ht, entryOf_setQ, h.noted.entryOf, he]
    rfl
  refine ⟨?_, hst⟩
  rw [h] at ht
  rw [ht]
  rfl

/-! ## LOAF_WRITE -/

/-- A LOAF_WRITE to a slot that there is, with its reserved bits and bytes at 0. -/
theorem loafWrite_starts (h : Starts s via 0x10#8 p) (hb : (byteAt p 0).toNat ≤ 1) (hk : k = sideOf (byteAt p 0))
    (hflags : byteAt p 1 &&& 0xFE#8 = 0) (hzero : natAt p 6 2 = 0) (f : Bool) : Runs (.loafWrite ⟨via, f⟩) s (
      if (s.nv.slots.at k).state = .active then replyErr s via stLoafSlot (slotCode (s.nv.slots.at k).state).toNat
      else if bitOf (byteAt p 1) 0 && natAt p 2 4 != 0 then badParam s via 2
      else if !bitOf (byteAt p 1) 0 && ((s.nv.slots.at k).state != .writing || natAt p 2 4 != (s.nv.slots.at k).image.length) then
        badParam s via 2
      else if 0x200000 < natAt p 2 4 + (p.length - 8) then replyErr s via stLoafLength (natAt p 2 4 + (p.length - 8))
      else writeLoaf s ⟨via, f⟩ k (bitOf (byteAt p 1) 0) (p.drop 8)) := by
  obtain ⟨e, rfl, -, -, hrun⟩ := runs_of_starts h
  subst hk
  exact (hrun _).trans (congrArg _ ((if_neg (Nat.not_lt.2 hb)).trans
    ((if_neg (not_not_intro hflags)).trans (if_neg (not_not_intro hzero)))))

/-- The data of a LOAF_WRITE belong behind `old`: behind nothing with START, else behind what the slot it writes holds (R392). -/
def WritesBehind (p : List Byte) (x : LoafSlot) (old : List Byte) : Prop :=
  (byteAt p 1 = 1 ∧ natAt p 2 4 = 0 ∧ old = []) ∨
    (byteAt p 1 = 0 ∧ x.state = .writing ∧ natAt p 2 4 = x.image.length ∧ old = x.image)

/-- A LOAF_WRITE out of place: a START that is not at 0, or data that do not follow those of a slot being written (R392). -/
def Misplaced (p : List Byte) (x : LoafSlot) : Prop :=
  (byteAt p 1 = 1 ∧ natAt p 2 4 ≠ 0) ∨ (byteAt p 1 = 0 ∧ (x.state ≠ .writing ∨ natAt p 2 4 ≠ x.image.length))

theorem writeLoaf_appends {old : List Byte} {start : Bool} (data : List Byte)
    (ho : (if start then [] else (s.nv.slots.at k).image) = old) : Answers { s with nv := { s.nv with
      slots := s.nv.slots.set k { state := .writing, image := old ++ data } } } (writeLoaf s ⟨via, false⟩ k start data) via
        (leBytes 4 (old ++ data).length) := by
  subst ho
  exact answers_replyOk _ _ _

/-- A write that fails leaves the bytes before it, and answers with free values (log 99). -/
theorem writeLoaf_fails {old : List Byte} {start : Bool} (data : List Byte)
    (ho : (if start then [] else (s.nv.slots.at k).image) = old) : ∃ st q, q.length = 4 ∧ EntryNow { s with
      drawn := s.drawn + 1
      nv := { s.nv with slots := s.nv.slots.set k { state := .writing, image := old } } }
        (writeLoaf s ⟨via, true⟩ k start data) via (.replied st q) := by
  subst ho
  exact ⟨_, ((drawBytes s 5).1.drop 1), by simp [drawBytes], entryNow_setQ _ _ _⟩

section
variable (h : Starts s via 0x10#8 p) (hb : (byteAt p 0).toNat ≤ 1) (hk : k = sideOf (byteAt p 0))
  (hflags : byteAt p 1 &&& 0xFE#8 = 0) (hzero : natAt p 6 2 = 0)
include h hb hk hflags hzero

theorem loafWrite_active (hx : (s.nv.slots.at k).state = .active) (f : Bool) :
    ∃ t, Runs (.loafWrite ⟨via, f⟩) s t ∧ Denies s t via stLoafSlot 4 := by
  have hrun := loafWrite_starts h hb hk hflags hzero f
  rw [if_pos hx, hx] at hrun
  exact ⟨_, hrun, denies_replyErr _ _ _ _⟩

theorem loafWrite_misplaced (hx : (s.nv.slots.at k).state ≠ .active) (hm : Misplaced p (s.nv.slots.at k)) (f : Bool) :
    ∃ t, Runs (.loafWrite ⟨via, f⟩) s t ∧ Denies s t via 0x05#8 10 := by
  have hrun := loafWrite_starts h hb hk hflags hzero f
  rw [if_neg hx] at hrun
  refine ⟨badParam s via 2, ?_, denies_replyErr _ _ _ _⟩
  rcases hm with ⟨h1, ho⟩ | ⟨h0, ho⟩
  · rwa [h1, if_pos (by simpa [bitOf] using ho)] at hrun
  · rwa [h0, if_neg (by simp [bitOf]), if_pos (by simpa [bitOf] using ho)] at hrun

/-- A LOAF_WRITE in place that the slot has room for comes to its writing. -/
theorem loafWrite_writes (hx : (s.nv.slots.at k).state ≠ .active) {old : List Byte} (hw : WritesBehind p (s.nv.slots.at k) old)
    (hroom : natAt p 2 4 + (p.length - 8) ≤ 0x200000) (f : Bool) : ∃ start,
      (if start then [] else (s.nv.slots.at k).image) = old ∧
      Runs (.loafWrite ⟨via, f⟩) s (writeLoaf s ⟨via, f⟩ k start (p.drop 8)) := by
  have hrun := loafWrite_starts h hb hk hflags hzero f
  rw [if_neg hx] at hrun
  refine ⟨bitOf (byteAt p 1) 0, ?_⟩
  rcases hw with ⟨h1, ho, rfl⟩ | ⟨h0, hs, ho, rfl⟩
  · rw [h1] at hrun ⊢
    rw [if_neg (by simp [ho]), if_neg (by simp [bitOf]), if_neg (Nat.not_lt.2 hroom)] at hrun
    exact ⟨rfl, hrun⟩
  · rw [h0] at hrun ⊢
    rw [if_neg (by simp [bitOf]), if_neg (by simp [hs, ho]), if_neg (Nat.not_lt.2 hroom)] at hrun
    exact ⟨rfl, hrun⟩

end

/-! ## LOAF_CHECK -/

theorem loafCheck_starts (h : Starts s via 0x11#8 p) (hb : (byteAt p 0).toNat ≤ 1) (hk : k = sideOf (byteAt p 0)) :
    Runs (.loafCheck via) s (if (s.nv.slots.at k).state = .empty ∨ (s.nv.slots.at k).state = .active then
      replyErr s via stLoafSlot (slotCode (s.nv.slots.at k).state).toNat else checkSlot s via k) := by
  obtain ⟨e, rfl, -, -, hrun⟩ := runs_of_starts h
  subst hk
  exact (hrun _).trans (congrArg _ (if_neg (Nat.not_lt.2 hb)))

theorem loafCheck_refused (h : Starts s via 0x11#8 p) (hb : (byteAt p 0).toNat ≤ 1) (hk : k = sideOf (byteAt p 0))
    (hx : (s.nv.slots.at k).state = .empty ∨ (s.nv.slots.at k).state = .active) :
    ∃ t, Runs (.loafCheck via) s t ∧ Denies s t via stLoafSlot (slotCode (s.nv.slots.at k).state).toNat := by
  have hrun := loafCheck_starts h hb hk
  rw [if_pos hx] at hrun
  exact ⟨_, hrun, denies_replyErr _ _ _ _⟩

/-- The slot as LOAF_CHECK leaves it. -/
def checkedSlot (x : LoafSlot) : LoafSlot := { x with state := if (checkImage x.image).isNone then .valid else .invalid }

/-- The answer that LOAF_CHECK gives for an image. -/
def checkAnswer (i : Image) : QState :=
  match checkImage i with
  | none => .replied 0x00#8 [0x02#8]
  | some (st, d) => .replied st (leBytes 4 d)

/-- LOAF_CHECK puts its verdict into the slot, writes a crumb of it, and answers. -/
theorem checkSlot_eq (s : State) (via : Via) (k : Side) : ∃ u, Crumbed (putSlot s k (checkedSlot (s.nv.slots.at k))) u ∧
    checkSlot s via k = setQ u via (checkAnswer (s.nv.slots.at k).image) := by
  unfold checkSlot checkedSlot checkAnswer loafSlotOf
  dsimp only
  cases checkImage (s.nv.slots.at k).image with
  | none => exact ⟨_, crumbed_crumb _ _ _ _ _, rfl⟩
  | some r => exact ⟨_, crumbed_crumb _ _ _ _ _, rfl⟩

theorem loafCheck_checks (h : Starts s via 0x11#8 p) (hb : (byteAt p 0).toNat ≤ 1) (hk : k = sideOf (byteAt p 0))
    (ha : (s.nv.slots.at k).state ≠ .active) (he : (s.nv.slots.at k).state ≠ .empty) : ∃ t, Runs (.loafCheck via) s t ∧
      t = { s with
        nv := { s.nv with slots := s.nv.slots.set k (checkedSlot (s.nv.slots.at k)) }
        mbx := { s.mbx with queue := t.mbx.queue }, jrn := t.jrn, stat := t.stat } ∧ SameStore s t ∧ SameClock s t ∧
      (entryOf t via).map (·.st) = some (checkAnswer (s.nv.slots.at k).image) := by
  have hrun := loafCheck_starts h hb hk
  rw [if_neg (not_or.2 ⟨he, ha⟩)] at hrun
  obtain ⟨e, -, hentry, -⟩ := runs_of_starts h
  obtain ⟨u, hu, heq⟩ := checkSlot_eq s via k
  have hkept := kept_checkSlot s via k
  obtain ⟨hrest, hst⟩ := crumbed_setQ (s := putSlot s k (checkedSlot (s.nv.slots.at k))) hu hentry _ heq
  exact ⟨_, hrun, hrest, sameStore_of_kept hkept, sameClock_of_kept hkept, hst⟩

/-! ## LOAF_ACTIVATE and LOAF_ERASE -/

theorem loafActivate_starts (h : Starts s via 0x12#8 p) (hb : (byteAt p 0).toNat ≤ 1) (hk : k = sideOf (byteAt p 0)) :
    Runs (.loafActivate via) s (if (s.nv.slots.at k).state ≠ .valid then
      replyErr s via stLoafSlot (slotCode (s.nv.slots.at k).state).toNat
      else match activationCheck s.nv (s.nv.slots.at k).image with
        | some (st, d) => replyErr (loafCrumb s k st (s.nv.slots.at k).image) via st d
        | none => beginSwitch s via k (s.nv.slots.at k).image) := by
  obtain ⟨e, rfl, -, -, hrun⟩ := runs_of_starts h
  subst hk
  exact (hrun _).trans (congrArg _ (if_neg (Nat.not_lt.2 hb)))

theorem loafActivate_notValid (h : Starts s via 0x12#8 p) (hb : (byteAt p 0).toNat ≤ 1) (hk : k = sideOf (byteAt p 0))
    (hx : (s.nv.slots.at k).state ≠ .valid) :
    ∃ t, Runs (.loafActivate via) s t ∧ Denies s t via stLoafSlot (slotCode (s.nv.slots.at k).state).toNat := by
  have hrun := loafActivate_starts h hb hk
  rw [if_pos hx] at hrun
  exact ⟨_, hrun, denies_replyErr _ _ _ _⟩

/-- A VALID slot is switched to where its image passes the hearth's and the lanes' checks; else the first failure is told (R150, R153). -/
theorem loafActivate_valid (h : Starts s via 0x12#8 p) (hb : (byteAt p 0).toNat ≤ 1) (hk : k = sideOf (byteAt p 0))
    {x : LoafSlot} (hx : x = s.nv.slots.at k) (hv : x.state = .valid) :
    ∃ t, Runs (.loafActivate via) s t ∧ t.nv = s.nv ∧ match activationCheck s.nv x.image with
      | none => t = { s with mbx := { s.mbx with queue := t.mbx.queue, switch := t.mbx.switch } } ∧
          (entryOf t via).map (·.st) = some .running ∧
          t.mbx.switch = some { via := some via, slot := k, agreed := false, cfgA := loafCfg x.image .a, cfgB := loafCfg x.image .b }
      | some (st, d) => t = { s with mbx := { s.mbx with queue := t.mbx.queue }, jrn := t.jrn, stat := t.stat } ∧
          (entryOf t via).map (·.st) = some (.replied st (leBytes 4 d)) := by
  subst hx
  have hrun := loafActivate_starts h hb hk
  rw [if_neg (not_not_intro hv)] at hrun
  obtain ⟨e, -, hentry, -⟩ := runs_of_starts h
  refine ⟨_, hrun, ?_⟩
  cases activationCheck s.nv (s.nv.slots.at k).image with
  | none =>
    obtain ⟨-, hst⟩ := crumbed_setQ (Crumbed.refl s) hentry .running rfl
    exact ⟨rfl, rfl, hst, rfl⟩
  | some r =>
    obtain ⟨hrest, hst⟩ := crumbed_setQ (u := loafCrumb s k r.1 (s.nv.slots.at k).image) (crumbed_crumb _ _ _ _ _) hentry
      (.replied r.1 (leBytes 4 r.2)) rfl
    have hnv := congrArg State.nv hrest
    exact ⟨hnv, hrest, hst⟩

theorem loafErase_starts (h : Starts s via 0x14#8 p) (hb : (byteAt p 0).toNat ≤ 1) (hk : k = sideOf (byteAt p 0)) :
    Runs (.loafErase via) s (if (s.nv.slots.at k).state = .active then
      replyErr s via stLoafSlot (slotCode (s.nv.slots.at k).state).toNat
      else replyOk (putSlot s k LoafSlot.empty) via [0x00#8]) := by
  obtain ⟨e, rfl, -, -, hrun⟩ := runs_of_starts h
  subst hk
  exact (hrun _).trans (congrArg _ (if_neg (Nat.not_lt.2 hb)))

end Sys2Proof.Machine
end

section
/-! The loaf commands act as O46 says. -/

namespace Sys2Proof.Machine

open Sys2Proof.Claims

/-- Settles O46, command by command: the slot number is judged first, and each command's cases are those of its slot's state. -/
theorem loafCommandsAct : Obligations.LoafCommandsAct := by
  refine ⟨fun via s p f hb c cmd hc h => loafCommands_noSlot hb hc h, fun via s p k x hx hb hk => ?_⟩
  subst hx
  refine ⟨fun h hflags hzero hna => ⟨fun old hw hroom => ⟨?_, ?_⟩, loafWrite_misplaced h hb hk hflags hzero hna⟩,
    fun hact => ⟨fun h hflags hzero => loafWrite_active h hb hk hflags hzero hact, fun h => ?_, fun h => ?_, fun h => ?_⟩,
    fun h hempty => ?_, fun h => loafActivate_notValid h hb hk, fun h => loafCheck_checks h hb hk, fun h hna => ?_,
    fun h => loafActivate_valid h hb hk rfl⟩
  · obtain ⟨start, ho, hrun⟩ := loafWrite_writes h hb hk hflags hzero hna hw hroom false
    exact ⟨_, hrun, writeLoaf_appends _ ho⟩
  · obtain ⟨start, ho, hrun⟩ := loafWrite_writes h hb hk hflags hzero hna hw hroom true
    obtain ⟨st, q, hq, hnow⟩ := writeLoaf_fails (via := via) (p.drop 8) ho
    exact ⟨_, st, q, hq, hrun, hnow⟩
  · have hdeny := loafCheck_refused h hb hk (.inr hact)
    rwa [hact] at hdeny
  · have hdeny := loafActivate_notValid h hb hk (by simp [hact])
    rwa [hact] at hdeny
  · have hrun := loafErase_starts h hb hk
    rw [if_pos hact, hact] at hrun
    exact ⟨_, hrun, denies_replyErr _ _ _ _⟩
  · have hdeny := loafCheck_refused h hb hk (.inl hempty)
    rwa [hempty] at hdeny
  · have hrun := loafErase_starts h hb hk
    rw [if_neg hna] at hrun
    exact ⟨_, hrun, answers_replyOk _ _ _⟩

end Sys2Proof.Machine
end

section
/-! SUPPORT. The function blocks (07): which step each block type takes, and what no step writes but the delivery of imports. -/

namespace Sys2Proof.Machine

/-- A step that forms no value. -/
def unvalued (p : BlkSt × List Byte) : BlkSt × List Byte × Option Val := (p.1, p.2, none)

/-- A step that forms a value, POS or CV. -/
def valued (p : BlkSt × List Byte × Val) : BlkSt × List Byte × Option Val := (p.1, p.2.1, some p.2.2)

/-! ## The step of each type -/

section
variable (c : BlkCtx) {r : ParamRec} (b : BlkSt) (pr : PairRec) (xs : List (Option Byte)) (vs : List (ValSrc × Val))

theorem stepBlock_ton (h : r.ty = tyTON) : stepBlock c r b pr xs vs = unvalued (stepTon r b (inAt xs 0)) := by
  unfold stepBlock; rw [h]; rfl

theorem stepBlock_tof (h : r.ty = tyTOF) : stepBlock c r b pr xs vs = unvalued (stepTof r b (inAt xs 0)) := by
  unfold stepBlock; rw [h]; rfl

theorem stepBlock_tp (h : r.ty = tyTP) : stepBlock c r b pr xs vs = unvalued (stepTp r b (inAt xs 0)) := by
  unfold stepBlock; rw [h]; rfl

theorem stepBlock_rslatch (h : r.ty = tyRSLATCH) : stepBlock c r b pr xs vs = unvalued (stepRslatch b (inAt xs 0) (inAt xs 1)) := by
  unfold stepBlock; rw [h]; rfl

theorem stepBlock_twoChannel (h : r.ty = tyDUALCH ∨ r.ty = tyESTOP ∨ r.ty = tyOSSD ∨ r.ty = tyGUARD ∨ r.ty = tyMANREL) :
    stepBlock c r b pr xs vs = unvalued (stepTwoChannel c r b xs) := by
  unfold stepBlock
  rcases h with h | h | h | h | h <;> rw [h] <;> rfl

theorem stepBlock_modesel (h : r.ty = tyMODESEL) : stepBlock c r b pr xs vs = unvalued (stepModesel r b xs) := by
  unfold stepBlock; rw [h]; rfl

theorem stepBlock_edge (h : r.ty = tyEDGE) : stepBlock c r b pr xs vs = unvalued (stepEdge r b (inAt xs 0)) := by
  unfold stepBlock; rw [h]; rfl

theorem stepBlock_doorpos (h : r.ty = tyDOORPOS) : stepBlock c r b pr xs vs = valued (stepDoorpos c r b vs) := by
  unfold stepBlock; rw [h]; rfl

theorem stepBlock_closedLocked (h : r.ty = tyCLOSEDLOCKED) : stepBlock c r b pr xs vs = unvalued (stepClosedLocked r b xs) := by
  unfold stepBlock; rw [h]; rfl

theorem stepBlock_obstacle (h : r.ty = tyOBSTACLE) : stepBlock c r b pr xs vs = unvalued (stepObstacle r b xs) := by
  unfold stepBlock; rw [h]; rfl

theorem stepBlock_release (h : r.ty = tyRELEASE) : stepBlock c r b pr xs vs = unvalued (stepRelease r b xs) := by
  unfold stepBlock; rw [h]; rfl

theorem stepBlock_zeroSpeed (h : r.ty = tyZEROSPEED) : stepBlock c r b pr xs vs =
    unvalued (stepZeroSpeed r b ((vs.map (·.2)).getD 0 Val.none) ((vs.map (·.2)).getD 1 Val.none)) := by
  unfold stepBlock; rw [h]; rfl

theorem stepBlock_qpair (h : r.ty = tyQPAIR) : stepBlock c r b pr xs vs =
    unvalued (stepOutput c r b pr (inAt xs 0) (inAt xs 1) (inAt xs 2) (parB r 4) (parN r 5)) := by
  unfold stepBlock; rw [h]; rfl

theorem stepBlock_lockdrv (h : r.ty = tyLOCKDRV) : stepBlock c r b pr xs vs =
    unvalued (stepOutput c r b pr (inAt xs 0) host0 (inAt xs 1) false 0) := by
  unfold stepBlock; rw [h]; rfl

theorem stepBlock_railcut (h : r.ty = tyRAILCUT) : stepBlock c r b pr xs vs =
    unvalued (stepOutput c r b pr (inAt xs 0) (inAt xs 1) (inAt xs 2) true (parN r 0)) := by
  unfold stepBlock; rw [h]; rfl

theorem stepBlock_import (h : r.ty = tyIMPORT) : stepBlock c r b pr xs vs = (b, b.imp.beads, none) := by
  unfold stepBlock; rw [h]; rfl

theorem stepBlock_proofhead (h : r.ty = tyPROOFHEAD) : stepBlock c r b pr xs vs =
    ({ b with code := if c.seg = sound1 then 1 else 0 }, [c.seg], none) := by
  unfold stepBlock; rw [h]; rfl

theorem stepBlock_count (h : r.ty = tyCOUNT) : stepBlock c r b pr xs vs = valued (stepCount r b xs) := by
  unfold stepBlock; rw [h]; rfl

theorem stepBlock_cmp (h : r.ty = tyCMP) : stepBlock c r b pr xs vs = unvalued (stepCmp r b (vs.map (·.2))) := by
  unfold stepBlock; rw [h]; rfl

theorem stepBlock_hostbit (h : r.ty = tyHOSTBIT) : stepBlock c r b pr xs vs = unvalued (stepHostbit c r b) := by
  unfold stepBlock; rw [h]; rfl

theorem stepBlock_diag (h : r.ty = tyDIAG) : stepBlock c r b pr xs vs = (b, stepDiag c r, none) := by
  unfold stepBlock; rw [h]; rfl

theorem stepBlock_unstepped (h : r.ty = tyPROOF ∨ r.ty = tyEXPORT) : stepBlock c r b pr xs vs = (b, [], none) := by
  unfold stepBlock
  rcases h with h | h <;> rw [h] <;> rfl

end

/-! ## What every step keeps -/

/-- A step leaves the import state alone, and where it writes the latch it writes no substitute for a parity error; of all the
types only RSLATCH may keep one, whose H is its OUT byte (07). -/
def KeepsStored (ty : Byte) (b n : BlkSt) : Prop :=
  n.imp = b.imp ∧ (ty = tyRSLATCH ∨ n.latch = b.latch ∨ n.latch ≠ paritySub)

theorem KeepsStored.of_fields {ty : Byte} {b n : BlkSt} (hi : n.imp = b.imp) (hl : n.latch = b.latch) : KeepsStored ty b n :=
  ⟨hi, .inr (.inl hl)⟩

theorem KeepsStored.refl (ty : Byte) (b : BlkSt) : KeepsStored ty b b := .of_fields rfl rfl

theorem KeepsStored.ite {ty : Byte} {b : BlkSt} {α : Type} {p q : BlkSt × α} {k : Prop} [Decidable k]
    (hp : k → KeepsStored ty b p.1) (hq : KeepsStored ty b q.1) : KeepsStored ty b (if k then p else q).1 := by
  split
  · next h => exact hp h
  · exact hq

theorem restartLatch_stored (hold : Bool) (age : Nat) (l before rst unl : Byte) :
    restartLatch hold age l before rst unl = l ∨ restartLatch hold age l before rst unl ≠ paritySub := by
  unfold restartLatch
  split
  · exact .inr (by decide)
  · split
    · exact .inr (by decide)
    · exact .inl rfl

/-- A latch that is used or left alone holds no substitute that it did not hold before. -/
theorem latchUsed_stored (used hold : Bool) (age : Nat) (l before rst unl : Byte) :
    (if used then restartLatch hold age l before rst unl else l) = l ∨
      (if used then restartLatch hold age l before rst unl else l) ≠ paritySub := by
  cases used
  · exact .inl rfl
  · exact restartLatch_stored hold age l before rst unl

theorem stepTof_stored (r : ParamRec) (b : BlkSt) (x : Byte) : KeepsStored r.ty b (stepTof r b x).1 := by
  unfold stepTof
  dsimp only
  split
  · exact .of_fields rfl rfl
  · split
    · split <;> exact .of_fields rfl rfl
    · exact .of_fields rfl rfl

theorem stepTp_stored (r : ParamRec) (b : BlkSt) (x : Byte) : KeepsStored r.ty b (stepTp r b x).1 := by
  unfold stepTp
  dsimp only
  split
  · exact .of_fields rfl rfl
  · split <;> exact .of_fields rfl rfl

theorem stepTwoChannel_stored (c : BlkCtx) (r : ParamRec) (b : BlkSt) (xs : List (Option Byte)) :
    KeepsStored r.ty b (stepTwoChannel c r b xs).1 := ⟨rfl, .inr (latchUsed_stored _ _ _ _ _ _ _)⟩

theorem stepModesel_stored (r : ParamRec) (b : BlkSt) (xs : List (Option Byte)) : KeepsStored r.ty b (stepModesel r b xs).1 := by
  unfold stepModesel
  dsimp only
  split <;> exact .of_fields rfl rfl

theorem stepOutput_stored (c : BlkCtx) (r : ParamRec) (b : BlkSt) (pr : PairRec) (demand fb rst : Byte) (edm : Bool) (edmt : Nat) :
    KeepsStored r.ty b (stepOutput c r b pr demand fb rst edm edmt).1 := ⟨rfl, .inr (latchUsed_stored _ _ _ _ _ _ _)⟩

theorem stepHostbit_stored (c : BlkCtx) (r : ParamRec) (b : BlkSt) : KeepsStored r.ty b (stepHostbit c r b).1 := by
  unfold stepHostbit
  split
  · next w _ =>
    refine ⟨rfl, .inr (.inr ?_)⟩
    show hostBead (w.getLsbD (parN r 0)) ≠ paritySub
    cases w.getLsbD (parN r 0) <;> decide
  · exact .refl _ b

theorem stepBlock_stored (c : BlkCtx) (r : ParamRec) (b : BlkSt) (pr : PairRec) (xs : List (Option Byte)) (vs : List (ValSrc × Val)) :
    KeepsStored r.ty b (stepBlock c r b pr xs vs).1 := by
  have hsame : ∀ {n : BlkSt}, n.imp = b.imp → n.latch = b.latch → KeepsStored r.ty b n := .of_fields
  unfold stepBlock
  exact .ite (fun _ => .refl _ b) <| .ite (fun _ => .refl _ b) <| .ite (fun _ => .refl _ b) <| .ite (fun _ => .refl _ b) <|
    .ite (fun _ => .refl _ b) <| .ite (fun _ => hsame rfl rfl) <| .ite (fun _ => stepTof_stored ..) <|
    .ite (fun _ => stepTp_stored ..) <| .ite (fun h => ⟨rfl, .inl h⟩) <| .ite (fun _ => stepTwoChannel_stored ..) <|
    .ite (fun _ => stepModesel_stored ..) <| .ite (fun _ => hsame rfl rfl) <| .ite (fun _ => hsame rfl rfl) <|
    .ite (fun _ => hsame rfl rfl) <| .ite (fun _ => hsame rfl rfl) <| .ite (fun _ => hsame rfl rfl) <|
    .ite (fun _ => hsame rfl rfl) <| .ite (fun _ => stepOutput_stored ..) <| .ite (fun _ => stepOutput_stored ..) <|
    .ite (fun _ => stepOutput_stored ..) <| .ite (fun _ => .refl _ b) <| .ite (fun _ => hsame rfl rfl) <|
    .ite (fun _ => hsame rfl rfl) <| .ite (fun _ => hsame rfl rfl) <| .ite (fun _ => stepHostbit_stored ..) <|
    .ite (fun _ => .refl _ b) (.refl _ b)

theorem stepBlock_imp {c : BlkCtx} {r : ParamRec} {b n : BlkSt} {pr : PairRec} {xs : List (Option Byte)} {vs : List (ValSrc × Val)}
    {bs : List Byte} {v : Option Val} (h : stepBlock c r b pr xs vs = (n, bs, v)) : n.imp = b.imp := by
  obtain ⟨himp, -⟩ := stepBlock_stored c r b pr xs vs
  rwa [h] at himp

/-- A state read without a parity error is kept as the step leaves it (R123). -/
theorem keepLatch_stepBlock (c : BlkCtx) (r : ParamRec) (b : BlkSt) (pr : PairRec) (xs : List (Option Byte))
    (vs : List (ValSrc × Val)) : keepLatch r.ty b (stepBlock c r b pr xs vs).1 = (stepBlock c r b pr xs vs).1 := by
  unfold keepLatch
  split
  · next h =>
    rw [Bool.and_eq_true, bne_iff_ne, beq_iff_eq] at h
    obtain ⟨hty, hsub⟩ := h
    obtain ⟨-, hlatch⟩ := stepBlock_stored c r b pr xs vs
    rw [← (hlatch.resolve_left hty).resolve_right (not_not_intro hsub)]
  · rfl

theorem keepLatch_imp (ty : Byte) (old new : BlkSt) : (keepLatch ty old new).imp = new.imp := by
  unfold keepLatch
  split <;> rfl

end Sys2Proof.Machine
end

section
/-! SUPPORT. The timers, RSLATCH, EDGE, RELEASE and COUNT (R159, R166, R180): each step meets its rule. -/

namespace Sys2Proof.Machine

open Sys2Proof.Claims

/-- The beads that a block gives satisfy what is said of its outputs. -/
def Shows (bs : List Byte) (y : Nat → Byte → Prop) : Prop := ∀ k v, bs[k]? = some v → y k v

/-- What is said of the value that a block forms is said of the one it forms in this frame. -/
def Forms (v : Option Val) (pos : Val) : Prop := ∀ w, v = some w → pos = w

theorem beadV_of_isSound0 {x : Byte} (h : isSound0 x = true) : beadV x = false := by
  simp only [isSound0, Bool.and_eq_true, Bool.not_eq_true'] at h
  exact h.2

theorem isTT_eq_false_of_isSound0 {age : Nat} {x : Byte} (h : isSound0 x = true) : isTT age x = false := by
  simp [isTT, beadV_of_isSound0 h]

/-! ## TOF -/

theorem stepTof_trusted {r : ParamRec} {b : BlkSt} {x : Byte} (h : isTT (agelimOf r) x = true) :
    stepTof r b x = ({ b with tmr := Timer.stopped, own := true }, [x]) := if_pos h

theorem stepTof_held {r : ParamRec} {b : BlkSt} {x : Byte} (h0 : isSound0 x = true) (hon : b.own = true ∨ b.tmr.running = true)
    {tm : Timer} (htm : tm = timerRun b.tmr true (parN r 0)) :
    stepTof r b x = ({ b with tmr := { tm with running := !tm.done }, own := !tm.done }, [setV x !tm.done]) := by
  unfold stepTof
  rw [if_neg (by simp [isTT_eq_false_of_isSound0 h0]), if_pos (by simp [h0, hon])]
  dsimp only
  rw [← htm]
  have hrun : tm.running = true := htm ▸ rfl
  obtain ⟨e, run, done⟩ := tm
  obtain rfl : run = true := hrun
  cases done <;> rfl

theorem stepTof_off {r : ParamRec} {b : BlkSt} {x : Byte} (ht : isTT (agelimOf r) x = false)
    (h : isSound0 x = false ∨ (b.own = false ∧ b.tmr.running = false)) :
    stepTof r b x = ({ b with tmr := Timer.stopped, own := false }, [setV x false]) := by
  unfold stepTof
  rw [if_neg (by simp [ht]), if_neg]
  rcases h with h | ⟨ho, hr⟩
  · simp [h]
  · simp [ho, hr]

/-! ## TP -/

/-- The pulse goes on: its time has not run out and IN is sound. -/
def pulseGoes (r : ParamRec) (b : BlkSt) (x : Byte) : Bool :=
  b.tmr.running && isSound x && !(timerRun b.tmr true (parN r 0)).done

theorem pulseGoes_eq (r : ParamRec) (b : BlkSt) (x : Byte) :
    pulseGoes r b x = (b.tmr.running && isSound x && !(timerRun b.tmr b.tmr.running (parN r 0)).done) := by
  unfold pulseGoes
  cases b.tmr.running <;> rfl

theorem stepTp_edge0 (r : ParamRec) (b : BlkSt) (x : Byte) : (stepTp r b x).1.edge0 = x := by
  unfold stepTp
  dsimp only
  split
  · rfl
  · split <;> rfl

theorem stepTp_goes {r : ParamRec} {b : BlkSt} {x : Byte} (h : pulseGoes r b x = true) :
    stepTp r b x = ({ b with tmr := timerRun b.tmr true (parN r 0), edge0 := x }, [setV x true]) := by
  have hrun : b.tmr.running = true := by
    simp only [pulseGoes, Bool.and_eq_true] at h
    exact h.1.1
  unfold stepTp
  dsimp only
  rw [if_pos (pulseGoes_eq r b x ▸ h), hrun]

theorem stepTp_starts {r : ParamRec} {b : BlkSt} {x : Byte} (h : pulseGoes r b x = false)
    (he : validEdge (agelimOf r) b.edge0 x = true) :
    stepTp r b x = ({ b with tmr := { elapsed := 0, running := true, done := false }, edge0 := x }, [setV x true]) := by
  unfold stepTp
  dsimp only
  rw [if_neg (by rw [← pulseGoes_eq, h]; decide), if_pos he]

theorem stepTp_rests {r : ParamRec} {b : BlkSt} {x : Byte} (h : pulseGoes r b x = false)
    (he : validEdge (agelimOf r) b.edge0 x = false) :
    (stepTp r b x).1.tmr.running = false ∧ (stepTp r b x).2 = [setV x false] := by
  unfold stepTp
  dsimp only
  rw [if_neg (by rw [← pulseGoes_eq, h]; decide), if_neg (by rw [he]; decide)]
  refine ⟨?_, rfl⟩
  dsimp only
  split <;> rfl

/-! ## COUNT -/

/-- CV after the frame (R180): frozen, or INIT, or one up and one down within its limits. -/
def countNow (r : ParamRec) (b : BlkSt) (xs : List (Option Byte)) : Int :=
  if !((xs.filterMap id).all isSound) then b.cnt.toInt
  else if isTT (agelimOf r) (inAt xs 2) then parI r 1
  else clampInt (-0x7FFFFFFF) 0x7FFFFFFF (b.cnt.toInt +
    (if inConnected xs 0 && validEdge (agelimOf r) b.edge0 (inAt xs 0) then 1 else 0) -
    (if inConnected xs 1 && validEdge (agelimOf r) b.edge1 (inAt xs 1) then 1 else 0))

theorem stepCount_cnt (r : ParamRec) (b : BlkSt) (xs : List (Option Byte)) :
    (stepCount r b xs).1.cnt = wordOfInt (countNow r b xs) := rfl

theorem clampInt_mem {lo hi : Int} (h : lo ≤ hi) (x : Int) : lo ≤ clampInt lo hi x ∧ clampInt lo hi x ≤ hi := by
  unfold clampInt
  split
  · exact ⟨le_rfl, h⟩
  · split <;> omega

/-- CV fits its 32 bits. -/
theorem toInt_countNow (r : ParamRec) (b : BlkSt) (xs : List (Option Byte)) :
    (wordOfInt (countNow r b xs)).toInt = countNow r b xs := by
  have hword : ∀ w : W32, (wordOfInt w.toInt).toInt = w.toInt := fun w => congrArg BitVec.toInt BitVec.ofInt_toInt
  unfold countNow
  split
  · exact hword _
  · split
    · exact hword _
    · obtain ⟨hlo, hhi⟩ := clampInt_mem (lo := -0x7FFFFFFF) (hi := 0x7FFFFFFF) (by decide) (b.cnt.toInt +
        (if inConnected xs 0 && validEdge (agelimOf r) b.edge0 (inAt xs 0) then 1 else 0) -
        (if inConnected xs 1 && validEdge (agelimOf r) b.edge1 (inAt xs 1) then 1 else 0))
      exact BitVec.toInt_ofInt_eq_self (by decide) (by omega) (by omega)

theorem countNow_frozen {r : ParamRec} {b : BlkSt} {xs : List (Option Byte)} (h : ∃ z ∈ xs.filterMap id, isSound z = false) :
    countNow r b xs = b.cnt.toInt := by
  refine if_pos ?_
  obtain ⟨z, hz, hs⟩ := h
  rw [Bool.not_eq_true', List.all_eq_false]
  exact ⟨z, hz, by simp [hs]⟩

theorem countNow_sound {r : ParamRec} {b : BlkSt} {xs : List (Option Byte)} (h : ∀ z ∈ xs.filterMap id, isSound z = true) :
    countNow r b xs = if isTT (agelimOf r) (inAt xs 2) then parI r 1
      else clampInt (-0x7FFFFFFF) 0x7FFFFFFF (b.cnt.toInt +
        (if inConnected xs 0 && validEdge (agelimOf r) b.edge0 (inAt xs 0) then 1 else 0) -
        (if inConnected xs 1 && validEdge (agelimOf r) b.edge1 (inAt xs 1) then 1 else 0)) :=
  if_neg (by rw [List.all_eq_true.2 h]; decide)

/-! ## The rules -/

section
variable {c : BlkCtx} {r : ParamRec} {b : BlkSt} {pr : PairRec} {xs : List (Option Byte)} {vs : List (ValSrc × Val)}
  {y : Nat → Byte → Prop} {pos : Val}

theorem timingRules_stepBlock (hb : parityOk b.edge0 = true) (hy : Shows (stepBlock c r b pr xs vs).2.1 y)
    (hpos : Forms (stepBlock c r b pr xs vs).2.2 pos) : TimingRules r b (stepBlock c r b pr xs vs).1 xs (inAt xs) y pos := by
  rintro age rfl
  refine ⟨fun h => ?ton, fun h => ?tof, fun h => ?tp, fun h => ?rslatch, fun h => ?edge, fun h => ?release, fun h => ?count⟩
  case ton =>
    rw [stepBlock_ton _ _ _ _ _ h] at hy ⊢
    exact ⟨rfl, hy 0 _ rfl⟩
  case tof =>
    rw [stepBlock_tof _ _ _ _ _ h] at hy ⊢
    refine ⟨fun ht => ?_, fun h0 hon tm htm => ?_, fun ht hoff => ?_⟩
    · rw [stepTof_trusted ht] at hy ⊢
      exact ⟨rfl, rfl, hy 0 _ rfl⟩
    · rw [stepTof_held h0 hon htm] at hy ⊢
      exact ⟨rfl, rfl, hy 0 _ rfl⟩
    · rw [stepTof_off ht hoff] at hy ⊢
      exact ⟨rfl, rfl, hy 0 _ rfl⟩
  case tp =>
    rw [stepBlock_tp _ _ _ _ _ h] at hy ⊢
    refine ⟨stepTp_edge0 r b _, ?_⟩
    rintro tm go rfl rfl
    refine ⟨fun hgo => ?_, fun hgo h0 ht => ?_, fun hgo hno => ?_⟩
    · rw [stepTp_goes hgo] at hy ⊢
      exact ⟨rfl, hy 0 _ rfl⟩
    · rw [stepTp_starts hgo (by rw [validEdge, h0, ht]; rfl)] at hy ⊢
      exact ⟨rfl, hy 0 _ rfl⟩
    · obtain ⟨hrun, hout⟩ := stepTp_rests hgo (by rcases hno with hno | hno <;> simp [validEdge, hno])
      exact ⟨hrun, hy 0 _ (by rw [unvalued, hout]; rfl)⟩
  case rslatch =>
    rw [stepBlock_rslatch _ _ _ _ _ h] at hy ⊢
    exact ⟨rfl, hy 0 _ rfl⟩
  case edge =>
    rw [stepBlock_edge _ _ _ _ _ h] at hy ⊢
    have hread : parityChecked b.edge0 = b.edge0 := if_pos hb
    exact ⟨rfl, hy 0 _ (by simp only [unvalued, stepEdge, hread, Bool.and_assoc]; rfl)⟩
  case release =>
    rw [stepBlock_release _ _ _ _ _ h] at hy ⊢
    rintro z rfl
    exact ⟨rfl, hy 0 _ rfl⟩
  case count =>
    rw [stepBlock_count _ _ _ _ _ h] at hy hpos ⊢
    have hcv : (stepCount r b xs).1.cnt.toInt = countNow r b xs := by rw [stepCount_cnt, toInt_countNow]
    refine ⟨rfl, rfl, ?_, ?_, fun hbad => ?_, fun hall hreset => ?_, fun hall hreset => ?_⟩
    · rw [hpos _ rfl]
      exact hcv.symm
    · show y 0 (mkBead (decide (parI r 0 ≤ (stepCount r b xs).1.cnt.toInt)) _)
      rw [hcv]
      exact hy 0 _ rfl
    · exact (stepCount_cnt r b xs).trans ((congrArg wordOfInt (countNow_frozen hbad)).trans BitVec.ofInt_toInt)
    · exact (stepCount_cnt r b xs).trans (congrArg wordOfInt ((countNow_sound hall).trans (if_pos hreset)))
    · exact (stepCount_cnt r b xs).trans (congrArg wordOfInt ((countNow_sound hall).trans (if_neg (by simp [hreset]))))

end

end Sys2Proof.Machine
end

section
/-! SUPPORT. The two-channel inputs and MODESEL (R161, R164, R165): each step meets its rule. -/

namespace Sys2Proof.Machine

open Sys2Proof.Claims

/-! ## Discrepancy and restart latch -/

theorem discrepancy_rule (disc : Nat) (p q c : Byte) (tm : Timer) (low : Bool) :
    Discrepancy disc p q c tm low (discrepancy disc p q c tm low).1 (discrepancy disc p q c tm low).2.1 := by
  refine ⟨rfl, ?_, ?_⟩
  · rintro rfl
    by_cases hleft : (isSound0 p && isSound0 q) = true
    · have hpq := hleft
      rw [Bool.and_eq_true] at hpq
      simp [discrepancy, hleft, beadV_of_isSound0 hpq.1, beadV_of_isSound0 hpq.2]
    · simp [discrepancy, hleft]
  · rintro w rfl hc
    refine ⟨fun heq => ?_, fun hne => ?_⟩
    · simp [discrepancy, hc, heq]
    · simp [discrepancy, hc, hne]

/-- What a step that takes its state from `discrepancy` meets. -/
theorem discrepancy_of_eq {disc : Nat} {p q c c' : Byte} {tm tm' : Timer} {low low' : Bool}
    (h : (c', tm', low') = discrepancy disc p q c tm low) :
    Discrepancy disc p q c tm low c' tm' ∧ low' = (beadV p == beadV q && !beadV p) := by
  have hrule := discrepancy_rule disc p q c tm low
  have hlow : (discrepancy disc p q c tm low).2.2 = (beadV p == beadV q && !beadV p) := by simp [discrepancy, bne]
  rw [← h] at hrule hlow
  exact ⟨hrule, hlow⟩

theorem restartLatch_rule (hold : Bool) (age : Nat) (l before rst unl : Byte) :
    LatchNow hold age l before rst unl (restartLatch hold age l before rst unl) := by
  refine ⟨fun h => if_pos (by rcases h with h | h <;> simp [h]), fun hh hu => ?_⟩
  exact if_neg (by simp [hh, hu])

/-! ## The two-channel core -/

/-- The block is a two-channel core with these parameters. -/
def IsCore (r : ParamRec) (anti lock manual : Bool) (disc : Nat) : Prop :=
  (r.ty = tyDUALCH ∧ anti = !parB r 0 ∧ disc = parN r 1 ∧ manual = parB r 2 ∧ lock = false) ∨
    (r.ty = tyGUARD ∧ anti = !parB r 0 ∧ disc = parN r 1 ∧ manual = parB r 2 ∧ lock = parB r 3) ∨
    ((r.ty = tyESTOP ∨ r.ty = tyMANREL) ∧ anti = false ∧ disc = parN r 0 ∧ manual = true ∧ lock = false) ∨
    (r.ty = tyOSSD ∧ anti = false ∧ disc = parN r 0 ∧ manual = parB r 1 ∧ lock = false)

theorem IsCore.ty {r : ParamRec} {anti lock manual : Bool} {disc : Nat} (h : IsCore r anti lock manual disc) :
    r.ty = tyDUALCH ∨ r.ty = tyESTOP ∨ r.ty = tyOSSD ∨ r.ty = tyGUARD ∨ r.ty = tyMANREL := by
  rcases h with ⟨h, -⟩ | ⟨h, -⟩ | ⟨h | h, -⟩ | ⟨h, -⟩ <;> simp [h]

/-- What the step reads of a core's parameters. -/
theorem IsCore.params {r : ParamRec} {anti lock manual : Bool} {disc : Nat} (h : IsCore r anti lock manual disc) :
    (if r.ty = tyDUALCH ∨ r.ty = tyGUARD then parB r 0 else true) = !anti ∧
    (if r.ty = tyDUALCH ∨ r.ty = tyGUARD then parN r 1 else parN r 0) = disc ∧
    (decide (r.ty = tyGUARD) && parB r 3) = lock ∧ restartOf r = manual := by
  unfold restartOf
  rcases h with ⟨hty, rfl, rfl, rfl, rfl⟩ | ⟨hty, rfl, rfl, rfl, rfl⟩ | ⟨hty | hty, rfl, rfl, rfl, rfl⟩ |
    ⟨hty, rfl, rfl, rfl, rfl⟩ <;> rw [hty] <;> simp [tyDUALCH, tyGUARD, tyESTOP, tyMANREL, tyOSSD]

/-- Input B as a core reads it: inverted where the pair is antivalent. -/
def coreB (anti : Bool) (xs : List (Option Byte)) : Byte := if anti then notBead (inAt xs 1) else inAt xs 1

/-- A pair of the core is DISCREPANT after the frame. -/
def coreBad (lock : Bool) (n : BlkSt) : Bool := n.code == 2#8 || (lock && n.code2 == 2#8)

def coreRaw (anti lock : Bool) (xs : List (Option Byte)) : Byte :=
  if lock then andBeads [inAt xs 0, coreB anti xs, inAt xs 3, inAt xs 4] else andBeads [inAt xs 0, coreB anti xs]

/-- The unlatched result of a core whose state after the frame is `n`. -/
def coreUnlatched (anti lock : Bool) (xs : List (Option Byte)) (n : BlkSt) : Byte :=
  if coreBad lock n then clearD (coreRaw anti lock xs) else coreRaw anti lock xs

def coreLatched (anti lock manual : Bool) (xs : List (Option Byte)) (n : BlkSt) : Byte :=
  if manual then andBeads [coreUnlatched anti lock xs n, n.latch] else coreUnlatched anti lock xs n

def coreOut (anti lock manual : Bool) (xs : List (Option Byte)) (n : BlkSt) : Byte :=
  if coreBad lock n then clearD (coreLatched anti lock manual xs n) else coreLatched anti lock manual xs n

section
variable {c : BlkCtx} {r : ParamRec} {b : BlkSt} {xs : List (Option Byte)} {anti lock manual : Bool} {disc : Nat}

theorem coreB_eq (anti : Bool) (xs : List (Option Byte)) :
    (if (!anti) = true then inAt xs 1 else notBead (inAt xs 1)) = coreB anti xs := by
  cases anti <;> rfl

theorem stepTwoChannel_pair (h : IsCore r anti lock manual disc) :
    ((stepTwoChannel c r b xs).1.code, (stepTwoChannel c r b xs).1.tmr, (stepTwoChannel c r b xs).1.own) =
      discrepancy disc (inAt xs 0) (coreB anti xs) b.code b.tmr b.own := by
  obtain ⟨hequiv, hdisc, -, -⟩ := h.params
  rw [← coreB_eq, ← hequiv, ← hdisc]
  rfl

theorem stepTwoChannel_lockPair (h : IsCore r anti lock manual disc) (hl : lock = true) :
    ((stepTwoChannel c r b xs).1.code2, (stepTwoChannel c r b xs).1.tmr2, (stepTwoChannel c r b xs).1.own2) =
      discrepancy disc (inAt xs 3) (inAt xs 4) b.code2 b.tmr2 b.own2 := by
  obtain ⟨-, hdisc, hlock, -⟩ := h.params
  have hpair : ((stepTwoChannel c r b xs).1.code2, (stepTwoChannel c r b xs).1.tmr2, (stepTwoChannel c r b xs).1.own2) =
      if lock then discrepancy disc (inAt xs 3) (inAt xs 4) b.code2 b.tmr2 b.own2 else (b.code2, b.tmr2, b.own2) := by
    rw [← hdisc, ← hlock]
    rfl
  exact hpair.trans (if_pos hl)

theorem stepTwoChannel_latch (h : IsCore r anti lock manual disc) : (stepTwoChannel c r b xs).1.latch =
    if manual then restartLatch c.hold (agelimOf r) b.latch b.edge0 (inAt xs 2)
      (coreUnlatched anti lock xs (stepTwoChannel c r b xs).1) else b.latch := by
  obtain ⟨hequiv, -, hlock, hman⟩ := h.params
  unfold coreUnlatched coreBad coreRaw
  rw [← coreB_eq, ← hequiv, ← hlock, ← hman]
  rfl

theorem stepTwoChannel_out (h : IsCore r anti lock manual disc) {out : Byte}
    (ho : out = coreOut anti lock manual xs (stepTwoChannel c r b xs).1) :
    (stepTwoChannel c r b xs).2 = if r.ty = tyMANREL then [out, notBead out] else [out] := by
  obtain ⟨hequiv, -, hlock, hman⟩ := h.params
  have hlatched : coreLatched anti lock manual xs (stepTwoChannel c r b xs).1 = if manual then
      andBeads [coreUnlatched anti lock xs (stepTwoChannel c r b xs).1, restartLatch c.hold (agelimOf r) b.latch b.edge0 (inAt xs 2)
        (coreUnlatched anti lock xs (stepTwoChannel c r b xs).1)] else coreUnlatched anti lock xs (stepTwoChannel c r b xs).1 := by
    unfold coreLatched
    rw [stepTwoChannel_latch h]
    cases manual <;> rfl
  subst ho
  unfold coreOut
  rw [hlatched]
  unfold coreUnlatched coreBad coreRaw
  rw [← coreB_eq, ← hequiv, ← hlock, ← hman]
  rfl

end

/-! ## MODESEL -/

/-- Position `i` is selected: both its inputs are sound with V = 1. -/
def posSelected (xs : List (Option Byte)) (i : Nat) : Bool :=
  isSound (inAt xs (2 * i)) && beadV (inAt xs (2 * i)) && isSound (inAt xs (2 * i + 1)) && beadV (inAt xs (2 * i + 1))

/-- Position `i` is off: both its inputs are sound with V = 0. -/
def posOff (xs : List (Option Byte)) (i : Nat) : Bool := isSound0 (inAt xs (2 * i)) && isSound0 (inAt xs (2 * i + 1))

/-- R165: exactly one position is selected and every other input is sound with V = 0. -/
def OneSelected (xs : List (Option Byte)) (n : Nat) : Prop :=
  ∃ i, i < n ∧ posSelected xs i = true ∧
    ∀ j, j < n → j ≠ i → isSound0 (inAt xs (2 * j)) = true ∧ isSound0 (inAt xs (2 * j + 1)) = true

theorem posSelected_eq_false_of_off {xs : List (Option Byte)} {i : Nat} (h : isSound0 (inAt xs (2 * i)) = true) :
    posSelected xs i = false := by
  simp [posSelected, beadV_of_isSound0 h]

/-- A list of different elements has one that passes alone exactly where the filter leaves one. -/
theorem length_filter_eq_one_iff {α : Type} {l : List α} (hnd : l.Nodup) (p : α → Bool) :
    (l.filter p).length = 1 ↔ ∃ i ∈ l, p i = true ∧ ∀ j ∈ l, p j = true → j = i := by
  rw [List.length_eq_one_iff]
  constructor
  · rintro ⟨i, hi⟩
    have hmem : ∀ j, j ∈ l ∧ p j = true ↔ j = i := fun j => by rw [← List.mem_filter, hi, List.mem_singleton]
    exact ⟨i, ((hmem i).2 rfl).1, ((hmem i).2 rfl).2, fun j hj hp => (hmem j).1 ⟨hj, hp⟩⟩
  · rintro ⟨i, hi, hp, huniq⟩
    refine ⟨i, List.perm_singleton.1 ((List.perm_ext_iff_of_nodup (hnd.filter p) (List.nodup_singleton i)).2 fun j => ?_)⟩
    rw [List.mem_filter, List.mem_singleton]
    exact ⟨fun h => huniq j h.1 h.2, fun h => h ▸ ⟨hi, hp⟩⟩

/-- The step's test of a valid frame. -/
theorem validFrame_iff (xs : List (Option Byte)) (n : Nat) :
    (((List.range n).filter (posSelected xs)).length == 1 && (List.range n).all fun i => posSelected xs i || posOff xs i) = true ↔
      OneSelected xs n := by
  rw [Bool.and_eq_true, beq_iff_eq, length_filter_eq_one_iff List.nodup_range, List.all_eq_true]
  simp only [List.mem_range, Bool.or_eq_true, posOff, Bool.and_eq_true]
  constructor
  · rintro ⟨⟨i, hi, hsel, huniq⟩, hall⟩
    exact ⟨i, hi, hsel, fun j hj hne => (hall j hj).resolve_left fun h => hne (huniq j hj h)⟩
  · rintro ⟨i, hi, hsel, hoff⟩
    refine ⟨⟨i, hi, hsel, fun j hj hj' => ?_⟩, fun j hj => ?_⟩
    · by_contra hne
      rw [posSelected_eq_false_of_off (hoff j hj hne).1] at hj'
      exact absurd hj' (by decide)
    · by_cases hne : j = i
      · exact .inl (hne ▸ hsel)
      · exact .inr (hoff j hj hne)

theorem stepModesel_valid {r : ParamRec} {xs : List (Option Byte)} (b : BlkSt) (h : OneSelected xs (parN r 0)) :
    stepModesel r b xs = ({ b with code := 0, tmr := Timer.stopped }, (List.range (parN r 0)).map fun i =>
      mkBead (posSelected xs i) (mergeEvid [inAt xs (2 * i), inAt xs (2 * i + 1)])) := by
  unfold stepModesel modeselPairs
  simp only [List.filter_map, List.length_map, List.all_map, List.map_map]
  exact if_pos ((validFrame_iff xs _).2 h)

theorem stepModesel_invalid {r : ParamRec} {xs : List (Option Byte)} {b : BlkSt} (h : ¬ OneSelected xs (parN r 0)) {bad : Bool}
    (hbad : bad = (b.code == 2#8 || (timerRun b.tmr true (parN r 1)).done)) :
    stepModesel r b xs = ({ b with code := if bad then 2 else 1, tmr := timerRun b.tmr true (parN r 1) },
      (List.range (parN r 0)).map fun i => if bad then clearD (andBeads [inAt xs (2 * i), inAt xs (2 * i + 1)])
        else andBeads [inAt xs (2 * i), inAt xs (2 * i + 1)]) := by
  subst hbad
  unfold stepModesel modeselPairs
  simp only [List.filter_map, List.length_map, List.all_map, List.map_map]
  exact if_neg (mt (validFrame_iff xs _).1 h)

theorem getElem?_map_range {α : Type} (f : Nat → α) {n i : Nat} (h : i < n) : ((List.range n).map f)[i]? = some (f i) := by
  rw [List.getElem?_map, List.getElem?_range h]
  rfl

/-! ## The rules -/

section
variable {c : BlkCtx} {r : ParamRec} {b : BlkSt} {pr : PairRec} {xs : List (Option Byte)} {vs : List (ValSrc × Val)}
  {y : Nat → Byte → Prop}

theorem inputRules_stepBlock (hy : Shows (stepBlock c r b pr xs vs).2.1 y) :
    InputRules c.hold r b (stepBlock c r b pr xs vs).1 (inAt xs) y := by
  rintro age rfl
  refine ⟨fun anti lock manual bad disc q raw unl res hcore hq hbad hraw hunl hres => ?core, fun h k one hk hone => ?modesel⟩
  case core =>
    change IsCore r anti lock manual disc at hcore
    rw [stepBlock_twoChannel _ _ _ _ _ hcore.ty] at hy hbad hres ⊢
    obtain rfl : q = coreB anti xs := hq
    obtain rfl : raw = coreRaw anti lock xs := hraw.trans (apply_ite ..)
    obtain rfl : unl = coreUnlatched anti lock xs (stepTwoChannel c r b xs).1 := by rw [hunl, hbad]; rfl
    have hout : (if bad then clearD res else res) = coreOut anti lock manual xs (stepTwoChannel c r b xs).1 := by
      rw [hres, hbad]; rfl
    have hbeads : (stepTwoChannel c r b xs).2 = _ := stepTwoChannel_out hcore hout
    have hlatch := stepTwoChannel_latch (c := c) (b := b) (xs := xs) hcore
    obtain ⟨hpair, hown⟩ := discrepancy_of_eq (stepTwoChannel_pair (c := c) (b := b) (xs := xs) hcore)
    refine ⟨hpair, hown, fun hl => (discrepancy_of_eq (stepTwoChannel_lockPair hcore hl)).1, rfl, ?_, ?_, ?_, fun hman => ?_⟩
    · rintro rfl
      exact hlatch ▸ restartLatch_rule ..
    · rintro rfl
      exact hlatch
    · refine hy 0 _ ?_
      rw [unvalued, hbeads]
      split <;> rfl
    · refine hy 1 _ ?_
      rw [unvalued, hbeads, if_pos hman]
      rfl
  case modesel =>
    subst hk hone
    rw [stepBlock_modesel _ _ _ _ _ h] at hy ⊢
    refine ⟨fun hone => ?_, fun hone => ?_⟩
    · rw [stepModesel_valid b hone] at hy ⊢
      exact ⟨rfl, rfl, fun i hi => hy i _ (getElem?_map_range _ hi)⟩
    · have hcode : ∀ bad : Bool, (if bad then (2 : Byte) else 1) = 2#8 ↔ bad = true := by decide
      rw [stepModesel_invalid hone rfl] at hy ⊢
      refine ⟨rfl, by simp [unvalued], fun i hi z hz => hy i _ ?_⟩
      subst hz
      simp only [unvalued, hcode]
      exact getElem?_map_range _ hi

end

end Sys2Proof.Machine
end

section
/-! SUPPORT. CLOSEDLOCKED, OBSTACLE, ZEROSPEED, DOORPOS and CMP (R167, R180, R526): each step meets its rule. -/

namespace Sys2Proof.Machine

open Sys2Proof.Claims

section
variable {c : BlkCtx} {r : ParamRec} {b : BlkSt} {pr : PairRec} {xs : List (Option Byte)} {vs : List (ValSrc × Val)}
  {y : Nat → Byte → Prop} {pos : Val}

theorem ite_bnot {α : Type} (k : Bool) (p q : α) : (if !k then p else q) = if k then q else p := by
  cases k <;> rfl

/-! ## CLOSEDLOCKED -/

theorem stepClosedLocked_stays (hc : b.code = 2#8) (h : isSound0 (inAt xs 0) = false ∨ isSound0 (inAt xs 1) = false) :
    (stepClosedLocked r b xs).1.code = 2#8 := by
  have hstays : (b.code == 2#8 && !(isSound0 (inAt xs 0) && isSound0 (inAt xs 1))) = true := by
    rcases h with h | h <;> simp [hc, h]
  exact if_pos hstays

theorem stepClosedLocked_judges {cond : Bool} (hcond : cond = (isTT (agelimOf r) (inAt xs 1) && isSound0 (inAt xs 0)))
    (h : b.code ≠ 2#8 ∨ (isSound0 (inAt xs 0) = true ∧ isSound0 (inAt xs 1) = true)) :
    (stepClosedLocked r b xs).1.tmr = timerRun b.tmr cond (parN r 0) ∧
    (stepClosedLocked r b xs).1.code = if cond then (if (stepClosedLocked r b xs).1.tmr.done then 2#8 else 1#8) else 0#8 := by
  have hstays : (b.code == 2#8 && !(isSound0 (inAt xs 0) && isSound0 (inAt xs 1))) = false := by
    rcases h with h | ⟨h0, h1⟩
    · simp [h]
    · simp [h0, h1]
  subst hcond
  have htmr : (stepClosedLocked r b xs).1.tmr =
      timerRun b.tmr (isTT (agelimOf r) (inAt xs 1) && isSound0 (inAt xs 0)) (parN r 0) := by
    refine congrArg (timerRun b.tmr · (parN r 0)) ?_
    rw [hstays, Bool.not_false, Bool.and_true]
  refine ⟨htmr, ?_⟩
  refine (if_neg (Bool.eq_false_iff.1 hstays)).trans ?_
  exact ite_bnot _ _ _

/-! ## ZEROSPEED -/

/-- ZEROSPEED's frequencies differ by more than its tolerance. -/
def speedsDiffer (r : ParamRec) (u v : Val) : Bool :=
  decide ((parN r 0 : Int) ≤ max u.value v.value) &&
    decide ((parN r 1 : Int) * max u.value v.value < (max u.value v.value - min u.value v.value) * 100)

theorem stepZeroSpeed_stays {u v : Val} (hc : b.code = 2#8)
    (h : min u.value v.value < (parN r 0 : Int) ∨ speedsDiffer r u v = true) : (stepZeroSpeed r b u v).1.code = 2#8 := by
  have hstays : (b.code == 2#8 && !(decide ((parN r 0 : Int) ≤ min u.value v.value) && !speedsDiffer r u v)) = true := by
    rcases h with h | h
    · simp only [hc, decide_eq_false (not_le.2 h)]; rfl
    · simp [hc, h]
  exact if_pos hstays

theorem stepZeroSpeed_judges {u v : Val}
    (h : b.code ≠ 2#8 ∨ ((parN r 0 : Int) ≤ min u.value v.value ∧ speedsDiffer r u v = false)) :
    (stepZeroSpeed r b u v).1.code =
      if speedsDiffer r u v then (if (timerRun b.tmr (speedsDiffer r u v) (parN r 2)).done then 2#8 else 1#8) else 0#8 := by
  have hstays : (b.code == 2#8 && !(decide ((parN r 0 : Int) ≤ min u.value v.value) && !speedsDiffer r u v)) = false := by
    rcases h with h | ⟨hlo, hd⟩
    · simp [h]
    · simp only [decide_eq_true hlo, hd]; simp
  refine (if_neg (Bool.eq_false_iff.1 hstays)).trans ?_
  exact ite_bnot _ _ _

/-! ## Differences that last (DOORPOS, CMP) -/

theorem diffTimed_code (code : Byte) (t : Timer) (past : Bool) (disc : Nat) : (diffTimed code t past disc).1 =
    if past then (if code = 2#8 ∨ (diffTimed code t past disc).2.done = true then 2#8 else 1#8) else 0#8 := by
  cases past
  · rfl
  · simp [diffTimed]

/-! ## OBSTACLE -/

/-- OBSTACLE's hold, which runs from the last frame in which the AND of SENSE had V = 0 (log 67). -/
def obstacleTimer (r : ParamRec) (b : BlkSt) (z : Byte) : Timer :=
  if !beadV z then { elapsed := 0, running := true, done := decide (parN r 0 = 0) }
  else if b.tmr.running then
    if parN r 0 ≤ min (b.tmr.elapsed + 1) (parN r 0) then
      { Timer.stopped with elapsed := min (b.tmr.elapsed + 1) (parN r 0), done := true }
    else { elapsed := min (b.tmr.elapsed + 1) (parN r 0), running := true, done := false }
  else Timer.stopped

theorem obstacleTimer_sensed {z : Byte} (h : beadV z = false) :
    (obstacleTimer r b z).running = true ∧ (obstacleTimer r b z).elapsed = 0 := by
  rw [obstacleTimer, if_pos (by simp [h])]
  exact ⟨rfl, rfl⟩

theorem obstacleTimer_runs {z : Byte} (h : beadV z = true) (hr : b.tmr.running = true) :
    (obstacleTimer r b z).elapsed = min (b.tmr.elapsed + 1) (parN r 0) ∧
    (obstacleTimer r b z).running = decide (b.tmr.elapsed + 1 < parN r 0) := by
  rw [obstacleTimer, if_neg (by simp [h]), if_pos hr]
  split
  · next hle => exact ⟨rfl, (decide_eq_false (by omega)).symm⟩
  · next hlt => exact ⟨rfl, (decide_eq_true (by omega)).symm⟩

theorem obstacleTimer_rests {z : Byte} (h : beadV z = true) (hr : b.tmr.running = false) : (obstacleTimer r b z).running = false := by
  rw [obstacleTimer, if_neg (by simp [h]), if_neg (by simp [hr])]
  rfl

/-- OBSTACLE holds CLEAR at V = 0: the door senses, or the hold runs. -/
def obstacleHolds (r : ParamRec) (b : BlkSt) (z : Byte) : Bool := !beadV z || (obstacleTimer r b z).running

theorem obstacleHolds_iff (z : Byte) : obstacleHolds r b z = true ↔ beadV z = false ∨ (obstacleTimer r b z).running = true := by
  simp [obstacleHolds]

/-- The step of OBSTACLE by its event, its lockout and its count of reopenings (R182, R526). -/
theorem stepObstacle_eq {z : Byte} {reset event locks lockout : Bool} {cnt : Nat} (hz : z = andBeads ((xs.take 4).filterMap id))
    (hreset : reset = (b.code == 2#8 && validEdge (agelimOf r) b.edge2 (inAt xs 6)))
    (hcnt : cnt = (if isTT (agelimOf r) (inAt xs 5) || reset then 0 else b.cnt.toNat))
    (hevent : event = (isTT (agelimOf r) (inAt xs 4) && isSound0 z && (beadV b.edge0 || !isTT (agelimOf r) b.edge1)))
    (hlocks : locks = (event && decide (parN r 1 < min (cnt + 1) 0xFFFF))) (hout : lockout = (b.code == 2#8 && !reset || locks)) :
    stepObstacle r b xs =
      ({ b with code := if lockout then 2 else if obstacleHolds r b z then 1 else 0, tmr := obstacleTimer r b z
                cnt := BitVec.ofNat 32 (if event then min (cnt + 1) 0xFFFF else cnt)
                edge0 := z, edge1 := inAt xs 4, edge2 := inAt xs 6 },
       [if lockout then sound0 else if obstacleHolds r b z then setV z false else z, soundBead (event && !locks), soundBead lockout]) := by
  have hcount : locks = (event && decide (parN r 1 < if event then min (cnt + 1) 0xFFFF else cnt)) := by
    rw [hlocks]
    cases event <;> rfl
  subst hout
  rw [hcount, hevent, hcnt, hreset, hz]
  rfl

/-! ## DOORPOS -/

/-- A door count corrected by the offset of its direction, where one is in force (R167). -/
def corrected (offsets : Tab (Int × Int)) (k : Nat) (w : Val) : Int :=
  match tabFind offsets k with
  | some (closing, opening) => w.value + (if w.closing then closing else opening)
  | none => w.value

/-- Q and T of the two sources, T only with both offsets in force. -/
def doorEvid (d known : Bool) (u v : Val) : Evid := { valEvid d [u, v] with t := u.t && v.t && known }

theorem doorEvid_eq (d known : Bool) (u v : Val) :
    (if known then valEvid d [u, v] else { valEvid d [u, v] with t := false }) = doorEvid d known u v := by
  cases known <;> simp [doorEvid, valEvid, Evid.sound]

/-- The step of DOORPOS over two quadrature pairs (R167). -/
theorem stepDoorpos_eq {p q : Nat} {u v : Val} {pa pb : Int} {known : Bool} {d : Byte × Timer} {e : Evid}
    (hpa : pa = corrected c.offsets p u) (hpb : pb = corrected c.offsets q v)
    (hknown : known = ((tabFind c.offsets p).isSome && (tabFind c.offsets q).isSome))
    (hd : d = diffTimed b.code b.tmr (decide ((parN r 2 : Int) < (pa - pb).natAbs)) (parN r 3))
    (he : e = doorEvid (d.1 != 2#8) known u v) :
    stepDoorpos c r b [(.quad p, u), (.quad q, v)] =
      ({ b with code := d.1, tmr := d.2, cnt := wordOfInt u.value, cnt2 := wordOfInt v.value, own2 := true },
       [mkBead (decide (pa ≤ (parN r 0 : Int)) && decide (pb ≤ (parN r 0 : Int))) e,
        mkBead (decide ((parN r 1 : Int) ≤ pa) && decide ((parN r 1 : Int) ≤ pb)) e,
        mkBead (b.own2 && (decide (parN r 4 < (u.value - b.cnt.toInt).natAbs) ||
          decide (parN r 4 < (v.value - b.cnt2.toInt).natAbs))) e],
       { Val.none with value := min pa pb, q := e.q, t := e.t, f := e.f, age := e.age }) := by
  have hconfirmed : (decide ([(ValSrc.quad p, u), (.quad q, v)].length = 2) && [p, q].all fun k => (tabFind c.offsets k).isSome) =
      known := by
    rw [hknown]
    simp
  rw [← doorEvid_eq, ← hconfirmed] at he
  rw [he, hd, hpa, hpb]
  rfl

/-! ## CMP -/

/-- The step of CMP over its first source and its second, the first again where there is none. -/
theorem stepCmp_eq {l : List Val} {u v : Val} {w : Int} {differ : Bool} {d : Byte × Timer} (hu : l.head? = some u) (hv : v = l.getD 1 u)
    (hw : w = min u.value v.value)
    (hdiff : differ = (decide (2 ≤ l.length) && decide ((parN r 3 : Int) < (u.value - v.value).natAbs)))
    (hd : d = diffTimed b.code b.tmr differ (parN r 4)) :
    (stepCmp r b l).1.tmr = d.2 ∧ (stepCmp r b l).1.code = d.1 ∧
    (stepCmp r b l).1.own = (if parI r 0 + parN r 2 ≤ w ∧ w ≤ parI r 1 - parN r 2 then true
      else if w < parI r 0 ∨ parI r 1 < w then false else b.own) ∧
    (stepCmp r b l).2 = [mkBead (stepCmp r b l).1.own (valEvid (d.1 != 2#8) l)] := by
  cases l with
  | nil => exact nomatch hu
  | cons x rest =>
    obtain rfl : x = u := Option.some.inj hu
    subst hd hdiff hw hv
    exact ⟨rfl, rfl, if_congr (by simp) rfl (if_congr (by simp) rfl rfl), rfl⟩

/-! ## The rules -/

theorem doorRules_stepBlock (hy : Shows (stepBlock c r b pr xs vs).2.1 y) (hpos : Forms (stepBlock c r b pr xs vs).2.2 pos) :
    DoorRules c.offsets r b (stepBlock c r b pr xs vs).1 xs (inAt xs) vs y pos := by
  rintro age rfl
  refine ⟨fun h cond z hcond hz => ?closedLocked, fun h z reset event locks cnt hz hreset hcnt hevent hlocks => ?obstacle,
    fun h u v hvs hi lo differ hhi hlo hdiffer => ?zeroSpeed, fun h p q u v hvs at_ known differ e hat hknown hdiffer he => ?doorpos,
    fun h u v hu hv w differ hw hdiffer => ?cmp⟩
  case closedLocked =>
    rw [stepBlock_closedLocked _ _ _ _ _ h] at hy ⊢
    refine ⟨stepClosedLocked_stays, stepClosedLocked_judges hcond, ?_⟩
    simp only [← beq_iff_eq (b := 2#8)]
    subst hz
    exact hy 0 _ rfl
  case obstacle =>
    obtain ⟨lockout, hout⟩ : ∃ k, k = (b.code == 2#8 && !reset || locks) := ⟨_, rfl⟩
    have heq := stepObstacle_eq hz hreset hcnt hevent hlocks hout
    rw [stepBlock_obstacle _ _ _ _ _ h, unvalued, heq] at hy ⊢
    have hcode : (if lockout then (2 : Byte) else if obstacleHolds r b z then 1 else 0) = 2#8 ↔ lockout = true := by
      cases lockout <;> cases obstacleHolds r b z <;> decide
    refine ⟨rfl, rfl, rfl, BitVec.toNat_ofNat .., hcode.trans (by simp [hout]), hy 1 _ rfl, ?_, obstacleTimer_sensed,
      obstacleTimer_runs, obstacleTimer_rests, fun hne => ?_, ?_⟩
    · rw [show (_ == 2#8) = lockout from Bool.eq_iff_iff.2 (beq_iff_eq.trans hcode)]
      exact hy 2 _ rfl
    · simp only [Bool.eq_false_iff.2 (mt hcode.2 hne), ← obstacleHolds_iff]
      rfl
    · refine hy 0 _ ?_
      cases lockout <;> cases obstacleHolds r b z <;> rfl
  case zeroSpeed =>
    subst hvs hhi hlo hdiffer
    rw [stepBlock_zeroSpeed _ _ _ _ _ h] at hy ⊢
    exact ⟨rfl, rfl, stepZeroSpeed_stays, stepZeroSpeed_judges, hy 0 _ rfl⟩
  case doorpos =>
    subst hvs
    have hat' : at_ = corrected c.offsets := by
      rw [hat]
      funext k w
      unfold corrected
      split <;> simp [*]
    subst hat'
    obtain ⟨d, hd⟩ : ∃ d, d = diffTimed b.code b.tmr differ (parN r 3) := ⟨_, rfl⟩
    have hcode := diffTimed_code b.code b.tmr differ (parN r 3)
    have heq := stepDoorpos_eq (c := c) (r := r) (b := b) rfl rfl hknown (hdiffer ▸ hd) rfl
    rw [stepBlock_doorpos _ _ _ _ _ h, valued, heq] at hy hpos he ⊢
    subst he
    rw [hpos _ rfl]
    refine ⟨congrArg Prod.snd hd, ?_, hy 0 _ rfl, hy 1 _ rfl, hy 2 _ rfl, rfl, rfl, rfl, rfl, rfl, rfl⟩
    rw [← hd] at hcode
    exact hcode
  case cmp =>
    rw [stepBlock_cmp _ _ _ _ _ h] at hy ⊢
    have hhead : (vs.map (·.2)).head? = some u.2 := by rw [List.head?_map, hu]; rfl
    have hsecond : v.2 = (vs.map (·.2)).getD 1 u.2 := by rw [hv, List.getD_map]
    obtain ⟨htmr, hcode, hown, hout⟩ := stepCmp_eq (r := r) (b := b) (differ := differ) hhead hsecond hw
      (by rw [hdiffer, List.length_map]) rfl
    refine ⟨htmr, ?_, hown, hy 0 _ ?_⟩
    · have hd := diffTimed_code b.code b.tmr differ (parN r 4)
      rw [← hcode, ← htmr] at hd
      exact hd
    · rw [unvalued, hout, hcode]
      rfl

end

end Sys2Proof.Machine
end

section
/-! SUPPORT. QPAIR, LOCKDRV and RAILCUT (R161, R169): their step meets its rule. -/

namespace Sys2Proof.Machine

open Sys2Proof.Claims

/-- The block is an output with this feedback, its deadline and its reset. -/
def IsOutput (r : ParamRec) (x : Nat → Byte) (edm : Bool) (edmt : Nat) (fb rst : Byte) : Prop :=
  (r.ty = tyQPAIR ∧ edm = parB r 4 ∧ edmt = parN r 5 ∧ fb = x 1 ∧ rst = x 2) ∨
    (r.ty = tyLOCKDRV ∧ edm = false ∧ edmt = 0 ∧ fb = host0 ∧ rst = x 1) ∨
    (r.ty = tyRAILCUT ∧ edm = true ∧ edmt = parN r 0 ∧ fb = x 1 ∧ rst = x 2)

/-- The external device shows what its pair is committed to. -/
def feedbackFollows (age : Nat) (pr : PairRec) (fb : Byte) : Bool := if pr.committed then isSound0 fb else isTT age fb

section
variable {c : BlkCtx} {r : ParamRec} {b : BlkSt} {pr : PairRec} {xs : List (Option Byte)} {vs : List (ValSrc × Val)}
  {y : Nat → Byte → Prop} {edm leaves : Bool} {edmt age : Nat} {demand fb rst base : Byte}

theorem stepBlock_output (h : IsOutput r (inAt xs) edm edmt fb rst) :
    stepBlock c r b pr xs vs = unvalued (stepOutput c r b pr (inAt xs 0) fb rst edm edmt) := by
  rcases h with ⟨hty, rfl, rfl, rfl, rfl⟩ | ⟨hty, rfl, rfl, rfl, rfl⟩ | ⟨hty, rfl, rfl, rfl, rfl⟩
  · exact stepBlock_qpair _ _ _ _ _ hty
  · exact stepBlock_lockdrv _ _ _ _ _ hty
  · exact stepBlock_railcut _ _ _ _ _ hty

theorem edmTiming_follows (hf : feedbackFollows age pr fb = true) (hb : base = if pr.committed then 1#8 else 0#8) :
    edmTiming pr age fb edmt = (base, Timer.stopped) := (if_pos hf).trans (hb ▸ rfl)

theorem edmTiming_waits (hf : feedbackFollows age pr fb = false) :
    (edmTiming pr age fb edmt).1 = (if edmt ≤ pr.sinceCommit then 3#8 else 2#8) ∧
    (edmTiming pr age fb edmt).2.elapsed = min pr.sinceCommit edmt := by
  have hle : edmt ≤ min pr.sinceCommit edmt ↔ edmt ≤ pr.sinceCommit := by omega
  have heq : edmTiming pr age fb edmt = if edmt ≤ min pr.sinceCommit edmt then
      (3, { elapsed := min pr.sinceCommit edmt, running := false, done := true })
    else (2, { elapsed := min pr.sinceCommit edmt, running := true, done := false }) := if_neg (Bool.eq_false_iff.1 hf)
  rw [heq]
  simp only [hle]
  split <;> exact ⟨rfl, rfl⟩

/-- State code and timer of an output after the frame: EDMFAULT until its reset, else as the feedback of its pair tells. -/
theorem stepOutput_timed (hb : base = if pr.committed then 1#8 else 0#8)
    (hl : leaves = (b.code == 3#8 && validEdge (agelimOf r) b.edge0 rst && isTT (agelimOf r) fb)) :
    ((stepOutput c r b pr demand fb rst edm edmt).1.code, (stepOutput c r b pr demand fb rst edm edmt).1.tmr) =
      if b.code == 3#8 && !leaves then (3#8, b.tmr)
      else if !edm || leaves || !(pr.due || b.code == 2#8) then (base, Timer.stopped)
      else edmTiming pr (agelimOf r) fb edmt := by
  subst hb hl
  rfl

theorem stepOutput_latch : (stepOutput c r b pr demand fb rst edm edmt).1.latch =
    if restartOf r || pr.needReset then
      restartLatch (c.hold && restartOf r) (agelimOf r) b.latch b.edge0 rst demand else b.latch := rfl

theorem outputRules_stepBlock (hy : Shows (stepBlock c r b pr xs vs).2.1 y) :
    OutputRules c.hold pr r b (stepBlock c r b pr xs vs).1 (inAt xs) y := by
  rintro age edmt edm fb rst rfl hout base leaves follows hbase hleaves hfollows
  change IsOutput r (inAt xs) edm edmt fb rst at hout
  rw [stepBlock_output hout] at hy ⊢
  have htimed := stepOutput_timed (c := c) (demand := inAt xs 0) (edm := edm) (edmt := edmt) hbase hleaves
  have hlatch := stepOutput_latch (c := c) (r := r) (b := b) (pr := pr) (demand := inAt xs 0) (fb := fb) (rst := rst) (edm := edm)
    (edmt := edmt)
  refine ⟨rfl, hy 0 _ rfl, hy 1 _ rfl, fun hc hl => ?stays, fun hl => ?leaves, fun hc hno => ?settled, fun hc he hdue hf => ?timing,
    fun hr => ?manual, fun hr hn => ?needed, fun hr hn => ?unused⟩
  case stays =>
    rw [if_pos (by simp [hc, hl])] at htimed
    exact congrArg Prod.fst htimed
  case leaves =>
    rw [if_neg (by simp [hl]), if_pos (by simp [hl])] at htimed
    exact congrArg Prod.fst htimed
  case settled =>
    rw [if_neg (by simp [hc])] at htimed
    have hbase' : ((stepOutput c r b pr (inAt xs 0) fb rst edm edmt).1.code, (stepOutput c r b pr (inAt xs 0) fb rst edm edmt).1.tmr) =
        (base, Timer.stopped) := by
      rcases hno with he | ⟨hdue, hc2⟩ | hf
      · exact htimed.trans (if_pos (by simp [he]))
      · exact htimed.trans (if_pos (by simp [hdue, hc2]))
      · rw [edmTiming_follows (hfollows.symm.trans hf) hbase, ite_self] at htimed
        exact htimed
    exact ⟨congrArg Prod.fst hbase', congrArg Prod.snd hbase'⟩
  case timing =>
    rw [if_neg (by simp [hc]), if_neg (by rcases hdue with h | h <;> simp [he, hleaves, h, hc])] at htimed
    obtain ⟨hcode, helapsed⟩ := edmTiming_waits (edmt := edmt) (hfollows.symm.trans hf)
    rw [← htimed] at hcode helapsed
    exact ⟨hcode, helapsed⟩
  case manual =>
    rw [hr, Bool.and_true] at hlatch
    exact hlatch ▸ restartLatch_rule ..
  case needed =>
    rw [hr, hn, Bool.and_false] at hlatch
    exact hlatch ▸ restartLatch_rule ..
  case unused =>
    rw [hr, hn] at hlatch
    exact hlatch

end

end Sys2Proof.Machine
end

section
/-! SUPPORT. A form of one block (R121, R123, R419): what its evaluation writes, and that this is what stands at the end of phase E. -/

namespace Sys2Proof.Machine

open Sys2Proof.Claims

/-! ## The evaluation of one block -/

/-- What the evaluation of a lane writes of it. -/
def evalStOf (x : LaneSt) : EvSt := { beads := x.beads, blk := x.blk, vals := x.blockVals }

theorem writeBeads_blk_vals (e : EvSt) (os : List (Option Nat)) (bs : List Byte) :
    (writeBeads e os bs).blk = e.blk ∧ (writeBeads e os bs).vals = e.vals := by
  induction os generalizing e bs with
  | nil => exact ⟨rfl, rfl⟩
  | cons o os ih =>
    cases bs with
    | nil => cases o <;> exact ⟨rfl, rfl⟩
    | cons v bs => cases o <;> exact ih _ bs

theorem writeBeads_other {os : List Nat} {i : Nat} (h : i ∉ os) (e : EvSt) (bs : List Byte) :
    tabGet paritySub (writeBeads e (os.map some) bs).beads i = tabGet paritySub e.beads i := by
  induction os generalizing e bs with
  | nil => rfl
  | cons o os ih =>
    obtain ⟨ho, hos⟩ := not_or.1 (mt List.mem_cons.2 h)
    cases bs with
    | nil => rfl
    | cons v bs => exact (ih hos _ bs).trans ((tabGet_set ..).trans (if_neg ho))

/-- Outputs on different beads show the values written on them. -/
theorem writeBeads_shows {os : List Nat} (hnd : os.Nodup) (e : EvSt) (bs : List Byte) : Shows bs fun k v => k < os.length →
    tabGet paritySub (writeBeads e (os.map some) bs).beads (os.getD k 0) = v := by
  induction os generalizing e bs with
  | nil => exact fun k v _ hk => nomatch hk
  | cons o os ih =>
    obtain ⟨ho, hos⟩ := List.nodup_cons.1 hnd
    intro k v hv hk
    cases bs with
    | nil => exact nomatch hv
    | cons w bs =>
      cases k with
      | zero =>
        obtain rfl : w = v := Option.some.inj hv
        exact (writeBeads_other ho _ bs).trans ((tabGet_set ..).trans (if_pos rfl))
      | succ k => exact ih hos _ bs k v hv (Nat.lt_of_succ_lt_succ hk)

/-- The staging record under which a block stands (R169). -/
def stagingOf (x : LaneSt) (r : ParamRec) : PairRec :=
  match pairOf r with
  | some p => pairRecOf x p
  | none => PairRec.init

theorem stagingOf_eq {x : LaneSt} {r : ParamRec} {p : Nat} (h : pairOf r = some p) : stagingOf x r = pairRecOf x p := by
  unfold stagingOf
  rw [h]

/-- The latch and the edge memories of a state are free of parity errors. -/
def StoredSound (b : BlkSt) : Prop :=
  (parityOk b.latch && parityOk b.edge0 && parityOk b.edge1 && parityOk b.edge2 && parityOk b.edge3) = true

theorem StoredSound.read {b : BlkSt} (h : StoredSound b) : readState false b = b := by
  unfold StoredSound at h
  simp only [Bool.and_eq_true] at h
  obtain ⟨⟨⟨⟨hl, h0⟩, h1⟩, h2⟩, h3⟩ := h
  simp [readState, parityChecked, hl, h0, h1, h2, h3]

theorem StoredSound.edge0 {b : BlkSt} (h : StoredSound b) : parityOk b.edge0 = true := by
  unfold StoredSound at h
  simp only [Bool.and_eq_true] at h
  obtain ⟨⟨⟨⟨-, h0⟩, -⟩, -⟩, -⟩ := h
  exact h0

/-- R419: the latch of the permit's block in the first frame after test hold. -/
theorem permitLatch_eq (justEnded : Bool) (permit : Option Nat) (os : List Nat) (b : BlkSt)
    [Decidable (justEnded = true ∧ ∃ i ∈ os, permit = some i)] : permitLatch justEnded permit (os.map some) b =
      if justEnded = true ∧ ∃ i ∈ os, permit = some i then { b with latch := sound1 } else b := by
  unfold permitLatch
  cases permit with
  | none => exact (if_neg (by simp)).symm
  | some i => exact if_congr (by simp) rfl rfl

theorem StoredSound.permitLatch {b : BlkSt} (h : StoredSound b) (justEnded : Bool) (permit : Option Nat) (outs : List (Option Nat)) :
    StoredSound (permitLatch justEnded permit outs b) := by
  have hset : StoredSound { b with latch := sound1 } := by
    unfold StoredSound at h ⊢
    simp only [Bool.and_eq_true] at h ⊢
    obtain ⟨⟨⟨⟨-, h0⟩, h1⟩, h2⟩, h3⟩ := h
    exact ⟨⟨⟨⟨by decide, h0⟩, h1⟩, h2⟩, h3⟩
  unfold Machine.permitLatch
  split
  · split
    · exact hset
    · exact h
  · exact h

/-- A lane with the state of a block written, and the value that it forms. -/
def blockWritten (x : LaneSt) (inst : Nat) (n : BlkSt) (v : Option Val) : EvSt :=
  match v with
  | some w => { beads := x.beads, blk := tabSet BlkSt.init x.blk inst n, vals := tabSet Val.none x.blockVals inst w }
  | none => { beads := x.beads, blk := tabSet BlkSt.init x.blk inst n, vals := x.blockVals }

theorem blockWritten_blk (x : LaneSt) (inst : Nat) (n : BlkSt) (v : Option Val) :
    tabGet BlkSt.init (blockWritten x inst n v).blk inst = n := by
  cases v <;> exact (tabGet_set ..).trans (if_pos rfl)

theorem blockWritten_forms (x : LaneSt) (inst : Nat) (n : BlkSt) (v : Option Val) :
    Forms v (tabGet Val.none (blockWritten x inst n v).vals inst) := by
  rintro w rfl
  exact (tabGet_set ..).trans (if_pos rfl)

/-- A block's state, its outputs and its value stand as its step gives them. -/
def BlockLeft (e : EvSt) (inst : Nat) (os : List Nat) (p : BlkSt × List Byte × Option Val) : Prop :=
  tabGet BlkSt.init e.blk inst = p.1 ∧
  (Shows p.2.1 fun k v => k < os.length → tabGet paritySub e.beads (os.getD k 0) = v) ∧
  Forms p.2.2 (tabGet Val.none e.vals inst)

section
variable {ctx : BlkCtx} {x : LaneSt} {cfg : LoafCfg} {r : ParamRec} {inst : Nat} {ins : List (Option Nat)} {os : List Nat}
  {srcs : List ValSrc} {justEnded : Bool} {b : BlkSt} {xs : List (Option Byte)} {vs : List (ValSrc × Val)}
  {p : BlkSt × List Byte × Option Val}

theorem evalLane_element {e : Elem} (hits bad : List Nat) (hc : x.cfg = some cfg) (hi : cfg.form.inputs = [])
    (he : cfg.form.elems = [e]) :
    evalStOf (evalLane ctx hits bad justEnded x) = evalElem ctx cfg x hits bad justEnded (evalStOf x) e := by
  unfold evalLane
  rw [hc]
  dsimp only
  rw [hi, he]
  rfl

variable (hr : cfg.params[inst]? = some r)
  (hb : b = permitLatch justEnded cfg.form.permit (os.map some) (tabGet BlkSt.init x.blk inst)) (hsound : StoredSound b)
  (hxs : xs = ins.map fun o => o.map fun i => parityChecked (beadOf x i))
  (hvs : vs = srcs.map fun w => (w, valueOf x (evalStOf x) w)) (hp : p = stepBlock ctx r b (stagingOf x r) xs vs)
include hr hb hsound hxs hvs hp

theorem evalElem_block : evalElem ctx cfg x [] [] justEnded (evalStOf x) (.block inst ins (os.map some) srcs) =
    writeBeads (blockWritten x inst p.1 p.2.2) (os.map some) p.2.1 := by
  have hstep : stepBlock ctx r (readState false b) (stagingOf x r) xs vs = p := by rw [hsound.read, hp]
  have hkeep : keepLatch r.ty b p.1 = p.1 := by rw [hp, keepLatch_stepBlock]
  have hkept : blockWritten x inst p.1 p.2.2 = blockWritten x inst (keepLatch r.ty b p.1) p.2.2 := by rw [hkeep]
  rw [hkept, ← hstep]
  subst hxs hvs hb
  unfold evalElem
  dsimp only
  rw [hr]
  rfl

/-- A form of one block leaves its block's state, its outputs and its value as its step gives them. -/
theorem evalLane_block (hnd : os.Nodup) (hc : x.cfg = some cfg) (hi : cfg.form.inputs = [])
    (he : cfg.form.elems = [.block inst ins (os.map some) srcs]) :
    BlockLeft (evalStOf (evalLane ctx [] [] justEnded x)) inst os p := by
  rw [evalLane_element [] [] hc hi he, evalElem_block hr hb hsound hxs hvs hp]
  obtain ⟨hblk, hvals⟩ := writeBeads_blk_vals (blockWritten x inst p.1 p.2.2) (os.map some) p.2.1
  refine ⟨?_, writeBeads_shows hnd _ _, ?_⟩
  · rw [hblk]
    exact blockWritten_blk ..
  · rw [hvals]
    exact blockWritten_forms x inst p.1 p.2.2

end

/-! ## What a lane reads beside its own memory -/

/-- DIAG reads of the lanes whether they are in service and their loaf alone. -/
theorem diagCodes_of_lane {s t : State} (h : t = { s with lane := t.lane })
    (hl : ∀ l, (t.lane.at l).cfg = (s.lane.at l).cfg ∧ (t.lane.at l).retired = (s.lane.at l).retired) (x : LaneSt) :
    diagCodes t x = diagCodes s x := by
  obtain ⟨hca, -⟩ := hl .a
  obtain ⟨hcb, -⟩ := hl .b
  have hcfg : activeCfg t = activeCfg s := congrArg₂ otherCfg hca hcb
  have hrole : roleOf t = roleOf s := by
    unfold roleOf
    rw [hcfg]
  have hlive : ∀ l, laneLive t l = laneLive s l := fun l => congrArg (!·) (hl l).2
  have hboth : bothInService t = bothInService s := congrArg₂ (· && ·) (hlive .a) (hlive .b)
  have hshown : ∀ n, shownRetired t x n = shownRetired s x n := fun n => by
    unfold shownRetired
    cases chanSide n with
    | none => rfl
    | some c => exact congrArg (· || _) (hl c).2
  have hsync : syncBit t = syncBit s := by
    unfold syncBit isWorker bypassClosed
    rw [hrole, h]
  unfold diagCodes
  simp only [hboth, hsync, hrole, hshown]
  rw [h]

theorem evaluate_rest (env : PhaseEEnv) (seg : Byte) (s : State) (k : Side) :
    evaluate env seg s k = { s with lane := (evaluate env seg s k).lane } := by
  unfold evaluate
  dsimp only
  split <;> rfl

theorem evaluate_cfg_retired (env : PhaseEEnv) (seg : Byte) (s : State) (k l : Side) :
    ((evaluate env seg s k).lane.at l).cfg = (s.lane.at l).cfg ∧
    ((evaluate env seg s k).lane.at l).retired = (s.lane.at l).retired := by
  rw [evaluate_lane]
  split
  · next h =>
    rw [evalLane_base, h.1]
    exact ⟨rfl, rfl⟩
  · exact ⟨rfl, rfl⟩

/-- What a block reads beside its inputs does not depend on the other lane's evaluation. -/
theorem blkCtx_evaluate (env : PhaseEEnv) (seg seg' : Byte) (s : State) (k : Side) (x : LaneSt) :
    blkCtx (evaluate env seg s k) x seg' = blkCtx s x seg' := by
  have hdiag := diagCodes_of_lane (evaluate_rest env seg s k) (evaluate_cfg_retired env seg s k) x
  have hrest := evaluate_rest env seg s k
  unfold blkCtx
  rw [hdiag, hrest]

theorem lanesEvaluated_runs (env : PhaseEEnv) (seg : Byte) {s : State} {l : Side} (hl : laneRuns s l = true) :
    (lanesEvaluated env seg s).lane.at l = evalLane (blkCtx s (s.lane.at l) seg) (env.parity.at l) (env.stateParity.at l)
      s.test.justEnded (s.lane.at l) := by
  cases l with
  | a =>
    refine (evaluate_lane env seg _ .b .a).trans ?_
    rw [if_neg (by simp), evaluate_lane, if_pos ⟨rfl, hl⟩]
  | b =>
    have hb : (evaluate env seg s .a).lane.at .b = s.lane.at .b := (evaluate_lane env seg s .a .b).trans (if_neg (by simp))
    have hruns : laneRuns (evaluate env seg s .a) .b = laneRuns s .b := by
      unfold laneRuns
      rw [hb]
    refine (evaluate_lane env seg _ .b .b).trans ?_
    rw [if_pos ⟨rfl, hruns.trans hl⟩, hb, evaluate_test, blkCtx_evaluate]

/-! ## The end of the phase -/

/-- What is found against a lane changes nothing that its evaluation wrote. -/
theorem evalFaults_evalStOf (env : PhaseEEnv) (s : State) (l k : Side) :
    evalStOf ((evalFaults env s l).lane.at k) = evalStOf (s.lane.at k) := by
  have hreported : ∀ (found : Bool) (u : State) (r : Rep),
      evalStOf ((if found then laneReport u r else u).lane.at k) = evalStOf (u.lane.at k) := fun found u r => by
    cases found
    · rfl
    · cases k <;> rfl
  unfold evalFaults
  split
  · rfl
  · refine (hreported ..).trans ((hreported ..).trans ?_)
    cases l <;> cases k <;> rfl

theorem clocksChecked_evalStOf (s : State) (k : Side) : evalStOf ((clocksChecked s).lane.at k) = evalStOf (s.lane.at k) := by
  rw [clocksChecked_lane]
  rfl

theorem tallyLane_evalStOf (u : State) (x : LaneSt) : evalStOf (tallyLane u x) = evalStOf x := by
  unfold tallyLane
  split <;> rfl

/-- What the evaluation of a lane wrote stands at the end of phase E. -/
theorem phaseETallied_evalStOf (env : PhaseEEnv) (s : State) (l : Side) : evalStOf ((phaseETallied env s).lane.at l) =
    evalStOf ((lanesEvaluated env (segBead (phaseEDelivered s)) (phaseEDelivered s)).lane.at l) := by
  obtain ⟨blk, h⟩ := phaseETallied_lane env s l
  rw [h, tallyLane_evalStOf]
  unfold phaseEChecked
  refine (clocksChecked_evalStOf _ l).trans ?_
  rw [evalFaults_evalStOf, evalFaults_evalStOf]
  rfl

/-- Without imports a running lane evaluates what it held at the end of window X. -/
theorem phaseETallied_runs {env : PhaseEEnv} {s : State} {l : Side} (hseeds : ∀ cfg, activeCfg s = some cfg → cfg.seeds = [])
    (hl : laneRuns s l = true) : evalStOf ((phaseETallied env s).lane.at l) =
      evalStOf (evalLane (blkCtx s (s.lane.at l) (segBead s)) (env.parity.at l) (env.stateParity.at l) s.test.justEnded
        (s.lane.at l)) := by
  rw [phaseETallied_evalStOf, lanesEvaluated_runs _ _ ((phaseEDelivered_runs s l).trans hl), phaseEDelivered_of_no_seeds s hseeds]
  rfl

/-- A form of one block has left at the end of phase E what its block's step gives. -/
theorem phaseETallied_block {env : PhaseEEnv} {s : State} {l : Side} {cfg : LoafCfg} {r : ParamRec} {inst : Nat} {ins : List (Option Nat)}
    {os : List Nat} {srcs : List ValSrc} {b : BlkSt} {xs : List (Option Byte)} {vs : List (ValSrc × Val)}
    (hseeds : ∀ cfg, activeCfg s = some cfg → cfg.seeds = []) (hl : laneRuns s l = true) (hc : (s.lane.at l).cfg = some cfg)
    (hi : cfg.form.inputs = []) (he : cfg.form.elems = [.block inst ins (os.map some) srcs]) (hr : cfg.params[inst]? = some r)
    (hnd : os.Nodup) (hpar : env.parity.at l = []) (hstate : env.stateParity.at l = [])
    (hb : b = permitLatch s.test.justEnded cfg.form.permit (os.map some) (tabGet BlkSt.init (s.lane.at l).blk inst))
    (hsound : StoredSound b) (hxs : xs = ins.map fun o => o.map fun i => parityChecked (beadOf (s.lane.at l) i))
    (hvs : vs = srcs.map fun w => (w, valueOf (s.lane.at l) (evalStOf (s.lane.at l)) w)) :
    BlockLeft (evalStOf ((phaseETallied env s).lane.at l)) inst os
      (stepBlock (blkCtx s (s.lane.at l) (segBead s)) r b (stagingOf (s.lane.at l) r) xs vs) := by
  rw [phaseETallied_runs hseeds hl, hpar, hstate]
  exact evalLane_block hr hb hsound hxs hvs rfl hnd hc hi he

end Sys2Proof.Machine
end

section
/-! SUPPORT. Imports in phase E (R122, R324, R420): each takes the copy that both lanes accepted or ages, and evaluation leaves it. -/

namespace Sys2Proof.Machine

open Sys2Proof.Claims

/-! ## Evaluation leaves the imports alone -/

theorem permitLatch_imp (justEnded : Bool) (permit : Option Nat) (outs : List (Option Nat)) (b : BlkSt) :
    (permitLatch justEnded permit outs b).imp = b.imp := by
  unfold permitLatch
  split
  · split <;> rfl
  · rfl

theorem tabSet_imp {t : Tab BlkSt} {inst : Nat} {n : BlkSt} (h : n.imp = (tabGet BlkSt.init t inst).imp) (i : Nat) :
    (tabGet BlkSt.init (tabSet BlkSt.init t inst n) i).imp = (tabGet BlkSt.init t i).imp := by
  rw [tabGet_set]
  split
  · next hi => rw [h, hi]
  · rfl

theorem evalElem_imp (ctx : BlkCtx) (cfg : LoafCfg) (x : LaneSt) (hits bad : List Nat) (justEnded : Bool) (e : EvSt) (el : Elem) (i : Nat) :
    (tabGet BlkSt.init (evalElem ctx cfg x hits bad justEnded e el).blk i).imp = (tabGet BlkSt.init e.blk i).imp := by
  cases el with
  | gate op ins out => rfl
  | rod table ins out => rfl
  | block inst ins outs vals =>
    unfold evalElem
    dsimp only
    split
    · rfl
    · next r _ =>
      generalize hp : stepBlock ctx r _ _ _ _ = p
      obtain ⟨n, bs, v⟩ := p
      have hstored : (keepLatch r.ty (permitLatch justEnded cfg.form.permit outs (tabGet BlkSt.init e.blk inst)) n).imp =
          (tabGet BlkSt.init e.blk inst).imp := (keepLatch_imp ..).trans ((stepBlock_imp hp).trans (permitLatch_imp ..))
      dsimp only
      rw [(writeBeads_blk_vals _ _ _).1]
      cases v <;> exact tabSet_imp hstored i

theorem foldl_evalElem_imp (ctx : BlkCtx) (cfg : LoafCfg) (x : LaneSt) (hits bad : List Nat) (justEnded : Bool) (els : List Elem) (e : EvSt)
    (i : Nat) : (tabGet BlkSt.init (els.foldl (evalElem ctx cfg x hits bad justEnded) e).blk i).imp = (tabGet BlkSt.init e.blk i).imp := by
  induction els generalizing e with
  | nil => rfl
  | cons el els ih => exact (ih _).trans (evalElem_imp ..)

/-- The import state that a lane holds under a block. -/
def importAt (x : LaneSt) (i : Nat) : ImportSt := (tabGet BlkSt.init x.blk i).imp

theorem evalLane_importAt (ctx : BlkCtx) (hits bad : List Nat) (justEnded : Bool) (x : LaneSt) (i : Nat) :
    importAt (evalLane ctx hits bad justEnded x) i = importAt x i := by
  unfold evalLane
  split
  · rfl
  · exact foldl_evalElem_imp ..

theorem phaseETallied_importAt (env : PhaseEEnv) (s : State) (l : Side) (i : Nat) :
    importAt ((phaseETallied env s).lane.at l) i = importAt ((phaseEDelivered s).lane.at l) i := by
  refine (congrArg (fun e : EvSt => (tabGet BlkSt.init e.blk i).imp) (phaseETallied_evalStOf env s l)).trans ?_
  obtain ⟨ctx, h⟩ := lanesEvaluated_lane env (segBead (phaseEDelivered s)) (phaseEDelivered s) l
  rw [h]
  split
  · exact evalLane_importAt ..
  · rfl

/-! ## One import -/

theorem tabGet_foldl_mod {α : Type} [DecidableEq α] (d : α) (f : α → α) {ks : List Nat} (hnd : ks.Nodup) (t : Tab α) (n : Nat) :
    tabGet d (ks.foldl (fun t i => tabMod d t i f) t) n = if n ∈ ks then f (tabGet d t n) else tabGet d t n := by
  induction ks generalizing t with
  | nil => rfl
  | cons k ks ih =>
    obtain ⟨hk, hks⟩ := List.nodup_cons.1 hnd
    rw [List.foldl_cons, ih hks, tabGet_mod]
    by_cases hn : n = k
    · subst hn
      simp [hk]
    · simp [hn]

theorem mem_importInsts {cfg : LoafCfg} {conn : W16} {i : Nat} :
    i ∈ importInsts cfg conn ↔ ∃ r, cfg.params[i]? = some r ∧ r.ty = tyIMPORT ∧ parN r 0 = conn.toNat := by
  simp [importInsts, List.mem_zipIdx_iff_getElem?]

theorem importInsts_inj {cfg : LoafCfg} {conn conn' : W16} {i : Nat} (h : i ∈ importInsts cfg conn) (h' : i ∈ importInsts cfg conn') :
    conn = conn' := by
  obtain ⟨r, hr, -, hn⟩ := mem_importInsts.1 h
  obtain ⟨r', hr', -, hn'⟩ := mem_importInsts.1 h'
  obtain rfl : r = r' := Option.some.inj (hr.symm.trans hr')
  exact BitVec.eq_of_toNat_eq (hn.symm.trans hn')

theorem nodup_importInsts (cfg : LoafCfg) (conn : W16) : (importInsts cfg conn).Nodup := by
  have hidx : (cfg.params.zipIdx.map (·.2)).Nodup := by
    rw [List.zipIdx_map_snd]
    exact List.nodup_range'
  exact hidx.sublist (List.filter_sublist.map _)

theorem modImport_importAt (x : LaneSt) (cfg : LoafCfg) (conn : W16) (f : ImportSt → ImportSt) (i : Nat) :
    importAt (modImport x cfg conn f) i = if i ∈ importInsts cfg conn then f (importAt x i) else importAt x i := by
  refine (congrArg BlkSt.imp (tabGet_foldl_mod BlkSt.init _ (nodup_importInsts cfg conn) x.blk i)).trans ?_
  split <;> rfl

/-- What a frame makes of an import: the copy that both lanes accepted, or one frame of age (R324). -/
def importStepped (s : State) (k : Conn) : ImportSt → ImportSt :=
  match deliverable s k.connId with
  | some a => deliverTo a
  | none => ageImport k

theorem deliverConn_lane (cfg : LoafCfg) (s : State) (k : Conn) (l : Side) : ∃ reps, (deliverConn cfg s k).lane.at l =
    { modImport (s.lane.at l) cfg k.connId (importStepped s k) with reps := reps } := by
  have hplain : ∀ f, (modLanes s fun l => modImport l cfg k.connId f).lane.at l = modImport (s.lane.at l) cfg k.connId f := fun f => by
    rw [modLanes_lane, Two.at_map]
  unfold deliverConn importStepped
  cases deliverable s k.connId with
  | some a =>
    dsimp only
    split
    · exact ⟨_, hplain _⟩
    · split
      · exact ⟨_, hplain _⟩
      · exact ⟨_, by rw [laneReport_lane, Two.at_map, hplain]⟩
  | none =>
    dsimp only
    split
    · exact ⟨_, (congrArg (Two.at · l) (noted_crumb ..).lane).trans (hplain _)⟩
    · exact ⟨_, hplain _⟩

/-! ## All imports -/

/-- What of a lane decides on a delivery. -/
def deliveryBase (s : State) : Two (List Accepted × Bool) := s.lane.map fun x => (x.accepted, x.retired)

theorem deliverable_of_base {s t : State} (h : deliveryBase t = deliveryBase s) (conn : W16) : deliverable t conn = deliverable s conn := by
  have hat : ∀ l, ((t.lane.at l).accepted, (t.lane.at l).retired) = ((s.lane.at l).accepted, (s.lane.at l).retired) := fun l => by
    have hl := congrArg (Two.at · l) h
    simpa only [deliveryBase, Two.at_map] using hl
  have hacc : ∀ l, (t.lane.at l).accepted = (s.lane.at l).accepted := fun l => congrArg Prod.fst (hat l)
  have hlive : ∀ l, laneLive t l = laneLive s l := fun l => congrArg (!·) (congrArg Prod.snd (hat l))
  unfold deliverable acceptedCopy
  simp only [hlive, show t.lane.a.accepted = s.lane.a.accepted from hacc .a, show t.lane.b.accepted = s.lane.b.accepted from hacc .b]

/-- In a list of connections that differ, an import is changed by its own connection's step alone. -/
theorem foldl_importAt {f : State → Conn → State} {g : Conn → ImportSt → ImportSt} {cfg : LoafCfg} {k : Conn} {ks : List Conn}
    {s : State} {l : Side} {i : Nat} (hbase : ∀ u m, deliveryBase u = deliveryBase s → deliveryBase (f u m) = deliveryBase s)
    (hf : ∀ u m, deliveryBase u = deliveryBase s → importAt ((f u m).lane.at l) i =
      if i ∈ importInsts cfg m.connId then g m (importAt (u.lane.at l) i) else importAt (u.lane.at l) i)
    (hnd : (ks.map fun k => k.connId).Nodup) (hk : k ∈ ks) (hi : i ∈ importInsts cfg k.connId) :
    importAt ((ks.foldl f s).lane.at l) i = g k (importAt (s.lane.at l) i) := by
  have hother : ∀ m : Conn, m.connId ≠ k.connId → i ∉ importInsts cfg m.connId := fun m hm h => hm (importInsts_inj h hi)
  refine (foldl_conn (P := fun u => deliveryBase u = deliveryBase s ∧ importAt (u.lane.at l) i = importAt (s.lane.at l) i)
    (Q := fun u => deliveryBase u = deliveryBase s ∧ importAt (u.lane.at l) i = g k (importAt (s.lane.at l) i))
    hnd hk (fun u m hm h => ⟨hbase u m h.1, ?_⟩) (fun u h => ⟨hbase u k h.1, ?_⟩)
    (fun u m hm h => ⟨hbase u m h.1, ?_⟩) ⟨rfl, rfl⟩).2
  · rw [hf u m h.1, if_neg (hother m hm), h.2]
  · rw [hf u k h.1, if_pos hi, h.2]
  · rw [hf u m h.1, if_neg (hother m hm), h.2]

theorem importStepped_of_base {s t : State} (h : deliveryBase t = deliveryBase s) (k : Conn) : importStepped t k = importStepped s k := by
  unfold importStepped
  rw [deliverable_of_base h]

theorem deliveryBase_of_at {s t : State} (h : ∀ l, (t.lane.at l).accepted = (s.lane.at l).accepted ∧
    (t.lane.at l).retired = (s.lane.at l).retired) : deliveryBase t = deliveryBase s := by
  have hat : ∀ l, ((t.lane.at l).accepted, (t.lane.at l).retired) = ((s.lane.at l).accepted, (s.lane.at l).retired) := fun l =>
    Prod.ext (h l).1 (h l).2
  exact congrArg₂ Two.mk (hat .a) (hat .b)

theorem deliverConn_base (cfg : LoafCfg) (s : State) (k : Conn) : deliveryBase (deliverConn cfg s k) = deliveryBase s := by
  refine deliveryBase_of_at fun l => ?_
  obtain ⟨reps, h⟩ := deliverConn_lane cfg s k l
  rw [h]
  exact ⟨rfl, rfl⟩

theorem deliverConn_importAt (cfg : LoafCfg) (s : State) (k : Conn) (l : Side) (i : Nat) :
    importAt ((deliverConn cfg s k).lane.at l) i =
      if i ∈ importInsts cfg k.connId then importStepped s k (importAt (s.lane.at l) i) else importAt (s.lane.at l) i := by
  obtain ⟨reps, h⟩ := deliverConn_lane cfg s k l
  rw [h]
  exact modImport_importAt ..

section
variable {s : State} {cfg : LoafCfg} {k : Conn} {i : Nat} (hc : activeCfg s = some cfg)
  (hnd : ((imports cfg).map fun k => k.connId).Nodup) (hk : k ∈ imports cfg) (hi : i ∈ importInsts cfg k.connId) (l : Side)
include hc hnd hk hi

theorem deliverAll_importAt : importAt ((deliverAll s).lane.at l) i = importStepped s k (importAt (s.lane.at l) i) := by
  unfold deliverAll
  rw [hc]
  refine foldl_importAt (fun u m h => (deliverConn_base cfg u m).trans h) (fun u m h => ?_) hnd hk hi
  rw [deliverConn_importAt, importStepped_of_base h]

theorem ageAll_importAt : importAt ((ageAll s).lane.at l) i = ageImport k (importAt (s.lane.at l) i) := by
  unfold ageAll
  rw [hc]
  refine foldl_importAt (fun u m h => Eq.trans (deliveryBase_of_at fun l => ?_) h) (fun u m _ => ?_) hnd hk hi
  · rw [modLanes_lane, Two.at_map]
    exact ⟨rfl, rfl⟩
  · rw [modLanes_lane, Two.at_map]
    exact modImport_importAt ..

/-- An import at the end of phase E, in test hold and out of it (R324, R420). -/
theorem phaseEEnd_importAt (env : PhaseEEnv) : importAt ((phaseEEnd env s).lane.at l) i =
    if s.test.hold then ageImport k (importAt (s.lane.at l) i) else importStepped s k (importAt (s.lane.at l) i) := by
  unfold phaseEEnd
  split
  · refine Eq.trans ?_ (ageAll_importAt (s := toPhase s .c (endE s.core.tfCode)) hc hnd hk hi l)
    exact congrArg (fun e : EvSt => (tabGet BlkSt.init e.blk i).imp) (clocksChecked_evalStOf ..)
  · exact (phaseETallied_importAt env s l i).trans (deliverAll_importAt (s := toPhase s .c (endE s.core.tfCode)) hc hnd hk hi l)

end

end Sys2Proof.Machine
end

section
/-! The function blocks act as O13 says. -/

namespace Sys2Proof.Machine

open Sys2Proof.Claims

section
variable {c : BlkCtx} {r : ParamRec} {b : BlkSt} {pr : PairRec} {xs : List (Option Byte)} {vs : List (ValSrc × Val)}
  {y : Nat → Byte → Prop}

/-- HOSTBIT, DIAG and PROOFHEAD show what they read of the module; PROOF and EXPORT keep no state, and an IMPORT shows its beads. -/
theorem otherRules_stepBlock (hy : Shows (stepBlock c r b pr xs vs).2.1 y) :
    (r.ty = tyHOSTBIT → y 0 (match c.hostBits with
      | some w => if c.hostBad.contains (parN r 0) then paritySub else if w.getLsbD (parN r 0) then host1 else host0
      | none => b.latch)) ∧
    (r.ty = tyDIAG → ∀ k, k < 8 → y k (soundBead (c.diagOn.contains (parN r k)))) ∧
    (r.ty = tyPROOFHEAD → y 0 c.seg ∧ (stepBlock c r b pr xs vs).1.code = if c.seg = sound1 then 1#8 else 0#8) ∧
    (r.ty = tyPROOF ∨ r.ty = tyEXPORT → (stepBlock c r b pr xs vs).1 = b) ∧
    (r.ty = tyIMPORT → ∀ k v, b.imp.beads[k]? = some v → y k v) := by
  refine ⟨fun h => ?_, fun h k hk => ?_, fun h => ?_, fun h => ?_, fun h k v hv => ?_⟩
  · rw [stepBlock_hostbit _ _ _ _ _ h] at hy
    refine hy 0 _ ?_
    unfold stepHostbit
    cases c.hostBits <;> rfl
  · rw [stepBlock_diag _ _ _ _ _ h] at hy
    exact hy k _ (getElem?_map_range _ hk)
  · rw [stepBlock_proofhead _ _ _ _ _ h] at hy ⊢
    exact ⟨hy 0 _ rfl, rfl⟩
  · rw [stepBlock_unstepped _ _ _ _ _ h]
  · rw [stepBlock_import _ _ _ _ _ h] at hy
    exact hy k v hv

end

/-- Settles O13: a form of one block leaves what the block's step gives, and each step meets the rule of its type; an import is changed
by its own connection alone, before the evaluation. -/
theorem blocksKeepTheirState : Obligations.BlocksKeepTheirState := by
  refine ⟨fun env s l cfg r inst ins os srcs ht hp hhold hl hc hi he hr hnd hpar hstate hseeds => ?_, fun env s ht hp => ?_⟩
  · refine ⟨phaseEEnd env s, runs_phaseE env s ht hp, ?_⟩
    rw [show phaseEEnd env s = phaseETallied env s from if_neg (by simp [hhold])]
    rintro old b n hold xs x vs y pos rfl hsound hb rfl rfl hxs rfl hvs rfl rfl
    have hlatch : b = permitLatch s.test.justEnded cfg.form.permit (os.map some) (tabGet BlkSt.init (s.lane.at l).blk inst) :=
      hb.trans (permitLatch_eq ..).symm
    have hstored : StoredSound b := by
      rw [hlatch]
      exact StoredSound.permitLatch hsound ..
    have hvals : vs = srcs.map fun w => (w, valueOf (s.lane.at l) (evalStOf (s.lane.at l)) w) := by
      rw [hvs]
      refine List.map_congr_left fun w _ => ?_
      cases w <;> rfl
    obtain ⟨hn, hy, hpos⟩ := phaseETallied_block hseeds hl hc hi he hr hnd hpar hstate hlatch hstored hxs hvals
    obtain ⟨hhostbit, hdiag, hproofhead, hnone, himport⟩ := otherRules_stepBlock hy
    change tabGet BlkSt.init ((phaseETallied env s).lane.at l).blk inst = _ at hn
    rw [hn]
    refine ⟨timingRules_stepBlock hstored.edge0 hy hpos, inputRules_stepBlock (c := blkCtx s (s.lane.at l) (segBead s)) hy,
      doorRules_stepBlock (c := blkCtx s (s.lane.at l) (segBead s)) hy hpos, fun p hpair => ?_, hhostbit, hdiag, hproofhead, hnone,
      himport⟩
    rw [← stagingOf_eq hpair]
    exact outputRules_stepBlock (c := blkCtx s (s.lane.at l) (segBead s)) hy
  · refine ⟨phaseEEnd env s, runs_phaseE env s ht hp, fun cfg hc hnd k hk i hi l old hold => ?_⟩
    subst hold
    refine (phaseEEnd_importAt hc hnd hk hi l env).trans ?_
    cases s.test.hold
    · unfold importStepped
      cases deliverable s k.connId <;> rfl
    · rfl

end Sys2Proof.Machine
end

section
/-! SUPPORT. The tables of a crust (R184-R202): what a read gives after a change of one entry, and after the same change of several. -/

namespace Sys2Proof.Machine

open Sys2Proof.Claims

@[simp] theorem inOf_modIn (x : CrustSt) (n k : Nat) (f : InSt → InSt) :
    inOf (modIn x n f) k = if k = n then f (inOf x n) else inOf x k := tabGet_mod _ _ _ _ _

@[simp] theorem quadOf_modQuad (x : CrustSt) (n k : Nat) (f : QuadSt → QuadSt) :
    quadOf (modQuad x n f) k = if k = n then f (quadOf x n) else quadOf x k := tabGet_mod _ _ _ _ _

@[simp] theorem srcOf_modSrc (x : CrustSt) (n k : Nat) (f : SrcSt → SrcSt) :
    srcOf (modSrc x n f) k = if k = n then f (srcOf x n) else srcOf x k := tabGet_mod _ _ _ _ _

@[simp] theorem anaOf_modAna (x : CrustSt) (n k : Nat) (f : AnaSt → AnaSt) :
    anaOf (modAna x n f) k = if k = n then f (anaOf x n) else anaOf x k := tabGet_mod _ _ _ _ _

/-! A change of one table leaves what is read of the others. -/

@[simp] theorem quadOf_modIn (x : CrustSt) (n k : Nat) (f : InSt → InSt) : quadOf (modIn x n f) k = quadOf x k := rfl
@[simp] theorem srcOf_modIn (x : CrustSt) (n k : Nat) (f : InSt → InSt) : srcOf (modIn x n f) k = srcOf x k := rfl
@[simp] theorem inOf_modQuad (x : CrustSt) (n k : Nat) (f : QuadSt → QuadSt) : inOf (modQuad x n f) k = inOf x k := rfl
@[simp] theorem inOf_modSrc (x : CrustSt) (n k : Nat) (f : SrcSt → SrcSt) : inOf (modSrc x n f) k = inOf x k := rfl

/-- Several inputs changed, each by its own function. -/
def modIns (ns : List Nat) (f : Nat → InSt → InSt) (x : CrustSt) : CrustSt := ns.foldl (fun y n => modIn y n (f n)) x

theorem modIns_eq (ns : List Nat) (f : Nat → InSt → InSt) (x : CrustSt) :
    modIns ns f x = { x with ins := (modIns ns f x).ins } := by
  induction ns generalizing x with
  | nil => rfl
  | cons n r ih => exact (ih (modIn x n (f n))).trans rfl

theorem inOf_modIns {ns : List Nat} (hnd : ns.Nodup) (f : Nat → InSt → InSt) (x : CrustSt) (k : Nat) :
    inOf (modIns ns f x) k = if k ∈ ns then f k (inOf x k) else inOf x k := by
  induction ns generalizing x with
  | nil => rfl
  | cons n r ih =>
    obtain ⟨hn, hr⟩ := List.nodup_cons.1 hnd
    refine (ih hr (modIn x n (f n))).trans ?_
    by_cases hk : k = n
    · subst hk
      simp [hn]
    · simp [hk]

theorem nodup_testedInputs (m : List (List Byte)) (c : Side) : (testedInputs m c).Nodup := List.nodup_range.filter _

/-- A crust replaced at another offset from the tick, as the statements write it. -/
theorem modCrust_setOff (s : State) (c : Side) (o : BitVec 20) (f : CrustSt → CrustSt) :
    modCrust (setOff s o) c f = atOff (onCrust s c (f (s.crust.at c))) o := rfl

end Sys2Proof.Machine
end

section
/-! Thresholds, analog conversions and their reference (O29). -/

namespace Sys2Proof.Machine

open Sys2Proof.Claims

/-! ## THRESHOLD_CHECK -/

/-- R191: what the threshold check makes of one input. -/
def thresholdJudged (m : List (List Byte)) (c : Side) (n : Nat) (pass : Bool) (x : CrustSt) : CrustSt :=
  if modeOfInput m (chanIn c n) = 0#8 then x
  else modIn x n fun i => if pass then { i with sinceThreshold := 0 } else i.report anThreshold

theorem thresholdJudged_eq (m : List (List Byte)) (c : Side) (n : Nat) (pass : Bool) (x : CrustSt) :
    thresholdJudged m c n pass x = { x with ins := (thresholdJudged m c n pass x).ins } := by
  unfold thresholdJudged
  split <;> rfl

theorem inOf_thresholdJudged (m : List (List Byte)) (c : Side) (n k : Nat) (pass : Bool) (x : CrustSt) :
    inOf (thresholdJudged m c n pass x) k = if k = n then
      (if modeOfInput m (chanIn c n) = 0#8 then inOf x n
        else if pass then { inOf x n with sinceThreshold := 0 }
        else { inOf x n with anomaly := firstAnomaly (inOf x n).anomaly 0x02#8 })
      else inOf x k := by
  unfold thresholdJudged
  split
  · split
    · next h => rw [h]
    · rfl
  · exact inOf_modIn x n k _

theorem execThresholdCheck_due {s : State} {c : Side} {p0 p1 : Bool} (ht : s.core.tickOn = true)
    (hh : (s.crust.at c).handshake = true) (hl : (s.crust.at c).logicPower = true) (hs : slotOf s < 12) :
    execThresholdCheck c p0 p1 s = .next (atOff (onCrust s c
      (thresholdJudged (crustMap s c) c (2 * slotOf s + 1) p1 (thresholdJudged (crustMap s c) c (2 * slotOf s) p0 (s.crust.at c))))
      (BitVec.ofNat 20 (tfUnits s.core.tfCode / 20))) := by
  unfold execThresholdCheck
  simp only [ht, hh, hl, hs, decide_true, Bool.and_self, Bool.not_true, Bool.false_eq_true, if_false]
  rfl

theorem execThresholdCheck_idle {s : State} {c : Side} (h : s.core.tickOn = false ∨ (s.crust.at c).handshake = false ∨
    (s.crust.at c).logicPower = false ∨ 12 ≤ slotOf s) (p0 p1 : Bool) : execThresholdCheck c p0 p1 s = .next s := by
  unfold execThresholdCheck
  refine if_pos ?_
  rcases h with h | h | h | h
  · simp [h]
  · simp [h]
  · simp [h]
  · simp [Nat.not_lt.2 h]

/-! ## ANALOG_CONVERSION and STALL -/

theorem AnaSt.report_eq (a : AnaSt) (code : Byte) :
    a.report code = { a with anomaly := if a.anomaly = 0 then code else a.anomaly } := by
  unfold AnaSt.report
  split <;> rfl

/-- R202: what the reference check of a conversion makes of the crust. -/
def referenceJudged (r : Option Bool) (x : CrustSt) : CrustSt :=
  match r with
  | some true => { x with sinceReference := 0 }
  | some false => (List.range 4).foldl (fun y k => modAna y k fun a => a.report anReference) x
  | none => x

theorem foldl_modAna (ns : List Nat) (f : AnaSt → AnaSt) (x : CrustSt) : ns.foldl (fun y k => modAna y k f) x =
    { x with ana := ns.foldl (fun t k => tabMod AnaSt.init t k f) x.ana } := by
  induction ns generalizing x with
  | nil => rfl
  | cons n r ih => exact ih (modAna x n f)

theorem referenceJudged_failed (x : CrustSt) : referenceJudged (some false) x =
    { x with ana := (List.range 4).foldl (fun t k => tabMod AnaSt.init t k fun a => a.report anReference) x.ana } :=
  foldl_modAna (List.range 4) (fun a => a.report anReference) x

theorem referenceJudged_frame (r : Option Bool) (x : CrustSt) : referenceJudged r x =
    { x with ana := (referenceJudged r x).ana, sinceReference := (referenceJudged r x).sinceReference } := by
  match r with
  | none => rfl
  | some true => rfl
  | some false => rw [referenceJudged_failed]

theorem sinceReference_referenceJudged (r : Option Bool) (x : CrustSt) :
    (referenceJudged r x).sinceReference = if r = some true then 0 else x.sinceReference := by
  match r with
  | none => rfl
  | some true => rfl
  | some false => rw [referenceJudged_failed, if_neg (by decide)]

theorem anaOf_foldl_modAna {ns : List Nat} (hnd : ns.Nodup) (f : AnaSt → AnaSt) (x : CrustSt) (k : Nat) :
    anaOf (ns.foldl (fun y k => modAna y k f) x) k = if k ∈ ns then f (anaOf x k) else anaOf x k := by
  rw [foldl_modAna]
  exact tabGet_foldl_mod AnaSt.init f hnd x.ana k

theorem anaOf_referenceJudged (r : Option Bool) (x : CrustSt) {k : Nat} (hk : k < 4) : anaOf (referenceJudged r x) k =
    if r = some false then { anaOf x k with anomaly := if (anaOf x k).anomaly = 0 then 0x18#8 else (anaOf x k).anomaly }
    else anaOf x k := by
  match r with
  | none => rfl
  | some true => rfl
  | some false =>
    have h : anaOf (referenceJudged (some false) x) k = _ := anaOf_foldl_modAna List.nodup_range (fun a => a.report anReference) x k
    rw [if_pos (Eq.refl (some false)), h, if_pos (List.mem_range.2 hk), AnaSt.report_eq]
    rfl

/-- R201: what a completed conversion makes of its input. -/
def converted (m : List (List Byte)) (ch : AnaId) (mv : Nat) (a : AnaSt) : AnaSt :=
  { a with mv := mv, seq := a.seq + 1, fresh := true, stalled := false, bad := a.bad || analogBeyond m ch.crust ch.num.val mv }

/-- R202: the reference check that counts in this frame. -/
def referenceDue (s : State) (r : Option Bool) : Option Bool := if 12 ≤ slotOf s then r else none

theorem referenceDue_eq_some (s : State) (r : Option Bool) (b : Bool) :
    referenceDue s r = some b ↔ 12 ≤ slotOf s ∧ r = some b := by
  unfold referenceDue
  split <;> simp [*]

/-- The crust after a completed conversion. -/
def convertedCrust (s : State) (ch : AnaId) (mv : Nat) (r : Option Bool) : CrustSt :=
  referenceJudged (referenceDue s r) (modAna (s.crust.at ch.crust) ch.num.val (converted (crustMap s ch.crust) ch mv))

/-- What a conversion leaves outside its crust: a reading beyond the range is counted, a running door cycle takes its sample. -/
def conversionNoted (s u : State) (ch : AnaId) (mv : Nat) : State :=
  let v := if (analogEntry (crustMap s ch.crust) ch.crust ch.num.val).isSome && analogBeyond (crustMap s ch.crust) ch.crust ch.num.val mv
    then countAnalogOver u 1 else u
  if hearthLive s then { v with jrn := { v.jrn with
    cycles := ⟨cycleSample s ch.crust ch.num.val mv 0 s.jrn.cycles.a, cycleSample s ch.crust ch.num.val mv 1 s.jrn.cycles.b⟩ } }
  else v

theorem execAnalogConversion_runs {s : State} {ch : AnaId} (hl : (s.crust.at ch.crust).logicPower = true)
    (hr : s.core.inReset = false) (mv : Nat) (r : Option Bool) : execAnalogConversion ch mv r s =
      .next (conversionNoted s (onCrust s ch.crust (convertedCrust s ch mv r)) ch mv) := by
  unfold execAnalogConversion
  simp only [hl, hr, Bool.not_true, Bool.or_self, Bool.false_eq_true, if_false]
  rfl

theorem execAnalogConversion_idle {s : State} {ch : AnaId} (h : (s.crust.at ch.crust).logicPower = false ∨ s.core.inReset = true)
    (mv : Nat) (r : Option Bool) : execAnalogConversion ch mv r s = .next s := by
  unfold execAnalogConversion
  refine if_pos ?_
  rcases h with h | h <;> simp [h]

theorem conversionNoted_eq (s u : State) (ch : AnaId) (mv : Nat) : conversionNoted s u ch mv =
    { u with jrn := (conversionNoted s u ch mv).jrn, stat := (conversionNoted s u ch mv).stat } := by
  unfold conversionNoted
  dsimp only
  (repeat' split) <;> rfl

theorem conversionNoted_stat (s u : State) (ch : AnaId) (mv : Nat) : (conversionNoted s u ch mv).stat =
    if (analogEntry (crustMap s ch.crust) ch.crust ch.num.val).isSome && analogBeyond (crustMap s ch.crust) ch.crust ch.num.val mv
      then (countAnalogOver u 1).stat else u.stat := by
  unfold conversionNoted
  dsimp only
  (repeat' split) <;> rfl

theorem conversionNoted_jrn (s u : State) (ch : AnaId) (mv : Nat) : (conversionNoted s u ch mv).jrn =
    if hearthLive s then { u.jrn with
      cycles := ⟨cycleSample s ch.crust ch.num.val mv 0 s.jrn.cycles.a, cycleSample s ch.crust ch.num.val mv 1 s.jrn.cycles.b⟩ }
    else u.jrn := by
  unfold conversionNoted
  dsimp only
  (repeat' split) <;> rfl

theorem execStall_eq (s : State) (ch : AnaId) : execStall ch s = .next
    (if (s.crust.at ch.crust).logicPower && !s.core.inReset && (analogEntry (crustMap s ch.crust) ch.crust ch.num.val).isSome
      then onCrust s ch.crust (modAna (s.crust.at ch.crust) ch.num.val fun a =>
        { a with stalled := true, bad := true, anomaly := if a.anomaly = 0 then 0x19#8 else a.anomaly })
      else s) := by
  unfold execStall modCrust
  simp only [AnaSt.report_eq]
  rfl

/-- Settles O29: a threshold check judges the two inputs of its slot, a conversion its own input and, by the reference, all four of
its crust. -/
theorem referencesAreChecked : Obligations.ReferencesAreChecked := by
  refine ⟨?_, ?_⟩
  · rintro c p0 p1 s x rfl
    refine ⟨fun ht hh hl hs => ?_, fun h => execThresholdCheck_idle h p0 p1⟩
    refine ⟨_, execThresholdCheck_due ht hh hl hs, ?_, fun n h0 h1 => ?_, ?_⟩
    · rw [thresholdJudged_eq, thresholdJudged_eq _ _ (2 * slotOf s)]
    · rw [inOf_thresholdJudged, if_neg h1, inOf_thresholdJudged, if_neg h0]
    · rintro n p (⟨rfl, rfl⟩ | ⟨rfl, rfl⟩)
      · rw [inOf_thresholdJudged, if_neg (by omega), inOf_thresholdJudged, if_pos rfl]
      · rw [inOf_thresholdJudged, if_pos rfl, inOf_thresholdJudged, if_neg (Nat.succ_ne_self _)]
  · rintro ch mv r s x beyond rfl rfl
    refine ⟨fun hl hr => ?_, fun h => execAnalogConversion_idle h mv r, fun hl hr he => ?_, fun h => ?_⟩
    · refine ⟨_, convertedCrust s ch mv r, execAnalogConversion_runs hl hr mv r, conversionNoted_eq _ _ _ _, ?_, ?_, ?_,
        conversionNoted_stat _ _ _ _, conversionNoted_jrn _ _ _ _⟩
      · exact referenceJudged_frame _ _
      · rintro k hk a rfl
        rw [show anaOf (convertedCrust s ch mv r) k = _ from anaOf_referenceJudged _ _ hk, anaOf_modAna]
        by_cases hn : k = ch.num.val
        · subst hn
          simp only [if_true, referenceDue_eq_some, converted]
        · simp only [hn, if_false, referenceDue_eq_some]
      · exact (sinceReference_referenceJudged _ _).trans (if_congr (referenceDue_eq_some s r true) rfl rfl)
    · refine (execStall_eq s ch).trans ?_
      rw [if_pos (by simp [hl, hr, he])]
    · refine (execStall_eq s ch).trans ?_
      rw [if_neg]
      rcases h with h | h | h <;> simp [h]

end Sys2Proof.Machine
end

section
/-! SUPPORT. The counter path (R196, R197, R207): what an edge makes of its input, of its pair and of a learning run. -/

namespace Sys2Proof.Machine

open Sys2Proof.Claims

/-! ## One input -/

theorem edgeTaken_eq (i : InSt) (s : State) (level : Bool) (now : Stamp) : i.edgeTaken s level now =
    { i with raw := level, deb := level, lastAny := some now, overrate := i.overrate || edgeTooSoon s i now,
             anomaly := if edgeTooSoon s i now then firstAnomaly i.anomaly 0x06#8 else i.anomaly } := by
  unfold InSt.edgeTaken
  cases edgeTooSoon s i now
  · rw [Bool.or_false]
    rfl
  · rw [Bool.or_true]
    rfl

/-- A fall of a Counter or Frequency input is taken and nothing more. -/
theorem countEdge_fall (s : State) (mode : Byte) (i : InSt) (now : Stamp) :
    countEdge s mode i false now = i.edgeTaken s false now := rfl

theorem countEdge_counter (s : State) (i : InSt) (level : Bool) (now : Stamp) : countEdge s 4#8 i level now =
    { i.edgeTaken s level now with
      count := if level && !i.overrate && !edgeTooSoon s i now && decide (i.count.toNat < 0x7FFFFFFF) then i.count + 1
        else i.count } := by
  cases level with
  | false => rw [countEdge_fall, edgeTaken_eq]; rfl
  | true =>
    have hstep : countEdge s 4#8 i true now = if (i.edgeTaken s true now).overrate then i.edgeTaken s true now
      else { i.edgeTaken s true now with count := if (i.edgeTaken s true now).count.toNat < 0x7FFFFFFF
        then (i.edgeTaken s true now).count + 1 else (i.edgeTaken s true now).count } := rfl
    rw [hstep, edgeTaken_eq]
    cases ho : i.overrate <;> cases edgeTooSoon s i now <;> simp

theorem countEdge_frequency (s : State) (i : InSt) (now : Stamp) : countEdge s 5#8 i true now =
    { i.edgeTaken s true now with
      period := (match i.lastEdge with
        | some p => (unitsBetween s p now).toNat
        | none => 0)
      lastEdge := some now, silent := false } := rfl

/-! ## A pair -/

/-- R196: an illegal transition of a pair takes both levels, reports at the pair's first input and leaves the count. -/
theorem quadOf_illegalEdge (s : State) (n o p : Nat) (level : Bool) (now : Stamp) (x : CrustSt) (k : Nat) :
    quadOf (illegalEdge s n o p level now x) k = if k = p then { quadOf x p with sinceIllegal := 0 } else quadOf x k := by
  unfold illegalEdge
  rw [quadOf_modIn, quadOf_modQuad, quadOf_modIn, quadOf_modIn, quadOf_modIn, quadOf_modIn]

theorem illegalEdge_eq (s : State) (n o p : Nat) (level : Bool) (now : Stamp) (x : CrustSt) : illegalEdge s n o p level now x =
    { x with ins := (illegalEdge s n o p level now x).ins, quads := (illegalEdge s n o p level now x).quads } := by
  unfold illegalEdge modIn modQuad
  rfl

theorem inOf_illegalEdge {n o p : Nat} (hno : n ≠ o) (s : State) (level : Bool) (now : Stamp) (x : CrustSt) (k : Nat) :
    inOf (illegalEdge s n o p level now x) k =
      let j := if k = n then (inOf x k).edgeTaken s level now
        else if k = o then (inOf x k).edgeTaken s (!(inOf x k).raw) now
        else inOf x k
      if k = 2 * p then j.report anIllegal else j := by
  have hbase : ∀ k, inOf (modQuad (modIn (modIn x n fun i => i.edgeTaken s level now) o fun i => i.edgeTaken s (!i.raw) now) p
      fun q => { q with sinceIllegal := 0 }) k = if k = n then (inOf x k).edgeTaken s level now
        else if k = o then (inOf x k).edgeTaken s (!(inOf x k).raw) now else inOf x k := fun k => by
    rw [inOf_modQuad, inOf_modIn, inOf_modIn, inOf_modIn, if_neg hno.symm]
    by_cases ho : k = o
    · rw [if_pos ho, if_neg (ho ▸ hno.symm), if_pos ho, ho]
    · rw [if_neg ho, if_neg ho]
      by_cases hn : k = n
      · rw [if_pos hn, if_pos hn, hn]
      · rw [if_neg hn, if_neg hn]
  unfold illegalEdge
  rw [inOf_modIn, hbase, hbase]
  dsimp only
  by_cases hp : k = 2 * p
  · rw [if_pos hp, if_pos hp, ← hp]
  · rw [if_neg hp, if_neg hp]

theorem moveQuad_count (q : QuadSt) (n : W32) (h : Nat) : (moveQuad q n h).count = n := by
  unfold moveQuad
  (repeat' split) <;> rfl

/-- What the movement of a count leaves of its pair. -/
theorem moveQuad_eq (q : QuadSt) (n : W32) (h : Nat) : moveQuad q n h =
    { q with count := n, turn := (moveQuad q n h).turn, closing := (moveQuad q n h).closing } := by
  unfold moveQuad
  (repeat' split) <;> rfl

theorem recapture_eq (s : State) (filter : Nat) (now : Stamp) (q : QuadSt) : recapture s filter now q =
    { q with refCount := (recapture s filter now q).refCount, refAt := (recapture s filter now q).refAt } := by
  unfold recapture captureRef
  (repeat' split) <;> rfl

/-- The reference edge that homed a pair lies within one filter time of a moment. -/
def homedNear (s : State) (filter : Nat) (now : Stamp) (q : QuadSt) : Bool :=
  match q.lastRef with
  | some (r, true) => decide ((unitsBetween s r now).natAbs ≤ filter)
  | _ => false

theorem rehome_eq (s : State) (filter : Nat) (now : Stamp) (before q : QuadSt) : rehome s filter now before q =
    if homedNear s filter now before then { q with count := before.count, turn := q.turn + (before.count - q.count) } else q := by
  unfold rehome homedNear
  rcases before.lastRef with _ | ⟨r, _ | _⟩ <;> rfl

/-- The pair after an edge of one phase that is not over its rate. -/
def quadMoved (s : State) (up : Bool) (dirhyst filter : Nat) (now : Stamp) (q : QuadSt) : QuadSt :=
  rehome s filter now q (recapture s filter now (moveQuad q (if up then q.count + 1 else q.count - 1) dirhyst))

theorem quadMoved_count (s : State) (up : Bool) (dirhyst filter : Nat) (now : Stamp) (q : QuadSt) :
    (quadMoved s up dirhyst filter now q).count =
      if homedNear s filter now q then q.count else if up then q.count + 1 else q.count - 1 := by
  rw [quadMoved, rehome_eq, recapture_eq, moveQuad_eq]
  split <;> rfl

theorem quadMoved_frame (s : State) (up : Bool) (dirhyst filter : Nat) (now : Stamp) (q : QuadSt) :
    (quadMoved s up dirhyst filter now q).homed = q.homed ∧ (quadMoved s up dirhyst filter now q).sinceIllegal = q.sinceIllegal := by
  rw [quadMoved, rehome_eq, recapture_eq, moveQuad_eq]
  split <;> exact ⟨rfl, rfl⟩

theorem phaseEdge_overrate {n o : Nat} (hno : n ≠ o) {s : State} {level : Bool} {now : Stamp} {x : CrustSt}
    (h : ((inOf x n).overrate || edgeTooSoon s (inOf x n) now || (inOf x o).overrate) = true) (p : Nat) (up : Bool) (dirhyst filter : Nat) :
    phaseEdge s n o p up level dirhyst filter now x = modIn x n fun i => i.edgeTaken s level now := by
  unfold phaseEdge
  dsimp only
  rw [inOf_modIn, inOf_modIn, if_pos rfl, if_neg hno.symm, edgeTaken_eq]
  exact if_pos h

theorem phaseEdge_moves {n o : Nat} (hno : n ≠ o) {s : State} {level : Bool} {now : Stamp} {x : CrustSt}
    (h : ((inOf x n).overrate || edgeTooSoon s (inOf x n) now || (inOf x o).overrate) = false) (p : Nat) (up : Bool) (dirhyst filter : Nat) :
    phaseEdge s n o p up level dirhyst filter now x =
      modQuad (modIn x n fun i => i.edgeTaken s level now) p (quadMoved s up dirhyst filter now) := by
  unfold phaseEdge
  dsimp only
  rw [inOf_modIn, inOf_modIn, if_pos rfl, if_neg hno.symm, edgeTaken_eq]
  exact if_neg (by simp [h])

/-! ## A learning run -/

theorem recaptureLearn_eq (s : State) (c : Side) (p filter : Nat) (now : Stamp) (moved : Int) :
    recaptureLearn s c p filter now moved =
      { s with mbx := { s.mbx with learn := (recaptureLearn s c p filter now moved).mbx.learn } } := by
  unfold recaptureLearn
  (repeat' split) <;> rfl

theorem recaptureLearn_idle {s : State} {c : Side} {p : Nat}
    (h : (∀ r, (quadOf (s.crust.at c) p).lastRef ≠ some (r, false)) ∨ s.mbx.learn = none) (filter : Nat) (now : Stamp) (moved : Int) :
    recaptureLearn s c p filter now moved = s := by
  unfold recaptureLearn
  split
  · next run r hl hr =>
    rcases h with h | h
    · exact absurd hr (h r)
    · rw [h] at hl
      cases hl
  · rfl

/-! ## COUNTER_EDGE -/

/-- R196: both phases of a pair change within one filter time. -/
def bothPhases (edge : HeldEdge) (filter : Nat) : Bool :=
  match edge.otherPhase with
  | some d => decide (d ≤ filter)
  | none => false

section
variable {ch : InChan} {level : Bool} {edge : HeldEdge} {o : BitVec 20} {s : State} {e : List Byte}

theorem execCounterEdge_unused (h : inputEntry (crustMap s ch.crust) (chanIn ch.crust ch.num.val) = none) :
    execCounterEdge ch level edge o s = .next s := by
  unfold execCounterEdge
  dsimp only
  rw [h]

theorem execCounterEdge_ignored (he : inputEntry (crustMap s ch.crust) (chanIn ch.crust ch.num.val) = some e)
    (h : (inOf (s.crust.at ch.crust) ch.num.val).raw = level ∨ edge.held < inputFilter e) :
    execCounterEdge ch level edge o s = .next s := by
  unfold execCounterEdge
  dsimp only
  rw [he]
  exact if_pos h

theorem execCounterEdge_other (he : inputEntry (crustMap s ch.crust) (chanIn ch.crust ch.num.val) = some e)
    (h : inputMode e ≠ 4#8 ∧ inputMode e ≠ 5#8 ∧ inputMode e ≠ 6#8) : execCounterEdge ch level edge o s = .next s := by
  obtain ⟨h4, h5, h6⟩ := h
  unfold execCounterEdge
  dsimp only
  rw [he]
  dsimp only
  rw [if_neg h6, if_neg (not_or.2 ⟨h4, h5⟩), ite_self]

variable (hr : (inOf (s.crust.at ch.crust) ch.num.val).raw ≠ level) (hf : inputFilter e ≤ edge.held)
include hr hf

theorem execCounterEdge_counts (he : inputEntry (crustMap s ch.crust) (chanIn ch.crust ch.num.val) = some e)
    (hm : inputMode e = 4#8 ∨ inputMode e = 5#8) :
    execCounterEdge ch level edge o s = .next (atOff (onCrust s ch.crust (modIn (s.crust.at ch.crust) ch.num.val fun _ =>
      countEdge s (inputMode e) (inOf (s.crust.at ch.crust) ch.num.val) level (stampAt s o))) o) := by
  unfold execCounterEdge
  dsimp only
  rw [he]
  dsimp only
  rw [if_neg (not_or.2 ⟨hr, by omega⟩), if_pos hm]
  rfl

variable {q fe : List Byte} {n p ph : Nat} (hn : n = ch.num.val) (hp : p = n / 2) (hph : ph = if n % 2 = 0 then n + 1 else n - 1)
  (he : inputEntry (crustMap s ch.crust) (chanIn ch.crust ch.num.val) = some e) (hm : inputMode e = 6#8)
  (hq : quadEntry (crustMap s ch.crust) (sideBase ch.crust + p) = some q)
  (hfe : inputEntry (crustMap s ch.crust) (chanIn ch.crust (2 * p)) = some fe)
include hn hp hph he hm hq hfe

theorem execCounterEdge_pair {up : Bool}
    (hup : up = ((if n % 2 = 0 then level != (inOf (s.crust.at ch.crust) ph).raw else (inOf (s.crust.at ch.crust) ph).raw == level) !=
      inputReverse fe)) : execCounterEdge ch level edge o s = .next (modCrust
        (if bothPhases edge (inputFilter e) then setOff s o
          else recaptureLearn (setOff s o) ch.crust p (inputFilter e) (stampAt s o) (if up then 1 else -1)) ch.crust
        (if bothPhases edge (inputFilter e) then illegalEdge s n ph p level (stampAt s o)
          else phaseEdge s n ph p up level (byteAt q 2).toNat (inputFilter e) (stampAt s o))) := by
  have hdir : up = quadUp (n % 2 == 0) (if n % 2 = 0 then level else (inOf (s.crust.at ch.crust) ph).raw)
      (if n % 2 = 0 then (inOf (s.crust.at ch.crust) ph).raw else level) (inputReverse fe) := by
    rw [hup]
    unfold quadUp
    by_cases h : n % 2 = 0 <;> simp [h]
  subst hn hp hph
  unfold execCounterEdge
  dsimp only
  rw [he]
  dsimp only
  rw [if_neg (not_or.2 ⟨hr, by omega⟩), if_neg (by rw [hm]; decide), if_pos hm, hq, hfe, hdir]
  rfl

theorem execCounterEdge_illegal (hb : bothPhases edge (inputFilter e) = true) :
    execCounterEdge ch level edge o s = .next (atOff (onCrust s ch.crust
      (illegalEdge s n ph p level (stampAt s o) (s.crust.at ch.crust))) o) := by
  rw [execCounterEdge_pair hr hf hn hp hph he hm hq hfe rfl, if_pos hb, if_pos hb]
  rfl

theorem execCounterEdge_phase (hb : bothPhases edge (inputFilter e) = false) {up : Bool}
    (hup : up = ((if n % 2 = 0 then level != (inOf (s.crust.at ch.crust) ph).raw else (inOf (s.crust.at ch.crust) ph).raw == level) !=
      inputReverse fe)) : execCounterEdge ch level edge o s =
      .next (modCrust (recaptureLearn (setOff s o) ch.crust p (inputFilter e) (stampAt s o) (if up then 1 else -1)) ch.crust
        (phaseEdge s n ph p up level (byteAt q 2).toNat (inputFilter e) (stampAt s o))) := by
  rw [execCounterEdge_pair hr hf hn hp hph he hm hq hfe hup, hb]
  rfl

end

end Sys2Proof.Machine
end

section
/-! Counters, quadrature positions and frequencies follow their edges (O30). -/

namespace Sys2Proof.Machine

open Sys2Proof.Claims

/-! ## Both phases -/

theorem inOf_illegalEdge_raw {n o : Nat} (hno : n ≠ o) (s : State) (p : Nat) (level : Bool) (now : Stamp) (x : CrustSt) :
    (inOf (illegalEdge s n o p level now x) n).raw = level ∧ (inOf (illegalEdge s n o p level now x) o).raw = !(inOf x o).raw := by
  have hrep : ∀ (b : Prop) [Decidable b] (i : InSt), (if b then i.report anIllegal else i).raw = i.raw := fun b _ i => by
    split <;> rfl
  rw [inOf_illegalEdge hno, inOf_illegalEdge hno]
  dsimp only
  rw [hrep, hrep, if_pos rfl, if_neg hno.symm, if_pos rfl, edgeTaken_eq, edgeTaken_eq]
  exact ⟨rfl, rfl⟩

theorem inOf_illegalEdge_found {n o k : Nat} (hno : n ≠ o) (hk : k = n ∨ k = o) (s : State) (p : Nat) (level : Bool) (now : Stamp)
    (x : CrustSt) :
    (inOf (illegalEdge s n o p level now x) k).overrate = ((inOf x k).overrate || edgeTooSoon s (inOf x k) now) ∧
    ∀ a, a = (if edgeTooSoon s (inOf x k) now then firstAnomaly (inOf x k).anomaly 0x06#8 else (inOf x k).anomaly) →
      (inOf (illegalEdge s n o p level now x) k).anomaly = if k = 2 * p then firstAnomaly a 0x05#8 else a := by
  obtain ⟨l, hl⟩ : ∃ l, (if k = n then (inOf x k).edgeTaken s level now
      else if k = o then (inOf x k).edgeTaken s (!(inOf x k).raw) now else inOf x k) = (inOf x k).edgeTaken s l now := by
    rcases hk with rfl | rfl
    · exact ⟨_, if_pos rfl⟩
    · exact ⟨_, (if_neg hno.symm).trans (if_pos rfl)⟩
  rw [inOf_illegalEdge hno]
  dsimp only
  rw [hl, edgeTaken_eq]
  refine ⟨?_, ?_⟩
  · split <;> rfl
  · rintro _ rfl
    split <;> rfl

theorem inOf_illegalEdge_other {n o p k : Nat} (hno : n ≠ o) (hp : 2 * p = n ∨ 2 * p = o) (hn : k ≠ n) (ho : k ≠ o) (s : State)
    (level : Bool) (now : Stamp) (x : CrustSt) : inOf (illegalEdge s n o p level now x) k = inOf x k := by
  rw [inOf_illegalEdge hno, if_neg hn, if_neg ho]
  exact if_neg (by rcases hp with hp | hp <;> rw [hp] <;> assumption)

/-! ## One phase -/

theorem phaseEdge_frame (s : State) (n o p : Nat) (up level : Bool) (dirhyst filter : Nat) (now : Stamp) (x : CrustSt) :
    phaseEdge s n o p up level dirhyst filter now x =
      { x with ins := (modIn x n fun i => i.edgeTaken s level now).ins
               quads := (phaseEdge s n o p up level dirhyst filter now x).quads } := by
  unfold phaseEdge
  dsimp only
  split <;> rfl

theorem inOf_phaseEdge (s : State) (n o p : Nat) (up level : Bool) (dirhyst filter : Nat) (now : Stamp) (x : CrustSt) (k : Nat) :
    inOf (phaseEdge s n o p up level dirhyst filter now x) k = if k = n then (inOf x n).edgeTaken s level now else inOf x k := by
  rw [phaseEdge_frame]
  exact inOf_modIn x n k fun i => i.edgeTaken s level now

theorem quadOf_phaseEdge_other {p k : Nat} (hk : k ≠ p) (s : State) (n o : Nat) (up level : Bool) (dirhyst filter : Nat) (now : Stamp)
    (x : CrustSt) : quadOf (phaseEdge s n o p up level dirhyst filter now x) k = quadOf x k := by
  unfold phaseEdge
  dsimp only
  split
  · rfl
  · rw [quadOf_modQuad, if_neg hk, quadOf_modIn]

theorem homedNear_iff (s : State) (filter : Nat) (now : Stamp) (q : QuadSt) : homedNear s filter now q = true ↔
    ∃ r, q.lastRef = some (r, true) ∧ (unitsBetween s r now).natAbs ≤ filter := by
  unfold homedNear
  rcases q.lastRef with _ | ⟨r, _ | _⟩ <;> simp

theorem pair_of_input {n p ph : Nat} (hp : p = n / 2) (hph : ph = if n % 2 = 0 then n + 1 else n - 1) :
    n ≠ ph ∧ (2 * p = n ∨ 2 * p = ph) := by
  subst hp hph
  split <;> omega

/-! ## FREQUENCY_TIMEOUT -/

theorem execFrequencyTimeout_none {ch : InChan} {s : State} (h : (inOf (s.crust.at ch.crust) ch.num.val).lastEdge = none) :
    execFrequencyTimeout ch s = .next s := by
  unfold execFrequencyTimeout
  dsimp only
  rw [h]

theorem execFrequencyTimeout_some {ch : InChan} {s : State} {p : Stamp}
    (h : (inOf (s.crust.at ch.crust) ch.num.val).lastEdge = some p) : execFrequencyTimeout ch s =
    if modeOfInput (crustMap s ch.crust) (chanIn ch.crust ch.num.val) = 5#8 ∧ 400000000 ≤ unitsBetween s p (stampAt s s.core.off) then
      .next (onCrust s ch.crust (modIn (s.crust.at ch.crust) ch.num.val fun i =>
        { i with silent := true, lastEdge := none, period := 0 }))
    else .next s := by
  unfold execFrequencyTimeout
  dsimp only
  rw [h]
  rfl

/-! ## The settlement -/

/-- Settles O30: an edge is ignored, counted, or taken by its pair, alone or with the other phase. -/
theorem countersFollowTheirEdges : Obligations.CountersFollowTheirEdges := by
  rintro ch level held other o s x i m now soon rfl rfl rfl rfl rfl
  refine ⟨fun h => ?_, fun e he => ⟨fun h => ?_, fun hr hf => ⟨fun hm => ?_, fun hm => ?_, ?_⟩⟩,
    fun p hp => ⟨fun hm ht => ?_, fun h => ?_⟩, execFrequencyTimeout_none⟩
  case refine_1 =>
    cases he : inputEntry (crustMap s ch.crust) (chanIn ch.crust ch.num.val) with
    | none => exact execCounterEdge_unused he
    | some e => exact execCounterEdge_ignored he (.inl (h.resolve_left (by simp [he])))
  case refine_2 => exact h.elim (fun h => execCounterEdge_ignored he (.inr h)) (execCounterEdge_other he)
  case refine_3 =>
    refine (execCounterEdge_counts hr hf he (.inl hm)).trans ?_
    rw [hm, countEdge_counter, edgeTaken_eq]
  case refine_4 =>
    refine ⟨_, execCounterEdge_counts hr hf he (.inr hm), ?_⟩
    rw [hm]
    cases level with
    | false =>
      rw [countEdge_fall, edgeTaken_eq]
      exact ⟨rfl, rfl, rfl, rfl, fun h => absurd h (by decide), fun _ => ⟨rfl, rfl, rfl⟩⟩
    | true =>
      rw [countEdge_frequency, edgeTaken_eq]
      exact ⟨rfl, rfl, rfl, rfl, fun _ => ⟨rfl, rfl, rfl⟩, fun h => absurd h (by decide)⟩
  case refine_5 =>
    intro q fe n p ph hm hn hp hph hq hfe
    obtain ⟨hno, h2p⟩ := pair_of_input hp hph
    refine ⟨fun d ho hd => ?_, fun ho => ?_⟩
    · have hb : bothPhases ⟨held, other⟩ (inputFilter e) = true := by
        subst ho
        exact decide_eq_true hd
      obtain ⟨hraw, hraw'⟩ := inOf_illegalEdge_raw hno s p level (stampAt s o) (s.crust.at ch.crust)
      refine ⟨_, execCounterEdge_illegal hr hf hn hp hph he hm hq hfe hb, illegalEdge_eq _ _ _ _ _ _ _, ?_, fun k hk => ?_, hraw,
        hraw', ?_, fun k hkn hko => inOf_illegalEdge_other hno h2p hkn hko _ _ _ _⟩
      · rw [quadOf_illegalEdge, if_pos rfl]
      · rw [quadOf_illegalEdge, if_neg hk]
      · rintro k _ hk rfl
        exact inOf_illegalEdge_found hno hk _ _ _ _ _
    · have hb : bothPhases ⟨held, other⟩ (inputFilter e) = false := by
        cases other with
        | none => rfl
        | some d => exact decide_eq_false (Nat.not_le.2 (ho d rfl))
      obtain ⟨up, hup⟩ : ∃ up, up = ((if n % 2 = 0 then level != (inOf (s.crust.at ch.crust) ph).raw
          else (inOf (s.crust.at ch.crust) ph).raw == level) != inputReverse fe) := ⟨_, rfl⟩
      have hrun := execCounterEdge_phase (edge := ⟨held, other⟩) (o := o) hr hf hn hp hph he hm hq hfe hb hup
      rw [← hup]
      refine ⟨_, phaseEdge s n ph p up level (byteAt q 2).toNat (inputFilter e) (stampAt s o) (s.crust.at ch.crust), hrun, ?_, ?_, fun h => ?_,
        ?_, fun k hk => quadOf_phaseEdge_other hk _ _ _ _ _ _ _ _ _, fun k hk => ?_, ?_, fun h => ?_, fun h1 h2 h3 => ?_⟩
      · rw [modCrust_crust, Two.at_set_same, recaptureLearn_eq]
        rfl
      · rw [recaptureLearn_eq]
        rfl
      · rw [recaptureLearn_idle (s := setOff s o) h]
        rfl
      · rw [phaseEdge_frame]
      · rw [inOf_phaseEdge, if_neg hk]
      · rw [inOf_phaseEdge, if_pos rfl, edgeTaken_eq, hn]
      · rw [phaseEdge_overrate hno (by rw [hn]; rcases h with h | h | h <;> simp [h])]
        rfl
      · rw [phaseEdge_moves hno (by rw [hn]; simp [h1, h2, h3]), quadOf_modQuad, if_pos rfl, quadOf_modIn]
        obtain ⟨hhomed, hill⟩ := quadMoved_frame s up (byteAt q 2).toNat (inputFilter e) (stampAt s o) (quadOf (s.crust.at ch.crust) p)
        refine ⟨fun r hl hnear => ?_, fun hfar => ?_, hhomed, hill⟩
        · rw [quadMoved_count, if_pos ((homedNear_iff _ _ _ _).2 ⟨r, hl, hnear⟩)]
        · rw [quadMoved_count, if_neg]
          rintro hnear
          obtain ⟨r, hl, hle⟩ := (homedNear_iff _ _ _ _).1 hnear
          exact absurd hle (Nat.not_le.2 (hfar r hl))
  case refine_6 => exact (execFrequencyTimeout_some hp).trans (if_pos ⟨hm, ht⟩)
  case refine_7 => exact (execFrequencyTimeout_some hp).trans (if_neg (fun hc => h.elim (· hc.1) (fun ht => absurd hc.2 (by omega))))

end Sys2Proof.Machine
end

section
/-! SUPPORT. Test pulses (R184, R189, R190, R192, R206): what the start of a pulse makes of a crust, and what its sample makes of the
source and of each Tested input. -/

namespace Sys2Proof.Machine

open Sys2Proof.Claims

/-! ## The start of a pulse -/

/-- R188, R189: a Tested input as a pulse of `src` starts. -/
def pulseBegun (m : List (List Byte)) (src : SrcId) (now until_ : Stamp) (n : Nat) (i : InSt) : InSt :=
  { i with
    rawAtPulse := i.raw
    riseHeld := if sourceOfInput m src.crust n = src.num.val then none else i.riseHeld
    maskUntil := if sourceOfInput m src.crust n = src.num.val then some until_ else i.maskUntil
    maskFrom := if sourceOfInput m src.crust n = src.num.val then some now else i.maskFrom }

/-- The moment of a frame at which the sources pulse. -/
def pulseStamp (s : State) : Stamp := { frame := s.core.frameNo, off := BitVec.ofNat 20 (tfUnits s.core.tfCode / 10) }

/-- The crust as a pulse of `src` starts. -/
def pulsingCrust (s : State) (src : SrcId) : CrustSt :=
  modIns (testedInputs (crustMap s src.crust) src.crust)
    (pulseBegun (crustMap s src.crust) src (pulseStamp s)
      (stampAfter s (pulseStamp s) (sourcePw (crustMap s src.crust) src.crust src.num.val + 5000)))
    (modSrc (s.crust.at src.crust) src.num.val fun z => { z with pulseAt := some (pulseStamp s), pulsed := true })

theorem startPulse_eq (s : State) (src : SrcId) :
    startPulse s src = atOff (onCrust s src.crust (pulsingCrust s src)) (pulseStamp s).off := rfl

theorem pulsingCrust_frame (s : State) (src : SrcId) : pulsingCrust s src =
    { s.crust.at src.crust with ins := (pulsingCrust s src).ins, srcs := (pulsingCrust s src).srcs } := by
  unfold pulsingCrust
  rw [modIns_eq]
  rfl

theorem srcOf_modIns (ns : List Nat) (f : Nat → InSt → InSt) (x : CrustSt) (k : Nat) : srcOf (modIns ns f x) k = srcOf x k := by
  rw [modIns_eq]
  rfl

theorem srcOf_pulsingCrust (s : State) (src : SrcId) (k : Nat) : srcOf (pulsingCrust s src) k =
    if k = src.num.val then { srcOf (s.crust.at src.crust) src.num.val with pulseAt := some (pulseStamp s), pulsed := true }
    else srcOf (s.crust.at src.crust) k := by
  unfold pulsingCrust
  rw [srcOf_modIns, srcOf_modSrc]

theorem inOf_pulsingCrust (s : State) (src : SrcId) (n : Nat) : inOf (pulsingCrust s src) n =
    if n ∈ testedInputs (crustMap s src.crust) src.crust then pulseBegun (crustMap s src.crust) src (pulseStamp s)
      (stampAfter s (pulseStamp s) (sourcePw (crustMap s src.crust) src.crust src.num.val + 5000)) n (inOf (s.crust.at src.crust) n)
    else inOf (s.crust.at src.crust) n := by
  unfold pulsingCrust
  rw [inOf_modIns (nodup_testedInputs _ _), inOf_modSrc]

section
variable {src : SrcId} {s : State}

theorem execTestPulse_idle (h : sourceRuns s src = false ∨ (srcOf (s.crust.at src.crust) src.num.val).pulsed = true ∨
    slotOf s ≠ sourceSlot src) : execTestPulse src s = .next s := by
  unfold execTestPulse
  refine congrArg _ (if_neg ?_)
  rcases h with h | h | h <;> simp [h]

theorem execRetryPulse_idle (h : sourceRuns s src = false ∨ (srcOf (s.crust.at src.crust) src.num.val).pulsed = true ∨
    ∀ n ∈ testedInputs (crustMap s src.crust) src.crust, retryDue s src.num (inOf (s.crust.at src.crust) n) = false) :
    execRetryPulse src s = .next s := by
  unfold execRetryPulse
  refine congrArg _ (if_neg ?_)
  rcases h with h | h | h
  · simp [h]
  · simp [h]
  · simp only [Bool.and_eq_true, List.any_eq_true, not_and, Bool.not_eq_true']
    rintro ⟨-, n, hn, hd⟩
    exact absurd hd (by simp [h n hn])

variable (hr : sourceRuns s src = true) (hp : (srcOf (s.crust.at src.crust) src.num.val).pulsed = false)
include hr hp

theorem execTestPulse_due (h : slotOf s = sourceSlot src) : execTestPulse src s = .next (startPulse s src) := by
  unfold execTestPulse
  exact congrArg _ (if_pos (by simp [hr, hp, h]))

theorem execRetryPulse_due (h : ∃ n ∈ testedInputs (crustMap s src.crust) src.crust,
    retryDue s src.num (inOf (s.crust.at src.crust) n) = true) : execRetryPulse src s = .next (startPulse s src) := by
  unfold execRetryPulse
  refine congrArg _ (if_pos ?_)
  have hany := List.any_eq_true.2 h
  simp [hr, hp, hany]

end

/-! ## The sample of a pulse: the source -/

/-- R184: what the readback makes of the source. -/
def sourceSampled (bad regular : Bool) (mv : Nat) (z : SrcSt) : SrcSt :=
  if bad then { z with pulseAt := none }
  else if mv < 5500 then { z with pulseAt := none, readbackOk := z.readbackOk || regular }
  else { z with pulseAt := none, anomaly := firstAnomaly z.anomaly 0x12#8 }

/-- R190, R192, R206: what the sample makes of one Tested input. -/
def inputSampled (s : State) (src : SrcId) (sample maskEnd : BitVec 24) (mv : Nat) (n : Nat) (i : InSt) : InSt :=
  if supplyBad (s.crust.at src.crust) then i.dropRetry src.num
  else judgeInput s (crustMap s src.crust) (s.crust.at src.crust) src (slotOf s == sourceSlot src) (decide (mv < 5500)) sample maskEnd n i

/-- The crust after the sample of a pulse. -/
def sampledCrust (s : State) (src : SrcId) (sample maskEnd : BitVec 24) (mv : Nat) : CrustSt :=
  modIns (testedInputs (crustMap s src.crust) src.crust) (inputSampled s src sample maskEnd mv)
    (modSrc (s.crust.at src.crust) src.num.val (sourceSampled (supplyBad (s.crust.at src.crust)) (slotOf s == sourceSlot src) mv))

theorem execPulseTestSample_none {s : State} {src : SrcId} (h : (srcOf (s.crust.at src.crust) src.num.val).pulseAt = none)
    (sample maskEnd : BitVec 24) (mv : Nat) : execPulseTestSample src sample maskEnd mv s = .next s := by
  unfold execPulseTestSample
  dsimp only
  rw [h]

theorem execPulseTestSample_some {s : State} {src : SrcId} {p : Stamp}
    (h : (srcOf (s.crust.at src.crust) src.num.val).pulseAt = some p) (sample maskEnd : BitVec 24) (mv : Nat) :
    execPulseTestSample src sample maskEnd mv s = .next (atOff (onCrust s src.crust (sampledCrust s src sample maskEnd mv))
      (BitVec.ofNat 20 (p.off.toNat + sourcePw (crustMap s src.crust) src.crust src.num.val - 1000))) := by
  unfold execPulseTestSample sampledCrust inputSampled sourceSampled
  dsimp only
  rw [h]
  dsimp only
  rw [modCrust_setOff]
  cases supplyBad (s.crust.at src.crust)
  · simp only [Bool.false_eq_true, if_false, decide_eq_true_eq]
    rfl
  · rfl

theorem sampledCrust_frame (s : State) (src : SrcId) (sample maskEnd : BitVec 24) (mv : Nat) : sampledCrust s src sample maskEnd mv =
    { s.crust.at src.crust with ins := (sampledCrust s src sample maskEnd mv).ins, srcs := (sampledCrust s src sample maskEnd mv).srcs } := by
  unfold sampledCrust
  rw [modIns_eq]
  rfl

theorem srcOf_sampledCrust (s : State) (src : SrcId) (sample maskEnd : BitVec 24) (mv k : Nat) :
    srcOf (sampledCrust s src sample maskEnd mv) k = if k = src.num.val then
      sourceSampled (supplyBad (s.crust.at src.crust)) (slotOf s == sourceSlot src) mv (srcOf (s.crust.at src.crust) src.num.val)
    else srcOf (s.crust.at src.crust) k := by
  unfold sampledCrust
  rw [srcOf_modIns, srcOf_modSrc]

theorem inOf_sampledCrust (s : State) (src : SrcId) (sample maskEnd : BitVec 24) (mv n : Nat) :
    inOf (sampledCrust s src sample maskEnd mv) n = if n ∈ testedInputs (crustMap s src.crust) src.crust then
      inputSampled s src sample maskEnd mv n (inOf (s.crust.at src.crust) n)
    else inOf (s.crust.at src.crust) n := by
  unfold sampledCrust
  rw [inOf_modIns (nodup_testedInputs _ _), inOf_modSrc]

/-! ## The sample of a pulse: one input -/

/-- The retries that stand due from other sources. -/
def otherRetries (src : Fin 8) (i : InSt) : List (Fin 8 × W32) := i.retry.filter fun e => e.1 != src

/-- R192: a passed test. -/
theorem pulsePassed_keepBefore (i : InSt) (src : Fin 8) (regular : Bool) (j : InSt) (hj : j = pulsePassed i.keepBefore src regular) :
    j.anomaly = i.anomaly ∧ j.retry = otherRetries src i ∧ (regular = true → j.pulseT = true ∧ j.sincePulse = 0) ∧
    (regular = false → j.pulseT = i.pulseT ∧ j.sincePulse = if i.pulseT then 0 else i.sincePulse) := by
  subst hj
  cases regular with
  | true => exact ⟨rfl, rfl, fun _ => ⟨rfl, rfl⟩, fun h => absurd h (by decide)⟩
  | false => exact ⟨rfl, rfl, fun h => absurd h (by decide), fun _ => ⟨rfl, rfl⟩⟩

/-- R192: a failed test asks for a retry, and a failed retry clears T. -/
theorem pulseFailed_keepBefore (s : State) (i : InSt) (src : Fin 8) (code : Byte) (j : InSt) (hj : j = pulseFailed s i.keepBefore src code) :
    j.anomaly = firstAnomaly i.anomaly code ∧
    (retryDue s src i = true → j.pulseT = false ∧ j.retry = otherRetries src i) ∧
    (retryDue s src i = false → j.pulseT = i.pulseT ∧ j.retry = otherRetries src i ++ [(src, s.core.frameNo)]) := by
  subst hj
  have hdue : retryDue s src i.keepBefore = retryDue s src i := rfl
  unfold pulseFailed
  rw [hdue]
  cases retryDue s src i with
  | true => exact ⟨rfl, fun _ => ⟨rfl, rfl⟩, fun h => absurd h (by decide)⟩
  | false => exact ⟨rfl, fun h => absurd h (by decide), fun _ => ⟨rfl, rfl⟩⟩

section
variable {s : State} {m : List (List Byte)} {x : CrustSt} {src : SrcId} {regular confirmed : Bool} {sample maskEnd : BitVec 24} {n : Nat}
  {i : InSt}

theorem judgeInput_idle (hg : regular = false) (hd : retryDue s src.num i = false) :
    judgeInput s m x src regular confirmed sample maskEnd n i = i := by
  unfold judgeInput
  exact if_pos (by simp [hg, hd])

variable (hg : regular = true ∨ retryDue s src.num i = true)
include hg

theorem judgeInput_own (ho : sourceOfInput m src.crust n = src.num.val) :
    judgeInput s m x src regular confirmed sample maskEnd n i =
      match pulseResult (sample.getLsbD n) confirmed i.deb with
      | some true => pulsePassed i.keepBefore src.num regular
      | some false => pulseFailed s i.keepBefore src.num anMissedPulse
      | none => i := by
  unfold judgeInput
  refine (if_neg ?_).trans (if_pos ho)
  rcases hg with h | h <;> simp [h]

theorem judgeInput_foreign (ho : sourceOfInput m src.crust n ≠ src.num.val) :
    judgeInput s m x src regular confirmed sample maskEnd n i =
      if (srcOf x (sourceOfInput m src.crust n)).pulsed then
        (if retryDue s src.num i then i.keepBefore.dropRetry src.num else i)
      else if foreignPulse i (sample.getLsbD n) (maskEnd.getLsbD n) then pulseFailed s i.keepBefore src.num anForeignPulse
      else if retryDue s src.num i then i.keepBefore.dropRetry src.num
      else i := by
  unfold judgeInput
  refine (if_neg ?_).trans (if_neg ho)
  rcases hg with h | h <;> simp [h]

end

/-! ## SRC_OVERCURRENT -/

theorem execSrcOvercurrent_eq (src : SrcId) (s : State) : execSrcOvercurrent src s = .next
    (if sourceRuns s src && (srcOf (s.crust.at src.crust) src.num.val).active &&
        (srcOf (s.crust.at src.crust) src.num.val).pulseAt.isNone then
      onCrust s src.crust (modSrc (s.crust.at src.crust) src.num.val fun z => { z with anomaly := firstAnomaly z.anomaly 0x10#8 })
    else s) := rfl

end Sys2Proof.Machine
end

section
/-! Sources pulse in their slot, and the samples set T (O28). -/

namespace Sys2Proof.Machine

open Sys2Proof.Claims

/-- TEST_PULSE and RETRY_PULSE where a pulse is due. -/
theorem runs_startPulse {src : SrcId} {s : State} {c : Instr} (hr : sourceRuns s src = true)
    (hp : (srcOf (s.crust.at src.crust) src.num.val).pulsed = false)
    (h : (c = .testPulse src ∧ slotOf s = sourceSlot src) ∨ (c = .retryPulse src ∧
      ∃ n ∈ testedInputs (crustMap s src.crust) src.crust, retryDue s src.num (inOf (s.crust.at src.crust) n) = true)) :
    Runs c s (startPulse s src) := by
  rcases h with ⟨rfl, h⟩ | ⟨rfl, h⟩
  · exact execTestPulse_due hr hp h
  · exact execRetryPulse_due hr hp h

section
variable {s : State} {m : List (List Byte)} {x : CrustSt} {src : SrcId} {regular : Bool} {sample maskEnd : BitVec 24} {mv n : Nat}
  {i j : InSt} (hj : j = judgeInput s m x src regular (decide (mv < 5500)) sample maskEnd n i)
  (hg : regular = true ∨ retryDue s src.num i = true)
include hj hg

/-- R190, R192: the judgement of an input at its own source's sample point. -/
theorem ownSample (ho : sourceOfInput m src.crust n = src.num.val) :
    ((sample.getLsbD n = false ∧ i.deb = true) ∨ (sample.getLsbD n = false ∧ mv < 5500) →
      j.anomaly = i.anomaly ∧ j.retry = otherRetries src.num i ∧ (regular = true → j.pulseT = true ∧ j.sincePulse = 0) ∧
      (regular = false → j.pulseT = i.pulseT ∧ j.sincePulse = if i.pulseT then 0 else i.sincePulse)) ∧
    (sample.getLsbD n = true → mv < 5500 → j.anomaly = firstAnomaly i.anomaly 0x03#8 ∧
      (retryDue s src.num i = true → j.pulseT = false ∧ j.retry = otherRetries src.num i) ∧
      (retryDue s src.num i = false → j.pulseT = i.pulseT ∧ j.retry = otherRetries src.num i ++ [(src.num, s.core.frameNo)])) ∧
    (¬ (sample.getLsbD n = false ∧ i.deb = true) → 5500 ≤ mv → j = i) := by
  rw [judgeInput_own hg ho] at hj
  refine ⟨fun h => ?_, fun hs hv => ?_, fun h hv => ?_⟩
  · have hpass : pulseResult (sample.getLsbD n) (decide (mv < 5500)) i.deb = some true := by
      unfold pulseResult
      rcases h with ⟨hs, hd⟩ | ⟨hs, hv⟩ <;> simp [*]
    rw [hpass] at hj
    exact pulsePassed_keepBefore i src.num regular j hj
  · have hfail : pulseResult (sample.getLsbD n) (decide (mv < 5500)) i.deb = some false := by
      simp [pulseResult, hs, hv]
    rw [hfail] at hj
    exact pulseFailed_keepBefore s i src.num anMissedPulse j hj
  · have hnone : pulseResult (sample.getLsbD n) (decide (mv < 5500)) i.deb = none := by
      unfold pulseResult
      rw [if_neg (by simpa using h), if_pos (by simpa using hv)]
    rw [hnone] at hj
    exact hj

/-- R190: the judgement of an input at the sample point of another source. -/
theorem foreignSample (ho : sourceOfInput m src.crust n ≠ src.num.val) :
    ((srcOf x (sourceOfInput m src.crust n)).pulsed = true → j.pulseT = i.pulseT ∧ j.anomaly = i.anomaly) ∧
    ((srcOf x (sourceOfInput m src.crust n)).pulsed = false →
      (i.rawAtPulse = true → sample.getLsbD n = false → maskEnd.getLsbD n = true → j.anomaly = firstAnomaly i.anomaly 0x04#8 ∧
        (retryDue s src.num i = true → j.pulseT = false ∧ j.retry = otherRetries src.num i) ∧
        (retryDue s src.num i = false → j.pulseT = i.pulseT ∧ j.retry = otherRetries src.num i ++ [(src.num, s.core.frameNo)])) ∧
      (i.rawAtPulse = false ∨ sample.getLsbD n = true ∨ maskEnd.getLsbD n = false → j.pulseT = i.pulseT ∧ j.anomaly = i.anomaly ∧
        j.retry = if retryDue s src.num i then otherRetries src.num i else i.retry)) := by
  rw [judgeInput_foreign hg ho] at hj
  have hdrop : ∀ k, k = (if retryDue s src.num i then i.keepBefore.dropRetry src.num else i) →
      k.pulseT = i.pulseT ∧ k.anomaly = i.anomaly ∧ k.retry = if retryDue s src.num i then otherRetries src.num i else i.retry := by
    rintro _ rfl
    cases retryDue s src.num i <;> exact ⟨rfl, rfl, rfl⟩
  refine ⟨fun hp => ?_, fun hp => ?_⟩
  · rw [if_pos hp] at hj
    obtain ⟨hT, ha, -⟩ := hdrop j hj
    exact ⟨hT, ha⟩
  · rw [if_neg (by simp [hp])] at hj
    refine ⟨fun h1 h2 h3 => ?_, fun h => ?_⟩
    · rw [if_pos (by simp [foreignPulse, h1, h2, h3])] at hj
      exact pulseFailed_keepBefore s i src.num anForeignPulse j hj
    · rw [if_neg (by rcases h with h | h | h <;> simp [foreignPulse, h])] at hj
      exact hdrop j hj

end

/-- Settles O28: a pulse that starts marks the Tested inputs of its crust, and its sample judges each of them by its own source. -/
theorem pulseTestsSetT : Obligations.PulseTestsSetT := by
  refine ⟨?_, ?_⟩
  · rintro src s x m now rfl rfl rfl
    refine ⟨fun hr hp c hc => ⟨pulsingCrust s src, runs_startPulse hr hp hc, pulsingCrust_frame s src, ?_, fun k hk => ?_, fun n hn => ?_,
      fun n hn => ?_⟩, execTestPulse_idle, execRetryPulse_idle⟩
    · rw [srcOf_pulsingCrust, if_pos rfl]
      rfl
    · rw [srcOf_pulsingCrust, if_neg hk]
    · rw [inOf_pulsingCrust, if_pos hn]
      rfl
    · rw [inOf_pulsingCrust, if_neg hn]
  · rintro src sample maskEnd mv s x m rfl rfl
    refine ⟨?_, fun h => execPulseTestSample_none h sample maskEnd mv, fun hr ha hn => ?_, fun h => ?_⟩
    · rintro p regular hp rfl
      refine ⟨sampledCrust s src sample maskEnd mv, execPulseTestSample_some hp sample maskEnd mv, sampledCrust_frame s src sample maskEnd mv,
        fun k hk => ?_, fun n hn => ?_, fun hb => ⟨?_, fun n hn => ?_⟩, fun hb => ?_, fun hb n hn => ?_⟩
      · rw [srcOf_sampledCrust, if_neg hk]
      · rw [inOf_sampledCrust, if_neg hn]
      · rw [srcOf_sampledCrust, if_pos rfl, sourceSampled, if_pos hb]
      · rw [inOf_sampledCrust, if_pos hn, inputSampled, if_pos hb]
      · rw [srcOf_sampledCrust, if_pos rfl, sourceSampled, hb]
        rfl
      · rintro _ _ _ rfl rfl rfl
        have hj : inOf (sampledCrust s src sample maskEnd mv) n = judgeInput s (crustMap s src.crust) (s.crust.at src.crust) src
            (slotOf s == sourceSlot src) (decide (mv < 5500)) sample maskEnd n (inOf (s.crust.at src.crust) n) := by
          rw [inOf_sampledCrust, if_pos hn, inputSampled, hb, if_neg Bool.false_ne_true]
        exact ⟨fun hg hd => hj.trans (judgeInput_idle hg hd), ownSample hj, foreignSample hj⟩
    · exact (execSrcOvercurrent_eq src s).trans (congrArg _ (if_pos (by simp [hr, ha, hn])))
    · refine (execSrcOvercurrent_eq src s).trans (congrArg _ (if_neg ?_))
      rcases h with h | h | h
      · obtain ⟨p, hp⟩ := Option.isSome_iff_exists.1 h
        simp [hp]
      · simp [h]
      · simp [h]

end Sys2Proof.Machine
end

section
/-! SUPPORT. Debounce (R187, R188, R194, R198): what the acceptance of a level makes of its input, what of the state it reads, and how a
raw change is timed. -/

namespace Sys2Proof.Machine

open Sys2Proof.Claims

/-! ## The accepted level -/

/-- R187, R194: an input whose level is accepted, but for what its reference pairs report. -/
def levelAccepted (e : List Byte) (from_ now : Stamp) (i : InSt) : InSt :=
  let j := { i with deb := i.raw, pend := none, pendStamp := none, riseHeld := none,
                    ossdMark := if i.raw then some now else i.ossdMark, ossdLate := if i.raw then false else i.ossdLate }
  if inputStamped e then j.queueStamp (i.pendStamp.getD from_) i.raw else j

theorem levelAccepted_unstamped {e : List Byte} (h : inputStamped e = false) (from_ now : Stamp) (i : InSt) :
    levelAccepted e from_ now i = { i with
      deb := i.raw, pend := none, pendStamp := none, riseHeld := none
      ossdMark := if i.raw then some now else i.ossdMark, ossdLate := if i.raw then false else i.ossdLate } := if_neg (by simp [h])

theorem levelAccepted_level (e : List Byte) (from_ now : Stamp) (i : InSt) : (levelAccepted e from_ now i).deb = i.raw ∧
    (levelAccepted e from_ now i).raw = i.raw ∧ (levelAccepted e from_ now i).pend = none := by
  unfold levelAccepted InSt.queueStamp
  dsimp only
  (repeat' split) <;> exact ⟨rfl, rfl, rfl⟩

theorem levelAccepted_queued {e : List Byte} (h : inputStamped e = true) {i : InSt} (hl : i.stamps.length < 16) (from_ now : Stamp) :
    (levelAccepted e from_ now i).stamps = i.stamps ++ [{ at_ := stampGrid (i.pendStamp.getD from_), level := i.raw }] := by
  unfold levelAccepted InSt.queueStamp
  dsimp only
  rw [if_pos h, if_pos hl]

theorem levelAccepted_overflow {e : List Byte} (h : inputStamped e = true) {i : InSt} (hl : 16 ≤ i.stamps.length) (from_ now : Stamp) :
    (levelAccepted e from_ now i).stamps = i.stamps ∧ (levelAccepted e from_ now i).overflow = i.overflow + 1 := by
  unfold levelAccepted InSt.queueStamp
  dsimp only
  rw [if_pos h, if_neg (Nat.not_lt.2 hl)]
  exact ⟨rfl, rfl⟩

/-- An input as it was but for the anomaly that it reports. -/
def SameButAnomaly (i j : InSt) : Prop := j = { i with anomaly := j.anomaly }

theorem SameButAnomaly.trans {i j k : InSt} (h : SameButAnomaly i j) (g : SameButAnomaly j k) : SameButAnomaly i k := by
  unfold SameButAnomaly at *
  rw [g, h]

theorem sameButAnomaly_modCrust (s : State) (c : Side) (n : Nat) {f : CrustSt → CrustSt}
    (hf : ∀ x, SameButAnomaly (inOf x n) (inOf (f x) n)) :
    SameButAnomaly (inOf (s.crust.at c) n) (inOf ((modCrust s c f).crust.at c) n) := by
  rw [crust_modCrust, if_pos rfl]
  exact hf _

theorem inOf_referenceEdge (s : State) (c : Side) (p : Nat) (rising : Bool) (n : Nat) :
    SameButAnomaly (inOf (s.crust.at c) n) (inOf ((referenceEdge s c p rising).crust.at c) n) := by
  have hquad : ∀ (g : QuadSt → QuadSt) (x : CrustSt), SameButAnomaly (inOf x n) (inOf (modQuad x p g) n) := fun _ _ => rfl
  unfold referenceEdge
  dsimp only
  split
  · split
    · exact pred_ite (P := fun t => SameButAnomaly (inOf (s.crust.at c) n) (inOf (t.crust.at c) n)) _
        (sameButAnomaly_modCrust s c n (hquad _)) rfl
    · refine pred_ite (P := fun t => SameButAnomaly (inOf (s.crust.at c) n) (inOf (t.crust.at c) n)) _
        (sameButAnomaly_modCrust s c n fun x => ?_) rfl
      split
      · rw [inOf_modIn]
        split
        · next h => subst h; exact rfl
        · exact rfl
      · exact hquad _ x
  · exact rfl

theorem inOf_referenceEdges (c : Side) (rising : Bool) (n : Nat) (ps : List Nat) (s : State) :
    SameButAnomaly (inOf (s.crust.at c) n) (inOf ((ps.foldl (fun s p => referenceEdge s c p rising) s).crust.at c) n) := by
  induction ps generalizing s with
  | nil => exact rfl
  | cons p ps ih => exact (inOf_referenceEdge s c p rising n).trans (ih _)

/-- The state with the level of an input accepted, before its reference pairs follow. -/
def levelTaken (s : State) (c : Side) (n : Nat) (e : List Byte) (from_ now : Stamp) : State :=
  modCrust s c fun x => modIn x n (levelAccepted e from_ now)

theorem acceptLevel_eq (s : State) (c : Side) (n : Nat) (e : List Byte) (from_ now : Stamp) : acceptLevel s c n e from_ now =
    (refPairs (crustMap s c) c n).foldl (fun t p => referenceEdge t c p (inOf (s.crust.at c) n).raw) (levelTaken s c n e from_ now) := rfl

theorem inOf_acceptLevel (s : State) (c : Side) (n : Nat) (e : List Byte) (from_ now : Stamp) :
    SameButAnomaly (levelAccepted e from_ now (inOf (s.crust.at c) n)) (inOf ((acceptLevel s c n e from_ now).crust.at c) n) := by
  rw [acceptLevel_eq]
  have h := inOf_referenceEdges c (inOf (s.crust.at c) n).raw n (refPairs (crustMap s c) c n) (levelTaken s c n e from_ now)
  rwa [levelTaken, crust_modCrust, if_pos rfl, inOf_modIn, if_pos rfl] at h

theorem acceptLevel_unpaired {s : State} {c : Side} {n : Nat} (h : refPairs (crustMap s c) c n = []) (e : List Byte) (from_ now : Stamp) :
    acceptLevel s c n e from_ now = onCrust s c (modIn (s.crust.at c) n (levelAccepted e from_ now)) := by
  rw [acceptLevel_eq, h]
  rfl

/-! ## The offset from the tick -/

theorem referenceEdge_setOff (s : State) (o : BitVec 20) (c : Side) (p : Nat) (rising : Bool) :
    referenceEdge (setOff s o) c p rising = setOff (referenceEdge s c p rising) o := by
  have hm : crustMap (setOff s o) c = crustMap s c := rfl
  unfold referenceEdge
  dsimp only [setOff_crust, setOff_mbx, setOff_lane]
  rw [hm]
  (repeat' split) <;> rfl

theorem acceptLevel_setOff (s : State) (o : BitVec 20) (c : Side) (n : Nat) (e : List Byte) (from_ now : Stamp) :
    acceptLevel (setOff s o) c n e from_ now = setOff (acceptLevel s c n e from_ now) o := by
  have hall : ∀ (b : Bool) (ps : List Nat) (t : State), ps.foldl (fun s p => referenceEdge s c p b) (setOff t o) =
      setOff (ps.foldl (fun s p => referenceEdge s c p b) t) o := fun b ps => by
    induction ps with
    | nil => exact fun _ => rfl
    | cons p ps ih => exact fun t => by rw [List.foldl_cons, referenceEdge_setOff, ih, List.foldl_cons]
  exact hall _ _ (levelTaken s c n e from_ now)

/-! ## What settles by a moment -/

theorem settleInput_idle {s : State} {c : Side} {n : Nat}
    (h : (inOf (s.crust.at c) n).pend = none ∨ inputEntry (crustMap s c) (chanIn c n) = none) (now : Stamp) :
    settleInput now c s n = s := by
  unfold settleInput
  dsimp only
  split
  · next hp he =>
    rcases h with h | h
    · exact nomatch h.symm.trans hp
    · exact nomatch h.symm.trans he
  · rfl

theorem settleInput_some {s : State} {c : Side} {n : Nat} {p : Stamp} {e : List Byte} (hp : (inOf (s.crust.at c) n).pend = some p)
    (he : inputEntry (crustMap s c) (chanIn c n) = some e) (now : Stamp) : settleInput now c s n =
    if isLevelMode (inputMode e) && (inOf (s.crust.at c) n).raw != (inOf (s.crust.at c) n).deb &&
        decide ((inputDebounce e : Int) ≤ unitsBetween s p now) then
      acceptLevel s c n e p (stampAfter s p (inputDebounce e))
    else s := by
  unfold settleInput
  dsimp only
  rw [hp, he]

theorem settleInput_setOff (now : Stamp) (s : State) (o : BitVec 20) (c : Side) (n : Nat) :
    settleInput now c (setOff s o) n = setOff (settleInput now c s n) o := by
  cases hp : (inOf (s.crust.at c) n).pend with
  | none => rw [settleInput_idle (.inl hp), settleInput_idle (s := setOff s o) (.inl hp)]
  | some p =>
    cases he : inputEntry (crustMap s c) (chanIn c n) with
    | none => rw [settleInput_idle (.inr he), settleInput_idle (s := setOff s o) (.inr he)]
    | some e =>
      rw [settleInput_some hp he, settleInput_some (s := setOff s o) hp he, acceptLevel_setOff, apply_ite (setOff · o)]
      rfl

theorem Two.set_at {α : Type} (p q : Two α) (c : Side) (h : ∀ k, k ≠ c → q.at k = p.at k) : q = p.set c (q.at c) := by
  cases c
  · have hb : q.b = p.b := h .b (by decide)
    cases q
    exact congrArg _ hb
  · have ha : q.a = p.a := h .a (by decide)
    cases q
    exact congrArg (Two.mk · _) ha

theorem Settles.eq_onCrust {c : Side} {s t : State} (h : Settles c s t) :
    t = { onCrust s c (t.crust.at c) with mbx := { s.mbx with learn := t.mbx.learn } } := by
  have hc := Two.set_at s.crust t.crust c h.other
  unfold onCrust
  rw [← hc]
  exact h.eq

/-! ## Captures -/

theorem nodup_refPairs (m : List (List Byte)) (c : Side) (n : Nat) : (refPairs m c n).Nodup :=
  List.Nodup.filter _ (by decide)

theorem foldl_modQuad (ns : List Nat) (f : QuadSt → QuadSt) (x : CrustSt) : ns.foldl (fun y k => modQuad y k f) x =
    { x with quads := ns.foldl (fun t k => tabMod QuadSt.init t k f) x.quads } := by
  induction ns generalizing x with
  | nil => rfl
  | cons n r ih => exact ih (modQuad x n f)

theorem captureRefs_frame (m : List (List Byte)) (c : Side) (n : Nat) (now : Stamp) (x : CrustSt) :
    captureRefs m c n now x = { x with quads := (captureRefs m c n now x).quads } := by
  unfold captureRefs
  rw [foldl_modQuad]

theorem quadOf_captureRefs (m : List (List Byte)) (c : Side) (n : Nat) (now : Stamp) (x : CrustSt) (p : Nat) :
    quadOf (captureRefs m c n now x) p = if p ∈ refPairs m c n then captureRef now (quadOf x p) else quadOf x p := by
  unfold captureRefs
  rw [foldl_modQuad]
  exact tabGet_foldl_mod QuadSt.init (captureRef now) (nodup_refPairs m c n) x.quads p

/-! ## A raw change -/

/-- The raw level of an input without a debounce of its own. -/
def rawTaken (level : Bool) (now : Stamp) (i : InSt) : InSt :=
  { i with raw := level, fellAt := if level then i.fellAt else some now }

/-- R198: the counts captured where a raw edge begins a change. -/
def captured (s : State) (c : Side) (n : Nat) (e : List Byte) (level : Bool) (now : Stamp) (x : CrustSt) : CrustSt :=
  if beginsChange s e (inOf (s.crust.at c) n) level now then captureRefs (crustMap s c) c n now x else x

section
variable {s : State} {c : Side} {n : Nat} {level : Bool} {now : Stamp}

theorem rawChange_idle (h : (inOf (s.crust.at c) n).raw = level ∨ (s.crust.at c).logicPower = false) : rawChange s c n level now = s := by
  unfold rawChange
  refine if_pos ?_
  rcases h with h | h <;> simp [h]

variable (hr : (inOf (s.crust.at c) n).raw ≠ level) (hl : (s.crust.at c).logicPower = true)
include hr hl

theorem rawChange_plain (hm : ∀ e, inputEntry (crustMap s c) (chanIn c n) = some e → isLevelMode (inputMode e) = false) :
    rawChange s c n level now = onCrust s c (modIn (s.crust.at c) n (rawTaken level now)) := by
  unfold rawChange
  dsimp only
  rw [if_neg (by simp [hr, hl])]
  cases he : inputEntry (crustMap s c) (chanIn c n) with
  | none => rfl
  | some e =>
    dsimp only
    rw [hm e he]
    rfl

variable {e : List Byte} (he : inputEntry (crustMap s c) (chanIn c n) = some e) (hm : isLevelMode (inputMode e) = true)
include he hm

theorem rawChange_timed (hd : inputDebounce e ≠ 0) : rawChange s c n level now =
    onCrust s c (captured s c n e level now (modIn (s.crust.at c) n (timeChange s e level now))) := by
  unfold rawChange
  dsimp only
  rw [if_neg (by simp [hr, hl]), he]
  dsimp only
  rw [hm, if_neg hd]
  rfl

theorem rawChange_atOnce (hd : inputDebounce e = 0) : rawChange s c n level now =
    acceptLevel (onCrust s c (captured s c n e level now (modIn (s.crust.at c) n (rawTaken level now)))) c n e now now := by
  unfold rawChange
  dsimp only
  rw [if_neg (by simp [hr, hl]), he]
  dsimp only
  rw [hm, if_pos hd]
  rfl

end

theorem execRawInputChange_eq (ch : InChan) (level : Bool) (o : BitVec 20) (s : State) : execRawInputChange ch level o s =
    .next (rawChange (settleInput (stampAt s o) ch.crust (atOff s o) ch.num.val) ch.crust ch.num.val level (stampAt s o)) := rfl

/-! ## DEBOUNCE_EXPIRY and OSSD_PULSE_TIMEOUT -/

section
variable {ch : InChan} {o : BitVec 20} {s v : State} (hv : v = settleInput (stampAt s o) ch.crust s ch.num.val)
include hv

theorem execDebounceExpiry_idle (h : (inOf (v.crust.at ch.crust) ch.num.val).pend = none) : execDebounceExpiry ch o s = .next v := by
  unfold execDebounceExpiry
  dsimp only
  rw [← hv, h]

theorem execDebounceExpiry_some {p : Stamp} {e : List Byte} (hp : (inOf (v.crust.at ch.crust) ch.num.val).pend = some p)
    (he : inputEntry (crustMap v ch.crust) (chanIn ch.crust ch.num.val) = some e) : execDebounceExpiry ch o s =
    if isLevelMode (inputMode e) && (inOf (v.crust.at ch.crust) ch.num.val).raw != (inOf (v.crust.at ch.crust) ch.num.val).deb &&
        heldLongEnough v e p (stampAt s o) then
      .next (acceptLevel (atOff v o) ch.crust ch.num.val e p (stampAt s o))
    else .next v := by
  have hstamp : stampAt v o = stampAt s o := by
    rw [hv, (settles_settleInput (stampAt s o) ch.crust s ch.num.val).eq]
    rfl
  unfold execDebounceExpiry
  dsimp only
  rw [← hv, hp, he, hstamp]
  rfl

end

theorem execOssdPulseTimeout_some {ch : InChan} {o : BitVec 20} {s : State} {mk : Stamp} {e : List Byte}
    (hm : (inOf (s.crust.at ch.crust) ch.num.val).ossdMark = some mk)
    (he : inputEntry (crustMap s ch.crust) (chanIn ch.crust ch.num.val) = some e) : execOssdPulseTimeout ch o s =
    if inputMode e = 3#8 ∧ inputOssdp e ≠ 0 ∧ (inOf (s.crust.at ch.crust) ch.num.val).deb = true ∧
        (inputOssdp e * 100000 : Int) ≤ unitsBetween s mk (stampAt s o) then
      .next (atOff (onCrust s ch.crust (modIn (s.crust.at ch.crust) ch.num.val fun i => { i with ossdLate := true })) o)
    else .next s := by
  unfold execOssdPulseTimeout
  dsimp only
  rw [hm, he]
  rfl

end Sys2Proof.Machine
end

section
/-! Raw changes are debounced, stamped and captured (O27). -/

namespace Sys2Proof.Machine

open Sys2Proof.Claims

/-! ## An accepted level -/

section
variable {s : State} {c : Side} {n : Nat} {e : List Byte} {p now : Stamp} {i j : InSt}

/-- What an accepted level leaves of the input, whatever its pairs report. -/
theorem accepted_level (h : SameButAnomaly (levelAccepted e p now i) j) :
    j.deb = i.raw ∧ j.raw = i.raw ∧ j.pend = none := by
  obtain ⟨hd, hr, hp⟩ := levelAccepted_level e p now i
  rw [h]
  exact ⟨hd, hr, hp⟩

theorem accepted_queued (h : SameButAnomaly (levelAccepted e p now i) j) (hs : inputStamped e = true) (hl : i.stamps.length < 16) :
    j.stamps = i.stamps ++ [{ at_ := stampGrid (i.pendStamp.getD p), level := i.raw }] := by
  rw [h]
  exact levelAccepted_queued hs hl p now

theorem accepted_overflow (h : SameButAnomaly (levelAccepted e p now i) j) (hs : inputStamped e = true) (hl : 16 ≤ i.stamps.length) :
    j.stamps = i.stamps ∧ j.overflow = i.overflow + 1 := by
  rw [h]
  exact levelAccepted_overflow hs hl p now

theorem settleInput_waits (hp : (inOf (s.crust.at c) n).pend = some p) (he : inputEntry (crustMap s c) (chanIn c n) = some e)
    (h : isLevelMode (inputMode e) = false ∨ (inOf (s.crust.at c) n).raw = (inOf (s.crust.at c) n).deb ∨
      unitsBetween s p now < (inputDebounce e : Int)) : settleInput now c s n = s := by
  rw [settleInput_some hp he]
  refine if_neg ?_
  rcases h with h | h | h <;> simp [h]

theorem settleInput_accepts (hp : (inOf (s.crust.at c) n).pend = some p) (he : inputEntry (crustMap s c) (chanIn c n) = some e)
    (hm : isLevelMode (inputMode e) = true) (hr : (inOf (s.crust.at c) n).raw ≠ (inOf (s.crust.at c) n).deb)
    (hd : (inputDebounce e : Int) ≤ unitsBetween s p now) :
    settleInput now c s n = acceptLevel s c n e p (stampAfter s p (inputDebounce e)) := by
  rw [settleInput_some hp he]
  exact if_pos (by simp [hm, hr, hd])

end

/-! ## A timed change -/

section
variable {s : State} {c : Side} {n : Nat} {e : List Byte} {level : Bool} {now : Stamp} {x : CrustSt}

theorem captured_frame : captured s c n e level now x = { x with quads := (captured s c n e level now x).quads } := by
  unfold captured
  split
  · exact captureRefs_frame _ _ _ _ _
  · rfl

theorem inOf_captured (k : Nat) : inOf (captured s c n e level now x) k = inOf x k := by
  rw [captured_frame]
  rfl

theorem quadOf_captured_other {p : Nat} (hp : p ∉ refPairs (crustMap s c) c n) :
    quadOf (captured s c n e level now x) p = quadOf x p := by
  unfold captured
  split
  · rw [quadOf_captureRefs, if_neg hp]
  · rfl

theorem captured_untouched (h : beginsChange s e (inOf (s.crust.at c) n) level now = false) :
    captured s c n e level now x = x := if_neg (by simp [h])

theorem captured_begins (h : beginsChange s e (inOf (s.crust.at c) n) level now = true) {p : Nat} (hp : p ∈ refPairs (crustMap s c) c n) :
    quadOf (captured s c n e level now x) p = captureRef now (quadOf x p) := by
  unfold captured
  rw [if_pos h, quadOf_captureRefs, if_pos hp]

theorem captured_unpaired (h : refPairs (crustMap s c) c n = []) : captured s c n e level now x = x := by
  unfold captured captureRefs
  rw [h]
  exact ite_self x

end

theorem crustMap_onCrust (s : State) {c : Side} {y : CrustSt} (hh : y.handshake = (s.crust.at c).handshake)
    (hl : y.logicPower = (s.crust.at c).logicPower) : crustMap (onCrust s c y) c = crustMap s c := by
  have hy : (onCrust s c y).crust.at c = y := Two.at_set_same _ _ _
  unfold crustMap
  rw [hy, hh, hl]
  rfl

theorem onCrust_onCrust (s : State) (c : Side) (x y : CrustSt) : onCrust (onCrust s c x) c y = onCrust s c y := by
  cases c <;> rfl

/-- A change of an input without DEBOUNCE that is no pair's reference is accepted at once. -/
theorem rawChange_accepted {s : State} {c : Side} {n : Nat} {level : Bool} {now : Stamp} {e : List Byte}
    (hr : (inOf (s.crust.at c) n).raw ≠ level) (hl : (s.crust.at c).logicPower = true)
    (he : inputEntry (crustMap s c) (chanIn c n) = some e) (hm : isLevelMode (inputMode e) = true) (hd : inputDebounce e = 0)
    (hq : refPairs (crustMap s c) c n = []) : rawChange s c n level now =
      onCrust s c (modIn (modIn (s.crust.at c) n (rawTaken level now)) n (levelAccepted e now now)) := by
  have hmap : crustMap (onCrust s c (modIn (s.crust.at c) n (rawTaken level now))) c = crustMap s c := crustMap_onCrust s rfl rfl
  have hat : (onCrust s c (modIn (s.crust.at c) n (rawTaken level now))).crust.at c = modIn (s.crust.at c) n (rawTaken level now) :=
    Two.at_set_same _ _ _
  rw [rawChange_atOnce hr hl he hm hd, captured_unpaired hq, acceptLevel_unpaired (hmap.symm ▸ hq), hat, onCrust_onCrust]

/-- Settles O27: what has been held for DEBOUNCE settles first; then the raw change is taken, timed or accepted, and an expiry accepts
what has been held long enough. -/
theorem inputLevelsAreDebounced : Obligations.InputLevelsAreDebounced := by
  rintro ch o s u v x z i j k now rfl rfl hv rfl rfl hu rfl rfl
  have hraw : ∀ level, execRawInputChange ch level o s = .next (rawChange u ch.crust ch.num.val level (stampAt s o)) := fun level => by
    rw [execRawInputChange_eq, ← hu]
  have huv : u = atOff v o := hu.trans ((settleInput_setOff _ s o _ _).trans (congrArg (setOff · o) hv.symm))
  refine ⟨fun h => ?_, fun p e hp he => ⟨fun h => ?_, fun hm hr hd => ?_⟩, fun level h => ?_, fun level hr hl hm => ?_,
    fun level e hr hl he hm => ⟨fun hd => ?_, fun hd hq => ?_⟩, fun p e hp he => ⟨fun hm hr hh => ⟨?_, fun hq hs => ?_⟩, fun h => ?_⟩,
    fun h => execDebounceExpiry_idle hv h, fun mk e hmk he => ⟨fun hm ho hd ht => ?_, fun h => ?_⟩⟩
  case refine_1 =>
    have hvs := hv.trans (settleInput_idle h _)
    exact ⟨huv.trans (congrArg (atOff · o) hvs), hvs⟩
  case refine_2 =>
    have hvs := hv.trans (settleInput_waits hp he h)
    exact ⟨huv.trans (congrArg (atOff · o) hvs), hvs⟩
  case refine_3 =>
    have hacc := hv.trans (settleInput_accepts hp he hm hr hd)
    have hsame := inOf_acceptLevel s ch.crust ch.num.val e p (stampAfter s p (inputDebounce e))
    rw [← hacc] at hsame
    obtain ⟨hdeb, hlevel, hpend⟩ := accepted_level hsame
    exact ⟨huv, hacc ▸ (settles_acceptLevel _ _ _ _ _ _).eq_onCrust, hdeb, hlevel, hpend, accepted_queued hsame⟩
  case refine_4 => exact (hraw level).trans (congrArg _ (rawChange_idle h))
  case refine_5 =>
    refine ⟨_, (hraw level).trans (congrArg _ (rawChange_plain hr hl hm)), rfl, fun n hn => ?_, ?_⟩
    · rw [inOf_modIn, if_neg hn]
    · rw [inOf_modIn, if_pos rfl]
      rfl
  case refine_6 =>
    refine ⟨_, (hraw level).trans (congrArg _ (rawChange_timed hr hl he hm hd)), ?_, fun n hn => ?_,
      fun p hp => ?_, fun hb => ?_, fun hb p hp => ?_, ?_⟩
    · rw [captured_frame]
      rfl
    · rw [inOf_captured, inOf_modIn, if_neg hn]
    · rw [quadOf_captured_other hp, quadOf_modIn]
    · rw [captured_untouched hb]
      rfl
    · rw [captured_begins hb hp, quadOf_modIn]
      rfl
    · rintro _ _ rfl rfl
      rw [inOf_captured, inOf_modIn, if_pos rfl]
      rfl
  case refine_7 =>
    refine ⟨_, (hraw level).trans (congrArg _ (rawChange_accepted hr hl he hm hd hq)), rfl, fun n hn => ?_, ?_⟩
    · rw [inOf_modIn, if_neg hn, inOf_modIn, if_neg hn]
    · rw [inOf_modIn, if_pos rfl, inOf_modIn, if_pos rfl]
      obtain ⟨hdeb, hlevel, hpend⟩ := levelAccepted_level e (stampAt s o) (stampAt s o)
        (rawTaken level (stampAt s o) (inOf (u.crust.at ch.crust) ch.num.val))
      exact ⟨hlevel, hdeb, hpend⟩
  case refine_8 =>
    have hrun := (execDebounceExpiry_some hv hp he).trans (if_pos (by simp [hm, hr, hh]))
    have hsame := inOf_acceptLevel (atOff v o) ch.crust ch.num.val e p (stampAt s o)
    obtain ⟨hdeb, -, hpend⟩ := accepted_level hsame
    exact ⟨_, hrun, (settles_acceptLevel (atOff v o) _ _ _ _ _).eq_onCrust, hdeb, hpend, accepted_queued hsame, accepted_overflow hsame⟩
  case refine_9 =>
    refine (execDebounceExpiry_some hv hp he).trans ((if_pos (by simp [hm, hr, hh])).trans ?_)
    rw [acceptLevel_unpaired (s := atOff v o) hq]
    exact congrArg (fun f => Host.Outcome.next (atOff (onCrust v ch.crust (modIn (v.crust.at ch.crust) ch.num.val f)) o))
      (funext fun i => levelAccepted_unstamped hs p (stampAt s o) i)
  case refine_10 =>
    refine (execDebounceExpiry_some hv hp he).trans (if_neg ?_)
    rcases h with h | h | h <;> simp [h]
  case refine_11 => exact (execOssdPulseTimeout_some hmk he).trans (if_pos ⟨hm, ho, hd, ht⟩)
  case refine_12 =>
    refine (execOssdPulseTimeout_some hmk he).trans (if_neg ?_)
    rintro ⟨hm, ho, hd, ht⟩
    rcases h with h | h | h | h
    · exact h hm
    · exact ho h
    · simp [h] at hd
    · omega

end Sys2Proof.Machine
end

section
/-! SUPPORT. The learning run of the door positions (R199, R200, R208): what its commands make of a payload, and how a run ends. -/

namespace Sys2Proof.Machine

open Sys2Proof.Claims

/-- A command that starts leaves what its body makes of the payload. -/
theorem runs_body_of_starts {s t : State} {via : Via} {cmd : Byte} {p : List Byte} {c : Instr} {body : QEntry → State}
    (h : Starts s via cmd p) (hc : exec c s = runCmd cmd via s body) (hb : ∀ e, e.payload = p → body e = t) : Runs c s t := by
  obtain ⟨e, hp, -, -, hrun⟩ := runs_of_starts h
  exact hc.trans ((hrun body).trans (congrArg _ (hb e hp)))

/-! ## DOORPOS_LEARN -/

/-- The run that DOORPOS_LEARN begins. -/
def learnRunOf (via : Via) (a b n : Byte) : LearnRun :=
  { via := via, pairA := a.toNat, pairB := b.toNat, cycles := n.toNat, caps := ⟨[], []⟩ }

/-- R199: a run begins and ends the one before it. -/
def learnBegun (s : State) (via : Via) (a b n : Byte) : State :=
  modMbx (setQ (endLearn s stAborted abortSuperseded) via .running) fun m => { m with learn := some (learnRunOf via a b n) }

/-- What DOORPOS_LEARN makes of its payload. -/
def learnAsked (s : State) (via : Via) (a b n : Byte) : State :=
  if !pairCodeA a || (quadOfLoaf s a.toNat).isNone then badParam s via 0
  else if !pairCodeB b || (quadOfLoaf s b.toNat).isNone then badParam s via 1
  else if n.toNat < 2 ∨ 16 < n.toNat then badParam s via 2
  else learnBegun s via a b n

section
variable {s : State} {via : Via} {a b n : Byte}

theorem runs_doorposLearn (h : Starts s via 0x72#8 [a, b, n]) : Runs (.doorposLearn via) s (learnAsked s via a b n) :=
  runs_body_of_starts h rfl fun e he => by
    rw [he]
    rfl

theorem learnAsked_badA (h : pairCodeA a = false ∨ quadOfLoaf s a.toNat = none) : learnAsked s via a b n = badParam s via 0 := by
  refine if_pos ?_
  rcases h with h | h <;> simp [h]

variable (ha : pairCodeA a = true) (hqa : (quadOfLoaf s a.toNat).isSome = true)
include ha hqa

theorem learnAsked_badB (h : pairCodeB b = false ∨ quadOfLoaf s b.toNat = none) : learnAsked s via a b n = badParam s via 1 := by
  refine (if_neg (by simp [ha, Option.isNone_eq_false_iff.2 hqa])).trans (if_pos ?_)
  rcases h with h | h <;> simp [h]

variable (hb : pairCodeB b = true) (hqb : (quadOfLoaf s b.toNat).isSome = true)
include hb hqb

theorem learnAsked_badCount (h : n.toNat < 2 ∨ 16 < n.toNat) : learnAsked s via a b n = badParam s via 2 :=
  (if_neg (by simp [ha, Option.isNone_eq_false_iff.2 hqa])).trans ((if_neg (by simp [hb, Option.isNone_eq_false_iff.2 hqb])).trans (if_pos h))

theorem learnAsked_begins (h2 : 2 ≤ n.toNat) (h16 : n.toNat ≤ 16) : learnAsked s via a b n = learnBegun s via a b n :=
  (if_neg (by simp [ha, Option.isNone_eq_false_iff.2 hqa])).trans
    ((if_neg (by simp [hb, Option.isNone_eq_false_iff.2 hqb])).trans (if_neg (by omega)))

end

/-! ## The end of a run -/

/-- The state with no run going on. -/
def unlearning (s : State) : State := modMbx s fun m => { m with learn := none }

theorem endLearn_some {s : State} {r : LearnRun} (h : s.mbx.learn = some r) (st : Byte) (d : Nat) :
    endLearn s st d = replyErr (unlearning s) r.via st d := by
  unfold endLearn
  rw [h]
  rfl

theorem endLearn_none {s : State} (h : s.mbx.learn = none) (st : Byte) (d : Nat) : endLearn s st d = s := by
  unfold endLearn
  rw [h]

theorem st_of_entryOf_setQ {s : State} {via : Via} {st : QState} {e : QEntry} (h : entryOf (setQ s via st) via = some e) : e.st = st := by
  rw [entryOf_setQ] at h
  obtain ⟨e', -, rfl⟩ := Option.map_eq_some_iff.1 h
  rfl

/-- What the end of a run without offsets leaves: no run, the offsets that stood pending, and its answer. -/
structure RunDenied (s t : State) (r : LearnRun) (st : Byte) (d : Nat) : Prop where
  learn : t.mbx.learn = none
  frame : t = { s with mbx := { s.mbx with learn := none, queue := t.mbx.queue } }
  answer : ∀ e, entryOf t r.via = some e → e.st = .replied st (leBytes 4 d)

theorem runDenied_endLearn {s : State} {r : LearnRun} (h : s.mbx.learn = some r) (st : Byte) (d : Nat) :
    RunDenied s (endLearn s st d) r st d := by
  rw [endLearn_some h]
  exact ⟨rfl, rfl, fun _ he => st_of_entryOf_setQ he⟩

theorem RunDenied.learned {s t : State} {r : LearnRun} {st : Byte} {d : Nat} (h : RunDenied s t r st d) :
    t.mbx.learned = s.mbx.learned := by
  rw [h.frame]

/-- The run that has every capture within its spread: both pairs' offsets stand pending. -/
def learnFinished (s : State) (r : LearnRun) : State :=
  let a := (learnedOffset s 0 r.pairA (closings r .a), learnedOffset s 1 r.pairA (openings r .a))
  let b := (learnedOffset s 2 r.pairB (closings r .b), learnedOffset s 3 r.pairB (openings r .b))
  replyOk (modMbx { s with drawn := s.drawn + 1 } fun m =>
      { m with learn := none, learned := tabPut (tabPut m.learned r.pairA a) r.pairB b }) r.via
    (offsetBytes a ++ offsetBytes b ++
      [spreadByte (closings r .a), spreadByte (openings r .a), spreadByte (closings r .b), spreadByte (openings r .b)])

/-- What the end of a run leaves, by its reason. -/
def runEnded (s : State) (r : LearnRun) (why : LearnEnd) : State :=
  if bothInService s then
    match why, missingCycle r, spreadPair s r with
    | .interrupted, _, _ => endLearn s stAborted abortMode
    | .timeout, m, _ => endLearn s stLearnMissing (m.getD r.cycles)
    | .cycles, some i, _ => endLearn s stLearnMissing i
    | .cycles, none, some code => endLearn s stLearnSpread code
    | .cycles, none, none => learnFinished s r
  else endLearn s stAborted abortLane

theorem execLearningRunEnd_none {s : State} (h : s.mbx.learn = none) (why : LearnEnd) : execLearningRunEnd why s = .next s := by
  unfold execLearningRunEnd
  rw [h]

theorem execLearningRunEnd_some {s : State} {r : LearnRun} (h : s.mbx.learn = some r) (why : LearnEnd) :
    execLearningRunEnd why s = .next (runEnded s r why) := by
  unfold execLearningRunEnd runEnded
  rw [h]
  dsimp only
  cases bothInService s with
  | false => rfl
  | true =>
    cases why with
    | interrupted => rfl
    | timeout => rfl
    | cycles =>
      cases missingCycle r with
      | some i => rfl
      | none =>
        unfold finishLearn
        cases spreadPair s r <;> rfl

section
variable {s : State} {r : LearnRun}

theorem runEnded_frame (h : s.mbx.learn = some r) (why : LearnEnd) : (runEnded s r why).mbx.learn = none ∧
    runEnded s r why = { s with
      drawn := (runEnded s r why).drawn
      mbx := { s.mbx with learn := none, learned := (runEnded s r why).mbx.learned, queue := (runEnded s r why).mbx.queue } } := by
  have denied : ∀ st d, (endLearn s st d).mbx.learn = none ∧ endLearn s st d = { s with
      drawn := (endLearn s st d).drawn
      mbx := { s.mbx with learn := none, learned := (endLearn s st d).mbx.learned, queue := (endLearn s st d).mbx.queue } } := fun st d => by
    rw [endLearn_some h]
    exact ⟨rfl, rfl⟩
  unfold runEnded
  split
  · split
    · exact denied _ _
    · exact denied _ _
    · exact denied _ _
    · exact denied _ _
    · exact ⟨rfl, rfl⟩
  · exact denied _ _

theorem runEnded_lane (h : bothInService s = false) (why : LearnEnd) : runEnded s r why = endLearn s stAborted abortLane :=
  if_neg (by simp [h])

theorem runEnded_interrupted : runEnded s r .interrupted = endLearn s stAborted (if bothInService s then 1 else 2) := by
  unfold runEnded
  cases bothInService s <;> rfl

variable (hb : bothInService s = true)
include hb

theorem runEnded_missing {i : Nat} (hm : missingCycle r = some i) {why : LearnEnd} (hw : why ≠ .interrupted) :
    runEnded s r why = endLearn s stLearnMissing i := by
  unfold runEnded
  rw [if_pos hb, hm]
  cases why with
  | interrupted => exact absurd rfl hw
  | timeout => rfl
  | cycles => rfl

theorem runEnded_timeout (hm : missingCycle r = none) : runEnded s r .timeout = endLearn s stLearnMissing r.cycles := by
  unfold runEnded
  rw [if_pos hb, hm]
  rfl

theorem runEnded_spread (hm : missingCycle r = none) {code : Nat} (hs : spreadPair s r = some code) :
    runEnded s r .cycles = endLearn s stLearnSpread code := by
  unfold runEnded
  rw [if_pos hb, hm, hs]

theorem runEnded_learned (hm : missingCycle r = none) (hs : spreadPair s r = none) : runEnded s r .cycles = learnFinished s r := by
  unfold runEnded
  rw [if_pos hb, hm, hs]

end

/-! ## DOORPOS_CONFIRM and DOORPOS_READ -/

/-- What DOORPOS_CONFIRM makes of its payload. -/
def confirmAsked (s : State) (via : Via) (a b : Byte) : State :=
  if !pairCodeA a then badParam s via 0
  else if !pairCodeB b then badParam s via 1
  else match tabFind s.mbx.learned a.toNat, tabFind s.mbx.learned b.toNat with
    | some x, some y => replyOk (confirmOffsets s a.toNat b.toNat x y) via []
    | _, _ => replyErr s via stNotPending 0

/-- What DOORPOS_READ makes of its payload. -/
def readAsked (s : State) (via : Via) (c : Byte) : State :=
  if !pairCodeA c && !pairCodeB c then badParam s via 0
  else replyOk s via (byteOfBits [(tabFind s.mbx.learned c.toNat).isSome, (tabFind (bootOffsets s.nv) c.toNat).isSome] ::
    (offsetBytes ((tabFind (bootOffsets s.nv) c.toNat).getD (0, 0)) ++ offsetBytes ((tabFind s.mbx.learned c.toNat).getD (0, 0))))

theorem runs_doorposConfirm {s : State} {via : Via} {a b : Byte} (h : Starts s via 0x73#8 [a, b]) :
    Runs (.doorposConfirm via) s (confirmAsked s via a b) :=
  runs_body_of_starts h rfl fun e he => by
    rw [he]
    rfl

theorem runs_doorposRead {s : State} {via : Via} {c : Byte} (h : Starts s via 0x74#8 [c]) :
    Runs (.doorposRead via) s (readAsked s via c) :=
  runs_body_of_starts h rfl fun e he => by
    rw [he]
    rfl

theorem pairCodes_ne {a b : Byte} (ha : pairCodeA a = true) (hb : pairCodeB b = true) : a.toNat ≠ b.toNat := by
  intro h
  obtain rfl := BitVec.eq_of_toNat_eq h
  simp only [pairCodeA, pairCodeB, Bool.or_eq_true, beq_iff_eq] at ha hb
  rcases ha with rfl | rfl <;> simp at hb

/-- The state with the offsets confirmed, before the measurement of it. -/
def offsetsStored (s : State) (a b : Nat) (x y : Int × Int) : State :=
  let all := tabPut (tabPut (bootOffsets s.nv) a x) b y
  modMbx { s with nv := { s.nv with calib := all, laneOffsets := ⟨some all, some all⟩ } } fun m =>
    { m with learned := tabDel (tabDel m.learned a) b, confirm := tabPut (tabPut m.confirm a x) b y }

theorem noted_confirmOffsets (s : State) (a b : Nat) (x y : Int × Int) : Noted (offsetsStored s a b x y) (confirmOffsets s a b x y) :=
  noted_measEvent _ _ _ _

end Sys2Proof.Machine
end

section
/-! Door positions are learned, confirmed and answered (O59). -/

namespace Sys2Proof.Machine

open Sys2Proof.Claims

/-- A run that ends without offsets, as the statements ask for it. -/
theorem runs_denied {s : State} {r : LearnRun} (hr : s.mbx.learn = some r) {why : LearnEnd} {st : Byte} {d : Nat}
    (h : runEnded s r why = endLearn s st d) : ∃ t, Runs (.learningRunEnd why) s t ∧ t.mbx.learned = s.mbx.learned ∧
      ∀ e, entryOf t r.via = some e → e.st = .replied st (leBytes 4 d) :=
  ⟨_, (execLearningRunEnd_some hr why).trans (congrArg _ h), (runDenied_endLearn hr st d).learned, (runDenied_endLearn hr st d).answer⟩

/-- A run that ends with offsets answers both pairs' offsets and spreads. -/
theorem runs_learned {s : State} {r : LearnRun} (hr : s.mbx.learn = some r) (h : runEnded s r .cycles = learnFinished s r)
    (hp : r.pairA ≠ r.pairB) : ∃ t, Runs (.learningRunEnd .cycles) s t ∧
      tabFind t.mbx.learned r.pairA =
        some (learnedOffset s 0 r.pairA (closings r .a), learnedOffset s 1 r.pairA (openings r .a)) ∧
      tabFind t.mbx.learned r.pairB =
        some (learnedOffset s 2 r.pairB (closings r .b), learnedOffset s 3 r.pairB (openings r .b)) ∧
      ∀ e, entryOf t r.via = some e → ∃ q, e.st = .replied 0x00#8 q ∧ q.length = 12 := by
  refine ⟨_, (execLearningRunEnd_some hr .cycles).trans (congrArg _ h), ?_, ?_, fun e he => ⟨_, st_of_entryOf_setQ he, rfl⟩⟩
  · refine (tabFind_put _ _ _ _).trans ((if_neg hp).trans ((tabFind_put _ _ _ _).trans (if_pos rfl)))
  · exact (tabFind_put _ _ _ _).trans (if_pos rfl)

section
variable {s : State} {via : Via} {a b n : Byte}

theorem learnBegun_first (hl : s.mbx.learn = none) :
    EntryNow { s with mbx := { s.mbx with learn := some (learnRunOf via a b n) } } (learnBegun s via a b n) via .running := by
  unfold learnBegun
  rw [endLearn_none hl]
  exact entryNow_setQ { s with mbx := { s.mbx with learn := some (learnRunOf via a b n) } } via .running

/-- A run that another takes the place of ends ABORTED. -/
theorem learnBegun_next {r : LearnRun} (hl : s.mbx.learn = some r) (hv : r.via ≠ via) {e : QEntry} (he : entryOf s via = some e) :
    (learnBegun s via a b n).mbx.learn = some (learnRunOf via a b n) ∧
    (entryOf (learnBegun s via a b n) via).map (·.st) = some .running ∧
    (∀ e, entryOf (learnBegun s via a b n) r.via = some e → e.st = .replied 0x0F#8 (leBytes 4 3)) ∧
    learnBegun s via a b n = { s with mbx := { s.mbx with
      learn := (learnBegun s via a b n).mbx.learn, queue := (learnBegun s via a b n).mbx.queue } } := by
  have hentry : ∀ v, entryOf (learnBegun s via a b n) v = entryOf (setQ (endLearn s stAborted abortSuperseded) via .running) v := fun _ => rfl
  rw [hentry, hentry, endLearn_some hl, entryOf_setQ, entryOf_setQ_other _ _ _ _ hv, replyErr, entryOf_setQ_other _ _ _ _ hv.symm]
  refine ⟨rfl, ?_, fun e' he' => st_of_entryOf_setQ he', ?_⟩
  · rw [show entryOf (unlearning s) via = some e from he]
    rfl
  · unfold learnBegun
    rw [endLearn_some hl]
    rfl

theorem confirmAsked_confirms (ha : pairCodeA a = true) (hb : pairCodeB b = true) {x y : Int × Int}
    (hx : tabFind s.mbx.learned a.toNat = some x) (hy : tabFind s.mbx.learned b.toNat = some y) :
    confirmAsked s via a b = replyOk (confirmOffsets s a.toNat b.toNat x y) via [] := by
  unfold confirmAsked
  rw [if_neg (by simp [ha]), if_neg (by simp [hb]), hx, hy]

theorem confirmAsked_notPending (ha : pairCodeA a = true) (hb : pairCodeB b = true)
    (h : tabFind s.mbx.learned a.toNat = none ∨ tabFind s.mbx.learned b.toNat = none) :
    confirmAsked s via a b = replyErr s via stNotPending 0 := by
  unfold confirmAsked
  rw [if_neg (by simp [ha]), if_neg (by simp [hb])]
  split
  · next hx hy => rcases h with h | h <;> simp [h] at hx hy
  · rfl

/-- R200: what the confirmation of two pairs leaves. -/
theorem confirmOffsets_leaves {p q : Nat} (hpq : p ≠ q) (x y : Int × Int) {t : State} (ht : t = confirmOffsets s p q x y) :
    t.nv = { s.nv with calib := tabPut (tabPut (bootOffsets s.nv) p x) q y
                       laneOffsets := ⟨some (tabPut (tabPut (bootOffsets s.nv) p x) q y), some (tabPut (tabPut (bootOffsets s.nv) p x) q y)⟩ } ∧
    tabFind t.mbx.learned p = none ∧ tabFind t.mbx.learned q = none ∧
    tabFind t.mbx.confirm p = some x ∧ tabFind t.mbx.confirm q = some y ∧
    t = { s with nv := t.nv, mbx := t.mbx, meas := t.meas, jrn := t.jrn, stat := t.stat } := by
  have hn := noted_confirmOffsets s p q x y
  rw [← ht] at hn
  have hmbx : t.mbx = (offsetsStored s p q x y).mbx := by rw [hn]
  refine ⟨by rw [hn]; rfl, ?_, ?_, ?_, ?_, by rw [hn]; rfl⟩
  · rw [hmbx]
    exact (tabFind_del _ _ _).trans ((if_neg hpq).trans ((tabFind_del _ _ _).trans (if_pos rfl)))
  · rw [hmbx]
    exact (tabFind_del _ _ _).trans (if_pos rfl)
  · rw [hmbx]
    exact (tabFind_put _ _ _ _).trans ((if_neg hpq).trans ((tabFind_put _ _ _ _).trans (if_pos rfl)))
  · rw [hmbx]
    exact (tabFind_put _ _ _ _).trans (if_pos rfl)

end

/-- Settles O59: each command by its payload, and the end of a run by its reason, its captures and their spread. -/
theorem doorPositionsAreLearned : Obligations.DoorPositionsAreLearned := by
  refine ⟨fun via s a b n => ⟨fun h => ⟨fun hbad => ?_, fun ha hqa hbad => ?_⟩, fun h => ⟨fun ha => ?_, fun ha hb => ?_⟩,
      fun h ha hb => ?_⟩,
    fun via s a b ha hb => ⟨fun n h hqa hqb => ⟨fun hn => ?_, fun h2 h16 hl => ?_, fun h2 h16 r hl hv => ?_⟩,
      execLearningRunEnd_none, fun r hr => ?_, fun h => ⟨?_, fun hnone => ?_⟩, fun c hc h => ?_⟩⟩
  case refine_1 => exact ⟨_, runs_doorposLearn h, learnAsked_badA hbad ▸ denies_replyErr _ _ _ _⟩
  case refine_2 => exact ⟨_, runs_doorposLearn h, learnAsked_badB ha hqa hbad ▸ denies_replyErr _ _ _ _⟩
  case refine_3 =>
    refine ⟨_, runs_doorposConfirm h, ?_⟩
    rw [confirmAsked, if_pos (by simp [ha])]
    exact denies_replyErr _ _ _ _
  case refine_4 =>
    refine ⟨_, runs_doorposConfirm h, ?_⟩
    rw [confirmAsked, if_neg (by simp [ha]), if_pos (by simp [hb])]
    exact denies_replyErr _ _ _ _
  case refine_5 =>
    refine ⟨_, runs_doorposRead h, ?_⟩
    rw [readAsked, if_pos (by simp [ha, hb])]
    exact denies_replyErr _ _ _ _
  case refine_6 => exact ⟨_, runs_doorposLearn h, learnAsked_badCount ha hqa hb hqb hn ▸ denies_replyErr _ _ _ _⟩
  case refine_7 => exact ⟨_, runs_doorposLearn h, learnAsked_begins ha hqa hb hqb h2 h16 ▸ learnBegun_first hl⟩
  case refine_8 =>
    obtain ⟨e, -, he, -, -⟩ := runs_of_starts h
    exact ⟨_, runs_doorposLearn h, learnAsked_begins ha hqa hb hqb h2 h16 ▸ learnBegun_next hl hv he⟩
  case refine_9 =>
    refine ⟨fun why => ⟨_, execLearningRunEnd_some hr why, runEnded_frame hr why⟩, runs_denied hr runEnded_interrupted,
      fun hb why => runs_denied hr (runEnded_lane hb why), fun i hb hm why hw => runs_denied hr (runEnded_missing hb hm hw),
      fun hb hm => runs_denied hr (runEnded_timeout hb hm), fun code hb hm hs => runs_denied hr (runEnded_spread hb hm hs),
      fun hb hm hs hp => runs_learned hr (runEnded_learned hb hm hs) hp⟩
  case refine_10 =>
    rintro x y all hx hy rfl
    obtain ⟨e, -, he, -, -⟩ := runs_of_starts h
    obtain ⟨hnv, hla, hlb, hca, hcb, hframe⟩ := confirmOffsets_leaves (s := s) (pairCodes_ne ha hb) x y rfl
    have hentry : entryOf (confirmOffsets s a.toNat b.toNat x y) via = some e :=
      ((noted_confirmOffsets s a.toNat b.toNat x y).entryOf via).trans he
    refine ⟨_, runs_doorposConfirm h, ?_⟩
    rw [confirmAsked_confirms ha hb hx hy]
    exact ⟨hnv, hla, hlb, hca, hcb, state_replyOk hentry [], by rw [replyOk, setQ_eq, hframe]⟩
  case refine_11 => exact ⟨_, runs_doorposConfirm h, confirmAsked_notPending ha hb hnone ▸ denies_replyErr _ _ _ _⟩
  case refine_12 =>
    refine ⟨_, runs_doorposRead h, ?_⟩
    rw [readAsked, if_neg (by rcases hc with rfl | rfl <;> simp [ha, hb])]
    exact answers_replyOk _ _ _

end Sys2Proof.Machine
end
